-- ==== Sys2Proof/Word.lean ====
section
/-!
DEFINITION. The word types of the KR1 and their plainest arithmetic.
-/

namespace Sys2Proof

/-- A byte (00 R16). -/
abbrev Byte := BitVec 8

/-- A 32-bit word: an s register, a lane, an instruction word (02 Table 2-1, 03 R110). -/
abbrev Word := BitVec 32

/-- A 64-bit register or Stroke count (00 R18, 08 R324). -/
abbrev DWord := BitVec 64

/-- A 128-bit v register (02 Table 2-1). -/
abbrev VWord := BitVec 128

/-- Physical tile number, 96 × row + column (02 R59). -/
abbrev TileIx := Fin 4608

/-- Context number (01 Table 1-1). -/
abbrev CtxIx := Fin 64

/-- Partition number, also the number of its HBM stack (01 Table 1-1). -/
abbrev PartIx := Fin 8

/-- Reach port number (07 R282). -/
abbrev PortIx := Fin 12

/-- Channel of a stack (05 Table 5-1). -/
abbrev ChanIx := Fin 32

end Sys2Proof
end

