-- ==== Sys2Proof/Syntax.lean ====
section
/-!
DEFINITION. The commands of the KR1: one constructor per row of spec/opcode_table.json, and the
plain data their operands are made of. Where a row is an act of an agent outside the device (a host,
a cable, a sensor), its operands are what that agent shows the device.
-/

namespace Sys2Proof

/-- Packet types (07 Table 7-4). -/
inductive PType where
  | read | write | atomAdd | replyData | replyAck | replyFault | easyAll | boot
deriving DecidableEq, Repr

/-- A Reach packet: the header of 07 Table 7-4 and the data bytes after it. For EASY_ALL and BOOT,
`stroke` is what bytes 16 onward hold. -/
structure Packet where
  ptype  : PType
  dest   : BitVec 14
  src    : BitVec 14
  handle : BitVec 32
  rgen   : BitVec 6
  reason : BitVec 8
  jobid  : BitVec 32
  loc    : BitVec 42
  stroke : BitVec 64
  len    : BitVec 16
  value  : BitVec 32
  data   : List Byte
deriving DecidableEq, Repr

/-- What a partner sends in IDENT (07 R290). -/
structure Ident where
  rack  : BitVec 8
  racks : BitVec 9
  x     : BitVec 2
  y     : BitVec 2
  z     : BitVec 2
  port  : PortIx
deriving DecidableEq, Repr

/-- A Stroke marker (08 R327). `echo` is the arrival count of the last marker that its sender
received on the port. -/
structure Marker where
  sent   : BitVec 64
  echo   : Option (BitVec 64)
  master : BitVec 14
  hops   : Nat
  ann    : BitVec 32
deriving DecidableEq, Repr

/-- Free credits of a port as the router sees them in one cycle (07 R299, R300): adaptive, escape 0
and escape 1. -/
structure Credits where
  adaptive : Nat
  esc0     : Nat
  esc1     : Nat
deriving DecidableEq, Repr

/-- The BARs that carry registers (13 R518). -/
inductive Bar where
  | bar0 | bar4
deriving DecidableEq, Repr

/-- The two host windows on HBM (13 R519). -/
inductive HostPath where
  | bar2 | cxlMem
deriving DecidableEq, Repr

/-- How a host read of a descriptor fails (13 R523). -/
inductive DmaFail where
  | unsupported | completerAbort | poisoned | timeout
deriving DecidableEq, Repr

/-- What detaches the host (13 R521). -/
inductive Detach where
  | hotReset | flr | cxlReset | dlDown | pclkLoss
deriving DecidableEq, Repr

/-- A PLL whose lock is lost (11 Table 11-3). -/
inductive ClkSel where
  | tclk (p : PartIx) | hclk (s : PartIx) | mclk | sclk | rclk (port : PortIx) | pclk
deriving DecidableEq, Repr

/-- What an acknowledgement answers: the stream request of a tag, or one Eddy request (02 R65, 03 R139). -/
inductive AckOf where
  | stream (tag : Fin 16)
  | eddy
deriving DecidableEq, Repr

/-- A training failure of a stack (12 Table 12-9, BOOT_HBM_FAIL). -/
structure HbmFail where
  stack   : PartIx
  channel : ChanIx
  reason  : BitVec 2
deriving DecidableEq, Repr

/-- The card's lamps (14 Table 14-5). -/
inductive Lamp where
  | green | amber | blue
deriving DecidableEq, Repr

/-- Management bindings that carry MCTP (13 Table 13-5). -/
inductive Binding where
  | i3c | smbus | pcieVdm
deriving DecidableEq, Repr

/-- What ActivateFirmware asks for (13 R536): the pending image, where the flash takes the record's update or not, or
self-contained activation. -/
inductive Activate where
  | pending (flashOk : Bool)
  | selfContained
deriving DecidableEq, Repr

/-- How a trial went on one tile (10 R405, R602): the tile cycles at which HALT retired, the code of its trap, its SIG and
the library's value for its logical tile, and the corrected errors met. The library is part of the firmware image, so
what its programs do comes with the command (log 28). -/
structure TrialRun where
  tile   : TileIx
  halted : Option Nat
  trap   : Option Nat
  sig    : BitVec 64
  want   : BitVec 64
  ces    : Nat
deriving DecidableEq, Repr

/-- Flex Bus outcome (13 R524). -/
inductive CxlMode where
  | none | cxl20 | cxl31
deriving DecidableEq, Repr

/-- The commands. Tile instructions name the physical tile that issues its next instruction; their
register operands are the fields of the word that the tile fetches (03 Table 3-2). -/
inductive Instr where
  /-- ADD (R117). Scalar add of s[rs1] and s[rs2] into s[rd], wrapping modulo 2^32. -/
  | add (t : TileIx)
  /-- SUB (R117). Scalar subtract of s[rs2] from s[rs1] into s[rd]. -/
  | sub (t : TileIx)
  /-- AND (R117). Bitwise AND of two s registers. -/
  | and (t : TileIx)
  /-- OR (R117). Bitwise OR of two s registers. -/
  | or (t : TileIx)
  /-- XOR (R117). Bitwise XOR of two s registers. -/
  | xor (t : TileIx)
  /-- SLL (R117). Logical left shift of s[rs1] by s[rs2][4:0]. -/
  | sll (t : TileIx)
  /-- SRL (R117). Logical right shift of s[rs1] by s[rs2][4:0]. -/
  | srl (t : TileIx)
  /-- SRA (R117). Arithmetic right shift of s[rs1] by s[rs2][4:0], copying the sign bit. -/
  | sra (t : TileIx)
  /-- MUL (R117). Low 32 bits of the product of two s registers. -/
  | mul (t : TileIx)
  /-- MULH (R117). High 32 bits of the signed 64-bit product. -/
  | mulh (t : TileIx)
  /-- MULHU (R117). High 32 bits of the unsigned 64-bit product. -/
  | mulhu (t : TileIx)
  /-- MIN (R117). Signed minimum of two s registers. -/
  | min (t : TileIx)
  /-- MAX (R117). Signed maximum of two s registers. -/
  | max (t : TileIx)
  /-- MINU (R117). Unsigned minimum of two s registers. -/
  | minu (t : TileIx)
  /-- MAXU (R117). Unsigned maximum of two s registers. -/
  | maxu (t : TileIx)
  /-- CLZ (R117). Count of leading zeros of s[rs1]. -/
  | clz (t : TileIx)
  /-- POPC (R117). Count of set bits of s[rs1]. -/
  | popc (t : TileIx)
  /-- CEQ (R117). Sets p[rd] when two s registers are equal. -/
  | ceq (t : TileIx)
  /-- CNE (R117). Sets p[rd] when two s registers differ. -/
  | cne (t : TileIx)
  /-- CLT (R117). Sets p[rd] on signed less-than. -/
  | clt (t : TileIx)
  /-- CLTU (R117). Sets p[rd] on unsigned less-than. -/
  | cltu (t : TileIx)
  /-- CGE (R117). Sets p[rd] on signed greater-or-equal. -/
  | cge (t : TileIx)
  /-- CGEU (R117). Sets p[rd] on unsigned greater-or-equal. -/
  | cgeu (t : TileIx)
  /-- FLT (R117). FP32 less-than compare into p[rd]; a NaN gives false and sets INV. -/
  | flt (t : TileIx)
  /-- FEQ (R117). FP32 equality compare into p[rd]; only a signalling NaN sets INV. -/
  | feq (t : TileIx)
  /-- PAND (R117). Predicate AND. -/
  | pand (t : TileIx)
  /-- POR (R117). Predicate OR. -/
  | por (t : TileIx)
  /-- PXOR (R117). Predicate XOR. -/
  | pxor (t : TileIx)
  /-- PANDN (R117). Predicate AND-NOT. -/
  | pandn (t : TileIx)
  /-- ADDI (R118). Adds a sign-extended 13-bit immediate to s[rs1]. -/
  | addi (t : TileIx)
  /-- ANDI (R118). ANDs s[rs1] with a zero-extended immediate. -/
  | andi (t : TileIx)
  /-- ORI (R118). ORs s[rs1] with a zero-extended immediate. -/
  | ori (t : TileIx)
  /-- XORI (R118). XORs s[rs1] with a zero-extended immediate. -/
  | xori (t : TileIx)
  /-- SHI (R118). Shifts s[rs1] by an immediate count, logical left, logical right or arithmetic right. -/
  | shi (t : TileIx)
  /-- LUI (R118). Loads imm18 × 2^14 into s[rd]. -/
  | lui (t : TileIx)
  /-- LLO (R118). Replaces bits [13:0] of s[rd] with an immediate. -/
  | llo (t : TileIx)
  /-- LB (R119). Loads a sign-extended byte from data SRAM. -/
  | lb (t : TileIx)
  /-- LBU (R119). Loads a zero-extended byte from data SRAM. -/
  | lbu (t : TileIx)
  /-- LH (R119). Loads a sign-extended halfword from data SRAM. -/
  | lh (t : TileIx)
  /-- LHU (R119). Loads a zero-extended halfword from data SRAM. -/
  | lhu (t : TileIx)
  /-- LW (R119). Loads a 32-bit word from data SRAM. -/
  | lw (t : TileIx)
  /-- VLD8 (R119). Loads 8 bytes into lanes 0-1 of a v register and clears lanes 2-3. -/
  | vld8 (t : TileIx)
  /-- VLD (R119). Loads 16 bytes into a v register. -/
  | vld (t : TileIx)
  /-- SB (R119). Stores a byte, by read-modify-write of its 64-bit word. -/
  | sb (t : TileIx)
  /-- SH (R119). Stores a halfword to data SRAM. -/
  | sh (t : TileIx)
  /-- SW (R119). Stores a word to data SRAM. -/
  | sw (t : TileIx)
  /-- VST8 (R119). Stores lanes 0-1 of a v register. -/
  | vst8 (t : TileIx)
  /-- VST (R119). Stores all 16 bytes of a v register. -/
  | vst (t : TileIx)
  /-- BR (R121). Branches relative when its predicate condition holds. -/
  | br (t : TileIx)
  /-- CALL (R121). Writes the return address to s[rs] and branches when the condition holds. -/
  | call (t : TileIx)
  /-- JR (R121). Jumps to s[rs] when the condition holds. -/
  | jr (t : TileIx)
  /-- LOOP (R121). Decrements s[rs] and branches while it is non-zero. -/
  | loop (t : TileIx)
  /-- VADD (R123). Lane-wise FP32 addition. -/
  | vadd (t : TileIx)
  /-- VSUB (R123). Lane-wise FP32 subtraction. -/
  | vsub (t : TileIx)
  /-- VMUL (R123). Lane-wise FP32 multiplication. -/
  | vmul (t : TileIx)
  /-- VFMA (R123). Lane-wise fused multiply-add into vd with one rounding. -/
  | vfma (t : TileIx)
  /-- VMIN (R123). Lane-wise IEEE minimumNumber. -/
  | vmin (t : TileIx)
  /-- VMAX (R123). Lane-wise IEEE maximumNumber. -/
  | vmax (t : TileIx)
  /-- VDIV (R123). Lane-wise correctly rounded FP32 division on the shared divide unit. -/
  | vdiv (t : TileIx)
  /-- VSQRT (R123). Lane-wise correctly rounded square root. -/
  | vsqrt (t : TileIx)
  /-- VEXP2 (R123). Lane-wise correctly rounded base-2 exponential. -/
  | vexp2 (t : TileIx)
  /-- VLOG2 (R123). Lane-wise correctly rounded base-2 logarithm. -/
  | vlog2 (t : TileIx)
  /-- VABS (R123). Clears the sign bit of each lane. -/
  | vabs (t : TileIx)
  /-- VNEG (R123). Flips the sign bit of each lane. -/
  | vneg (t : TileIx)
  /-- VSUM (R123). Pairwise rounded sum of the four lanes into lane 0. -/
  | vsum (t : TileIx)
  /-- VMAXH (R123). maximumNumber of the four lanes into lane 0. -/
  | vmaxh (t : TileIx)
  /-- VSPLAT (R123). Copies an s register to every lane. -/
  | vsplat (t : TileIx)
  /-- VGET (R123). Copies one lane into an s register. -/
  | vget (t : TileIx)
  /-- VSET (R123). Copies an s register into one lane. -/
  | vset (t : TileIx)
  /-- VCVTIF (R123). Converts INT32 lanes to FP32. -/
  | vcvtif (t : TileIx)
  /-- VCVTFI (R123). Converts FP32 lanes to INT32, ties to even, saturating. -/
  | vcvtfi (t : TileIx)
  /-- VPK8 (R123). Packs FP32 lanes of two registers into FP8 bytes with saturation. -/
  | vpk8 (t : TileIx)
  /-- VUNPK8 (R123). Unpacks four FP8 bytes to exact FP32 lanes. -/
  | vunpk8 (t : TileIx)
  /-- VPKBF (R603). Packs FP32 lanes of two registers into BF16. -/
  | vpkbf (t : TileIx)
  /-- AGET (R123). Copies a row of an a register into a v register after earlier matrix work on it completes. -/
  | aget (t : TileIx)
  /-- APUT (R123). Copies a v register into a row of an a register. -/
  | aput (t : TileIx)
  /-- VMOV (R123). Copies a v register. -/
  | vmov (t : TileIx)
  /-- VUNPKBF (R123). Unpacks four BF16 elements to exact FP32 lanes. -/
  | vunpkbf (t : TileIx)
  /-- MMA (R127). Reads A and B operands and queues a 4x4 block product accumulating into a[ad]. -/
  | mma (t : TileIx)
  /-- MMAZ (R127). Reads operands and queues a 4x4 block product accumulating from zero. -/
  | mmaz (t : TileIx)
  /-- ACLR (R125). Clears every word of a[ad]. -/
  | aclr (t : TileIx)
  /-- MMA_COMPLETE (R128). The 32-cycle computation of an MMA or MMAZ ends, writing a[ad] and freeing its operand buffer. -/
  | mmaComplete (t : TileIx)
  /-- SWALK (R164). Walks a sparse panel against a presence bitmap into a shadow accumulator and writes a[ad] at the end. -/
  | swalk (t : TileIx)
  /-- NZMAP (R130). Builds the 128-bit presence bitmap of 128 elements into v[v]. -/
  | nzmap (t : TileIx)
  /-- ECFG (R133). Sets the Eddy key extent. -/
  | ecfg (t : TileIx)
  /-- EADD (R133). Adds an FP32 value under a key in the Eddy accumulator, spilling a victim if the set is full. -/
  | eadd (t : TileIx)
  /-- EADDV (R133). Performs four EADDs from the lanes of a v register pair in lane order. -/
  | eaddv (t : TileIx)
  /-- ESPILL (R133). Drains every valid Eddy entry to the spillway and invalidates it. -/
  | espill (t : TileIx)
  /-- EMERGE (R134). Drains every valid Eddy entry as FP32 atomic adds into a dense array at a global base. -/
  | emerge (t : TileIx)
  /-- ECOUNT (R133). Returns the number of valid Eddy entries. -/
  | ecount (t : TileIx)
  /-- STREAM (R136). Checks and sends one stream request between data SRAM and a global address under a tag. -/
  | stream (t : TileIx)
  /-- SWAITT (R137). Holds issue until the named stream tags are no longer outstanding. -/
  | swaitt (t : TileIx)
  /-- CR_READ (R138). Reads a tile control register into an s register. -/
  | crRead (t : TileIx)
  /-- CR_WRITE (R138). Writes a tile control register from an s register. -/
  | crWrite (t : TileIx)
  /-- CBAR (R139). Fences, then arrives at the crew barrier. -/
  | cbar (t : TileIx)
  /-- LBAR (R139). Fences, then arrives at the launch barrier on this device. -/
  | lbar (t : TileIx)
  /-- FENCE (R139). Holds issue until every outbound write and Eddy request of the tile is acknowledged. -/
  | fence (t : TileIx)
  /-- BARRIER_COMPLETE (R139). The last participant arrives and the barrier completes at every waiting tile. -/
  | barrierComplete (t : TileIx)
  /-- WAITS (R140). Holds issue until the delivered Stroke count reaches a 64-bit target. -/
  | waits (t : TileIx)
  /-- NOP (R141). Does nothing. -/
  | nop (t : TileIx)
  /-- HALT (R141). Ends the tile's part of the launch and closes any wake window once outstanding requests drain. -/
  | halt (t : TileIx)
  /-- HALT_RETIRE (R65). HALT retires when every outstanding stream request has completed and every write is acknowledged. -/
  | haltRetire (t : TileIx)
  /-- SIG (R141). Folds crc64 of a v register and an s register into SIG. -/
  | sig (t : TileIx)
  /-- WAKE (R141). Opens or closes a wake window. -/
  | wake (t : TileIx)
  /-- RBINIT (R141). Loads the tile's row-block queue with a run of indices. -/
  | rbinit (t : TileIx)
  /-- RBNEXT (R143). Takes the next row-block index from its own queue or steals one from another queue. -/
  | rbnext (t : TileIx)
  /-- TRAP (R141). Raises the USER trap with an 8-bit immediate. -/
  | trap (t : TileIx)
  /-- STREAM_REPLY (R82). A reply or data for a stream request arrives, is written to SRAM and may complete its tag. -/
  | streamReply (t : TileIx) (tag : Fin 16)
  /-- STREAM_TIMEOUT (R85). A stream request with no reply after 2 ms traps. -/
  | streamTimeout (t : TileIx) (tag : Fin 16)
  /-- SYNC_TIMEOUT (R93). A barrier not completed 10 ms after the tile arrived traps. -/
  | syncTimeout (t : TileIx)
  /-- WRITE_ACK (R298). The target stack accepts a write or atomic add and the acknowledgement reaches the tile. -/
  | writeAck (t : TileIx) (what : AckOf)
  /-- SPILL_LINE_SEND (R179). A completed Eddy spill line is sent through port B when it is served. -/
  | spillLineSend (t : TileIx)
  /-- SPILL_LINE_WRITE (R185). A spill line reaches the allocator and takes the next spillway slot or is refused. -/
  | spillLineWrite (i : Nat)
  /-- CODE_IMAGE_ARRIVE (R264). The broadcast code image reaches a tile, which initialises its state, zero-fills and loads code. -/
  | codeImageArrive (t : TileIx)
  /-- TILE_EXEC_BEGIN (R336). A tile issues its first instruction at ENTRY after loading, or at the catch count. -/
  | tileExecBegin (t : TileIx)
  /-- SQ_TAIL (R237). Host writes the submission doorbell of a context. -/
  | sqTail (c : CtxIx) (width : Nat) (v : BitVec 64)
  /-- CQ_HEAD (R237). Host writes the completion doorbell, possibly freeing a full ring. -/
  | cqHead (c : CtxIx) (width : Nat) (v : BitVec 64)
  /-- DESCRIPTOR_FETCH (R238). The command engine reads the descriptor at SQ_HEAD and assigns a launch ID. -/
  | descriptorFetch (c : CtxIx)
  /-- HOST_DMA_FAULT (R523). A descriptor read fails or times out after 50 ms and the context later stops. -/
  | hostDmaFault (c : CtxIx) (kind : DmaFail)
  /-- ADMISSION_CHECK (R257). Cox firmware applies the admission checks to a fetched launch. -/
  | admissionCheck (c : CtxIx)
  /-- SCHEDULER_PASS (R261). The scheduler rechecks list heads and dispatches eligible candidates by deadline and power. -/
  | schedulerPass
  /-- WEIR (R226). Command that issues a Weir descriptor, waiting while too many are in flight. -/
  | weirCmd (c : CtxIx)
  /-- WAITW (R251). Command that waits for every Weir descriptor of the launch. -/
  | waitw (c : CtxIx)
  /-- RUN (R264). Command that reads the code image and starts the tile phase. -/
  | runCmd (c : CtxIx)
  /-- WAITT (R251). Command that waits until every tile has retired HALT. -/
  | waitt (c : CtxIx)
  /-- WRITE (R251). Command that waits for Weir and tiles, then writes a 4-byte value. -/
  | writeCmd (c : CtxIx)
  /-- STAMP (R251). Command that writes the current Stroke count. -/
  | stampCmd (c : CtxIx)
  /-- END (R251). Command that waits for Weir and tiles, then completes the launch. -/
  | endStream (c : CtxIx)
  /-- TIME_LIMIT (R268). An executing launch exceeds LIMIT_MS and ends. -/
  | timeLimit (c : CtxIx)
  /-- PIN_EXPIRED (R267). An epoch pin ends by time. -/
  | pinExpired (c : CtxIx)
  /-- COMPLETION_RECORD_WRITE (R239). A ready completion record is written when the ring has room, raising the interrupt. -/
  | completionRecordWrite (c : CtxIx)
  /-- CTX_ENABLE (R274). EN written from 0 to 1 resets ring indices and starts fetch. -/
  | ctxEnable (c : CtxIx) (v : BitVec 64)
  /-- CTX_DISABLE (R243). EN written to 0 disables an idle context. -/
  | ctxDisable (c : CtxIx) (v : BitVec 64)
  /-- RESUME (R272). CTX_CMD RESUME restarts a stopped context. -/
  | resumeCtx (c : CtxIx)
  /-- FLUSH (R245). CTX_CMD FLUSH completes fetched and ring launches with FLUSHED. -/
  | flushCtx (c : CtxIx)
  /-- ABORT (R244). CTX_CMD ABORT aborts the executing launch with HOST_ABORT. -/
  | abortCmd (c : CtxIx)
  /-- QUIESCE_CHECK (R453). At A plus 8,000 the crews are checked idle and released, or the partition resets. -/
  | quiesceCheck (c : CtxIx) (stuck : List TileIx)
  /-- CTX_STOPPED (R242). The abort finishes, the sweep bit clears and the context stops. -/
  | ctxStopped (c : CtxIx)
  /-- ADD_CREWS (R247). BERTH_CMD ADD puts crews into a context's berth. -/
  | addCrews (c : CtxIx) (g : BitVec 9) (count : BitVec 10)
  /-- REMOVE_CREWS (R247). BERTH_CMD REMOVE takes crews out of a berth. -/
  | removeCrews (c : CtxIx) (g : BitVec 9) (count : BitVec 10)
  /-- CLEAR (R247). BERTH_CMD CLEAR empties a context's berth. -/
  | clearBerth (c : CtxIx)
  /-- ASSIGN_OWNED (R607). FRAME_CMD assigns a FREE frame to a context. -/
  | assignOwned (frame : BitVec 18) (c : CtxIx)
  /-- ASSIGN_SYSTEM (R607). FRAME_CMD makes a FREE frame SYSTEM. -/
  | assignSystem (frame : BitVec 18)
  /-- RELEASE (R607). FRAME_CMD releases a frame for scrubbing. -/
  | releaseFrame (frame : BitVec 18)
  /-- QUERY (R607). FRAME_CMD reports a frame's state. -/
  | queryFrame (frame : BitVec 18)
  /-- BTT_INVAL (R212). GO starts invalidation of cached translations for a page or context. -/
  | bttInval (v : BitVec 64)
  /-- BTT_INVAL_DONE (R212). The invalidation completes and GO reads 0. -/
  | bttInvalDone
  /-- FRAME_SWEEP_DONE (R207). All stacks finish sweeping an aborted context's frames to POISONED. -/
  | frameSweepDone (c : CtxIx)
  /-- SCRUB_FRAME_DONE (R206). The scrubber finishes zeroing a frame, which becomes FREE. -/
  | scrubFrameDone (st : PartIx)
  /-- GATHER (R222). Weir descriptor copying indexed table rows to a destination. -/
  | weirGather (i : Nat)
  /-- SEGSUM (R222). Weir descriptor summing indexed rows per segment into FP32. -/
  | weirSegsum (i : Nat)
  /-- WEIR_ATOMADD (R222). Weir descriptor scattering spill records as atomic adds. -/
  | weirAtomadd (i : Nat)
  /-- FILL (R222). Weir descriptor writing a repeated 32-bit pattern. -/
  | weirFill (i : Nat)
  /-- WEIR_DESC_COMPLETE (R225). Every stack finishes a descriptor, releasing its slot to a waiting WEIR. -/
  | weirDescComplete (i : Nat)
  /-- SINGLE_ATOMADD (R223). A single FP32 atomic add request is performed in the base die of the target stack. -/
  | singleAtomadd (i : Nat)
  /-- MEM_PRESET_CHANGE (R218). A new PHY preset is applied to a stack's channels during refresh. -/
  | memPresetChange (st : PartIx)
  /-- START (R287). FAB_CFG START begins fabric placement and port training; `v` is what the Cox firmware writes. -/
  | fabStart (v : BitVec 64)
  /-- FAB_PLACED (R287). Every port reaches UP or DOWN, or 500 ms pass, and the device is placed. -/
  | fabPlaced
  /-- DETECT_SIGNAL (R289). The partner's signal is seen on every lane and the port moves to RATE. -/
  | detectSignal (n : PortIx)
  /-- DETECT_TIMEOUT (R289). No signal within 10 ms; detection repeats every 100 ms. -/
  | detectTimeout (n : PortIx)
  /-- RATE_EXCHANGE (R289). The capability exchange ends and the highest common rate is chosen. -/
  | rateExchange (n : PortIx) (reach2 : Bool)
  /-- EQ_DONE (R289). Equalisation converges or fails, falling back or ending the attempt. -/
  | eqDone (n : PortIx) (ok : Bool)
  /-- LANES_CHECK (R289). The 1 ms PRBS check ends and sets the port width or ends the attempt. -/
  | lanesCheck (n : PortIx) (mask : BitVec 8)
  /-- IDENT (R290). The partner's identity is exchanged and the port goes UP or DOWN. -/
  | ident (n : PortIx) (who : Ident)
  /-- LINK_RETRAIN (R296). A retry storm or lane lock loss sends an UP port to RETRAIN. -/
  | linkRetrain (n : PortIx) (lockLost : Bool)
  /-- TRAIN (R289). PORT_CMD TRAIN starts a training attempt from DOWN. -/
  | portTrain (n : PortIx)
  /-- DOWN (R289). PORT_CMD DOWN takes a port down. -/
  | portDown (n : PortIx)
  /-- FLIT_RECEIVE (R292). A flit is received, corrected, CRC-checked and delivered or NAKed; `esc` is the escape channel it comes on. -/
  | flitReceive (n : PortIx) (seq : BitVec 12) (crcOk : Bool) (pkt : Option Packet) (ack : BitVec 12) (esc : Option Bool)
  /-- NAK_RECEIVE (R292). A NAK makes the sender resend from the failed flit, go-back-N. -/
  | nakReceive (n : PortIx) (seq : BitVec 12)
  /-- PORT_REEQUALISE (R293). A preset change starts a 40 µs in-service re-equalisation of an UP port. -/
  | portReequalise (n : PortIx)
  /-- PORT_REEQ_DONE (R293). The re-equalisation ends and the port carries packets again. -/
  | portReeqDone (n : PortIx)
  /-- PACKET_READ (R297). A READ packet arrives at the target and is answered with data or a fault. -/
  | packetRead (i : Nat)
  /-- PACKET_WRITE (R298). A WRITE packet arrives at the target and is acknowledged once accepted. -/
  | packetWrite (i : Nat)
  /-- PACKET_ATOMADD (R304). An ATOMADD packet arrives at a router, is absorbed in the combiner or routed. -/
  | packetAtomadd (i : Nat)
  /-- REPLY_DATA (R297). A data reply packet arrives. -/
  | replyData (i : Nat)
  /-- REPLY_ACK (R298). An acknowledgement reply arrives. -/
  | replyAck (i : Nat)
  /-- REPLY_FAULT (R302). A fault reply arrives and faults the request at the source. -/
  | replyFault (i : Nat)
  /-- ROUTE_PACKET (R299). A router forwards a packet on a productive port or into escape. -/
  | routePacket (i : Nat) (credits : List Credits)
  /-- UNROUTABLE (R301). A packet with no UP productive port or waiting over 100 µs is discarded with a fault reply. -/
  | unroutable (i : Nat)
  /-- COMBINER_HOLD_EXPIRE (R306). A combiner entry's hold time ends and it may leave. -/
  | combinerHoldExpire (i : Nat)
  /-- PENDING_SLOT_REPLY (R305). A reply to a pending slot fans out to every absorbed record. -/
  | pendingSlotReply (i : Nat)
  /-- PENDING_SLOT_TIMEOUT (R305). A pending slot with no reply after 2 ms is freed. -/
  | pendingSlotTimeout (slot : Fin 512)
  /-- EASYALL_SEND (R308). Host writes a job to originate easy-all with cause HOST_ABORT. -/
  | easyallSend (job : BitVec 32)
  /-- EASY_ALL (R311). An EASY_ALL message arrives, is forwarded if new, and aborts the job's context. -/
  | easyAll (i : Nat)
  /-- EASYALL_TRIPLE_EXPIRE (R310). A kept easy-all triple expires after 1 ms. -/
  | easyallTripleExpire
  /-- STROKE_MARKER_SEND (R327). An UP port sends a Stroke marker every 8,192 counts. -/
  | strokeMarkerSend (n : PortIx)
  /-- STROKE_MARKER_RECEIVE (R328). A marker arrives; delay, offset, parent choice and rate are updated. -/
  | strokeMarkerReceive (n : PortIx) (m : Marker)
  /-- STROKE_HOLDOVER (R330). The parent port leaves UP or misses 4 markers and the rate freezes. -/
  | strokeHoldover
  /-- STROKE_MASTER_CHANGE (R329). A master's announcement stops advancing, its advertisement expires and a new master is chosen. -/
  | strokeMasterChange
  /-- PWR_SAMPLE (R362). Every 10 µs the power monitor samples phase currents and domain voltages. -/
  | pwrSample (currents : List Int) (volts : List Nat)
  /-- PWR_PUBLISH (R362). Every 1 ms domain means are published and the crack model is checked. -/
  | pwrPublish (drops : List Int)
  /-- GOVERNOR_PASS (R387). The governor computes budgets, clock points and stretch and triggers a scheduler pass. -/
  | governorPass (act : List Nat) (other : Nat)
  /-- CLOCK_POINT_APPLY (R365). A chosen clock point takes effect within 5 µs with voltage ordering. -/
  | clockPointApply (p : PartIx)
  /-- THERM_SAMPLE (R378). A diode group is sampled; suspects, blindness, intervals and bands are updated. -/
  | thermSample (group : Fin 10) (raws : List Int)
  /-- THERMTRIP (R383). An analogue trip pair senses 115 °C and all device clocks stop. -/
  | thermtrip (p : PartIx)
  /-- SWEEP_START (R410). The Umpire starts the most overdue sweep on an idle crew, spare or quarantined tile. -/
  | sweepStart
  /-- TRIAL_COMPLETE (R407). A trial ends and is passed, retried or classed: `runs` says how it went on its tiles. -/
  | trialComplete (i : Nat) (runs : List TrialRun)
  /-- PAIR_CHECK_COMPARE (R419). Both crews finish and the tile signatures are compared. -/
  | pairCheckCompare (c : CtxIx)
  /-- TRIAGE_VERDICT (R420). The third crew finishes and each mismatched tile gets a verdict. -/
  | triageVerdict (c : CtxIx)
  /-- SWAP (R424). At the swap point a pending tile is replaced by a spare or its crew is withdrawn. -/
  | swap (t : TileIx)
  /-- RETIRED_MAP_WRITE (R431). A tile state change is appended to the flash retired map, retried each second on failure. -/
  | retiredMapWrite (ok : Bool)
  /-- SWEEP (R435). UMP_CMD SWEEP makes a sweep of a tile due at once. -/
  | umpSweep (ptile : BitVec 13)
  /-- QUARANTINE (R435). UMP_CMD QUARANTINE applies a trigger to a tile. -/
  | umpQuarantine (ptile : BitVec 13)
  /-- UMP_LOG_POP (R436). UMP_LOG_NEXT POP discards the head log entry. -/
  | umpLogPop
  /-- FAULT_POP (R102). FAULT_NEXT POP discards the head fault record. -/
  | faultPop (p : PartIx)
  /-- RESET_LOG_POP (R468). RESET_LOG_NEXT POP discards the head reset log entry. -/
  | resetLogPop
  /-- CLK_LOSS (R450). A PLL reads unlocked twice and a partition reset or out of service follows. -/
  | clkLoss (k : ClkSel)
  /-- EDGE_PROTOCOL (R455). A check-bit error or malformed message at a partition edge resets the partition. -/
  | edgeProtocol (p : PartIx)
  /-- PARTITION (R468). RST_CMD PARTITION starts a partition reset. -/
  | partitionReset (p : PartIx)
  /-- PART_RESET_DONE (R456). After 35 µs the partition edge reopens. -/
  | partResetDone (p : PartIx) (clockOk : Bool)
  /-- COX_RESTART (R461). RST_CMD COX_RESTART starts a restart of the management complex. -/
  | coxRestart
  /-- COX_HEARTBEAT (R460). A Cox core writes its heartbeat to the watchdog. -/
  | coxHeartbeat (core : Fin 4)
  /-- COX_HANG (R460). A core silent for 500 µs fires the watchdog and starts a Cox restart. -/
  | coxHang
  /-- COX_RESTARTED (R461). The restart completes and admission resumes, or the restart fails. -/
  | coxRestarted (shaOk : Bool) (beats : BitVec 4)
  /-- DEVICE (R476). RST_CMD DEVICE with confirmation runs a full device reset. -/
  | deviceReset (confirm : BitVec 16)
  /-- POWER_GOOD (R476). The card asserts POWER_GOOD and the device start begins. -/
  | powerGood
  /-- MCODE_BROADCAST (R483). Tile microcode is broadcast and checked in every tile. -/
  | mcodeBroadcast (bad : List TileIx) (bad2 : List TileIx)
  /-- HBM_TRAIN_DONE (R479). Stacks finish training; the scrubber and governor start. -/
  | hbmTrainDone (fails : List HbmFail)
  /-- BOOT_READY (R484). Power-on qualification and its swaps end and admission begins. -/
  | bootReady
  /-- ACTIVATE (R500). FW_CMD ACTIVATE checks the inactive slot and makes it TRIAL. -/
  | fwActivate (flashOk : Bool)
  /-- CONFIRM (R500). FW_CMD CONFIRM ends the trial of the running slot. -/
  | fwConfirm (flashOk : Bool)
  /-- ABORT_DOWNLOAD (R513). FW_CMD ABORT_DOWNLOAD stops a download. -/
  | abortDownload
  /-- BROADCAST (R488). FW_CMD BROADCAST starts a rack boot broadcast from the seed. -/
  | fwBroadcast (session : BitVec 32)
  /-- BOOT_CHUNK_SEND (R489). The seed floods the next BOOT chunk every 20 µs. -/
  | bootChunkSend
  /-- BOOT_PACKET (R491). A BOOT packet arrives, is forwarded in-rack and its chunk written. -/
  | bootPacket (i : Nat)
  /-- BOOT_BCAST_INCOMPLETE (R491). 100 ms pass with chunks missing and the slot stays UNSEALED. -/
  | bootBcastIncomplete
  /-- TRIAL_MINUTE (R503). Each 60 s in trial adds to TRIAL_MIN, falling back and resetting at 30. -/
  | trialMinute (flashOk : Bool)
  /-- PERST (R521). PERST# runs a full device reset. -/
  | perst
  /-- HOST_DETACH (R522). Hot Reset, FLR, CXL Reset, DL_Down or PCLK loss detaches the host. -/
  | hostDetach (why : Detach)
  /-- HOST_MEM_READ (R519). A BAR2 or CXL.mem read is checked against the frame table and served. -/
  | hostMemRead (path : HostPath) (addr : Nat) (len : Nat)
  /-- HOST_MEM_WRITE (R519). A BAR2 or CXL.mem write is served or discarded by frame state. -/
  | hostMemWrite (path : HostPath) (addr : Nat) (data : List Byte)
  /-- EVT_RING_ENABLE (R529). EVT_CFG EN from 0 to 1 resets the event ring indices. -/
  | evtRingEnable (v : BitVec 64)
  /-- REG_WRITE (R18). A host write to a register with no row of its own stores its fields. -/
  | regWrite (bar : Bar) (off : Nat) (width : Nat) (v : BitVec 64)
  /-- GET_SHADOW (R541). Management command returning bytes of the shadow state table. -/
  | getShadow (off : Nat) (len : Nat)
  /-- SET_POWER_LIMIT (R534). Management command setting MGMT_LIMIT_W; none: the message has an unknown code, a wrong length or a reserved byte that is not zero (R542), as in the next two. -/
  | setPowerLimit (watts : Option Nat)
  /-- TILE_QUARANTINE (R542). Management command applying a quarantine trigger at a given epoch. -/
  | tileQuarantine (epoch : BitVec 32) (ptile : Option Nat)
  /-- TILE_SWEEP (R542). Management command making a sweep due at a given epoch. -/
  | tileSweep (epoch : BitVec 32) (ptile : Option Nat)
  /-- SHADOW_PUBLISH (R540). Cox firmware republishes the shadow state table. -/
  | shadowPublish (whole : Bool)
  /-- RECONCILE (R543). Each second the reconciler compares the shadow with the live map. -/
  | reconcile
  /-- PLDM_SENSOR_READ (R533). A PLDM Type 2 sensor request returns the latest reading. -/
  | pldmSensorRead (id : Nat)
  /-- PLDM_EFFECTER_SET (R534). A write to effecter 1 sets MGMT_LIMIT_W. -/
  | pldmEffecterSet (id : Nat) (watts : Nat)
  /-- REQUEST_UPDATE (R536). PLDM Type 5 RequestUpdate begins a download or is refused. -/
  | requestUpdate (maxTransfer : Nat)
  /-- UPDATE_COMPONENT (R536). Erases the slot header; the slot becomes UNSEALED. -/
  | updateComponent (size : Nat)
  /-- FIRMWARE_DATA (R536). A firmware data transfer arrives and is written to the slot. -/
  | firmwareData (off : Nat) (data : List Byte)
  /-- TRANSFER_COMPLETE (R536). Reports success once SEAL is written. -/
  | transferComplete
  /-- VERIFY_COMPLETE (R536). Runs the slot checks and reports without recording. -/
  | verifyComplete
  /-- APPLY_COMPLETE (R536). Reports success. -/
  | applyComplete
  /-- ACTIVATE_FIRMWARE (R536). Acts as FW_CMD ACTIVATE and reports that a reset is needed. -/
  | activateFirmware (how : Activate)
  /-- CANCEL_UPDATE (R536). Acts as ABORT_DOWNLOAD. -/
  | cancelUpdate
  /-- GET_VERSION (R538). SPDM version request. -/
  | getVersion
  /-- GET_CAPABILITIES (R538). SPDM capabilities request. -/
  | getCapabilities
  /-- NEGOTIATE_ALGORITHMS (R538). SPDM algorithm negotiation, P-384 with SHA-384 only. -/
  | negotiateAlgorithms (p384Sha384 : Bool)
  /-- GET_DIGESTS (R538). SPDM certificate digest request. -/
  | getDigests
  /-- GET_CERTIFICATE (R538). SPDM certificate chain request for slot 0. -/
  | getCertificate (slot : Nat) (off : Nat) (len : Nat)
  /-- CHALLENGE (R538). SPDM challenge signed with the device identity key. -/
  | challenge (slot : Nat) (nonce : List Byte)
  /-- GET_MEASUREMENTS (R539). SPDM measurement request returning the blocks of Table 13-7. -/
  | getMeasurements (index : BitVec 8) (nonce : List Byte)
  /-- SET_ENDPOINT_ID (R531). The bus owner assigns the MCTP endpoint ID. -/
  | setEndpointId (binding : Binding) (eid : BitVec 8)
  /-- DYNAMIC_ADDRESS_ASSIGN (R531). An I3C controller assigns a dynamic address by SETDASA or ENTDAA. -/
  | dynamicAddressAssign (addr : BitVec 7)
  /-- RSTDAA (R531). The dynamic address is reset and the device returns to its static address. -/
  | rstdaa
  /-- INPUT_UV (R564). Card input below 46 V for 1 ms removes device power. -/
  | inputUv (mv : Nat) (watts : Nat)
  /-- INPUT_OV (R564). Card input above 60 V for 100 µs removes device power. -/
  | inputOv (mv : Nat) (watts : Nat)
  /-- OVERPOWER (R564). Card input above 1,320 W over 10 ms removes device power. -/
  | overpower (mv : Nat) (watts : Nat)
  /-- SEQ_FAIL (R564). A supply out of tolerance removes device power. -/
  | seqFail (mv : Nat) (watts : Nat)
  /-- ACLK_FAIL (R564). ACLK deviates or stops and device power is removed. -/
  | aclkFail (mv : Nat) (watts : Nat)
  /-- PHASE_OPEN (R564). The multiphase controller reports an open phase to the card controller. -/
  | phaseOpen (mv : Nat) (watts : Nat)
  /-- POWER_ON (R556). The card controller sequences the supplies up and asserts POWER_GOOD. -/
  | powerOn
  /-- LOCATE (R565). LOCATE command lights the blue lamp. -/
  | locate (on : Bool)
  /-- LAMP_TEST (R569). Lights all lamps for 2 s and measures them. -/
  | lampTest
  /-- LAMP_POLL (R565). Every 100 ms the card controller reads device state and drives the lamps. -/
  | lampPoll
  /-- LAMP_MEASURE (R567). A lamp pulse is measured, setting OK, OPEN, SHORT or UNVERIFIED. -/
  | lampMeasure (lamp : Lamp) (ua : Nat) (mv : Nat)
  /-- TRAY_ENABLE (R486). The rack management controller enables a tray. -/
  | trayEnable (rack : BitVec 8) (racks : BitVec 9)
  /-- TRAY_OFF (R576). The rack management controller removes a tray's power. -/
  | trayOff
  /-- SHELF_LOSS (R572). A power shelf is lost and device power limits are lowered. -/
  | shelfLoss
  /-- COOLANT_MONITOR (R574). Inlet temperature in 0.001 °C, flow in mL/min of the card and rack (96 L/min and 48 L/min are the bounds). Each second inlet temperature and flow are checked and limits or power applied. -/
  | coolantMonitor (inlet : Int) (flow : Nat)
  /-- RC_READ (R19). A host read of a register holding an RC field returns the value and clears it, keeping a coinciding hardware set for the next read. -/
  | rcRead (bar : Bar) (off : Nat) (width : Nat)
  /-- EDDY_DRAIN_DONE (R135). An ESPILL or EMERGE drain, sending one entry per tile cycle after its instruction retired, sends its last request and flushes its spill line. -/
  | eddyDrainDone (t : TileIx)
  /-- STROKE_TICK (R324). The Stroke counter advances by 1 at each SCLK cycle and wraps from 2^64 - 1 to 0. -/
  | strokeTick
  /-- HBM_REFRESH (R218). A channel reaches its refresh interval and performs per-bank refresh, applying a changed refresh multiplier. -/
  | hbmRefresh (st : PartIx) (ch : ChanIx)
  /-- STACK_TEMPERATURE_REPORT (R217). A stack's own temperature report arrives and can raise the stack band above the partition band, changing refresh and PHY preset. -/
  | stackTemperatureReport (st : PartIx) (temp : Int)
  /-- INPUT_RESTORED (R564). The 54 V input returns to at least 48 V for 1 s, or is restored without a rack after a trip, and the card brings device power back. -/
  | inputRestored (rackPresent : Bool)
  /-- PCIE_LINK_UP (R517). The PCIe link finishes training and speed change, Flex Bus selects a CXL mode or none, and a low rate or width raises PCIE_DEGRADED. -/
  | pcieLinkUp (speed : Nat) (width : Nat) (flit : Bool) (cxl : CxlMode)
  /-- SHELF_RESTORED (R572). Lost power-shelf capacity returns and the rack management controller restores 1,050 W to every device. -/
  | shelfRestored
  /-- DUTY (R566). The rack management controller sets a card's lamp DUTY and FLICKER_FREE flag. -/
  | duty (duty : Nat) (flickerFree : BitVec 3)
  /-- SET_EVENT_RECEIVER (R535). A PLDM SetEventReceiver request names the receiver to which PlatformEventMessages are sent. -/
  | setEventReceiver (eid : BitVec 8)
deriving DecidableEq, Repr

end Sys2Proof
end

