-- ==== Sys2Proof/Config.lean ====
section
/-!
DEFINITION. What one implementation fixes and the specification leaves open: opaque constants, of
which nothing can be proved. State.freeIx is the counter that the free values are drawn at.
-/

namespace Sys2Proof.Config

/-- The n-th free number: a value or a choice that the specification leaves open (log entry 1). -/
opaque freeNat : Nat → Nat

/-- The n-th free byte (log entry 1). -/
opaque freeByte : Nat → Nat → BitVec 8

/-- Leakage conductance, in µS, of partition p of a device whose fused conductance is g, at
temperature t in units of 0.125 °C: 09 R385 names the correction and does not give it (log entry 2). -/
opaque leakage : (p : Nat) → (g : Nat) → (t : Int) → Nat

/-- The signature the device makes with its identity key over the given bytes: 13 R538 names the key
and the algorithm, and an ECDSA signature holds a random number (log entry 3). -/
opaque identitySign : List (BitVec 8) → List (BitVec 8)

/-- The contents of the boot ROM, whose SHA-384 is measurement block 1 (13 Table 13-7, log entry 3). -/
opaque bootRom : List (BitVec 8)

/-- The SECDED check bits of the specification's unpublished codes as a syndrome of the n-th error
(02 R601, log entry 4). -/
opaque syndrome : Nat → BitVec 8

end Sys2Proof.Config
end

