-- ==== Sys2Proof/Machine/State.lean ====
section
/-!
DEFINITION. The state of the machine as plain data: one KR1 with its card, and what the specification
gives each part. Each field's docstring says: name; width; where the specification names it; its value
at reset. A field marked MODEL is the model's own bookkeeping. "log n" is notes/assumptions/n.md.
-/

namespace Sys2Proof.Machine

/-- A sparse table in canonical form: keys strictly rising, no entry equal to the default that an
unlisted key reads as (Ops.lean holds the operations and the form). -/
abbrev Tbl (α : Type) := List (Nat × α)

/-! ### Tiles -/

/-- What a tile is doing (02 R63 to R65, R96; 08 R336; 11 R452). -/
inductive TRun where
  /-- clock-gated, in no launch and no Umpire work -/
  | off
  /-- waiting for the code image -/
  | waitCode
  /-- loaded, waiting for its first issue or its catch count -/
  | loaded
  | running
  /-- HALT has issued and has not retired -/
  | halting
  | halted
  /-- stopped on a trap or an abort -/
  | stopped
deriving DecidableEq, Repr

/-- For whom a tile runs (02 R96, 10 R418, R420, R602). -/
inductive TJob where
  | none
  | launch
  | partner
  | triage
deriving DecidableEq, Repr

/-- A latent error in a protected word (02 R75, R76, R605). -/
inductive EccErr where
  | none
  | single
  /-- a double-bit error; the number indexes its syndrome in Config.syndrome -/
  | double (n : Nat)
  /-- three or more bits -/
  | multi (n : Nat)
deriving DecidableEq, Repr

/-- An outstanding stream request (02 R79 to R85). -/
structure StreamReq where
  inbound  : Bool
  /-- SRAM address of the first byte -/
  sram     : Nat
  /-- global address of the first byte -/
  ga       : BitVec 64
  len      : Nat
  pc       : BitVec 12
  /-- Stroke count at sending (R85) -/
  sentAt   : BitVec 64
  /-- waits for an overlapping request and has not been sent (R83) -/
  waiting  : Bool
  /-- issue cycle, which orders the requests of a tile -/
  order    : Nat
  /-- wake point whose window was open at issue (08 Table 8-8) -/
  wake     : Option Nat
  /-- it has waited on a refresh (08 Table 8-8) -/
  refHit   : Bool
  /-- bytes transferred so far; for an outbound request over the fabric, packets acknowledged -/
  doneLen  : Nat
  /-- the source bytes of an outbound request, copied at issue (R82) -/
  data     : List Byte
  /-- the partition's reset generation at sending (R84) -/
  rgen     : BitVec 6
  /-- an outbound block of a pair-check partner: acknowledged by the tile itself (10 R418) -/
  discard  : Bool
  /-- of an inbound request, the parts written to data SRAM: offset, length (R78, R82) -/
  got      : List (Nat × Nat) := []
deriving DecidableEq, Repr

/-- A valid Eddy entry (03 R133). -/
structure EddyEnt where
  key : Word
  val : Word
deriving DecidableEq, Repr

/-- A spill line of up to eight (key, value) records, and the PC that completed it (04 R177, R185). -/
structure SpillLine where
  recs : List (Word × Word)
  pc   : BitVec 12
deriving DecidableEq, Repr

/-- A drain in progress (03 R135). `emerge` gives the base of an EMERGE, `start` the cycle of its first entry. -/
structure Drain where
  emerge : Option (BitVec 64)
  pc     : BitVec 12
  start  : Nat
deriving DecidableEq, Repr

/-- An atomic add of an EMERGE sent to another device (03 R134, R135): device, LOCAL, PC of the EMERGE, and the wake
point whose window was open (08 Table 8-8). -/
structure EddyRem where
  dev  : Nat
  loc  : Nat
  pc   : BitVec 12
  wake : Option Nat := none
deriving DecidableEq, Repr

/-- A computation in the MAC array (03 R127, R128): its operands as read at issue. -/
structure MmaJob where
  ad   : Nat
  fmt  : Nat
  zero : Bool
  a    : List Byte
  b    : List Byte
  sc   : List Byte
  /-- number of its last compute cycle -/
  last : Nat
deriving DecidableEq, Repr

/-- A tile that has arrived at a barrier (03 R139). -/
structure BarWait where
  launch : Bool
  id     : BitVec 6
  at_    : BitVec 64
deriving DecidableEq, Repr

/-- One tile. -/
structure Tile where
  /-- s0-s31; 32 bits each; 02 R67 Table 2-1; 0 (02 R63 zeroes them at launch start; before the first launch log 5) -/
  s : Tbl Word := []
  /-- p0-p7; 1 bit each; 02 R67; false (p0 reads true) (log 5) -/
  p : Tbl Bool := []
  /-- v0-v15; 128 bits each; 02 R67; 0 (log 5) -/
  v : Tbl VWord := []
  /-- a0-a3; 64 words of 32 bits, word 16a + 4i + j; 02 R67; 0 (log 5) -/
  a : Tbl Word := []
  /-- PC; 12 bits; 03 R121; 0 (log 5; ENTRY at launch start) -/
  pc : BitVec 12 := 0
  /-- run state; 02 R63, R65, R96; off -/
  run : TRun := .off
  /-- for whom it runs; 10 R602; none -/
  job : TJob := .none
  /-- MODEL: an instruction that waits at issue, with its word (02 R61); none -/
  held : Option Word := none
  /-- MODEL: barrier it has arrived at; 03 R139; none -/
  bar : Option BarWait := none
  /-- CBARs arrived at; 03 R139; 0 -/
  cbars : Nat := 0
  /-- LBARs arrived at; 03 R139; 0 -/
  lbars : Nat := 0
  /-- TID; 3 bits; 02 Table 2-2; 0 (log 5) -/
  tid : Nat := 0
  /-- CREW; 9 bits; 02 Table 2-2; 0 (log 5) -/
  crew : Nat := 0
  /-- NCREW; 10 bits; 02 Table 2-2; 0 (log 5) -/
  ncrew : Nat := 0
  /-- CTX; 6 bits; 02 Table 2-2; 0 (log 5) -/
  ctx : Nat := 0
  /-- LAUNCH; 32 bits; 02 Table 2-2; 0 (log 5) -/
  launchId : BitVec 32 := 0
  /-- PART as tile code reads it; 3 bits; 02 Table 2-2, 10 R418; 0 (log 5) -/
  partNo : Nat := 0
  /-- JOBID; 32 bits; 02 Table 2-2; 0 (log 5) -/
  jobid : BitVec 32 := 0
  /-- ARGP; 42 bits; 02 Table 2-2; 0 (log 5) -/
  argp : BitVec 42 := 0
  /-- ENTRY of the launch; 12 bits; 06 Table 6-3; 0 (log 5) -/
  entry : BitVec 12 := 0
  /-- STROKE_HI latch; 32 bits; 02 Table 2-2; 0 -/
  strokeHi : Word := 0
  /-- CYCLE_HI latch; 32 bits; 02 Table 2-2; 0 -/
  cycleHi : Word := 0
  /-- cycle count; 64 bits; 02 R70; 0 -/
  cycle : Nat := 0
  /-- SIG; 64 bits; 02 R91; 0 -/
  sig : BitVec 64 := 0
  /-- SIGBASE; 42 bits; 02 Table 2-2; 0 -/
  sigbase : BitVec 42 := 0
  /-- FPSTAT; 6 flags; 02 Table 2-3; 0 -/
  fpstat : BitVec 6 := 0
  /-- outstanding stream tags (STREAM_BUSY); 16; 02 R80; none -/
  tags : Tbl (Option StreamReq) := []
  /-- ECC_CE; 32 bits, saturating; 02 Table 2-2; 0 -/
  eccCe : Nat := 0
  /-- data SRAM; 96 KiB of bytes; 02 R71 Table 2-4; 0 (log 5) -/
  sram : Tbl Byte := []
  /-- latent errors of data SRAM, per 64-bit word; 02 R74 to R76; none -/
  sramErr : Tbl EccErr := []
  /-- instruction memory; 4,096 words of 32 bits; 02 R71 Table 2-4; 0 (log 5) -/
  imem : Tbl Word := []
  /-- latent errors of instruction memory, per word; 02 R75, R76; none -/
  imemErr : Tbl EccErr := []
  /-- Eddy storage; 512 entries; 03 R133; all invalid -/
  eddy : Tbl (Option EddyEnt) := []
  /-- latent errors of Eddy storage, per entry; 02 R75, R76; none -/
  eddyErr : Tbl EccErr := []
  /-- Eddy key extent; 32 bits; 03 R133; 0xFFFF_FFFF -/
  extent : Word := 0xFFFFFFFF#32
  /-- victim pointers; 2 bits for each of 128 sets; 04 R176; 0 -/
  victim : Tbl Nat := []
  /-- spill line being gathered; up to 7 records; 04 R177; empty -/
  gather : List (Word × Word) := []
  /-- completed lines awaiting dispatch; at most 2; 04 R179; empty -/
  spillQ : List SpillLine := []
  /-- drain in progress; 03 R135; none -/
  drain : Option Drain := none
  /-- Eddy requests (spill lines, EMERGE adds) sent and not acknowledged; 03 R139; 0 -/
  eddyOut : Nat := 0
  /-- those of them sent to other devices; 03 R134, R135; empty -/
  eddyRem : List EddyRem := []
  /-- MAC array operand buffers in use; at most 2; 03 R128; empty -/
  mma : List MmaJob := []
  /-- open wake window: its wake point; 10 bits; 03 R142; none -/
  wake : Option Nat := none
  /-- row-block queue: head index; 32 bits; 04 R172; 0 -/
  rbHead : Word := 0
  /-- row-block queue: indices held; 16 bits; 04 R172; 0 -/
  rbLen : Nat := 0
  /-- RBNEXT results in order, which a pair-check partner replays; 10 R418; empty -/
  rbLog : List Word := []
  /-- MODEL: stopped by a trap in Umpire work; 10 R602; false -/
  trapped : Bool := false
  /-- MODEL: first TCLK cycle at which a register's value is usable (key: s 0-31, p 32-39, v 40-55, a 56-59, Eddy 60); 03 R145; 0 -/
  ready : Tbl Nat := []
  /-- MODEL: first cycle at which the VDIV/VSQRT unit is free; 03 Table 3-14; 0 -/
  divFree : Nat := 0
  /-- MODEL: first cycle at which the VEXP2/VLOG2 unit is free; 03 Table 3-14; 0 -/
  expFree : Nat := 0
  /-- MODEL: first cycle at which the MAC array can begin a computation; 03 R128; 0 -/
  macFree : Nat := 0
  /-- MODEL: first cycle at which an Eddy instruction may follow a drain; 03 R135, 04 R179; 0 -/
  eddyFree : Nat := 0
deriving DecidableEq, Repr

/-! ### Fault and log records -/

/-- A fault record, words 0 to 3 (02 Table 2-7). -/
structure FaultRec where
  w0 : BitVec 64 := 0
  w1 : BitVec 64 := 0
  w2 : BitVec 64 := 0
  w3 : BitVec 64 := 0
deriving DecidableEq, Repr

/-- A log of fixed size, oldest first, with its overflow bit and lost count (02 R102, 10 R436, 11 R468). -/
structure Ring (α : Type) where
  items    : List α := []
  overflow : Bool := false
  lost     : Nat := 0
deriving DecidableEq, Repr

/-- An Umpire log entry (10 Table 10-8, UMP_LOG_W0 to W2). -/
structure UmpEntry where
  w0 : BitVec 64
  w1 : BitVec 64
  w2 : BitVec 64
deriving DecidableEq, Repr

/-- An event entry (13 Table 13-4) without LOST_BEFORE and PHASE. -/
structure Event where
  code   : BitVec 16
  unit   : BitVec 8
  detail : BitVec 32
  stroke : BitVec 64
deriving DecidableEq, Repr

/-- A PlatformEventMessage: an event entry without PHASE (13 R535). -/
structure PldmMsg where
  ev   : Event
  /-- FLAGS LOST_BEFORE -/
  lost : Bool
deriving DecidableEq, Repr

/-! ### Partitions -/

/-- A partition reset in progress (11 R456). -/
structure PReset where
  start   : BitVec 64
  cause   : Nat
  /-- its cause counts toward escalation (11 Table 11-6) -/
  counted : Bool
deriving DecidableEq, Repr

/-- One partition's registers and edge state. -/
structure Part where
  /-- TILE_SEL.INDEX; 10 bits; 02 Table 2-8; 0 -/
  tileSel : Nat := 0
  /-- fault ring with FAULT_STAT; 16 records; 02 R102; empty -/
  faults : Ring FaultRec := { }
  /-- RGEN; 6 bits; 11 R458; 0 -/
  rgen : BitVec 6 := 0
  /-- CNT_RESET; 16 bits; 11 Table 11-12; 0 -/
  cntReset : Nat := 0
  /-- CNT_STALE; 48 bits; 11 R458; 0 -/
  cntStale : Nat := 0
  /-- Stroke count of the last STALE_REPLY; 11 R458; none -/
  staleAt : Option (BitVec 64) := none
  /-- reset in progress; 11 R456; none -/
  reset : Option PReset := none
  /-- local requests, by tile and tag, whose replies were on their way when a reset began: each will be dropped
  at the edge; 11 R458; none -/
  late : List (Nat × Nat) := []
  /-- POINT; 4 bits; 09 Table 9-6; 15 -/
  point : Nat := 15
  /-- point chosen and not yet in force; 09 R365; none -/
  nextPoint : Option Nat := none
  /-- CAP in force: of the last pass at which the partition was not held; 09 R393; 0 -/
  capEff : Nat := 0
  /-- MAXPT; 4 bits; 09 R366; 0 -/
  maxpt : Nat := 0
  /-- CAP; 4 bits; 09 Table 9-6; 0 -/
  cap : Nat := 0
  /-- the governor's own stretch level for this partition; 2 bits; 09 R388; 0 -/
  govStretch : Nat := 0
  /-- BAND; 3 bits; 09 R381; 0 -/
  band : Nat := 0
  /-- BLIND; 1 bit; 09 R380; 0 -/
  blind : Bool := false
  /-- CRACK; 1 bit; 09 R372; 0 -/
  crack : Bool := false
  /-- TEMP; 12 bits signed, 0.125 °C; 09 Table 9-6; 0 -/
  temp : Int := 0
  /-- P_p at the point in force (EST_W), in pW; 09 Table 9-6; 0 -/
  estW : Nat := 0
  /-- thermal budget (THERM_W), in pW; 09 R386; 0 -/
  thermW : Int := 0
  /-- share of the logic budget of the last full pass, before its thermal bound, in pW; 09 R387; 0 -/
  shareW : Int := 0
  /-- Stroke count of the last pass that judged its thermal term; 09 R384; 0 -/
  thermAt : BitVec 64 := 0
  /-- ENERGY, in nJ (the register shows mJ); 09 Table 9-6; 0 -/
  energy : Nat := 0
  /-- PART_HEADROOM.BUDGET, in pW; 06 Table 6-12; 0 -/
  budget : Nat := 0
  /-- switched capacitance A_p of the last pass, in pF; 09 R385; 0 -/
  actCap : Nat := 0
  /-- crack monitor: drop deviations of the last 1,000 samples, in µV, newest first; 09 R372; empty -/
  drops : List Int := []
  /-- crack monitor: consecutive samples beyond 12 mV; 09 R372; 0 -/
  dropRun : Nat := 0
  /-- crack monitor: VDD_LOGIC current at the first of them, in mA; 09 R372; 0 -/
  dropRef : Int := 0
  /-- TCLK PLL locked (CLK_STAT); 11 Table 11-12; 0 before the start locks it -/
  tclk : Bool := false
  /-- Stroke count at which TCLK was lost; 11 Table 11-3; none -/
  lostAt : Option (BitVec 64) := none
deriving DecidableEq, Repr

/-! ### Stacks and frames -/

/-- Frame states (05 Table 5-3). -/
inductive FState where
  | free | owned | system | poisoned
deriving DecidableEq, Repr

/-- One frame (05 R204). -/
structure Frame where
  /-- state; 05 R204; POISONED -/
  st : FState := .poisoned
  /-- owner context; 6 bits; 05 R204; 0 (log 5) -/
  owner : Nat := 0
  /-- SCRUB_PENDING; 05 R204; 1 -/
  scrub : Bool := true
deriving DecidableEq, Repr

/-- One HBM stack. -/
structure Stack where
  /-- TRAINED; 05 Table 5-8; 0 -/
  trained : Bool := false
  /-- the stack's own temperature report, 0.125 °C; 05 R217; 0 (log 5) -/
  temp : Int := 0
  /-- band of that report; 05 R217; 0 -/
  ownBand : Nat := 0
  /-- BAND; 3 bits; 05 R217; 0 -/
  band : Nat := 0
  /-- REFMULT in force per channel; 32 of 2 bits; 05 R218; 0 -/
  refmult : Tbl Nat := []
  /-- CONSERV; 05 Table 5-8; 0 -/
  conserv : Bool := false
  /-- MEM_CE.COUNT; 48 bits; 05 Table 5-8; 0 -/
  ce : Nat := 0
  /-- corrections since the last MEM_CE event; 05 R215; 0 -/
  ceRun : Nat := 0
  /-- MEM_UE.COUNT; 32 bits; 05 Table 5-8; 0 -/
  ue : Nat := 0
  /-- MEM_UE_ADDR.PA; 39 bits; 05 Table 5-8; 0 -/
  ueAddr : Nat := 0
  /-- HCLK PLL locked (CLK_STAT); 11 Table 11-12; 0 before the start locks it -/
  hclk : Bool := false
  /-- settings of both presets stored at training; 12 R479; false -/
  settings : Bool := false
  /-- snoop filter of the base die: host-cached lines, oldest first; at most 32,768; 13 R526; empty -/
  snoop : List Nat := []
deriving DecidableEq, Repr

/-- A latent error of a 64-byte HBM line (05 R214 to R216). -/
inductive LineErr where
  | none | correctable | uncorrectable
deriving DecidableEq, Repr

/-- A cached translation (05 R212). -/
structure TEntry where
  ctx   : Nat
  page  : Nat
  frame : Nat
  r     : Bool
  w     : Bool
  rmt   : Bool
deriving DecidableEq, Repr

/-! ### Contexts and launches -/

/-- Context states (06 Table 6-1). -/
inductive CState where
  | disabled | running | stopped | aborting
deriving DecidableEq, Repr

/-- A launch descriptor's fields as read (06 Table 6-3). -/
structure Desc where
  version   : BitVec 8 := 0
  flags     : BitVec 8 := 0
  ncrew     : Nat := 0
  entry     : Nat := 0
  codeWords : Nat := 0
  code      : BitVec 64 := 0
  cstream   : BitVec 64 := 0
  argp      : BitVec 64 := 0
  deadline  : Nat := 0
  catchCnt  : Nat := 0
  estTile   : Nat := 0
  estFixed  : Nat := 0
  energy    : Nat := 0
  pinTime   : Nat := 0
  rsv       : BitVec 16 := 0
deriving DecidableEq, Repr

/-- A fetched launch (06 R256): FETCHED, or ADMITTED when `admitted`. -/
structure Launch where
  id       : BitVec 32
  sqIndex  : Nat
  tArrive  : BitVec 64
  desc     : Desc
  admitted : Bool
deriving DecidableEq, Repr

/-- A command of a command stream (06 Table 6-4). -/
structure Cmd where
  op   : Nat
  imm  : BitVec 32
  addr : BitVec 64
deriving DecidableEq, Repr

/-- The digest a launch keeps of one wake point (08 R345, R346). -/
structure WakePt where
  num      : Nat
  digest   : BitVec 64
  blocks   : Nat
  partials : Nat
  overflow : Bool
  /-- requests that waited on a refresh, and packets that waited on a resent flit (08 Table 8-8) -/
  refreshHits : Nat
  retryHits   : Nat
deriving DecidableEq, Repr

/-- A pair check of a launch (10 R415 to R420). -/
structure Pair where
  /-- CREW of the checked crew -/
  crew    : Nat
  /-- global crew index of the checked crew, of the partner until the signatures are compared, and of the third crew -/
  gChk    : Nat
  gPart   : Option Nat
  gThird  : Option Nat
  /-- the partner's physical tiles -/
  pTiles  : List Nat
  /-- logical tiles in triage, with the SIG of the partner's tile; none where it trapped -/
  mism    : List (Nat × Option (BitVec 64))
  /-- power committed for the partner, and as much for the third crew, in pW -/
  power   : Nat
deriving DecidableEq, Repr

/-- A trap of the launch, for the choice of the primary fault (02 R97). -/
structure FaultOf where
  stroke : BitVec 64
  crew   : Nat
  tid    : Nat
  ptile  : Nat
  cause  : Nat
  pc     : BitVec 12
  frec   : FaultRec
deriving DecidableEq, Repr

/-- How an executing launch ends, once decided (06 Table 6-10). -/
structure Ending where
  status   : Nat
  csDetail : BitVec 32
  /-- Stroke count at which the status was decided (07 R309) -/
  at_      : BitVec 64
deriving DecidableEq, Repr

/-- An executing launch (06 Table 6-6). -/
structure Exec where
  launch    : Launch
  tDispatch : BitVec 64
  mapEpoch  : BitVec 32
  fwVersion : BitVec 32
  enabled   : Nat
  /-- predicted duration computed at dispatch (06 R258) -/
  dur       : Nat
  /-- global crew indices in CREW order (06 R248) -/
  crews     : List Nat
  /-- the crews' physical tiles: (CREW, TID, ptile), bound at dispatch -/
  tiles     : List (Nat × Nat × Nat)
  /-- committed power per partition in pW (06 R262) -/
  shares    : List Nat
  stream    : List Cmd
  next      : Nat
  /-- count at which the command before the next one completed; at first the dispatch (08 R339) -/
  prevDone  : BitVec 64
  /-- some command has executed (06 R271) -/
  began     : Bool
  /-- a WEIR command waits since this count (06 R226) -/
  weirWait  : Option (BitVec 64)
  /-- RUN has executed, at this count -/
  ranAt     : Option (BitVec 64)
  /-- the code image as RUN read it (06 R264) -/
  image     : List Word
  /-- RUN executed late: the tiles begin without a hold (08 R339) -/
  slipped   : Bool
  disturbed : Bool
  /-- end of the epoch pin, by time; none: no pin held (06 R267) -/
  pinEnd    : Option Nat
  pinFrom   : Nat
  pinExpired : Bool
  pinLost   : Bool
  oor       : Nat
  /-- energy attributed to it, in nJ (09 R390) -/
  energy    : Nat
  wakes     : List WakePt
  wakeOver  : Bool
  faults    : List FaultOf
  /-- largest cycle count of a tile at its HALT or stop (06 Table 6-8) -/
  cycles    : Nat
  ending    : Option Ending
  pair      : Option Pair
deriving DecidableEq, Repr

/-- A completion record ready to be written (06 R269), without PHASE. -/
structure Done where
  bytes : List Byte
deriving DecidableEq, Repr

/-- A context abort in progress (11 R452). -/
structure Abort where
  start    : BitVec 64
  quiesced : Bool
  /-- partitions whose reset holds the context (11 R453, R456) -/
  parts    : List Nat
  /-- those whose reset a failed quiesce check began: the launch ends after them (11 R453) -/
  stuck    : List Nat
deriving DecidableEq, Repr

/-- One context. -/
structure Ctx where
  /-- STATE; 06 Table 6-1; DISABLED -/
  st : CState := .disabled
  /-- CTX_CFG.EN; 06 Table 6-12; 0 -/
  en : Bool := false
  /-- CTX_CFG.CONT_ON_FAULT; 06 Table 6-12; 0 -/
  contOnFault : Bool := false
  /-- CTX_CFG.IRQ_EN; 06 Table 6-12; 0 -/
  irqEn : Bool := false
  /-- CTX_CFG.LIMIT_MS; 16 bits; 06 Table 6-12; 1000 -/
  limitMs : Nat := 1000
  /-- CTX_CFG.JOBID; 32 bits; 06 Table 6-12; 0 -/
  jobid : BitVec 32 := 0
  /-- Stroke count at which JOBID was bound; 07 R311; 0 -/
  jobAt : BitVec 64 := 0
  /-- CTX_SQ: SIZE, LOC, BASE; 06 Table 6-12; 0 -/
  sqSize : Nat := 0
  sqLoc : Bool := false
  sqBase : Nat := 0
  /-- CTX_CQ: SIZE, LOC, BASE; 06 Table 6-12; 0 -/
  cqSize : Nat := 0
  cqLoc : Bool := false
  cqBase : Nat := 0
  /-- CTX_STAT.SQ_HEAD; 12 bits; 06 R238; 0 -/
  sqHead : Nat := 0
  /-- SQ_TAIL doorbell; 12 bits; 06 R237; 0 (log 5; R274 sets it at EN) -/
  sqTail : Nat := 0
  /-- CQ_HEAD doorbell; 12 bits; 06 R237; 0 (log 5; R274 sets it at EN) -/
  cqHead : Nat := 0
  /-- CTX_STAT.CQ_TAIL; 12 bits; 06 R239; 0 -/
  cqTail : Nat := 0
  /-- CTX_STAT.CQ_PHASE; 06 R239; 1 -/
  cqPhase : Bool := true
  /-- CQ_FULL has been raised for the held record; 06 R240; false -/
  cqHold : Bool := false
  /-- launch sequence number; 26 bits; 06 R246; 0 -/
  seqNo : Nat := 0
  /-- fetched launches, oldest first; at most 32; 06 R238; empty -/
  fetched : List Launch := []
  /-- executing launch; 06 R256; none -/
  exec : Option Exec := none
  /-- records ready in DONE order; 06 R240; empty -/
  done : List Done := []
  /-- abort in progress; 11 R452; none -/
  abort : Option Abort := none
  /-- the context stops when its executing launch reaches DONE; 06 R604, 13 R523; false -/
  stopAfter : Bool := false
  /-- CTX_SWEEP bit and the count at which the sweep began; 05 R207; 0 -/
  sweep : Option (BitVec 64) := none
  /-- CTX_LAUNCH.LAUNCH; 32 bits; 06 Table 6-12; 0 -/
  lastLaunch : BitVec 32 := 0
  /-- CTX_OOR.COUNT; 48 bits; 04 Table 4-13; 0 -/
  oor : Nat := 0
  /-- SPILL_BASE.BASE; LOCAL address, 2 MiB aligned; 04 Table 4-13; 0 -/
  spillBase : Nat := 0
  /-- SPILL_SIZE.PAGES; 15 bits; 04 Table 4-13; 0 -/
  spillPages : Nat := 0
  /-- SPILL_USED.LINES; 31 bits; 04 Table 4-13; 0 -/
  spillLines : Nat := 0
  /-- SPILLWAY_HIGH raised since LINES was last lowered; 04 R186; false -/
  spillHigh : Bool := false
  /-- CTX_BTT.ROOT; PA; 05 Table 5-8; 0 -/
  bttRoot : Nat := 0
  /-- CTX_BTT.EN; 05 Table 5-8; 0 -/
  bttEn : Bool := false
  /-- WAKE_BASE.EN; 08 Table 8-3; 0 -/
  wakeEn : Bool := false
  /-- WAKE_BASE.BASE; LOCAL address, 64 KiB aligned; 08 Table 8-3; 0 -/
  wakeBase : Nat := 0
deriving DecidableEq, Repr

/-! ### Weir engines and single requests -/

/-- A Weir descriptor in flight (05 R220, R226). -/
structure WeirJob where
  ctx    : Nat
  launch : BitVec 32
  /-- index of the WEIR command that issued it (06 R255) -/
  cmdIx  : Nat
  addr   : Nat
  /-- the result, once every stack has finished its part: a code of 05 R228, 0 is OK -/
  code   : Option Nat
  /-- LOCAL address of the fault -/
  fadr   : Nat
deriving DecidableEq, Repr

/-- A single FP32 atomic add waiting at a stack (05 R223): from an EMERGE or another device. -/
structure AtomReq where
  ctx   : Nat
  loc   : Nat
  val   : Word
  /-- issuing tile, PC and launch, or none for a remote request -/
  tile  : Option (Nat × BitVec 12 × BitVec 32)
  /-- the packet to answer when the request came over the fabric -/
  pkt   : Option Packet
  /-- reset generation of the issuing tile's partition (11 R458) -/
  rgen  : BitVec 6
  /-- performed by the stack; the acknowledgement is on its way -/
  acked : Bool
  /-- of this device's tile: the wake point whose window was open, and whether it has waited on a refresh (08
  Table 8-8) -/
  wake  : Option Nat := none
  refHit : Bool := false
deriving DecidableEq, Repr

/-- A spill line on its way to the allocator (04 R183). -/
structure SpillFly where
  tile : Nat
  ctx  : Nat
  launch : BitVec 32
  line : SpillLine
  /-- reset generation of the tile's partition at sending (11 R458) -/
  rgen : BitVec 6
  /-- written, the acknowledgement is on its way -/
  acked : Bool
  /-- the wake point whose window was open, and whether it has waited on a refresh (08 Table 8-8) -/
  wake  : Option Nat := none
  refHit : Bool := false
deriving DecidableEq, Repr

/-! ### Fabric -/

/-- Port states (07 Table 7-3). -/
inductive PState where
  | off | detect | rate | eq | lanes | ident | up | retrain | down
deriving DecidableEq, Repr

/-- A flit in a replay buffer (07 R292). -/
structure Flit where
  seq : BitVec 12
  /-- the packet that ends in this flit; its earlier flits have none (log 41) -/
  pkt : Option Packet
  /-- the packet's escape channel; none: the adaptive channel (07 R300) -/
  esc : Option Bool
  /-- the packet bytes that it carries, at most 240 (07 R283) -/
  data : List Byte := []
  /-- piggybacked acknowledgement: the last flit accepted from the partner (07 R283, R292) -/
  ack : BitVec 12 := 0
  /-- it has been resent, and its packet counted (08 Table 8-8) -/
  hit : Bool := false
deriving DecidableEq, Repr

/-- The last advertisement heard on a port (08 R327, R329). -/
structure Advert where
  master : BitVec 14
  hops   : Nat
  ann    : BitVec 32
  /-- Stroke count at which the announcement number last advanced; none: not since it was first heard -/
  fresh  : Option (BitVec 64)
deriving DecidableEq, Repr

/-- One Reach port. -/
structure Port where
  /-- STATE; 07 Table 7-9; OFF -/
  st : PState := .off
  /-- the port has reached UP or DOWN since START; 07 R287; false -/
  settled : Bool := false
  /-- RATE: Reach-2; 07 Table 7-9; 0 -/
  rate2 : Bool := false
  /-- HALF; 07 Table 7-9; 0 -/
  half : Bool := false
  /-- CONSERV; 07 Table 7-9; 0 -/
  conserv : Bool := false
  /-- FALLBACK; 07 Table 7-9; 0 -/
  fallback : Bool := false
  /-- GOOD_LANES; 8 bits; 07 Table 7-9; 0 -/
  goodLanes : BitVec 8 := 0
  /-- DOWN_REASON; 4 bits; 07 Table 7-9; 0 -/
  downReason : Nat := 0
  /-- counts of the retrains in the current 10 s window (RETRAINS); 07 Table 7-9; empty -/
  retrains : List (BitVec 64) := []
  /-- ATTEMPTS; 2 bits; 07 Table 7-9; 0 -/
  attempts : Nat := 0
  /-- Stroke count at which the present state or detection began; 07 Table 7-3; 0 -/
  since : BitVec 64 := 0
  /-- PORT_RETRY.COUNT; 48 bits; 07 Table 7-9; 0 -/
  retry : Nat := 0
  /-- PORT_CRC.COUNT; 48 bits; 07 Table 7-9; 0 -/
  crc : Nat := 0
  /-- replay buffer, oldest first; at most 512 flits; 07 R292; empty -/
  replay : List Flit := []
  /-- control packets (EASY_ALL, BOOT) that wait for room in the replay buffer; 07 R300; empty -/
  ctlq : List Packet := []
  /-- sequence number of the next flit to send; 12 bits; 07 R292; 0 -/
  txSeq : BitVec 12 := 0
  /-- sequence number expected next; 12 bits; 07 R292; 0 -/
  rxSeq : BitVec 12 := 0
  /-- the receiver has sent a NAK and discards until the failed flit arrives; 07 R292; false -/
  nak : Bool := false
  /-- counts of recent resends, newest first: (count, flits); 07 R296; empty -/
  resends : List (BitVec 64 × Nat) := []
  /-- in-service re-equalisation in progress since; 07 R293; none -/
  reeq : Option (BitVec 64) := none
  /-- flits that the partner has still to resend; 07 R292; 0 -/
  resent : Nat := 0
  /-- partner's RACK as reported in IDENT; 12 R490; none -/
  partnerRack : Option (BitVec 8) := none
  /-- Stroke count of the last marker sent, and of the last received; 08 R327; none -/
  markTx : Option (BitVec 64) := none
  markRx : Option (BitVec 64) := none
  /-- last advertisement heard; 08 R329; none -/
  advert : Option Advert := none
deriving DecidableEq, Repr

/-- A packet that has arrived and not been handled; `port` is none for this device's own (07 R304). -/
structure Arrival where
  port : Option PortIx
  pkt  : Packet
  /-- in escape: the ring's dimension, and whether its dateline is crossed (07 R300) -/
  esc  : Option (Nat × Bool)
deriving DecidableEq, Repr

/-- Who is answered from a pending slot (07 R305). -/
structure Rec where
  src    : BitVec 14
  handle : BitVec 32
  rgen   : BitVec 6
deriving DecidableEq, Repr

/-- A combiner entry (07 R304). -/
structure Comb where
  dest   : BitVec 14
  jobid  : BitVec 32
  loc    : BitVec 42
  value  : Word
  /-- absorbed records; the entry's own first -/
  recs   : List Rec
  /-- pending slot taken at the first absorption -/
  slot   : Option Nat
  entered : BitVec 64
  /-- of the entry's own packet: in escape (07 R300) -/
  esc    : Option (Nat × Bool)
deriving DecidableEq, Repr

/-- A packet waiting in an output queue of the router (07 R299 to R301). -/
structure Queued where
  pkt     : Packet
  since   : BitVec 64
  /-- in escape: the ring's dimension, and whether its dateline is crossed (07 R300) -/
  esc     : Option (Nat × Bool)
  /-- its combiner entry, which absorbs until the packet leaves (07 R304) -/
  entry   : Option Comb := none
deriving DecidableEq, Repr

/-- A pending-acknowledgement slot in use (07 R305). -/
structure PendSlot where
  recs : List Rec
  sent : BitVec 64
deriving DecidableEq, Repr

/-- A kept easy-all triple (07 R310); also the key of a BOOT packet (12 R490). -/
structure Triple where
  job    : BitVec 32
  origin : BitVec 14
  stroke : BitVec 64
  boot   : Bool
  kept   : BitVec 64
deriving DecidableEq, Repr

/-- Placement results (07 Table 7-9, FAB_STAT.PLACE). -/
inductive Place where
  | idle | training | placed | refusedSize | refusedCfg
deriving DecidableEq, Repr

/-- The Reach unit. -/
structure Fabric where
  /-- FAB_CFG X, Y, Z; 2 bits each; 07 Table 7-9; 0 -/
  x : BitVec 2 := 0
  y : BitVec 2 := 0
  z : BitVec 2 := 0
  /-- FAB_CFG.RACK; 8 bits; 07 Table 7-9; 0 -/
  rack : BitVec 8 := 0
  /-- FAB_CFG.RACKS; 9 bits; 07 Table 7-9; 0 -/
  racks : BitVec 9 := 0
  /-- FAB_CFG.START and its Stroke count; 07 R287; none -/
  start : Option (BitVec 64) := none
  /-- FAB_STAT.PLACE; 07 Table 7-9; IDLE -/
  place : Place := .idle
  /-- DEV_PLACE.DEV_NUM; 14 bits; 01 Table 1-3; 0 -/
  devNum : BitVec 14 := 0
  /-- DEV_PLACE.PLACED; 01 Table 1-3; 0 -/
  placed : Bool := false
  /-- DEV_PLACE.MACHINE_SIZE; 15 bits; 01 Table 1-3; 1 -/
  machine : Nat := 1
  /-- COMB_CFG.EN; 07 Table 7-9; 1 -/
  combEn : Bool := true
  /-- COMB_CFG.HOLD_NS; 11 bits; 07 Table 7-9; 0 -/
  holdNs : Nat := 0
  /-- EASYALL_LOG0 and LOG1; 07 Table 7-9; 0 (VALID 0) -/
  logJob : BitVec 32 := 0
  logOrigin : BitVec 14 := 0
  logCause : BitVec 8 := 0
  logValid : Bool := false
  logStroke : BitVec 64 := 0
  /-- FAB_FAULT_LOG; 07 Table 7-9; 0 -/
  ffReason : Nat := 0
  ffDest : BitVec 14 := 0
  ffJob : BitVec 32 := 0
  /-- CNT_UNROUTABLE; 32 bits; 07 Table 7-9; 0 -/
  cntUnroutable : Nat := 0
  /-- CNT_COMBINED; 48 bits; 07 Table 7-9; 0 -/
  cntCombined : Nat := 0
  /-- Stroke count of the last FAB_UNROUTABLE event; 07 R301; none -/
  unroutableAt : Option (BitVec 64) := none
  /-- the twelve ports; 07 R282; OFF -/
  ports : Tbl Port := []
  /-- packets arrived and not yet handled; 07 R297; empty -/
  arrived : List Arrival := []
  /-- router output queues; 07 R299; empty -/
  queue : List Queued := []
  /-- combiner entries held for HOLD_NS; with those of the output queues at most 256; 07 R304, R306; empty -/
  comb : List Comb := []
  /-- pending-acknowledgement table; 512 slots; 07 R304; free -/
  slots : Tbl (Option PendSlot) := []
  /-- easy-all triples, newest first; at most 64; 07 R310; empty -/
  triples : List Triple := []
deriving DecidableEq, Repr

/-! ### Stroke -/

/-- Synchronisation states (08 Table 8-1). -/
inductive SState where
  | init | master | acquire | locked | holdover
deriving DecidableEq, Repr

/-- The Stroke unit. -/
structure Stroke where
  /-- the Stroke counter; 64 bits; 08 R324; 0 -/
  now : BitVec 64 := 0
  /-- STATE; 08 Table 8-3; INIT -/
  st : SState := .init
  /-- PARENT; 4 bits; 08 Table 8-3; none (0xF) -/
  parent : Option PortIx := none
  /-- MASTER; 14 bits; 08 Table 8-3; 0 -/
  master : BitVec 14 := 0
  /-- HOPS; 10 bits; 08 Table 8-3; 0 -/
  hops : Nat := 0
  /-- EVER_LOCKED; 08 R326; 0 -/
  ever : Bool := false
  /-- STROKE_OFFSET; signed 32 bits, 1/16 ns; 08 Table 8-3; 0 -/
  offset : Int := 0
  /-- STROKE_RATE; signed 24 bits, 0.01 ppm; 08 Table 8-3; 0 -/
  rate : Int := 0
  /-- CNT_MASTER_CHANGE; 32 bits; 08 Table 8-3; 0 -/
  cntMaster : Nat := 0
  /-- Stroke count of the last master change; 08 Table 8-2, 14 R582; none -/
  masterAt : Option (BitVec 64) := none
  /-- CNT_CATCH_SLIP; 32 bits; 08 Table 8-3; 0 -/
  cntSlip : Nat := 0
  /-- announcement number that this device advertises; 32 bits; 08 R327, R329; 0 (log 5) -/
  ann : BitVec 32 := 0
  /-- consecutive markers within 2 ns; 08 Table 8-1; 0 -/
  run : Nat := 0
  /-- the counter has been stepped to the present parent's count; 08 Table 8-1; false -/
  stepped : Bool := false
deriving DecidableEq, Repr

/-! ### Power and heat -/

/-- One supply phase (09 R368, R370). -/
structure Phase where
  /-- PWR_PHASE_OPEN bit; 09 Table 9-6; 0 -/
  isOpen : Bool := false
  /-- PWR_PHASE_EXCL bit; 09 Table 9-6; 0 -/
  excl : Bool := false
  /-- last reading, in mA; 09 R362; 0 -/
  last : Int := 0
  /-- consecutive samples below 1 A under load; 09 R368; 0 -/
  low : Nat := 0
  /-- consecutive samples above twice the mean; 09 R370; 0 -/
  high : Nat := 0
  /-- consecutive unchanged samples; 09 R370; 0 -/
  same : Nat := 0
  /-- domain current at the first of the last 100 of them, and its least and greatest over those, in mA; 09 R370; 0 -/
  refI : Int := 0
  minI : Int := 0
  maxI : Int := 0
deriving DecidableEq, Repr

/-- One supply domain (09 R362, R363). -/
structure Domain where
  /-- PWR_DOM.CURRENT, in mA; 09 Table 9-6; 0 -/
  current : Int := 0
  /-- PWR_DOM.VOLTAGE, in mV; 09 Table 9-6; 0 -/
  voltage : Nat := 0
  /-- PWR_DOM.EST; 09 R363; 0 -/
  est : Bool := false
  /-- sums over the present 1 ms interval and its sample count; 09 R362; 0 -/
  sumI : Int := 0
  sumV : Nat := 0
  n : Nat := 0
  /-- current at the latest sample, in mA, and voltage, in mV; 09 R374, R387; 0 -/
  nowI : Int := 0
  nowV : Nat := 0
  /-- currents of the last 100 samples, newest first, in mA; 09 R370; empty -/
  hist : List Int := []
deriving DecidableEq, Repr

/-- One diode (09 R377 to R379). -/
structure Diode where
  /-- RAW; signed, 0.125 °C; 09 Table 9-6; 0 -/
  raw : Int := 0
  /-- EFF; signed, 0.125 °C; 09 Table 9-6; 0 -/
  eff : Int := 0
  /-- SUSPECT; 09 R379; 0 -/
  suspect : Bool := false
  /-- consecutive samples off the model, and within 3 °C of it; 09 R379; 0 -/
  bad : Nat := 0
  good : Nat := 0
deriving DecidableEq, Repr

/-- Power, thermal and governor state of the device (09 Table 9-6). -/
structure Power where
  /-- PWR_POLICY.LIMIT_W; 11 bits; 1050 -/
  limitW : Nat := 1050
  /-- PWR_POLICY.T_TARGET; 8 bits; 100 -/
  tTarget : Nat := 100
  /-- PWR_POLICY.G; 8 bits; 4 -/
  g : Nat := 4
  /-- PWR_POLICY.MGMT_LIMIT_W; 11 bits; 1050 -/
  mgmtW : Nat := 1050
  /-- PWR_LIMIT.W_LOGIC, in pW; 0 -/
  wLogic : Nat := 0
  /-- current clamp's stretch level; 2 bits; 09 R374; 0 -/
  clamp : Nat := 0
  /-- PWR_LIMIT.SHORT; 09 R373; 0 -/
  short : Bool := false
  /-- CNT_CLAMP; 32 bits; 0 -/
  cntClamp : Nat := 0
  /-- the 37 phases; 09 Table 9-1; not open, not excluded -/
  phases : Tbl Phase := []
  /-- the four domains; 09 Table 9-1; 0 -/
  doms : Tbl Domain := []
  /-- VDD_LOGIC setpoint, in mV; 09 R364; 625 (P15) -/
  setpoint : Nat := 625
  /-- setpoint of the last pass, not yet in force for a slower point; 09 R365; 625 -/
  wantSet : Nat := 625
  /-- the governor has made its first pass; 09 R401; false -/
  governed : Bool := false
  /-- Stroke count of the last pass; 09 R384; 0 -/
  passAt : BitVec 64 := 0
  /-- a pass is requested; 09 R369; false -/
  passDue : Bool := false
  /-- Stroke count at which the clamp returned to 0; 09 R376; none -/
  clampFree : Option (BitVec 64) := none
  /-- THERM_SEL.DIODE; 7 bits; 09 Table 9-6; 0 -/
  thermSel : Nat := 0
  /-- the 72 diodes; 09 R377; 0 -/
  diodes : Tbl Diode := []
  /-- sampling interval of each of the ten groups: 0 1 ms, 1 125 µs, 2 15.6 µs; 09 R378; 0 -/
  ivals : Tbl Nat := []
deriving DecidableEq, Repr

/-! ### Umpire -/

/-- Tile states (10 R402); FUSED stands for a tile with no state. -/
inductive UState where
  | active | suspect | quarantined | cleared | retired | fused
deriving DecidableEq, Repr

/-- Tile roles (10 R402). -/
inductive Role where
  | enabled | spare | out | fused
deriving DecidableEq, Repr

/-- A row of the tile state table (10 R402, Table 10-8 UMP_TILE). -/
structure UmpTile where
  /-- STATE; ACTIVE (from the retired map at a start) -/
  st : UState := .active
  /-- ROLE; SPARE until the map build binds the tile -/
  role : Role := .spare
  /-- PENDING and the Stroke count at which it was set; 10 R424; none -/
  pending : Option (BitVec 64) := none
  /-- CAUSE; 8 bits; Table 10-9; 0 -/
  cause : Nat := 0
  /-- GCREW and LTILE when ENABLED; 0 -/
  gcrew : Nat := 0
  ltile : Nat := 0
  /-- the tile has been CLEARED before; 10 Table 10-5; false -/
  wasCleared : Bool := false
  /-- Stroke counts of corrected errors in the trailing 3,600 s, newest first (CE_HOUR); empty -/
  ces : List (BitVec 64) := []
  /-- clean suspect-rate rounds in a row; 10 Table 10-5; 0 -/
  clean : Nat := 0
  /-- a nominal sweep of the present round has passed; false -/
  nomOk : Bool := false
  /-- it has failed a trial of the sweep in progress; 10 R425; false -/
  sweepBad : Bool := false
  /-- isolation sweeps passed; 10 R426; 0 -/
  isoPass : Nat := 0
  /-- nominal and margin sweep passed since power-on; 10 R425; false -/
  sweptNom : Bool := false
  sweptMar : Bool := false
  /-- Stroke counts of the last nominal and margin sweep of a spare or quarantined tile; 0 -/
  lastNom : BitVec 64 := 0
  lastMar : BitVec 64 := 0
  /-- next trial of an interrupted nominal and margin sweep; 10 R410; 0 -/
  resumeNom : Nat := 0
  resumeMar : Nat := 0
  /-- a nominal and a margin sweep were made due at once; 10 Table 10-8; false -/
  dueNom : Bool := false
  dueMar : Bool := false
  /-- launch and context of the trigger that set PENDING; 10 Table 10-8 UMP_LOG_W2; none -/
  pendLaunch : Option (BitVec 32 × Nat) := none
deriving DecidableEq, Repr

/-- One logical crew (01 R31, R33; 10 R409). -/
structure Crew where
  /-- physical tiles of logical tiles 0-7; empty when the crew is not enabled; 12 R481 -/
  tiles : List Nat := []
  /-- berth that owns it; 06 R247; none -/
  berth : Option Nat := none
  /-- Stroke counts of the last nominal and margin sweep; 0 -/
  lastNom : BitVec 64 := 0
  lastMar : BitVec 64 := 0
  /-- next trial of an interrupted nominal and margin sweep; 10 R410; 0 -/
  resumeNom : Nat := 0
  resumeMar : Nat := 0
  /-- a nominal and a margin sweep were made due at once; 10 Table 10-8; false -/
  dueNom : Bool := false
  dueMar : Bool := false
  /-- context whose executing launch holds it; none -/
  heldBy : Option Nat := none
  /-- context whose pair check or triage uses it; none -/
  partnerOf : Option Nat := none
  /-- its claimed trial has run since it last became idle; 10 R414; false -/
  claimUsed : Bool := false
  /-- last launch that executed on it: (launch ID, context); 10 R430; none -/
  lastLaunch : Option (BitVec 32 × Nat) := none
deriving DecidableEq, Repr

/-- What a sweep runs on (10 R408). -/
inductive Subject where
  | crew (g : Nat)
  | tile (n : Nat)
deriving DecidableEq, Repr

/-- Umpire work in progress: one trial of a sweep (10 R404, R407). -/
structure Work where
  subject : Subject
  margin  : Bool
  /-- index of the trial in the order of Table 10-1 -/
  trial   : Nat
  /-- tiles that failed the first run, while the retry runs -/
  retry   : Option (List Nat)
  isolation : Bool
  /-- power committed to the partition, in pW (10 R411) -/
  power   : Nat
  /-- claimed for an overdue crew ahead of dispatch (10 R414) -/
  claimed : Bool
  /-- QSWEEPS and CLEAN when it began (10 R435) -/
  qsweeps : Nat
  clean   : Nat
deriving DecidableEq, Repr

/-- A retired map entry waiting to be written (10 R431). -/
structure MapEntry where
  ptile : Nat
  kind  : Nat
  cause : Nat
  boots : Nat
deriving DecidableEq, Repr

/-- Umpire registers and tables (10 Table 10-8). -/
structure Umpire where
  /-- UMP_CTRL.TRIALS; 1 -/
  trials : Bool := true
  /-- UMP_CTRL.PAIR; 1 -/
  pair : Bool := true
  /-- UMP_CTRL.SPARE_WARN; 16 -/
  spareWarn : Nat := 16
  /-- UMP_PERIOD TRIAL_S, MARGIN_S, SUSPECT_S; 300, 3600, 10 -/
  trialS : Nat := 300
  marginS : Nat := 3600
  suspectS : Nat := 10
  /-- UMP_POLICY INTERVAL, PIN_LIMIT_S, CE_LIMIT, CLEAN, QSWEEPS; 64, 30, 16, 8, 16 -/
  interval : Nat := 64
  pinLimitS : Nat := 30
  ceLimit : Nat := 16
  clean : Nat := 8
  qsweeps : Nat := 16
  /-- UMP_CHECK_CTX; 64 bits; 0 -/
  checkCtx : BitVec 64 := 0
  /-- UMP_EPOCH.EPOCH; 32 bits; 10 R428; 0 before the start reads BOOTS -/
  epoch : BitVec 32 := 0
  /-- UMP_EPOCH.BOOTS as read from flash; 32 bits; 10 R428; 0 -/
  boots : Nat := 0
  /-- UMP_CMD_STAT.RESULT; 0 -/
  result : Nat := 0
  /-- UMP_TILE_SEL.PTILE; 13 bits; 0 -/
  tileSel : Nat := 0
  /-- UMP_RMAP_HASH, 48 bytes; 10 R433; empty (reads 0) before the start writes it -/
  rmapHash : List Byte := []
  /-- CNT_SWEEP .. CNT_EPOCH_LOST, eight counters of 48 bits; 0 -/
  cnt : Tbl Nat := []
  /-- the log of 64 entries; 10 R436; empty -/
  log : Ring UmpEntry := { }
  /-- tile state table; 10 R402; see UmpTile -/
  tiles : Tbl UmpTile := []
  /-- dispatch map: logical crews by global crew index 64 p + n; 12 R481; none enabled -/
  crews : Tbl Crew := []
  /-- enabled crews per partition; 12 R481; 0 -/
  nCrews : Tbl Nat := []
  /-- UMP_SUB_GRADE raised for the partition; 10 R434; false -/
  subRaised : Tbl Bool := []
  /-- trials in progress; 10 R407; empty -/
  work : List Work := []
  /-- eligible launches since the last sample, and samples so far; 10 R417; 0 -/
  eligible : Nat := 0
  samples : Nat := 0
  /-- a sample is owed: it passed to the next eligible launch; 10 R417; false -/
  owed : Bool := false
  /-- partner rotation: last global crew index used; 10 R417; 0 -/
  rotate : Nat := 0
  /-- retired map entries not yet in flash, oldest first; 10 R431; empty -/
  toFlash : List MapEntry := []
  /-- Stroke count of the last failed write; 10 R431; none -/
  flashFail : Option (BitVec 64) := none
  /-- tiles whose eviction waits for aborts to stop the crew; 10 R430; empty -/
  evicting : List Nat := []
  /-- power committed to Umpire work per partition, in pW; 10 R411; 0 -/
  commit : Tbl Nat := []
  /-- MARGIN_AGE_S reference: Stroke count of READY; 0 -/
  readyAt : BitVec 64 := 0
deriving DecidableEq, Repr

/-! ### Resets -/

/-- A reset log entry (11 Table 11-12, RESET_LOG_W0 to W3). -/
structure ResetEntry where
  w0 : BitVec 64
  w1 : BitVec 64
  w2 : BitVec 64
  w3 : BitVec 64
deriving DecidableEq, Repr

/-- Reset unit and watchdog (11 Table 11-12). -/
structure Resets where
  /-- RST_STAT.OOS; 0 -/
  oos : Bool := false
  /-- RST_STAT.OOS_CAUSE; 4 bits; 0 -/
  oosCause : Nat := 0
  /-- RST_STAT.COX_RESTARTING: start of the Cox restart; none -/
  cox : Option (BitVec 64) := none
  /-- starts of recent Cox restarts, newest first; 11 R463; empty -/
  coxTimes : List (BitVec 64) := []
  /-- WDOG_STAT: last beat of each core; 11 R460; 0 -/
  beats : Tbl (BitVec 64) := []
  /-- the watchdog is armed; 12 Table 12-1; false -/
  armed : Bool := false
  /-- WDOG_STAT.RESTARTS; 32 bits; 0 -/
  restarts : Nat := 0
  /-- ESC_POLICY.COUNT; 5 bits; 4 -/
  escCount : Nat := 4
  /-- ESC_POLICY.WINDOW_S; 12 bits; 600 -/
  escWindow : Nat := 600
  /-- Stroke counts of the escalation events, newest first (IN_WINDOW); empty -/
  escEvents : List (BitVec 64) := []
  /-- ESC_STAT.TOTAL; 32 bits; 0 -/
  escTotal : Nat := 0
  /-- the reset that reached the count (a partition, or 8 for a Cox restart): the device leaves service when it
  completes; 11 R464; none -/
  escDue : Option Nat := none
  /-- reset log of 16 entries; 11 R468; empty -/
  log : Ring ResetEntry := { }
  /-- CLK_STAT MCLK, SCLK, PCLK; 0 before the start locks them -/
  mclk : Bool := false
  sclk : Bool := false
  pclk : Bool := false
deriving DecidableEq, Repr

/-! ### Start and firmware -/

/-- Start stages (12 Table 12-9, BOOT_STAT.STAGE). -/
inductive Stage where
  | rom | load | maps | train | qualify | ready | recovery | failed
deriving DecidableEq, Repr

/-- A boot record (12 Table 12-5). -/
structure BootRec where
  seq     : Nat := 0
  active  : Bool := false
  trial   : Bool := false
  fellBack : Bool := false
  rejA    : Bool := false
  rejB    : Bool := false
  trialBoots : Nat := 0
  trialMin   : Nat := 0
  activeVer  : BitVec 32 := 0
  standbyVer : BitVec 32 := 0
deriving DecidableEq, Repr

/-- A PLDM download in progress (13 R536). -/
structure Download where
  maxXfer : Nat
  began   : Bool
  /-- bytes of the header held in management memory -/
  header  : List Byte
  /-- next offset that the device asks for -/
  nextOff : Nat
  total   : Nat
  sealed  : Bool
  /-- Stroke count of the agent's last command; 13 R536 -/
  lastAt  : BitVec 64 := 0
deriving DecidableEq, Repr

/-- A broadcast session being received (12 R491). -/
structure Session where
  id     : BitVec 32
  n      : Nat
  /-- chunks held, ascending -/
  chunks : List Nat
  /-- chunks 0-15 as held in management memory: (index, bytes) -/
  head   : List (Nat × List Byte)
  lastAt : BitVec 64
deriving DecidableEq, Repr

/-- A broadcast being sent by the seed (12 R489). -/
structure Seeding where
  session : BitVec 32
  n       : Nat
  /-- chunks sent -/
  sent    : Nat
  lastAt  : BitVec 64
deriving DecidableEq, Repr

/-- Boot and firmware registers and state (12 Table 12-9). -/
structure Boot where
  /-- STAGE; 4 bits; ROM -/
  stage : Stage := .rom
  /-- CE_STAT.READY; 06 Table 6-12; 0 -/
  ready : Bool := false
  /-- SLOT: running slot is B; Boot: 0 before the start -/
  slot : Bool := false
  /-- TRIAL of the running slot; Boot: 0 before the start -/
  trial : Bool := false
  /-- the record in force, from which TRIAL_BOOTS, TRIAL_MIN and FELL_BACK read; Boot: 0 before the start -/
  record : BootRec := { }
  /-- RECORD_REPAIRED; 0 -/
  repaired : Bool := false
  /-- AFTER_TRIP; Boot: 0 before the start -/
  afterTrip : Bool := false
  /-- SESSION; 32 bits; 0 -/
  session : BitVec 32 := 0
  /-- FW_VERSION.VERSION and MIN_STEPPING of the running image; Boot: 0 before the start -/
  version : BitVec 32 := 0
  minStep : Nat := 0
  /-- FW_SLOTn.REASON; 4 bits each; 0 -/
  reasonA : Nat := 0
  reasonB : Nat := 0
  /-- FW_CMD_STAT.RESULT; 0 -/
  result : Nat := 0
  /-- BOOT_HBM_FAIL; none (VALID 0) -/
  hbmFail : Option HbmFail := none
  /-- BOOT_READY_AT; 64 bits; 0 -/
  readyAt : BitVec 64 := 0
  /-- Stroke count of the last TRIAL_MIN increment; 12 R503; 0 -/
  minuteAt : BitVec 64 := 0
  /-- TRIAL_MIN reached 30: the Stroke count at which READY fell; 12 R503; none -/
  expireAt : Option (BitVec 64) := none
  /-- download in progress; 13 R536; none -/
  download : Option Download := none
  /-- broadcast session being received (BCAST_RX); 12 R491; none -/
  rx : Option Session := none
  /-- broadcast being sent; 12 R489; none -/
  seeding : Option Seeding := none
  /-- the COX section as loaded into management memory; 12 R496; empty -/
  coxMem : List Byte := []
  /-- SHA-384 of the COX section kept in the always-on block; 12 R496; empty -/
  coxSha : List Byte := []
  /-- the loaded MCODE section; 12 R482, R483; empty -/
  mcode : List Byte := []
  /-- microcode has been broadcast and checked; 12 R483; false -/
  mcodeDone : Bool := false
  /-- latent microcode errors: key tile × 2,048 + word; 12 R482; none -/
  mcodeErr : Tbl EccErr := []
  /-- the Cox firmware runs; 15 R593; false -/
  cox : Bool := false
  /-- HBM training has ended, so the scrubber and the governor run; 12 R479, R480; false -/
  trained : Bool := false
deriving DecidableEq, Repr

/-! ### Host and management -/

/-- Host interface and management registers (13 Table 13-11). -/
structure HostIf where
  /-- HOST_IF_STAT SPEED, WIDTH, FLIT, CXL, DEGRADED; 0 -/
  speed : Nat := 0
  width : Nat := 0
  flit : Bool := false
  cxl : CxlMode := .none
  degraded : Bool := false
  /-- the host is attached (not detached since the link came up); 13 R522; false -/
  attached : Bool := false
  /-- BAR2_WIN.BASE, in GiB; 9 bits; 0 -/
  bar2 : Nat := 0
  /-- aperture of BAR2, in GiB: 1 to 512 in powers of two; 13 Table 13-1; 64 -/
  aperture : Nat := 64
  /-- the function is in D3hot; 13 Table 13-1; false (D0) -/
  d3hot : Bool := false
  /-- AER has recorded an Unsupported Request; 13 Table 13-1, R518; false -/
  aerUr : Bool := false
  /-- EVT_CFG SIZE, EN, IRQ_EN, BASE; 0 -/
  evtSize : Nat := 0
  evtEn : Bool := false
  evtIrq : Bool := false
  evtBase : Nat := 0
  /-- EVT_HEAD; 12 bits; 0 -/
  evtHead : Nat := 0
  /-- EVT_STAT TAIL, PHASE, LOST; 0, 1, 0 -/
  evtTail : Nat := 0
  evtPhase : Bool := true
  evtLost : Nat := 0
  /-- entries were lost before the next one; 13 R529; false -/
  lostBefore : Bool := false
  /-- HOST_DROP; 32 bits; 0 -/
  hostDrop : Nat := 0
  /-- Stroke count of the last HOST_WRITE_DROPPED; 13 R519; none -/
  dropAt : Option (BitVec 64) := none
  /-- DMA_FAULT_LOG CTX, KIND and ADDR; 0 -/
  dmaCtx : Nat := 0
  dmaKind : Nat := 0
  dmaAddr : BitVec 64 := 0
  /-- SHADOW_STAT EPOCH, MISMATCH_RUN, DIVERGE; 0 -/
  shEpoch : BitVec 32 := 0
  misRun : Nat := 0
  diverge : Nat := 0
  /-- MGMT_STAT: dynamic I3C address; none (static) -/
  i3c : Option (BitVec 7) := none
  /-- MCTP endpoint IDs by binding (0 I3C, 1 SMBus, 2 PCIe VDM); 13 R531; 0 -/
  eids : Tbl (BitVec 8) := []
  /-- MGMT_REFUSED; 32 bits; 0 -/
  refused : Nat := 0
  /-- PLDM event receiver; 13 R535; none -/
  receiver : Option (BitVec 8) := none
  /-- unsent PlatformEventMessages, oldest first; at most 64; 13 R535; empty -/
  unsent : List PldmMsg := []
  /-- messages were lost before the next one; 13 R535, 15 R593; false -/
  msgLost : Bool := false
  /-- events held while the Cox firmware does not run; at most 64; 15 R593; empty -/
  heldEvents : List Event := []
  /-- events that the full buffer discarded; 15 R593; 0 -/
  heldLost : Nat := 0
  /-- the shadow state table; 4,800 bytes; 13 R540; empty (reads 0) -/
  shadow : List Byte := []
  /-- its SEQ; 32 bits; 13 R540; 0 -/
  shSeq : Nat := 0
  /-- Stroke count of the last change of the live map or a tile state; 13 R543; 0 -/
  mapAt : BitVec 64 := 0
  /-- Stroke count from which the reconciler next tries a comparison; 13 R543; one second -/
  recDue : BitVec 64 := 1000000000
  /-- SPDM: algorithms negotiated; 13 R538; false -/
  spdm : Bool := false
deriving DecidableEq, Repr

/-! ### Card and rack -/

/-- Lamp status (14 R567). -/
inductive LampSt where
  | ok | openCircuit | short | unverified
deriving DecidableEq, Repr

/-- One lamp (14 R565 to R569). -/
structure LampS where
  /-- drive: 0 off, 1 blinking, 2 solid; 14 Table 14-5; 0 -/
  drive : Nat := 0
  /-- status; 14 R567; UNVERIFIED (log 5) -/
  st : LampSt := .unverified
  /-- consecutive failing measurements; 14 R567; 0 -/
  fails : Nat := 0
  /-- card time of the latest measurement; 14 R567; none -/
  measured : Option Nat := none
  /-- FLICKER_FREE; 14 R568; 0 (log 5) -/
  flickerFree : Bool := false
  /-- card time at which the latest lengthened pulse began; 14 R568; none -/
  pulseAt : Option Nat := none
deriving DecidableEq, Repr

/-- An entry of the card controller's log (14 R564). -/
structure CardEntry where
  code  : Nat
  secs  : Nat
  mv    : Nat
  watts : Nat
deriving DecidableEq, Repr

/-- What the card controller reports to the rack management controller (14 R564, R569). -/
inductive CardOut where
  | entry (e : CardEntry)
  /-- a lamp (0 green, 1 amber, 2 blue) and its new status -/
  | lamp (l : Nat) (st : LampSt)
deriving DecidableEq, Repr

/-- The supplies of the card; the KR1's and the HBM4 stacks' after STBY (14 Table 14-1). -/
inductive Supply where
  | stby | array | logic | mif | link | vpp | vddc | vddq
deriving DecidableEq, Repr

/-- The order in which they are brought up (14 R556). -/
def supplyOrder : List Supply := [.stby, .array, .logic, .mif, .link, .vpp, .vddc, .vddq]

/-- A command to the lamps (14 R565, R566, R569). -/
inductive LampCmd where
  | locate (on : Bool)
  | duty (duty : Nat) (flickerFree : BitVec 3)
  | test
deriving DecidableEq, Repr

/-- Card controller (14). -/
structure Card where
  /-- supplies that are on, in the order of their bring-up; 14 R554, R556; all (log 6) -/
  supplies : List Supply := supplyOrder
  /-- POWER_GOOD: the device is powered; 14 R556; true at reset (log 6) -/
  power : Bool := true
  /-- 54 V present, so the controller runs; 14 R563; true (log 6) -/
  input : Bool := true
  /-- code of the last removal of device power; 14 Table 14-4; 0 -/
  offCode : Nat := 0
  /-- card time, in ns since the controller started, and its value at the last removal; 14 R564; 0 -/
  time : Nat := 0
  offAt : Nat := 0
  /-- log of 1,024 entries, oldest first; 14 R564; empty -/
  log : List CardEntry := []
  /-- card time of its last entry; 14 R564; none -/
  logAt : Option Nat := none
  /-- tray strap t and slot strap s; 14 R563; 0 (log 7) -/
  tray : BitVec 4 := 0
  slot : BitVec 2 := 0
  /-- RACK_PRESENT; 14 R563; false (log 7) -/
  rackPresent : Bool := false
  /-- RACK and RACKS delivered by the rack controller; 14 R563; 0 -/
  rack : BitVec 8 := 0
  racks : BitVec 9 := 0
  /-- the rack controller has delivered them; 12 R478, 14 R563; false -/
  delivered : Bool := false
  /-- green, amber and blue lamp; 14 R565; see LampS -/
  lamps : Tbl LampS := []
  /-- LOCATE in force; 14 Table 14-5; false -/
  locate : Bool := false
  /-- DUTY in 0.1 %; 14 R566; 1000 (log 5) -/
  duty : Nat := 1000
  /-- lamp commands that wait for the end of a lengthened pulse, oldest first; 14 R580; empty -/
  waiting : List LampCmd := []
  /-- the card flash fails every write; MODEL, which no command sets (12 R498, log 31); false -/
  flashFails : Bool := false
  /-- LAMP_TEST in force until this card time; 14 R569; none -/
  testUntil : Option Nat := none
  /-- the multiphase controller reported an open phase; 14 Table 14-4; false -/
  phaseOpen : Bool := false
deriving DecidableEq, Repr

/-- Rack management controller as this card meets it (14 R572 to R576). -/
structure Rack where
  /-- working power shelves, 0-6; 14 R572; 6 -/
  shelves : Nat := 6
  /-- tray of this card enabled; 12 R486; true at reset (log 6) -/
  trayOn : Bool := true
  /-- flow below 48 L/min since this card time; 14 R574; none -/
  lowFlow : Option Nat := none
  /-- the coolant limit of 700 W is in force; 14 R574; false -/
  coolant : Bool := false
deriving DecidableEq, Repr

/-! ### Outputs -/

/-- A message that leaves the device on a management interface (13). -/
inductive MgmtOut where
  /-- an ActivateFirmware response: its completion code, and that a reset is needed (13 R536) -/
  | activated (code : Nat) (resetNeeded : Bool)
  /-- a vendor command's status and data (13 R541) -/
  | vendor (status : Nat) (data : List Byte)
  /-- a PLDM sensor reading in units of 0.001 (13 R533) -/
  | sensor (id : Nat) (milli : Int)
  | pldm (code : Nat)
  /-- RequestFirmwareData: offset and length (13 R536) -/
  | want (off len : Nat)
  | spdm (data : List Byte)
  | spdmError
deriving DecidableEq, Repr

/-- A completed host read (13 R519, R518). -/
structure HostData where
  data     : List Byte
  poisoned : Bool
  unsupported : Bool
deriving DecidableEq, Repr

/-- Fuses of the device (01 Table 1-2, 09 R372, R379, R385, 12 Table 12-1). -/
structure Fuses where
  /-- STEPPING: B0; log 7 -/
  b0 : Bool := false
  /-- GRADE 0-2; log 7 -/
  grade : Nat := 0
  /-- disabled map: physical tiles, ascending; log 7 -/
  disabled : List Nat := []
  /-- calibration offset of each diode, 0.125 °C; log 7 -/
  calib : Tbl Int := []
  /-- VDD_LOGIC supply resistance of each region, µΩ; log 7 -/
  resist : Tbl Nat := []
  /-- leakage conductance of each partition, µS; log 7 -/
  leak : Tbl Nat := []
  /-- SHA-384 of the firmware signing key; log 7 -/
  keyHash : List Byte := []
deriving DecidableEq, Repr

/-- Why the machine stops with a fault. Every command of the specification ends in a next state, so
there is no constructor: no command raises a fault. -/
inductive Fault where
deriving DecidableEq, Repr

/-- Why a command has no meaning. -/
inductive Refusal where
  /-- Raised by exec for a command that has no meaning yet; safe. No arm of exec raises it now. -/
  | notModelled (mnemonic : String)
deriving DecidableEq, Repr

/-- The machine. -/
structure State where
  /-- commands waiting, first in, first out; MODEL; empty -/
  pending : List Instr := []
  /-- MODEL: how many free values have been drawn (log 1); DESIGN CHOICE 0 -/
  freeIx : Nat := 0
  fuses : Fuses := { }
  /-- the tiles that differ from a blank tile, by physical tile number; 02 R59 -/
  tiles : Tbl Tile := []
  /-- TILE_ECC.CE and UE per physical tile; 32 and 16 bits; 02 R101; 0 -/
  tileCe : Tbl Nat := []
  tileUe : Tbl Nat := []
  parts : Tbl Part := []
  ctxs : Tbl Ctx := []
  stks : Tbl Stack := []
  /-- HBM contents by physical address; 05 R201; unlisted bytes read 0 (log 8) -/
  hbm : Tbl Byte := []
  /-- latent errors of HBM lines, by PA div 64; 05 R214; none -/
  lineErr : Tbl LineErr := []
  /-- frame table; 196,608 frames; 05 R204; POISONED, SCRUB_PENDING 1 -/
  frames : Tbl Frame := []
  /-- FRAME_STAT RESULT, and STATE, SCRUB_PENDING, OWNER of the last frame named; 05 Table 5-8; 0 -/
  fcResult : Nat := 0
  fcState : Nat := 0
  fcScrub : Bool := false
  fcOwner : Nat := 0
  /-- BTT_INVAL CTX, PAGE, ALL; 05 Table 5-8; 0 -/
  btiCtx : Nat := 0
  btiPage : Nat := 0
  btiAll : Bool := false
  /-- BTT_INVAL.GO; 05 Table 5-8; 0 -/
  btiGo : Bool := false
  /-- the invalidation under way: CTX, PAGE, ALL as the write that set GO gave them; 05 R212; 0 -/
  btiNow : Nat × Nat × Bool := (0, 0, false)
  /-- translation caches, most recent first, at most 256 each: 0-7 partitions, 8 device; 05 R212; empty -/
  tcache : Tbl (List TEntry) := []
  /-- WEIR_FAULT_LOG CTX, CODE, ADDR; 05 Table 5-8; 0 -/
  wfCtx : Nat := 0
  wfCode : Nat := 0
  wfAddr : Nat := 0
  /-- Weir descriptors in flight; at most 256; 05 R226; empty -/
  weir : List WeirJob := []
  /-- single atomic adds at the stacks; 05 R223; empty -/
  atoms : List AtomReq := []
  /-- spill lines on their way to the allocator; 04 R183; empty -/
  spills : List SpillFly := []
  /-- BERTH_STAT.RESULT; 06 Table 6-12; 0 -/
  berthResult : Nat := 0
  /-- BERTH_QUERY.CREW; 06 Table 6-12; 0 -/
  berthQuery : Nat := 0
  /-- MODEL: launches admitted, refused and done so far, after each of which a scheduler pass runs; 06 R261; 0 -/
  passMark : Nat := 0
  /-- SCHED_CFG DEF_CREW_MW, PASS_US; 06 Table 6-12; 1900, 10 -/
  defCrewMw : Nat := 1900
  passUs : Nat := 10
  /-- CNT_INFEASIBLE, CNT_ADMITTED, CNT_OVERRUN; 06 Table 6-12; 0 -/
  cntInfeasible : Nat := 0
  cntAdmitted : Nat := 0
  cntOverrun : Nat := 0
  fab : Fabric := { }
  stroke : Stroke := { }
  pwr : Power := { }
  ump : Umpire := { }
  rst : Resets := { }
  boot : Boot := { }
  host : HostIf := { }
  card : Card := { }
  rack : Rack := { }
  /-- card flash; 64 MiB; 14 R558; unlisted bytes read 0xFF (log 9) -/
  flash : Tbl Byte := []
  /-- next offset of the flash event log; 14 R562; 0 -/
  evLogNext : Nat := 0
  /-- host memory as the device reaches it; 06 R236; unlisted bytes read 0 (log 8) -/
  hostMem : Tbl Byte := []
  /-- OUTPUT: data returned by the last host read; 13 R519; none -/
  hostData : Option HostData := none
  /-- OUTPUT: MSI-X vectors raised, oldest first; 13 R527; empty -/
  msix : List Nat := []
  /-- OUTPUT: flits sent, oldest first, with their port; 07 R292; empty -/
  sent : List (Nat × Flit) := []
  /-- OUTPUT: NAKs sent (port, sequence number); 07 R292; empty -/
  naks : List (Nat × BitVec 12) := []
  /-- OUTPUT: Stroke markers sent; 08 R327; empty -/
  markers : List (Nat × Marker) := []
  /-- OUTPUT: management messages; 13; empty -/
  mgmt : List MgmtOut := []
  /-- OUTPUT: reports of the card controller to the rack management controller; 14 R564, R569; empty -/
  cardOut : List CardOut := []
  /-- OUTPUT: power limits that the rack controller sends to every device; 14 R572; empty -/
  rackLimits : List Nat := []
  /-- OUTPUT: PlatformEventMessages delivered to the event receiver; 13 R535; empty -/
  platform : List PldmMsg := []
  /-- OUTPUT: back-invalidations to a CXL 3.1 host (BISnpInv), by line; 13 R526; empty -/
  snoops : List Nat := []
deriving DecidableEq, Repr

/-- The machine right after reset: every field at the value its docstring gives. -/
def State.reset : State := { }

end Sys2Proof.Machine
end

