-- ==== Sys2Proof/Machine/Ops.lean ====
section
/-!
DEFINITION. The named operations that every meaning uses: sparse tables in canonical form, bytes in
little-endian order, bit fields, Stroke intervals, free values, logs, and the accessors of State.
-/

namespace Sys2Proof.Machine

/-! ### Sparse tables -/

/-- What key k reads as; an unlisted key reads as the default d. -/
def Tbl.look {α : Type} (d : α) (k : Nat) : Tbl α → α
  | [] => d
  | (j, y) :: r => if k = j then y else Tbl.look d k r

/-- Gives key k the value x and keeps the keys rising, whatever x is. -/
def Tbl.insert {α : Type} (k : Nat) (x : α) : Tbl α → Tbl α
  | [] => [(k, x)]
  | (j, y) :: r =>
    if k < j then (k, x) :: (j, y) :: r
    else if k = j then (k, x) :: r
    else (j, y) :: Tbl.insert k x r

/-- Removes key k, so that it reads as the default. -/
def Tbl.erase {α : Type} (k : Nat) : Tbl α → Tbl α
  | [] => []
  | (j, y) :: r => if k = j then Tbl.erase k r else (j, y) :: Tbl.erase k r

/-- Writes x at key k, keeping the canonical form: the default itself is not listed. -/
def Tbl.put {α : Type} [DecidableEq α] (d : α) (k : Nat) (x : α) (t : Tbl α) : Tbl α :=
  if x = d then Tbl.erase k t else Tbl.insert k x t

/-- The keys of t rise strictly from above lo. -/
def Tbl.rising {α : Type} : Option Nat → Tbl α → Bool
  | _, [] => true
  | none, (j, _) :: r => Tbl.rising (some j) r
  | some i, (j, _) :: r => decide (i < j) && Tbl.rising (some j) r

/-- The canonical form: keys strictly rising, no entry equal to the default. -/
def Tbl.wf {α : Type} [DecidableEq α] (d : α) (t : Tbl α) : Bool :=
  Tbl.rising none t && t.all (fun e => decide (e.2 ≠ d))

/-- Makes every key in [a, a + n) read as the default. -/
def Tbl.clear {α : Type} (a n : Nat) (t : Tbl α) : Tbl α :=
  t.filter (fun e => !(decide (a ≤ e.1) && decide (e.1 < a + n)))

/-! ### Bytes and words -/

/-- Reads n bytes from address a upward. -/
def bytesAt (d : Byte) (m : Tbl Byte) : Nat → Nat → List Byte
  | _, 0 => []
  | a, n + 1 => Tbl.look d a m :: bytesAt d m (a + 1) n

/-- Writes bytes from address a upward. -/
def putBytes (d : Byte) (m : Tbl Byte) (a : Nat) : List Byte → Tbl Byte
  | [] => m
  | b :: r => putBytes d (Tbl.put d a b m) (a + 1) r

/-- The number that bytes spell, lowest byte first (00 R16). -/
def leNat : List Byte → Nat
  | [] => 0
  | b :: r => b.toNat + 256 * leNat r

/-- The low n bytes of a number, lowest byte first (00 R16). -/
def leBytes : Nat → Nat → List Byte
  | 0, _ => []
  | n + 1, v => BitVec.ofNat 8 v :: leBytes n (v / 256)

/-- The number that bytes spell, highest byte first (12 R493). -/
def beNat (bs : List Byte) : Nat := leNat bs.reverse

/-- The low n bytes of a number, highest byte first. -/
def beBytes (n v : Nat) : List Byte := (leBytes n v).reverse

/-- Bits [lo + n - 1 : lo] of a number. -/
def bits (v lo n : Nat) : Nat := (v >>> lo) % 2 ^ n

/-- Bit i of a number. -/
def bit (v i : Nat) : Bool := v.testBit i

def boolNat (b : Bool) : Nat := if b then 1 else 0

/-- Two's complement reading of the low n bits of v. -/
def sext (v n : Nat) : Int :=
  if bits v (n - 1) 1 = 1 then (bits v 0 n : Int) - (2 ^ n : Nat) else (bits v 0 n : Int)

/-- The low n bits of an integer. -/
def intBits (n : Nat) (v : Int) : Nat := (v % ((2 ^ n : Nat) : Int)).toNat

/-- v bounded to [lo, hi]. -/
def clampNat (lo hi v : Nat) : Nat := if v < lo then lo else if hi < v then hi else v

def clampInt (lo hi v : Int) : Int := if v < lo then lo else if hi < v then hi else v

/-- A counter of n bits that saturates (00 R20). -/
def satAdd (n v k : Nat) : Nat := if 2 ^ n - 1 < v + k then 2 ^ n - 1 else v + k

/-- Applies f to k, k + 1, ... for n rounds. -/
def forUp {σ : Type} (f : Nat → σ → σ) : Nat → Nat → σ → σ
  | _, 0, x => x
  | k, n + 1, x => forUp f (k + 1) n (f k x)

/-- Applies f to every element, first to last. -/
def forList {α σ : Type} (f : α → σ → σ) : List α → σ → σ
  | [], x => x
  | a :: r, x => forList f r (f a x)

/-- Element i of a list replaced. -/
def listSet {α : Type} : List α → Nat → α → List α
  | [], _, _ => []
  | _ :: r, 0, x => x :: r
  | y :: r, n + 1, x => y :: listSet r n x

/-- Element i of a list removed. -/
def listDrop {α : Type} : List α → Nat → List α
  | [], _ => []
  | _ :: r, 0 => r
  | y :: r, n + 1 => y :: listDrop r n

/-- The element of a list that precedes all others under lt, the earlier one on a tie. -/
def listMin {α : Type} (lt : α → α → Bool) : List α → Option α
  | [] => none
  | a :: r =>
    match listMin lt r with
    | none => some a
    | some b => if lt b a then some b else some a

def listMax0 (l : List Nat) : Nat := l.foldl max 0

/-- Inserts x before the first element that it precedes. -/
def insertBy {α : Type} (lt : α → α → Bool) (x : α) : List α → List α
  | [] => [x]
  | y :: r => if lt x y then x :: y :: r else y :: insertBy lt x r

/-- Stable sort. -/
def sortBy {α : Type} (lt : α → α → Bool) (l : List α) : List α :=
  l.foldl (fun acc x => insertBy lt x acc) []

/-! ### Stroke counts -/

/-- The present Stroke count. -/
def State.now (s : State) : BitVec 64 := s.stroke.now

/-- Counts from a to b, modulo 2^64 (08 R324). -/
def span (a b : BitVec 64) : Nat := (b - a).toNat

/-- Counts that have passed since a. -/
def State.since (s : State) (a : BitVec 64) : Nat := span a s.stroke.now

/-- a is at or before b, as the signed difference of the counts. -/
def notAfter (a b : BitVec 64) : Bool := decide (0 ≤ (b - a).toInt)

/-! ### Free values (log 1) -/

/-- Draws the next free number. -/
def State.free (s : State) : Nat × State :=
  (Config.freeNat s.freeIx, { s with freeIx := s.freeIx + 1 })

/-- Draws a free choice among n. -/
def State.freeBelow (s : State) (n : Nat) : Nat × State :=
  (Config.freeNat s.freeIx % n, { s with freeIx := s.freeIx + 1 })

/-- Draws n free bytes. -/
def State.freeBytes (s : State) (n : Nat) : List Byte × State :=
  ((List.range n).map (Config.freeByte s.freeIx), { s with freeIx := s.freeIx + 1 })

/-! ### Logs -/

/-- Adds a record to a log that holds n: when it is full the new record is dropped, OVERFLOW is set and
LOST increments (02 R102). The Bool says that OVERFLOW went from 0 to 1. -/
def Ring.push {α : Type} (n lostBits : Nat) (x : α) (r : Ring α) : Ring α × Bool :=
  if r.items.length < n then ({ r with items := r.items ++ [x] }, false)
  else ({ r with overflow := true, lost := satAdd lostBits r.lost 1 }, !r.overflow)

/-- POP: discards the head record; with none it has no effect (02 R102, 10 R436, 11 R468). -/
def Ring.pop {α : Type} (r : Ring α) : Ring α := { r with items := r.items.drop 1 }

/-! ### Accessors of State -/

def State.tile (s : State) (t : Nat) : Tile := Tbl.look { } t s.tiles
def State.setTile (s : State) (t : Nat) (x : Tile) : State := { s with tiles := Tbl.put { } t x s.tiles }
def State.modTile (s : State) (t : Nat) (f : Tile → Tile) : State := s.setTile t (f (s.tile t))

def State.part (s : State) (p : Nat) : Part := Tbl.look { } p s.parts
def State.setPart (s : State) (p : Nat) (x : Part) : State := { s with parts := Tbl.put { } p x s.parts }
def State.modPart (s : State) (p : Nat) (f : Part → Part) : State := s.setPart p (f (s.part p))

def State.ctx (s : State) (c : Nat) : Ctx := Tbl.look { } c s.ctxs
def State.setCtx (s : State) (c : Nat) (x : Ctx) : State := { s with ctxs := Tbl.put { } c x s.ctxs }
def State.modCtx (s : State) (c : Nat) (f : Ctx → Ctx) : State := s.setCtx c (f (s.ctx c))

def State.stk (s : State) (k : Nat) : Stack := Tbl.look { } k s.stks
def State.setStk (s : State) (k : Nat) (x : Stack) : State := { s with stks := Tbl.put { } k x s.stks }
def State.modStk (s : State) (k : Nat) (f : Stack → Stack) : State := s.setStk k (f (s.stk k))

def State.frame (s : State) (f : Nat) : Frame := Tbl.look { } f s.frames
def State.setFrame (s : State) (f : Nat) (x : Frame) : State := { s with frames := Tbl.put { } f x s.frames }

def State.port (s : State) (n : Nat) : Port := Tbl.look { } n s.fab.ports
def State.setPort (s : State) (n : Nat) (x : Port) : State :=
  { s with fab := { s.fab with ports := Tbl.put { } n x s.fab.ports } }
def State.modPort (s : State) (n : Nat) (f : Port → Port) : State := s.setPort n (f (s.port n))

def State.modFab (s : State) (f : Fabric → Fabric) : State := { s with fab := f s.fab }
def State.modStroke (s : State) (f : Stroke → Stroke) : State := { s with stroke := f s.stroke }
def State.modPwr (s : State) (f : Power → Power) : State := { s with pwr := f s.pwr }
def State.modUmp (s : State) (f : Umpire → Umpire) : State := { s with ump := f s.ump }
def State.modRst (s : State) (f : Resets → Resets) : State := { s with rst := f s.rst }
def State.modBoot (s : State) (f : Boot → Boot) : State := { s with boot := f s.boot }
def State.modHost (s : State) (f : HostIf → HostIf) : State := { s with host := f s.host }
def State.modCard (s : State) (f : Card → Card) : State := { s with card := f s.card }

/-- The Umpire's row of a tile (10 R402). -/
def State.utile (s : State) (t : Nat) : UmpTile := Tbl.look { } t s.ump.tiles
def State.setUtile (s : State) (t : Nat) (x : UmpTile) : State :=
  { s with ump := { s.ump with tiles := Tbl.put { } t x s.ump.tiles } }
def State.modUtile (s : State) (t : Nat) (f : UmpTile → UmpTile) : State := s.setUtile t (f (s.utile t))

/-- A logical crew by its global crew index (06 R247). -/
def State.crew (s : State) (g : Nat) : Crew := Tbl.look { } g s.ump.crews
def State.setCrew (s : State) (g : Nat) (x : Crew) : State :=
  { s with ump := { s.ump with crews := Tbl.put { } g x s.ump.crews } }
def State.modCrew (s : State) (g : Nat) (f : Crew → Crew) : State := s.setCrew g (f (s.crew g))

/-- Counts one of the Umpire's eight counters (10 Table 10-8), 48 bits. -/
def State.umpCount (s : State) (i : Nat) : State :=
  s.modUmp (fun u => { u with cnt := Tbl.put 0 i (satAdd 48 (Tbl.look 0 i u.cnt) 1) u.cnt })

/-- Changes the executing launch of context c, if there is one. -/
def State.modExec (s : State) (c : Nat) (f : Exec → Exec) : State :=
  s.modCtx c (fun x => { x with exec := x.exec.map f })

/-- Changes wake point n of the executing launch of context c, where the launch keeps a digest of it (08 R346). -/
def State.modWake (s : State) (c n : Nat) (f : WakePt → WakePt) : State :=
  s.modExec c (fun e => { e with wakes := e.wakes.map (fun k => if k.num = n && !k.overflow then f k else k) })

/-! ### Numbering -/

/-- Column of a physical tile (02 R59). -/
def tileCol (t : Nat) : Nat := t % 96
def tileRow (t : Nat) : Nat := t / 96

/-- Partition of a physical tile (02 R59). -/
def tilePart (t : Nat) : Nat := tileCol t / 12

/-- Index of a physical tile within its partition (02 R59). -/
def tileIndex (t : Nat) : Nat := 12 * tileRow t + tileCol t % 12

/-- The physical tile of index i in partition p (02 R59). -/
def tileOf (p i : Nat) : Nat := 96 * (i / 12) + 12 * p + i % 12

/-- Physical crew of a tile within its partition (02 R60). -/
def tileCrew (t : Nat) : Nat := 6 * (tileRow t / 4) + (tileCol t % 12) / 2

end Sys2Proof.Machine
end

