-- ==== Sys2Proof/Machine/Crypto.lean ====
section
/-!
DEFINITION. The checks that the specification names: CRC-64/ECMA-182 (02 R91), CRC-32/ISO-HDLC (12 Table
12-5), CRC-8/SMBUS (10 Table 10-7), SHA-384 and ECDSA P-384 (12 R493, R495), as their published standards
define them (log 12).
-/

namespace Sys2Proof.Machine

/-! ### Cyclic redundancy checks -/

/-- One bit of a CRC whose register of n bits shifts left. -/
def crcLeftBit (n poly c : Nat) : Nat :=
  if bit c (n - 1) then ((c <<< 1) % 2 ^ n) ^^^ poly else (c <<< 1) % 2 ^ n

def iter {α : Type} (f : α → α) : Nat → α → α
  | 0, x => x
  | n + 1, x => iter f n (f x)

/-- CRC-64/ECMA-182: polynomial 0x42F0_E1EB_A9EA_3693, initial value 0, no reflection, no final XOR (02 R91). -/
def crc64 (bs : List Byte) : Nat :=
  bs.foldl (fun c b => iter (crcLeftBit 64 0x42F0E1EBA9EA3693) 8 (c ^^^ (b.toNat <<< 56))) 0

/-- CRC-8/SMBUS: polynomial 0x07, initial value 0 (10 Table 10-7). -/
def crc8 (bs : List Byte) : Nat :=
  bs.foldl (fun c b => iter (crcLeftBit 8 0x07) 8 (c ^^^ b.toNat)) 0

/-- One bit of a reflected CRC. -/
def crcRightBit (poly c : Nat) : Nat := if bit c 0 then (c >>> 1) ^^^ poly else c >>> 1

/-- CRC-32/ISO-HDLC (12 Table 12-5). -/
def crc32 (bs : List Byte) : Nat :=
  (bs.foldl (fun c b => iter (crcRightBit 0xEDB88320) 8 (c ^^^ b.toNat)) 0xFFFFFFFF) ^^^ 0xFFFFFFFF

/-! ### SHA-384 -/

/-- The round constants. -/
def shaK : List DWord :=
    [0x428A2F98D728AE22#64, 0x7137449123EF65CD#64, 0xB5C0FBCFEC4D3B2F#64, 0xE9B5DBA58189DBBC#64, 0x3956C25BF348B538#64] ++
    [0x59F111F1B605D019#64, 0x923F82A4AF194F9B#64, 0xAB1C5ED5DA6D8118#64, 0xD807AA98A3030242#64, 0x12835B0145706FBE#64] ++
    [0x243185BE4EE4B28C#64, 0x550C7DC3D5FFB4E2#64, 0x72BE5D74F27B896F#64, 0x80DEB1FE3B1696B1#64, 0x9BDC06A725C71235#64] ++
    [0xC19BF174CF692694#64, 0xE49B69C19EF14AD2#64, 0xEFBE4786384F25E3#64, 0xFC19DC68B8CD5B5#64, 0x240CA1CC77AC9C65#64] ++
    [0x2DE92C6F592B0275#64, 0x4A7484AA6EA6E483#64, 0x5CB0A9DCBD41FBD4#64, 0x76F988DA831153B5#64, 0x983E5152EE66DFAB#64] ++
    [0xA831C66D2DB43210#64, 0xB00327C898FB213F#64, 0xBF597FC7BEEF0EE4#64, 0xC6E00BF33DA88FC2#64, 0xD5A79147930AA725#64] ++
    [0x6CA6351E003826F#64, 0x142929670A0E6E70#64, 0x27B70A8546D22FFC#64, 0x2E1B21385C26C926#64, 0x4D2C6DFC5AC42AED#64] ++
    [0x53380D139D95B3DF#64, 0x650A73548BAF63DE#64, 0x766A0ABB3C77B2A8#64, 0x81C2C92E47EDAEE6#64, 0x92722C851482353B#64] ++
    [0xA2BFE8A14CF10364#64, 0xA81A664BBC423001#64, 0xC24B8B70D0F89791#64, 0xC76C51A30654BE30#64, 0xD192E819D6EF5218#64] ++
    [0xD69906245565A910#64, 0xF40E35855771202A#64, 0x106AA07032BBD1B8#64, 0x19A4C116B8D2D0C8#64, 0x1E376C085141AB53#64] ++
    [0x2748774CDF8EEB99#64, 0x34B0BCB5E19B48A8#64, 0x391C0CB3C5C95A63#64, 0x4ED8AA4AE3418ACB#64, 0x5B9CCA4F7763E373#64] ++
    [0x682E6FF3D6B2B8A3#64, 0x748F82EE5DEFB2FC#64, 0x78A5636F43172F60#64, 0x84C87814A1F0AB72#64, 0x8CC702081A6439EC#64] ++
    [0x90BEFFFA23631E28#64, 0xA4506CEBDE82BDE9#64, 0xBEF9A3F7B2C67915#64, 0xC67178F2E372532B#64, 0xCA273ECEEA26619C#64] ++
    [0xD186B8C721C0C207#64, 0xEADA7DD6CDE0EB1E#64, 0xF57D4F7FEE6ED178#64, 0x6F067AA72176FBA#64, 0xA637DC5A2C898A6#64] ++
    [0x113F9804BEF90DAE#64, 0x1B710B35131C471B#64, 0x28DB77F523047D84#64, 0x32CAAB7B40C72493#64, 0x3C9EBE0A15C9BEBC#64] ++
    [0x431D67C49C100D4C#64, 0x4CC5D4BECB3E42B6#64, 0x597F299CFC657E2A#64, 0x5FCB6FAB3AD6FAEC#64, 0x6C44198C4A475817#64]

/-- The initial hash value of SHA-384. -/
def shaInit : List DWord :=
  [0xCBBB9D5DC1059ED8#64, 0x629A292A367CD507#64, 0x9159015A3070DD17#64, 0x152FECD8F70E5939#64] ++
    [0x67332667FFC00B31#64, 0x8EB44A8768581511#64, 0xDB0C2E0D64F98FA7#64, 0x47B5481DBEFA4FA4#64]

def ror64 (x : DWord) (n : Nat) : DWord := x.rotateRight n

/-- The message schedule from a window of sixteen words, as one word per round. -/
def shaSchedule : Nat → List DWord → List DWord
  | 0, _ => []
  | n + 1, w =>
    match w with
    | [] => []
    | a :: r =>
      let w1 := w.getD 1 0
      let w14 := w.getD 14 0
      let s0 := ror64 w1 1 ^^^ ror64 w1 8 ^^^ (w1 >>> 7)
      let s1 := ror64 w14 19 ^^^ ror64 w14 61 ^^^ (w14 >>> 6)
      a :: shaSchedule n (r ++ [a + s0 + w.getD 9 0 + s1])

structure Sha where
  a : DWord
  b : DWord
  c : DWord
  d : DWord
  e : DWord
  f : DWord
  g : DWord
  h : DWord
deriving DecidableEq, Repr

def shaRound (x : Sha) (kw : DWord × DWord) : Sha :=
  let s1 := ror64 x.e 14 ^^^ ror64 x.e 18 ^^^ ror64 x.e 41
  let ch := (x.e &&& x.f) ^^^ (~~~ x.e &&& x.g)
  let t1 := x.h + s1 + ch + kw.1 + kw.2
  let s0 := ror64 x.a 28 ^^^ ror64 x.a 34 ^^^ ror64 x.a 39
  let mj := (x.a &&& x.b) ^^^ (x.a &&& x.c) ^^^ (x.b &&& x.c)
  { a := t1 + s0 + mj, b := x.a, c := x.b, d := x.c, e := x.d + t1, f := x.e, g := x.f, h := x.g }

def shaBlock (h : List DWord) (blk : List DWord) : List DWord :=
  let g := fun i => h.getD i 0
  let x : Sha := { a := g 0, b := g 1, c := g 2, d := g 3, e := g 4, f := g 5, g := g 6, h := g 7 }
  let y := (shaK.zip (shaSchedule 80 blk)).foldl shaRound x
  [g 0 + y.a, g 1 + y.b, g 2 + y.c, g 3 + y.d, g 4 + y.e, g 5 + y.f, g 6 + y.g, g 7 + y.h]

/-- Groups of n elements. -/
def chunksOf {α : Type} (n : Nat) : Nat → List α → List (List α)
  | 0, _ => []
  | k + 1, l => l.take n :: chunksOf n k (l.drop n)

/-- SHA-384. -/
def sha384 (m : List Byte) : List Byte :=
  let len := m.length
  let padded := m ++ [0x80#8] ++ List.replicate ((239 - len % 128) % 128) 0#8 ++ beBytes 16 (8 * len)
  let words := (chunksOf 8 (padded.length / 8) padded).map (fun b => BitVec.ofNat 64 (beNat b))
  let h := (chunksOf 16 (words.length / 16) words).foldl shaBlock shaInit
  (h.take 6).flatMap (fun w => beBytes 8 w.toNat)

/-! ### ECDSA over P-384 -/

def p384P : Nat := 2 ^ 384 - 2 ^ 128 - 2 ^ 96 + 2 ^ 32 - 1
def p384N : Nat := 0xffffffffffffffffffffffffffffffffffffffffffffffffc7634d81f4372ddf581a0db248b0a77aecec196accc52973
def p384B : Nat := 0xb3312fa7e23ee7e4988e056be3f82d19181d9c6efe8141120314088f5013875ac656398d8a2ed19d2a85c8edd3ec2aef
def p384Gx : Nat := 0xaa87ca22be8b05378eb1c71ef320ad746e1d3b628ba79b9859f741e082542a385502f25dbf55296c3a545e3872760ab7
def p384Gy : Nat := 0x3617de4a96262c6f5d9e98bf9292dc29f8f41dbd289a147ce9da3113b5f0b8c00a60b1ce1d7e819d7a431d7c90ea0e5f

/-- b^e mod m, over the low n bits of e, highest first. -/
def powMod (m b e : Nat) : Nat → Nat → Nat
  | 0, acc => acc
  | n + 1, acc =>
    let a2 := acc * acc % m
    powMod m b e n (if bit e n then a2 * b % m else a2)

/-- The inverse of b modulo the prime m of 384 bits. -/
def invMod (m b : Nat) : Nat := powMod m b (m - 2) 384 1

/-- A point of the curve, none being the point at infinity. -/
abbrev EcPoint := Option (Nat × Nat)

def subMod (m a b : Nat) : Nat := (a + m - b % m) % m

def ecAdd : EcPoint → EcPoint → EcPoint
  | none, q => q
  | p, none => p
  | some (x1, y1), some (x2, y2) =>
    let m := p384P
    if x1 = x2 ∧ (y1 + y2) % m = 0 then none
    else
      let l :=
        if x1 = x2 then (3 * x1 * x1 + (m - 3)) * invMod m (2 * y1 % m) % m
        else subMod m y2 y1 * invMod m (subMod m x2 x1) % m
      let x3 := subMod m (subMod m (l * l) x1) x2
      some (x3, subMod m (l * subMod m x1 x3) y1)

/-- k times a point, over the low n bits of k, highest first. -/
def ecMul (k : Nat) (pt : EcPoint) : Nat → EcPoint → EcPoint
  | 0, acc => acc
  | n + 1, acc =>
    let d := ecAdd acc acc
    ecMul k pt n (if bit k n then ecAdd d pt else d)

/-- Verifies a signature (r, s) over a SHA-384 digest with the public key (x, y). -/
def ecdsaOk (x y r sg : Nat) (digest : List Byte) : Bool :=
  let m := p384P
  if m ≤ x ∨ m ≤ y ∨ (y * y) % m ≠ (x * x * x + (m - 3) * x + p384B) % m then false
  else if r = 0 ∨ p384N ≤ r ∨ sg = 0 ∨ p384N ≤ sg then false
  else
    let w := invMod p384N sg
    let u1 := beNat digest * w % p384N
    let u2 := r * w % p384N
    match ecAdd (ecMul u1 (some (p384Gx, p384Gy)) 384 none) (ecMul u2 (some (x, y)) 384 none) with
    | none => false
    | some (x3, _) => decide (x3 % p384N = r)

end Sys2Proof.Machine
end

