-- ==== Sys2Proof/Machine/Events.lean ====
section
/-!
DEFINITION. Raising an event: the entry in the host's event ring (13 R528, R529), the PLDM message (13 R535),
the flash event log (14 R562), and the buffer that holds events while the Cox firmware does not run (15 R593).
-/

namespace Sys2Proof.Machine

/-- UNIT when an event concerns none (13 Table 13-4). -/
def noUnit : Nat := 0xFF

/-- The Cox firmware runs: it has started and is not restarting (15 R593). -/
def State.coxRuns (s : State) : Bool := s.boot.cox && s.rst.cox.isNone

/-- Entries of the event ring (13 R528). -/
def evtRingSize (h : HostIf) : Nat := 16 * 2 ^ h.evtSize

/-- An event entry's 16 bytes with its FLAGS (13 Table 13-4). -/
def eventBytes (e : Event) (flags : Nat) : List Byte :=
  leBytes 2 e.code.toNat ++ leBytes 1 e.unit.toNat ++ leBytes 1 flags ++ leBytes 4 e.detail.toNat ++
    leBytes 8 e.stroke.toNat

/-- Writes an entry to the event ring, or drops it when the ring is full (13 R528, R529, R548). -/
def evtRingWrite (e : Event) (s : State) : State :=
  let h := s.host
  if !h.evtEn then s
  else
    let size := evtRingSize h
    let nxt := (h.evtTail + 1) % size
    if nxt = h.evtHead then
      { s with host := { h with evtLost := satAdd 32 h.evtLost 1, lostBefore := true } }
    else
      let flags := boolNat h.lostBefore + 128 * boolNat h.evtPhase
      { s with
        hostMem := putBytes 0 s.hostMem (h.evtBase + 16 * h.evtTail) (eventBytes e flags)
        host := { h with
          evtTail := nxt
          evtPhase := if nxt = 0 then !h.evtPhase else h.evtPhase
          lostBefore := false }
        msix := if h.evtIrq then s.msix ++ [64] else s.msix }

/-- Messages were lost before the first of these (13 Table 13-4, R535). -/
def markLost : List PldmMsg → List PldmMsg
  | [] => []
  | m :: l => { m with lost := true } :: l

/-- Sends a PlatformEventMessage, or holds it while no receiver is named: at most 64, the oldest dropped
(13 R535). -/
def pldmEvent (e : Event) (s : State) : State :=
  let m : PldmMsg := { ev := e, lost := s.host.msgLost }
  match s.host.receiver with
  | some _ => { s with platform := s.platform ++ [m], host := { s.host with msgLost := false } }
  | none =>
    let l := s.host.unsent ++ [m]
    { s with host := { s.host with unsent := if 64 < l.length then markLost (l.drop 1) else l, msgLost := false } }

def evLogBase : Nat := 0x80000
def evLogSize : Nat := 0xF80000

/-- Appends an event of groups 4 to 7 to the flash event log; a sector is erased when the log comes round to
it (14 R562, Table 14-2). -/
def flashEvent (e : Event) (s : State) : State :=
  let g := e.code.toNat / 4096
  if g < 4 ∨ 7 < g then s
  else
    let a := evLogBase + s.evLogNext
    let fl := if s.evLogNext % 0x10000 = 0 then Tbl.clear a 0x10000 s.flash else s.flash
    { s with
      flash := putBytes 0xFF fl a (eventBytes e 0)
      evLogNext := (s.evLogNext + 16) % evLogSize }

/-- Delivers an event on its three paths (15 R592). -/
def deliver (e : Event) (s : State) : State := flashEvent e (pldmEvent e (evtRingWrite e s))

/-- Raises an event at the present Stroke count; while the Cox firmware does not run it is held, the oldest of
64 discarded (15 R593). -/
def raise (code unit detail : Nat) (s : State) : State :=
  let e : Event := { code := BitVec.ofNat 16 code, unit := BitVec.ofNat 8 unit,
                     detail := BitVec.ofNat 32 detail, stroke := s.now }
  if s.coxRuns then deliver e s
  else
    let l := s.host.heldEvents ++ [e]
    if 64 < l.length then
      { s with host := { s.host with heldEvents := l.drop 1, heldLost := s.host.heldLost + 1, msgLost := true } }
    else { s with host := { s.host with heldEvents := l } }

/-- The order of events: ascending STROKE, then code, then UNIT (15 R592). -/
def eventBefore (a b : Event) : Bool :=
  if a.stroke ≠ b.stroke then decide (a.stroke.toNat < b.stroke.toNat)
  else if a.code ≠ b.code then decide (a.code.toNat < b.code.toNat)
  else decide (a.unit.toNat < b.unit.toNat)

/-- Accounts for events that the full held buffer discarded: EVT_STAT.LOST counts them once the ring is
enabled, and the next entry has LOST_BEFORE (15 R593). -/
def settleHeldLost (s : State) : State :=
  if s.host.evtEn && s.host.heldLost ≠ 0 then
    { s with host := { s.host with
        evtLost := satAdd 32 s.host.evtLost s.host.heldLost, lostBefore := true, heldLost := 0 } }
  else s

/-- Delivers the held events once the firmware runs, each with its own STROKE (15 R593). -/
def deliverHeld (s : State) : State :=
  let l := sortBy eventBefore s.host.heldEvents
  forList deliver l (settleHeldLost { s with host := { s.host with heldEvents := [] } })

end Sys2Proof.Machine
end

