-- ==== Sys2Proof/Machine/FabCore.lean ====
section
/-!
DEFINITION. What every user of the Reach fabric shares: flits sent on a port (07 R292), floods (R310),
easy-all originated by this device (R308, R309), packets queued in the router, and fault replies (R302).
-/

namespace Sys2Proof.Machine

/-- PORT_STAT.STATE (07 Table 7-9). -/
def PState.code : PState → Nat
  | .off => 0 | .detect => 1 | .rate => 2 | .eq => 3 | .lanes => 4 | .ident => 5 | .up => 6
  | .retrain => 7 | .down => 8

/-- Retrains of port x within the trailing 10 s (07 PORT_STAT.RETRAINS). -/
def retrainsNow (s : State) (x : Port) : Nat :=
  (x.retrains.filter (fun a => decide (s.since a < 10000000000))).length

/-- PORT_STAT of a port (07 Table 7-9). -/
def portStat (s : State) (n : Nat) : Nat :=
  let x := s.port n
  x.st.code + 16 * boolNat x.rate2 + 32 * boolNat x.half + 64 * boolNat x.conserv + 128 * boolNat x.fallback +
    x.goodLanes.toNat * 2 ^ 8 + x.downReason * 2 ^ 16 + (Nat.min 15 (retrainsNow s x)) * 2 ^ 20 +
    x.attempts * 2 ^ 24

/-- Flits that a replay buffer holds at most (07 R292). -/
def replaySize : Nat := 512

/-! ### Packets as bytes and flits -/

/-- TYPE of a packet (07 Table 7-4). -/
def ptypeCode : PType → Nat
  | .read => 1 | .write => 2 | .atomAdd => 3 | .replyData => 4 | .replyAck => 5 | .replyFault => 6
  | .easyAll => 7 | .boot => 8

/-- The 32-byte header; an EASY_ALL and a BOOT packet hold a Stroke count where others hold LOCAL, an EASY_ALL all
64 bits of it (07 Table 7-4, 12 R490). -/
def packetHeader (q : Packet) : List Byte :=
  leBytes 2 (ptypeCode q.ptype) ++ leBytes 2 q.dest.toNat ++ leBytes 2 q.src.toNat ++ leBytes 4 q.handle.toNat ++
    leBytes 1 q.rgen.toNat ++ leBytes 1 q.reason.toNat ++ leBytes 4 q.jobid.toNat ++
    (match q.ptype with
    | .easyAll => leBytes 8 q.stroke.toNat
    | .boot => leBytes 6 q.stroke.toNat ++ leBytes 2 q.len.toNat
    | _ => leBytes 6 q.loc.toNat ++ leBytes 2 q.len.toNat) ++
    leBytes 4 q.value.toNat ++ leBytes 4 0

/-- A packet: its header, then its data (07 R297). -/
def packetBytes (q : Packet) : List Byte := packetHeader q ++ q.data

/-- Packet bytes that a flit carries (07 R283). -/
def flitData : Nat := 240

/-- Flits of a packet, which begins in a flit of its own (07 R283, log 41). -/
def flitsOf (q : Packet) : Nat := (32 + q.data.length + flitData - 1) / flitData

/-- An UP port that is not re-equalising carries packets (07 R291, R293). -/
def Port.carries (x : Port) : Bool := decide (x.st = .up) && x.reeq.isNone

/-- The port carries packets and its replay buffer has room for this one (07 R292, R293). -/
def Port.room (x : Port) (q : Packet) : Bool := x.carries && decide (x.replay.length + flitsOf q ≤ replaySize)

/-- The flits of a packet from sequence number seq; the last one ends it (07 R283, R292). Fuel counts flits. -/
def cutFlits (pkt : Packet) (esc : Option Bool) (ack : BitVec 12) : Nat → BitVec 12 → List Byte → List Flit
  | 0, _, _ => []
  | n + 1, seq, bs =>
    { seq := seq, pkt := if n = 0 then some pkt else none, esc := esc, data := bs.take flitData, ack := ack } ::
      cutFlits pkt esc ack n (seq + 1) (bs.drop flitData)

/-- Sends a packet in port n's next flits, on an escape channel or the adaptive one (07 R283, R292, R300). -/
def putFlit (n : Nat) (pkt : Packet) (esc : Option Bool) (s : State) : State :=
  let x := s.port n
  let l := cutFlits pkt esc (x.rxSeq - 1) (flitsOf pkt) x.txSeq (packetBytes pkt)
  { (s.setPort n { x with replay := x.replay ++ l, txSeq := x.txSeq + BitVec.ofNat 12 l.length }) with
    sent := s.sent ++ l.map (fun f => (n, f)) }

/-- Sends a control packet on port n; while the port carries no packets, or without room in its replay
buffer, it waits in the port's control queue (07 R292, R293, R300), an EASY_ALL before any BOOT (12 R490). -/
def sendFlit (n : Nat) (pkt : Packet) (s : State) : State :=
  let x := s.port n
  if x.room pkt then putFlit n pkt none s else s.setPort n { x with
    ctlq := insertBy (fun a b => decide (a.ptype = .easyAll) && decide (b.ptype = .boot)) pkt x.ctlq }

/-- The classes of 07 R300: a request is answered. -/
def isRequest : PType → Bool
  | .read | .write | .atomAdd => true
  | _ => false

/-- Sends a control packet on every UP port that `ok` admits (07 R310). -/
def flood (ok : Nat → Bool) (pkt : Packet) (s : State) : State :=
  forUp (fun n s => if decide ((s.port n).st = .up) && ok n then sendFlit n pkt s else s) 0 12 s

/-- A BOOT packet goes only to UP ports whose partner named the same rack (12 R490). -/
def sameRack (s : State) (n : Nat) : Bool := decide ((s.port n).partnerRack = some s.fab.rack)

/-- Device number of coordinates in rack r (01 R39). -/
def devNumber (r x y z : Nat) : Nat := 64 * r + 16 * z + 4 * y + x

/-- The number by which the fabric knows this device: DEV_NUM, or while it trains the number that R39 gives its
coordinates, which DEV_NUM takes once PLACED (07 R287, log 41). -/
def State.devNo (s : State) : BitVec 14 :=
  let f := s.fab
  if f.place = .training then BitVec.ofNat 14 (devNumber f.rack.toNat f.x.toNat f.y.toNat f.z.toNat) else f.devNum

/-- An empty packet of a type. -/
def blankPacket (ty : PType) : Packet :=
  { ptype := ty, dest := 0, src := 0, handle := 0, rgen := 0, reason := 0, jobid := 0, loc := 0, stroke := 0,
    len := 0, value := 0, data := [] }

/-- Triples that are still kept (07 R310). -/
def keptTriples (s : State) : List Triple :=
  s.fab.triples.filter (fun t => decide (s.since t.kept < 1000000))

/-- Enters a triple; the oldest of 64 leaves (07 R310). -/
def keepTriple (t : Triple) (s : State) : State :=
  s.modFab (fun f => { f with triples := (t :: keptTriples s).take 64 })

/-- The log of the last easy-all received or sent (07 Table 7-9). -/
def easyAllLog (job : BitVec 32) (origin : BitVec 14) (stroke : BitVec 64) (cause : Nat) (s : State) : State :=
  s.modFab (fun f => { f with
    logJob := job, logOrigin := origin, logCause := BitVec.ofNat 8 cause, logValid := true, logStroke := stroke })

/-- Originates easy-all for a job with a cause status and origin count (07 R308 to R310). -/
def easyAllOriginate (job : BitVec 32) (cause : Nat) (origin : BitVec 64) (s : State) : State :=
  let me := s.devNo
  let pkt := { blankPacket .easyAll with
    src := me, reason := BitVec.ofNat 8 cause, jobid := job, stroke := origin }
  let s := keepTriple { job := job, origin := me, stroke := origin, boot := false, kept := s.now } s
  let s := easyAllLog job me origin cause s
  let s := flood (fun _ => true) pkt s
  raise 0x3008 noUnit job.toNat s

/-- Puts a packet into the router's output queues; one for this device itself arrives at once (07 R299). -/
def routerPut (pkt : Packet) (s : State) : State :=
  if pkt.dest = s.devNo then
    s.modFab (fun f => { f with arrived := f.arrived ++ [{ port := none, pkt := pkt, esc := none }] })
  else s.modFab (fun f => { f with queue := f.queue ++ [{ pkt := pkt, since := s.now, esc := none }] })

/-! ### The combiner (07 R304 to R306) -/

/-- Handle that names a pending slot (log 14). -/
def slotHandle (k : Nat) : BitVec 32 := BitVec.ofNat 32 (2 ^ 31 + k)

/-- The packet as which an entry leaves: its own, or this device's once it has absorbed records (07 R305). -/
def combPacket (s : State) (e : Comb) : Packet :=
  let q := { blankPacket .atomAdd with dest := e.dest, jobid := e.jobid, loc := e.loc, value := e.value }
  match e.slot, e.recs with
  | none, r :: _ => { q with src := r.src, handle := r.handle, rgen := r.rgen }
  | none, [] => q
  | some k, _ => { q with src := s.devNo, handle := slotHandle k }

/-- An entry is held no longer: it waits in the router's output queues, where it still absorbs (07 R304, R306). -/
def combOut (i : Nat) (s : State) : State :=
  match s.fab.comb[i]? with
  | none => s
  | some e => s.modFab (fun f => { f with
      comb := listDrop f.comb i
      queue := f.queue ++ [{ pkt := combPacket s e, since := e.entered, esc := e.esc, entry := some e }] })

/-- A packet leaves the output queues and with it the combiner; its pending slot then holds its records (07 R305). -/
def leaveQueue (i : Nat) (q : Queued) (s : State) : State :=
  let s := s.modFab (fun f => { f with queue := listDrop f.queue i })
  match q.entry.bind (fun e => e.slot.map (fun k => (k, e.recs))) with
  | none => s
  | some (k, recs) => s.modFab (fun f => { f with slots := Tbl.put none k (some { recs := recs, sent := s.now }) f.slots })

/-- Sends on every combiner entry of a job (08 R341). Fuel counts entries. -/
def combFlush (job : BitVec 32) : Nat → State → State
  | 0, s => s
  | n + 1, s =>
    match s.fab.comb.findIdx? (fun e => decide (e.jobid = job)) with
    | none => s
    | some i => combFlush job n (combOut i s)

/-- Fault reply reasons (07 Table 7-5). -/
def reNoJob : Nat := 1
def reXlate : Nat := 2
def rePerm : Nat := 3
def rePoison : Nat := 4
def reUnreachable : Nat := 5
def reUnroutable : Nat := 6

/-- A reply to a packet: it echoes HANDLE and RGEN (07 Table 7-4, R458). -/
def replyTo (s : State) (q : Packet) (ty : PType) (reason : Nat) (data : List Byte) (loc : BitVec 42) : Packet :=
  { blankPacket ty with
    dest := q.src, src := s.devNo, handle := q.handle, rgen := q.rgen, jobid := q.jobid,
    reason := BitVec.ofNat 8 reason, loc := loc, len := BitVec.ofNat 16 data.length, data := data }

/-- Answers a request with REPLY_FAULT; FAB_FAULT_LOG records it (07 R302). -/
def faultReply (q : Packet) (reason : Nat) (s : State) : State :=
  let s := s.modFab (fun f => { f with ffReason := reason, ffDest := q.dest, ffJob := q.jobid })
  routerPut (replyTo s q .replyFault reason [] q.loc) s

end Sys2Proof.Machine
end

