-- ==== Sys2Proof/Machine/Mem.lean ====
section
/-!
DEFINITION. HBM as every agent reaches it: physical addresses and frames (05 R201 to R209), lines and their
errors (R214 to R216), translation (R210 to R212), and atomic adds' memory side; flash and host memory.
-/

namespace Sys2Proof.Machine

/-- How an access is refused (05 R205, R211). -/
inductive MFault where
  | xlate | perm | poison
deriving DecidableEq, Repr

/-- The answer of an access: a value, or a fault with the LOCAL or physical address at which it arose. -/
inductive Res (α : Type) where
  | ok (a : α)
  | err (f : MFault) (addr : Nat)
deriving DecidableEq, Repr

def frameBytes : Nat := 0x200000
def numFrames : Nat := 196608
/-- One past the highest physical address (05 R201). -/
def paEnd : Nat := 0x6000000000

/-- Stack of a frame (05 R202). -/
def frameStack (f : Nat) : Nat := f / 24576

/-- Where a physical address lies in HBM (05 R201, Table 5-2). -/
structure DramAddr where
  stack   : Nat
  channel : Nat
  pseudo  : Nat
  bankGrp : Nat
  bank    : Nat
  /-- 256-byte unit within a 1 KiB row, and byte within it -/
  unit    : Nat
  byte    : Nat
  row     : Nat
deriving DecidableEq, Repr

/-- Decoding of a physical address (05 R201, Table 5-2). -/
def dramAddr (pa : Nat) : DramAddr :=
  let off := pa % 0xC00000000
  { stack := pa / 0xC00000000, channel := bits off 8 5 ^^^ bits off 21 5, pseudo := bits off 13 1
    bankGrp := bits off 14 2, bank := bits off 16 2, unit := bits off 18 2, byte := bits off 0 8, row := bits off 20 16 }

/-- Channel of a physical address within its stack (05 Table 5-2). -/
def paChannel (pa : Nat) : Nat := (dramAddr pa).channel

/-- The agents of 05 Table 5-11. -/
inductive Agent where
  /-- a launch of context c, or another device through its table: tiles, command stream, wake records -/
  | ctx (c : Nat)
  /-- a Weir descriptor of context c -/
  | weir (c : Nat)
  /-- the translation unit -/
  | tables
  /-- the command engine at its rings -/
  | engine
  | cox
  /-- an Umpire trial, through the Umpire's own table -/
  | trial
  | scrubber
deriving DecidableEq, Repr

/-- The context whose frames an agent may reach (05 Table 5-11). -/
def Agent.owner : Agent → Option Nat
  | .ctx c | .weir c => some c
  | _ => none

/-- Agents that may reach SYSTEM frames (05 Table 5-11). -/
def Agent.ofDevice : Agent → Bool
  | .tables | .engine | .cox | .trial => true
  | _ => false

/-- The fault of an access to a POISONED frame: a read is refused as POISON, a write or a Weir operation as PERM; the
command engine at a ring as POISON (05 R205, 06 R604). -/
def Agent.poisoned (ag : Agent) (write : Bool) : MFault :=
  match ag with
  | .weir _ => .perm
  | .engine => .poison
  | _ => if write then .perm else .poison

/-- The context is being swept (05 R207). -/
def State.sweeping (s : State) (c : Nat) : Bool := (s.ctx c).sweep.isSome

/-- The state in which a frame counts: a frame of a context being swept is POISONED (05 R207). -/
def State.frameNow (s : State) (f : Nat) : FState :=
  let x := s.frame f
  if x.st = .owned ∧ s.sweeping x.owner then .poisoned else x.st

/-- Checks an access against the frame table (05 R205, Table 5-11, R202). -/
def frameCheck (s : State) (ag : Agent) (write : Bool) (pa : Nat) : Option MFault :=
  if paEnd ≤ pa then some .perm
  else
    let f := pa / frameBytes
    match s.frameNow f with
    | .poisoned =>
      if ag = .scrubber then (if (s.frame f).scrub then none else some .perm) else some (ag.poisoned write)
    | .free => some .perm
    | .owned => if ag.owner = some (s.frame f).owner then none else some .perm
    | .system => if ag.ofDevice then none else some .perm

/-! ### Lines -/

/-- An uncorrectable line: its frame becomes POISONED, MEM_UE counts it and MEM_UE_ADDR holds it (05 R216). -/
def memUe (line : Nat) (s : State) : State :=
  let pa := 64 * line
  let f := pa / frameBytes
  let k := frameStack f
  let st := s.stk k
  let s := s.setStk k { st with ue := satAdd 32 st.ue 1, ueAddr := pa }
  let x := s.frame f
  if x.st = .owned ∨ x.st = .system then
    raise 0x2002 k f (s.setFrame f { x with st := .poisoned, scrub := false })
  else s

/-- A corrected line is written back and counted; every 1,000 corrections raise MEM_CE (05 R215). -/
def memCe (line : Nat) (s : State) : State :=
  let k := frameStack (64 * line / frameBytes)
  let st := s.stk k
  let run := st.ceRun + 1
  let s := { s with lineErr := Tbl.put .none line .none s.lineErr }
  let s := s.setStk k { st with ce := satAdd 48 st.ce 1, ceRun := run % 1000 }
  if run = 1000 then raise 0x2001 k 0 s else s

/-- Reads through n lines from the first, correcting and counting; stops at an uncorrectable one, whose
number it answers. -/
def scanLines : Nat → Nat → State → Option Nat × State
  | _, 0, s => (none, s)
  | line, n + 1, s =>
    match Tbl.look LineErr.none line s.lineErr with
    | .none => scanLines (line + 1) n s
    | .correctable => scanLines (line + 1) n (memCe line s)
    | .uncorrectable => (some line, memUe line s)

/-- Lines that [pa, pa + len) touches. -/
def linesOf (pa len : Nat) : Nat := if len = 0 then 0 else (pa + len - 1) / 64 - pa / 64 + 1

/-- Reads len bytes at a physical address whose access the frame table allows (05 R214 to R216). -/
def hbmRead (pa len : Nat) (s : State) : Res (List Byte) × State :=
  match scanLines (pa / 64) (linesOf pa len) s with
  | (some line, s) => (.err .poison (64 * line), s)
  | (none, s) => (.ok (bytesAt 0 s.hbm pa len), s)

/-- Invalidates a line that a CXL 3.1 host caches before a write reaches it (13 R526). -/
def backInvalidate (line : Nat) (s : State) : State :=
  let k := frameStack (64 * line / frameBytes)
  let st := s.stk k
  if st.snoop.contains line then
    { (s.setStk k { st with snoop := st.snoop.filter (fun l => l ≠ line) }) with snoops := s.snoops ++ [line] }
  else s

/-- Writes the bytes that fall in the line of pa, and goes on with the next line: a part of an uncorrectable
line is not written and poisons the frame, a whole line replaces it (05 R216). Fuel is the line count. -/
def writeLines (host : Bool) : Nat → Nat → List Byte → State → Res Unit × State
  | 0, _, _, s => (.ok (), s)
  | n + 1, pa, bs, s =>
    let line := pa / 64
    let k := 64 - pa % 64
    let now := bs.take k
    let s := if host then s else backInvalidate line s
    let e := Tbl.look LineErr.none line s.lineErr
    if now.length = 64 then
      writeLines host n (pa + 64) (bs.drop k)
        { s with hbm := putBytes 0 s.hbm pa now, lineErr := Tbl.put .none line .none s.lineErr }
    else if e = .uncorrectable then (.err .poison (64 * line), memUe line s)
    else
      let s := if e = .correctable then memCe line s else s
      writeLines host n (pa + k) (bs.drop k) { s with hbm := putBytes 0 s.hbm pa now }

/-- Writes bytes at a physical address whose access the frame table allows. -/
def hbmWrite (pa : Nat) (bs : List Byte) (s : State) : Res Unit × State :=
  writeLines false (linesOf pa bs.length) pa bs s

/-- A checked read by the device at a physical address (05 R205, 06 R604). -/
def devRead (ag : Agent) (pa len : Nat) (s : State) : Res (List Byte) × State :=
  match frameCheck s ag false pa with
  | some f => (.err f pa, s)
  | none => hbmRead pa len s

/-- A checked write by the device at a physical address. -/
def devWrite (ag : Agent) (pa : Nat) (bs : List Byte) (s : State) : Res Unit × State :=
  match frameCheck s ag true pa with
  | some f => (.err f pa, s)
  | none => hbmWrite pa bs s

/-! ### Translation (05 R210 to R212) -/

/-- Number of the device's own translation cache; 0 to 7 are the partitions' (05 R212). -/
def devCache : Nat := 8

/-- One table entry of 8 bytes in a SYSTEM frame; every failure is XLATE (05 R211). -/
def tableRead (pa : Nat) (s : State) : Option Nat × State :=
  match devRead .tables pa 8 s with
  | (.ok bs, s) => (some (leNat bs), s)
  | (.err _ _, s) => (none, s)

/-- What an L2 entry maps; none where it faults with XLATE (05 Table 5-4, R211). -/
def l2Entry (c page v : Nat) : Option TEntry :=
  if !bit v 0 || bits v 4 17 ≠ 0 || bits v 39 25 ≠ 0 || numFrames ≤ bits v 21 18 then none
  else some { ctx := c, page := page, frame := bits v 21 18, r := bit v 1, w := bit v 2, rmt := bit v 3 }

/-- Physical address of the L2 table that an L1 entry names; none where it faults (05 Table 5-4, R211). -/
def l1Entry (v : Nat) : Option Nat :=
  if !bit v 0 || bits v 1 12 ≠ 0 || bits v 39 25 ≠ 0 then none else some (bits v 13 26 * 8192)

/-- Walks the two-level table of context c for a page (LOCAL [41:21]) (05 R210). -/
def walkTable (c page : Nat) (s : State) : Option TEntry × State :=
  match tableRead ((s.ctx c).bttRoot + 8 * (page / 1024)) s with
  | (none, s) => (none, s)
  | (some v, s) =>
    match l1Entry v with
    | none => (none, s)
    | some l2 =>
      match tableRead (l2 + 8 * (page % 1024)) s with
      | (none, s) => (none, s)
      | (some v2, s) => (l2Entry c page v2, s)

/-- Puts an entry at the front of a cache, where the least recently used of 256 is replaced (05 R212). -/
def cachePut (k : Nat) (e : TEntry) (s : State) : State :=
  let l := Tbl.look [] k s.tcache
  let r := (e :: l.filter (fun x => !(x.ctx = e.ctx && x.page = e.page))).take 256
  { s with tcache := Tbl.put [] k r s.tcache }

/-- The translation of a page through cache k. Where the cache holds an entry that the tables no longer give,
either may be used (05 R212, log 1). -/
def lookupPage (k c page : Nat) (s : State) : Option TEntry × State :=
  let fresh := fun (s : State) =>
    match walkTable c page s with
    | (none, s) => (none, s)
    | (some e, s) => (some e, cachePut k e s)
  match (Tbl.look [] k s.tcache).find? (fun x => x.ctx = c && x.page = page) with
  | none => fresh s
  | some e =>
    if (walkTable c page s).1 = some e then (some e, cachePut k e s)
    else
      let (b, s) := s.freeBelow 2
      if b = 0 then (some e, cachePut k e s) else fresh s

/-- An access's way to memory: its cache, its context, and whether another device or a Weir descriptor makes it. -/
structure Via where
  cache  : Nat
  ctx    : Nat
  remote : Bool
  weir   : Bool := false
deriving DecidableEq, Repr

/-- The agent that makes an access (05 Table 5-11). -/
def Via.agent (v : Via) : Agent := if v.weir then .weir v.ctx else .ctx v.ctx

/-- Translates one LOCAL address for an access; remote accesses also need RMT (05 R210, R211). -/
def translate (v : Via) (write : Bool) (loc : Nat) (s : State) : Res Nat × State :=
  if 2 ^ 42 ≤ loc ∨ !(s.ctx v.ctx).bttEn then (.err .xlate loc, s)
  else
    match lookupPage v.cache v.ctx (loc / frameBytes) s with
    | (none, s) => (.err .xlate loc, s)
    | (some e, s) =>
      if (if write then !e.w else !e.r) || (v.remote && !e.rmt) then (.err .perm loc, s)
      else
        let pa := e.frame * frameBytes + loc % frameBytes
        match frameCheck s v.agent write pa with
        | some f => (.err f loc, s)
        | none => (.ok pa, s)

/-- Stack k's channels are in reset, so that requests to it wait (05 R231). -/
def stackShut (s : State) (k : Nat) : Bool := decide (k < 8) && (s.part k).reset.isSome

/-- An access of context c in the page of loc waits: the stack of a table or of the frame is in reset
(05 R231). -/
def pageShut (s : State) (c loc : Nat) : Bool :=
  if !(s.parts.any (fun e => e.2.reset.isSome)) || !(s.ctx c).bttEn then false
  else
    let l1 := (s.ctx c).bttRoot + 8 * (loc / frameBytes / 1024)
    if stackShut s (frameStack (l1 / frameBytes)) then true
    else
      match l1Entry (leNat (bytesAt 0 s.hbm l1 8)) with
      | none => false
      | some t =>
        let l2 := t + 8 * (loc / frameBytes % 1024)
        if stackShut s (frameStack (l2 / frameBytes)) then true
        else
          match l2Entry c (loc / frameBytes) (leNat (bytesAt 0 s.hbm l2 8)) with
          | none => false
          | some e => stackShut s (frameStack e.frame)

/-- Some page of [loc, loc + len) waits (05 R231). -/
def rangeShut (s : State) (c loc len : Nat) : Bool :=
  (List.range ((loc % frameBytes + len - 1) / frameBytes + 1)).any (fun i => pageShut s c (loc + i * frameBytes))

/-- The frame that the tables of context c give for the page of loc, as they stand (05 R210). -/
def pageFrame (s : State) (c loc : Nat) : Option Nat :=
  if !(s.ctx c).bttEn then none
  else
    match l1Entry (leNat (bytesAt 0 s.hbm ((s.ctx c).bttRoot + 8 * (loc / frameBytes / 1024)) 8)) with
    | none => none
    | some t =>
      (l2Entry c (loc / frameBytes) (leNat (bytesAt 0 s.hbm (t + 8 * (loc / frameBytes % 1024)) 8))).map (·.frame)

/-- The n bytes at a LOCAL address within one page, as memory holds them; 0 where no page maps it. -/
def peekLocal (s : State) (c loc n : Nat) : Nat :=
  match pageFrame s c loc with
  | none => 0
  | some f => leNat (bytesAt 0 s.hbm (f * frameBytes + loc % frameBytes) n)

/-- The way of a translated access that belongs to no partition (05 R212). -/
def viaDev (c : Nat) : Via := { cache := devCache, ctx := c, remote := false }

/-- The way of a Weir descriptor's accesses (05 Table 5-11, R212). -/
def viaWeir (c : Nat) : Via := { cache := devCache, ctx := c, remote := false, weir := true }

/-- Bytes from loc to the end of its page, at most len. -/
def inPage (loc len : Nat) : Nat := Nat.min len (frameBytes - loc % frameBytes)

/-- Reads within one page. A fault carries the LOCAL address at which the piece begins. -/
def readPage (v : Via) (loc len : Nat) (s : State) : Res (List Byte) × State :=
  match translate v false loc s with
  | (.err f a, s) => (.err f a, s)
  | (.ok pa, s) =>
    match hbmRead pa len s with
    | (.err f _, s) => (.err f loc, s)
    | r => r

/-- Writes within one page. -/
def writePage (v : Via) (loc : Nat) (bs : List Byte) (s : State) : Res Unit × State :=
  match translate v true loc s with
  | (.err f a, s) => (.err f a, s)
  | (.ok pa, s) =>
    match hbmWrite pa bs s with
    | (.err f _, s) => (.err f loc, s)
    | r => r

/-- Reads a range page by page; it ends with the first fault (02 R81). Fuel counts the pages. -/
def readPages (v : Via) : Nat → Nat → Nat → State → Res (List Byte) × State
  | 0, _, _, s => (.ok [], s)
  | n + 1, loc, len, s =>
    if len = 0 then (.ok [], s)
    else
      let k := inPage loc len
      match readPage v loc k s with
      | (.err f a, s) => (.err f a, s)
      | (.ok bs, s) =>
        match readPages v n (loc + k) (len - k) s with
        | (.err f a, s) => (.err f a, s)
        | (.ok cs, s) => (.ok (bs ++ cs), s)

/-- Reads len bytes at a LOCAL address. -/
def readLocal (v : Via) (loc len : Nat) (s : State) : Res (List Byte) × State :=
  readPages v (len / frameBytes + 2) loc len s

def writePages (v : Via) : Nat → Nat → List Byte → State → Res Unit × State
  | 0, _, _, s => (.ok (), s)
  | n + 1, loc, bs, s =>
    if bs.isEmpty then (.ok (), s)
    else
      let k := inPage loc bs.length
      match writePage v loc (bs.take k) s with
      | (.err f a, s) => (.err f a, s)
      | (.ok _, s) => writePages v n (loc + k) (bs.drop k) s

/-- Writes bytes at a LOCAL address. Pages before a fault stand (05 R228). -/
def writeLocal (v : Via) (loc : Nat) (bs : List Byte) (s : State) : Res Unit × State :=
  writePages v (bs.length / frameBytes + 2) loc bs s

/-- Drops every cached translation of context c (05 R212, 11 Table 11-5). -/
def dropTranslations (c : Nat) (s : State) : State :=
  forUp (fun k s =>
    { s with tcache := Tbl.put [] k ((Tbl.look [] k s.tcache).filter (fun e => e.ctx ≠ c)) s.tcache }) 0 9 s

/-- Drops the whole cache of one partition (11 Table 11-7). -/
def dropCache (k : Nat) (s : State) : State := { s with tcache := Tbl.put [] k [] s.tcache }

/-! ### Flash (14 R558) -/

def flashBytes : Nat := 0x4000000

def flashRead (s : State) (a n : Nat) : List Byte := bytesAt 0xFF s.flash a n

def flashWrite (a : Nat) (bs : List Byte) (s : State) : State :=
  { s with flash := putBytes 0xFF s.flash a bs }

/-- Erases a range of whole sectors. -/
def flashErase (a n : Nat) (s : State) : State := { s with flash := Tbl.clear a n s.flash }

end Sys2Proof.Machine
end

