-- ==== Sys2Proof/Machine/PowerModel.lean ====
section
/-!
DEFINITION. The governor's model of a partition (09 R364, R385), the launches that a change of clock point disturbs
(06 R266, 09 R367), and a partition's point as it comes into force.
-/

namespace Sys2Proof.Machine

/-! ### FLAGS of a launch descriptor (06 Table 6-3) -/

def Desc.timed (d : Desc) : Bool := bit d.flags.toNat 0
def Desc.isCatch (d : Desc) : Bool := bit d.flags.toNat 1
def Desc.pin (d : Desc) : Bool := bit d.flags.toNat 2

/-- A second, in Stroke counts and in ns of card time. -/
def secs : Nat := 1000000000

/-- The device is powered (14 R556). -/
def State.alive (s : State) : Bool := s.card.power

/-- The executing launches, with their contexts. -/
def execs (s : State) : List (Nat × Exec) :=
  s.ctxs.filterMap (fun e => e.2.exec.map (fun x => (e.1, x)))

/-- TCLK of a clock point, in MHz (09 Table 9-2). -/
def pointMHz9 (n : Nat) : Nat := 1500 - 60 * n

/-- VDD_LOGIC of a clock point, in mV (09 Table 9-2). -/
def pointMv (n : Nat) : Nat := 850 - 15 * n

/-- Power × rate of a stretch level (09 Table 9-3). -/
def stretched (level : Nat) (pw : Int) : Int :=
  match level with
  | 0 => pw
  | 1 => pw * 4 / 5
  | 2 => pw * 2 / 3
  | _ => pw / 2

/-- Leakage conductance of partition p at its temperature, in µS (09 R385, log 2). -/
def leakS (s : State) (p : Nat) : Nat := Config.leakage p (Tbl.look 0 p s.fuses.leak) (s.part p).temp

/-- Leakage power at v mV, in pW (09 R385). -/
def leakPw (s : State) (p v : Nat) : Int := (leakS s p * v * v : Nat)

/-- Switching power of a capacitance of a pF at point n and v mV, in pW (09 R385). -/
def switchPw (a n v : Nat) : Int := (a * pointMHz9 n * v * v : Nat)

/-- P_p(n, V) in pW, with the capacitance of the last pass (09 R385). -/
def partPw (s : State) (p n v : Nat) : Int := switchPw (s.part p).actCap n v + leakPw s p v

/-- A launch with TIMED = 1 holds crews in partition p (09 R367). -/
def timedIn (s : State) (p : Nat) : Bool :=
  (execs s).any (fun e => e.2.launch.desc.timed && e.2.crews.any (fun g => decide (g / 64 = p)))

/-- Marks the TIMED launches that hold crews in p as DISTURBED (06 R266, 09 R367). -/
def disturb (p : Nat) (s : State) : State :=
  forList (fun e s =>
    if e.2.launch.desc.timed && e.2.crews.any (fun g => decide (g / 64 = p))
    then s.modExec e.1 (fun x => { x with disturbed := true }) else s) (execs s) s

/-- P_p of every partition at the point and voltage now in force (09 R385, PART_PWR.EST_W). -/
def reEstimate (s : State) : State :=
  forUp (fun p s => s.modPart p (fun x => { x with
    estW := (partPw s p (s.part p).point s.pwr.setpoint).toNat })) 0 8 s

/-- The fastest of eight points. -/
def fastestOf (f : Nat → Nat) : Nat := ((List.range 8).map f).foldl Nat.min 15

/-- The VDD_LOGIC setpoint is the voltage of the fastest point in force, and is to become that of the fastest point
chosen (09 R364, R365). -/
def settleVoltage (s : State) : State :=
  s.modPwr (fun w => { w with
    setpoint := pointMv (fastestOf (fun p => (s.part p).point))
    wantSet := pointMv (fastestOf (fun p => (s.part p).nextPoint.getD (s.part p).point)) })

/-- Partition p goes to P15 at once; TIMED launches there are disturbed (06 R266, 11 Table 11-3, Table 11-8). -/
def toP15 (p : Nat) (s : State) : State :=
  let s := if (s.part p).point ≠ 15 then disturb p s else s
  s.modPart p (fun x => { x with point := 15, nextPoint := none })

/-- Every partition goes to P15, with its voltage. -/
def allToP15 (s : State) : State := reEstimate (settleVoltage (forUp toP15 0 8 s))

end Sys2Proof.Machine
end

