-- ==== Sys2Proof/Machine/UmpCore.lean ====
section
/-!
DEFINITION. The Umpire's tile state table: its log, its changes of state, its triggers (10 R421 to R423,
R436), and the counting of corrected errors (02 R75).
-/

namespace Sys2Proof.Machine

/-- States as UMP_TILE codes them (10 Table 10-8). -/
def UState.code : UState → Nat
  | .active => 0 | .suspect => 1 | .quarantined => 2 | .cleared => 3 | .retired => 4 | .fused => 7

/-- Roles as UMP_TILE codes them. -/
def Role.code : Role → Nat
  | .enabled => 0 | .spare => 1 | .out => 2 | .fused => 3

/-- Cause codes (10 Table 10-9). -/
def cNominalTransient : Nat := 1
def cNominalConfirmed : Nat := 2
def cMarginConfirmed : Nat := 3
def cPairPartner : Nat := 4
def cPairOriginal : Nat := 5
def cPairInconclusive : Nat := 6
def cUe : Nat := 7
def cCeRate : Nat := 8
def cHost : Nat := 9
def cIsolationFail : Nat := 10
def cIsolationPass : Nat := 11
def cClean : Nat := 12

/-- Events of the Umpire (10 Table 10-10). -/
def evUmpTrialFail : Nat := 0x4001
def evUmpMarginFail : Nat := 0x4002
def evUmpPairMismatch : Nat := 0x4003
def evUmpPairInconclusive : Nat := 0x4004
def evUmpSuspect : Nat := 0x4005
def evUmpQuarantined : Nat := 0x4006
def evUmpCleared : Nat := 0x4007
def evUmpRetired : Nat := 0x4008
def evUmpEvict : Nat := 0x4009
def evUmpEpochChange : Nat := 0x400A
def evUmpPinLost : Nat := 0x400B
def evUmpSparesLow : Nat := 0x400C
def evUmpSubGrade : Nat := 0x400D
def evUmpFlashFail : Nat := 0x400E
def evUmpLogLost : Nat := 0x400F

/-- Adds an entry to the Umpire's log of 64 (10 R436, Table 10-8). -/
def umpLog (pt : Nat) (old new : UState) (cause : Nat) (l : Option (BitVec 32 × Nat)) (s : State) : State :=
  let w1 := pt + old.code * 2 ^ 16 + new.code * 2 ^ 20 + cause * 2 ^ 24 + s.ump.epoch.toNat * 2 ^ 32
  let w2 := match l with
    | none => 0
    | some (id, c) => id.toNat + c * 2 ^ 32 + 2 ^ 38
  let (r, lost) := s.ump.log.push 64 32 { w0 := s.now, w1 := BitVec.ofNat 64 w1, w2 := BitVec.ofNat 64 w2 }
  let s := { s with ump := { s.ump with log := r } }
  if lost then raise evUmpLogLost noUnit 0 s else s

/-- Spares of partition p: tiles whose role is SPARE (10 R402, UMP_PART.SPARES). -/
def spareCount (s : State) (p : Nat) : Nat :=
  ((List.range 576).filter (fun i => decide ((s.utile (tileOf p i)).role = Role.spare))).length

/-- Raises UMP_SPARES_LOW when the spare count of p has fallen below SPARE_WARN from before (10 R434). -/
def sparesLow (p before : Nat) (s : State) : State :=
  let n := spareCount s p
  if n < s.ump.spareWarn ∧ s.ump.spareWarn ≤ before then raise evUmpSparesLow p n s else s

/-- A retired-map entry waits for flash (10 R431). -/
def toFlash (pt kind cause : Nat) (s : State) : State :=
  { s with ump := { s.ump with
      toFlash := s.ump.toFlash ++ [{ ptile := pt, kind := kind, cause := cause, boots := s.ump.boots }] } }

/-- KIND of a retired-map entry for a state (10 Table 10-6). -/
def UState.kind : UState → Option Nat
  | .quarantined => some 1 | .cleared => some 2 | .retired => some 3 | _ => none

/-- A change of a tile's state: its role, CAUSE, log entry, event and flash entry (10 R422). A QUARANTINED or
RETIRED tile is OUT at once, whether or not it is still bound (10 R402). -/
def changeTile (t : Nat) (new : UState) (cause ev : Nat) (l : Option (BitVec 32 × Nat)) (s : State) : State :=
  let u := s.utile t
  let p := tilePart t
  let before := spareCount s p
  let role := match new with
    | .quarantined | .retired => .out
    | .cleared => .spare
    | _ => u.role
  let s := s.setUtile t { u with st := new, role := role, cause := cause,
                                 wasCleared := u.wasCleared || decide (new = .cleared) }
  let s := { s with host := { s.host with mapAt := s.now } }
  let s := umpLog t u.st new cause l s
  let s := if ev = 0 then s else raise ev p t s
  let s := match new.kind with
    | none => s
    | some k => toFlash t k cause s
  if u.role = .spare then sparesLow p before s else s

/-- Enters QUARANTINED; a tile that had been CLEARED before goes on to RETIRED (10 Table 10-5). Its isolation
sweeps begin at once (10 R426). -/
def quarantine (t cause ev : Nat) (l : Option (BitVec 32 × Nat)) (s : State) : State :=
  let s := changeTile t .quarantined cause ev l s
  let s := s.modUtile t (fun u => { u with
    pending := none, isoPass := 0, nomOk := false, sweepBad := false, resumeNom := 0, resumeMar := 0 })
  if (s.utile t).wasCleared then changeTile t .retired cause evUmpRetired l s else s

/-- PENDING is set: a change of the tile's state as the shadow shows it (10 R424, 13 R543). -/
def setPending (t cause : Nat) (l : Option (BitVec 32 × Nat)) (s : State) : State :=
  let s := s.modUtile t (fun u => { u with pending := some s.now, cause := cause, pendLaunch := l })
  { s with host := { s.host with mapAt := s.now } }

/-- A trigger on a tile (10 R421 to R423, Table 10-5). -/
def umpTrigger (t cause : Nat) (l : Option (BitVec 32 × Nat)) (s : State) : State :=
  let u := s.utile t
  match u.st with
  | .fused | .quarantined | .retired => s
  | .active =>
    if u.role = .enabled then changeTile t .suspect cause evUmpSuspect l s
    else quarantine t cause evUmpQuarantined l s
  | .suspect =>
    if u.role = .enabled then
      if u.pending.isSome then s
      else setPending t cause l s
    else quarantine t cause evUmpQuarantined l s
  | .cleared =>
    if u.role = .enabled then
      if u.pending.isSome then s
      else setPending t cause l s
    else changeTile t .retired cause evUmpRetired l s

/-- Corrected errors of the trailing 3,600 s (10 R421, UMP_TILE.CE_HOUR). -/
def ceHour (s : State) (u : UmpTile) : List (BitVec 64) :=
  u.ces.filter (fun a => decide (s.since a ≤ 3600000000000))

/-- A corrected error in tile t: ECC_CE and TILE_ECC.CE count it, TILE_CE is raised to the Umpire, and CE_LIMIT
of them within 3,600 s are a trigger (02 R75, 10 R421). -/
def countCe (t : Nat) (s : State) : State :=
  let x := s.tile t
  let s := s.setTile t { x with eccCe := satAdd 32 x.eccCe 1, cycle := x.cycle + 1 }
  let s := { s with tileCe := Tbl.put 0 t (satAdd 32 (Tbl.look 0 t s.tileCe) 1) s.tileCe }
  let s := raise 0x1020 (tilePart t) t s
  let u := s.utile t
  let l := s.now :: ceHour s u
  let s := s.setUtile t { u with ces := l }
  let who := if x.job = .launch then some (x.launchId, x.ctx) else none
  if s.ump.ceLimit ≤ l.length then umpTrigger t cCeRate who s else s

/-- An uncorrectable error in tile t: TILE_ECC.UE counts it, and it is an Umpire input (02 R98, R101). -/
def countUe (t : Nat) (l : Option (BitVec 32 × Nat)) (s : State) : State :=
  umpTrigger t cUe l
    { s with tileUe := Tbl.put 0 t (satAdd 16 (Tbl.look 0 t s.tileUe) 1) s.tileUe }

end Sys2Proof.Machine
end

