-- ==== Sys2Proof/Machine/EngineCore.lean ====
section
/-!
DEFINITION. How launches end, once for every cause: completion records (06 R269), context aborts (11 R452),
easy-all for the job (07 R308), and tile traps (02 R93, R96 to R99, 10 R602).
-/

namespace Sys2Proof.Machine

/-! ### Completion status codes (06 Table 6-10) -/

def stOk : Nat := 0x00
def stInfeasible : Nat := 0x01
def stBerthShort : Nat := 0x02
def stMalformed : Nat := 0x03
def stNotPlaced : Nat := 0x04
def stCatchLate : Nat := 0x05
def stFlushed : Nat := 0x06
def stOverrun : Nat := 0x07
def stTileTrap : Nat := 0x10
def stWeirFault : Nat := 0x11
def stCstream : Nat := 0x12
def stTimeLimit : Nat := 0x13
def stUmpEvict : Nat := 0x20
def stEpochLost : Nat := 0x21
def stHostAbort : Nat := 0x30
def stCollateral : Nat := 0x31
def stCoxRestart : Nat := 0x32
def stEasyAll : Nat := 0x33

/-- Class F (06 Table 6-10). -/
def classF (st : Nat) : Bool := decide (0x10 ≤ st) && decide (st ≤ 0x13)
/-- Class X (06 Table 6-10). -/
def classX (st : Nat) : Bool := decide (st = 0x20) || (decide (0x30 ≤ st) && decide (st ≤ 0x33))

/-! ### Records -/

/-- What a completion record says besides the launch itself (06 Table 6-8). -/
structure RecordIn where
  status    : Nat
  disturbed : Bool := false
  pinExp    : Bool := false
  mapEpoch  : Nat := 0
  tDispatch : Nat := 0
  tEnd      : Nat
  cycles    : Nat := 0
  oor       : Nat := 0
  energy    : Nat := 0
  csDetail  : Nat := 0
  fault     : Option FaultRec := none
deriving DecidableEq, Repr

/-- The 128 bytes of a completion record, with PHASE clear (06 Table 6-8). -/
def recordBytes (c : Nat) (id : BitVec 32) (sqIndex tArrive : Nat) (r : RecordIn) : List Byte :=
  let f := r.fault.getD { }
  let flags := boolNat r.fault.isSome + 2 * boolNat r.disturbed + 4 * boolNat r.pinExp
  leBytes 4 id.toNat ++ leBytes 1 r.status ++ leBytes 1 flags ++ leBytes 2 c ++ leBytes 4 sqIndex ++
    leBytes 4 r.mapEpoch ++ leBytes 8 tArrive ++ leBytes 8 r.tDispatch ++ leBytes 8 r.tEnd ++
    leBytes 8 r.cycles ++ leBytes 6 r.oor ++ leBytes 2 0 ++
    leBytes 4 (if 2 ^ 32 ≤ r.energy then 2 ^ 32 - 1 else r.energy) ++ leBytes 4 r.csDetail ++
    leBytes 8 f.w0.toNat ++ leBytes 8 f.w1.toNat ++ leBytes 8 f.w2.toNat ++ leBytes 8 f.w3.toNat ++ leBytes 32 0

/-- Entries of a ring of a SIZE (06 R236). -/
def ringSize (n : Nat) : Nat := 16 * 2 ^ n

/-- The completion ring has an entry free (06 R239). -/
def cqRoom (x : Ctx) : Bool := decide ((x.cqTail + 1) % ringSize x.cqSize ≠ x.cqHead)

/-- A record is ready and the ring is full: the context holds, and CQ_FULL is raised once (06 R240). -/
def noteFull (c : Nat) (s : State) : State :=
  let x := s.ctx c
  match x.done with
  | [] => s
  | d :: _ =>
    if cqRoom x || x.cqHold then s
    else raise 0x7010 c (leNat (d.bytes.take 4)) (s.setCtx c { x with cqHold := true })

/-- A launch reaches DONE and its record is ready (06 R240). A context that a host detach has disabled writes no
record (13 R522). -/
def pushDone (c : Nat) (bs : List Byte) (s : State) : State :=
  if (s.ctx c).en then noteFull c (s.modCtx c (fun x => { x with done := x.done ++ [{ bytes := bs }] })) else s

/-- Enters STOPPED and raises CTX_STOPPED (06 R242). -/
def enterStopped (c : Nat) (s : State) : State :=
  raise 0x7012 c 0 (s.modCtx c (fun x => { x with st := .stopped, stopAfter := false }))

/-- A fetched launch completes without dispatch with a class R or X status. A catch launch of a job sends
easy-all for class R (06 R260, R278, 07 R308), and so does every launch of a job for class X other than
EASY_ALL. -/
def refuseLaunch (c status : Nat) (l : Launch) (s : State) : State :=
  let job := (s.ctx c).jobid
  let s := pushDone c (recordBytes c l.id l.sqIndex l.tArrive.toNat { status := status, tEnd := s.now.toNat }) s
  let s := if status = stInfeasible then { s with cntInfeasible := satAdd 32 s.cntInfeasible 1 } else s
  let s := { s with passMark := s.passMark + 1 }
  let send := if classX status then decide (status ≠ stEasyAll) else l.desc.isCatch
  if send && decide (job ≠ 0) then easyAllOriginate job status s.now s else s

/-! ### Pair checks that end without a verdict (10 R418) -/

/-- Power of Umpire work on partition p is committed (10 R411). -/
def commitPower (p n : Nat) (s : State) : State :=
  s.modUmp (fun u => { u with commit := Tbl.put 0 p (Tbl.look 0 p u.commit + n) u.commit })

/-- It is released. -/
def releasePower (p n : Nat) (s : State) : State :=
  s.modUmp (fun u => { u with commit := Tbl.put 0 p (Tbl.look 0 p u.commit - n) u.commit })

/-- Stops and gates the tiles of crew g: nothing of their work survives (11 R451). -/
def gateCrew (g : Nat) (s : State) : State :=
  forList (fun t s => s.setTile t { }) (s.crew g).tiles s

/-- A pair check of context c's launch is over: its partner and third crew are gated and free (10 R418). -/
def endPair (c : Nat) (p : Pair) (s : State) : State :=
  let s := forList (fun g s => releasePower (g / 64) p.power
    ((gateCrew g s).modCrew g (fun k => { k with partnerOf := none }))) (p.gPart.toList ++ p.gThird.toList) s
  s.modExec c (fun x => { x with pair := none })

/-- The check of context c's launch is void: its partner and third crew stop (10 R418). -/
def voidPair (c : Nat) (s : State) : State :=
  match (s.ctx c).exec with
  | none => s
  | some x =>
    match x.pair with
    | none => s
    | some p =>
      (endPair c p s).umpCount 5

/-! ### The end of an executing launch -/

/-- The primary fault of a launch: lowest Stroke count, then lowest (CREW, TID) (02 R97). -/
def primaryFault (l : List FaultOf) : Option FaultOf :=
  listMin (fun a b =>
    if a.stroke ≠ b.stroke then decide (a.stroke.toNat < b.stroke.toNat)
    else if a.crew ≠ b.crew then decide (a.crew < b.crew) else decide (a.tid < b.tid)) l

/-- Largest cycle count of the launch's tiles at their HALT or stop is kept (06 Table 6-8 CYCLES). -/
def noteCycles (c n : Nat) (s : State) : State :=
  s.modExec c (fun x => { x with cycles := Nat.max x.cycles n })

/-- A tile that stops between instructions: the cycles since its last one are free (log 1). -/
def noteStop (c n : Nat) (s : State) : State :=
  let (k, s) := s.free
  noteCycles c (n + 1 + k) s

/-- The executing launch of c reaches DONE with its decided ending: crews and power are released, the record
is made with the primary fault, which a COLLATERAL_ABORT does not show, SPARSE_OOR is raised, and a context that
waits for this stops (06 R256, R269, 02 R97, 11 R457, 04 R190). -/
def launchDone (c : Nat) (s : State) : State :=
  match (s.ctx c).exec with
  | none => s
  | some x =>
    match x.ending with
    | none => s
    | some e =>
      let fault := if e.status = stCollateral then none else (primaryFault x.faults).map (·.frec)
      let r : RecordIn := {
        status := e.status, disturbed := x.disturbed, pinExp := x.pinExpired, mapEpoch := x.mapEpoch.toNat
        tDispatch := x.tDispatch.toNat, tEnd := s.now.toNat, cycles := x.cycles, oor := x.oor
        energy := x.energy / 1000, csDetail := e.csDetail.toNat, fault := fault }
      let s := pushDone c (recordBytes c x.launch.id x.launch.sqIndex x.launch.tArrive.toNat r) s
      let s := forList (fun g s => s.modCrew g (fun k => { k with heldBy := none, claimUsed := false })) x.crews s
      let s := forList (fun t s => s.modTile t.2.2 (fun y => { y with run := .off, job := .none })) x.tiles s
      let s := s.modCtx c (fun k => { k with exec := none })
      let s := { s with passMark := s.passMark + 1 }
      let s := if e.status = stOverrun then { s with cntOverrun := satAdd 32 s.cntOverrun 1 } else s
      let s := if x.oor ≠ 0 then raise 0x8001 c x.launch.id.toNat s else s
      let k := s.ctx c
      if k.stopAfter && decide (k.st = .running) then enterStopped c s else s

/-- Starts a context abort at this count: the CTX_SWEEP bit is set (11 R452, 05 R207). One in progress goes on
unchanged (11 R469). -/
def contextAbort (c : Nat) (s : State) : State :=
  let x := s.ctx c
  if x.abort.isSome then s
  else s.setCtx c { x with
    sweep := some s.now, abort := some { start := s.now, quiesced := false, parts := [], stuck := [] } }

/-- An eviction decided in this same count yields to an abort of another cause (01 R50, 10 R437, log 39). -/
def evictYields (s : State) (x : Exec) (status : Nat) : Bool :=
  match x.ending with
  | some e => decide (e.status = stUmpEvict) && decide (e.at_ = s.now) && classX status && decide (status ≠ stUmpEvict)
  | none => false

/-- Decides how the executing launch of c ends, unless that is decided: the job's easy-all, the context's
state, and the abort, or DONE at once where no command has executed (06 R270, R271, 07 R308, R309). -/
def decideEnd (c status csDetail : Nat) (origin : BitVec 64) (s : State) : State :=
  match (s.ctx c).exec with
  | none => s
  | some x =>
    let e : Ending := { status := status, csDetail := BitVec.ofNat 32 csDetail, at_ := s.now }
    if evictYields s x status then s.modExec c (fun x => { x with ending := some e })
    else if x.ending.isSome then s
    else
      let k := s.ctx c
      let s := voidPair c s
      let s := s.modExec c (fun x => { x with ending := some e })
      let stops := classX status || (classF status && !k.contOnFault)
      let s := if stops then s.modCtx c (fun k => { k with st := .aborting }) else s
      let s := if decide (k.jobid ≠ 0) && decide (status ≠ stEasyAll)
        then easyAllOriginate k.jobid status origin s else s
      if classX status || x.began then contextAbort c s else launchDone c s

/-- Every fetched launch of c completes with a status, in fetch order (06 R245, R272). -/
def refuseFetched (c status : Nat) (s : State) : State :=
  let l := (s.ctx c).fetched
  forList (fun x s => refuseLaunch c status x s) l (s.modCtx c (fun k => { k with fetched := [] }))

/-! ### Tile traps -/

/-- A trap as detected (02 Table 2-6). -/
structure Trap where
  cause     : Nat
  imprecise : Bool := false
  pc        : BitVec 12
  addr      : Nat := 0
  detail    : Nat := 0
  /-- of a precise trap, the tile cycles from the issue cycle to the one that detects it (R70) -/
  late      : Nat := 0
deriving DecidableEq, Repr

/-- Causes (02 Table 2-6). -/
def tcIllegalOp : Nat := 0x01
def tcPcOverrun : Nat := 0x02
def tcCreg : Nat := 0x03
def tcSramRange : Nat := 0x04
def tcAlign : Nat := 0x05
def tcSramUe : Nat := 0x06
def tcImemUe : Nat := 0x07
def tcEddyUe : Nat := 0x08
def tcAddrReserved : Nat := 0x09
def tcXlate : Nat := 0x0A
def tcPerm : Nat := 0x0B
def tcPoison : Nat := 0x0C
def tcRemote : Nat := 0x0D
def tcDeviceRange : Nat := 0x0E
def tcStreamTimeout : Nat := 0x0F
def tcSyncTimeout : Nat := 0x10
def tcWaitRange : Nat := 0x11
def tcUser : Nat := 0x12
def tcWalk : Nat := 0x13
def tcSpillway : Nat := 0x14

/-- Trap of a memory fault on a request (02 Table 2-6). -/
def MFault.cause : MFault → Nat
  | .xlate => tcXlate | .perm => tcPerm | .poison => tcPoison

/-- The four words of a fault record (02 Table 2-7). -/
def faultRecord (s : State) (t : Nat) (x : Tile) (tr : Trap) (secondary : Bool) : FaultRec :=
  { w0 := s.now
    w1 := BitVec.ofNat 64 (tr.cause + boolNat tr.imprecise * 2 ^ 8 + boolNat secondary * 2 ^ 9 + x.ctx * 2 ^ 10 +
      t * 2 ^ 16 + x.tid * 2 ^ 32 + x.crew * 2 ^ 35 + tr.pc.toNat * 2 ^ 48)
    w2 := BitVec.ofNat 64 (x.launchId.toNat + (0x1000 + tr.cause) * 2 ^ 32 +
      (s.part (tilePart t)).rgen.toNat * 2 ^ 48)
    w3 := BitVec.ofNat 64 (bits tr.addr 0 56 + tr.detail * 2 ^ 56) }

/-- Marks a record SECONDARY. -/
def FaultRec.markSecondary (r : FaultRec) : FaultRec := { r with w1 := r.w1 ||| 0x200#64 }

/-- Marks record r SECONDARY where the fault rings and the launch still hold it: a trap of the same count with
a lower (CREW, TID) has become the primary fault (02 R97). -/
def demote (c : Nat) (f : FaultOf) (s : State) : State :=
  let s := s.modPart (tilePart f.ptile) (fun p => { p with faults := { p.faults with
    items := p.faults.items.map (fun r => if r = f.frec then r.markSecondary else r) } })
  s.modExec c (fun x => { x with
    faults := x.faults.map (fun g => if g = f then { g with frec := g.frec.markSecondary } else g) })

/-- Writes a fault record to the ring of the tile's partition (02 R102). -/
def pushFault (p : Nat) (r : FaultRec) (s : State) : State :=
  let (ring, lost) := (s.part p).faults.push 16 32 r
  let s := s.modPart p (fun x => { x with faults := ring })
  if lost then raise 0x1021 p 0 s else s

/-- The launch that tile x serves, when it still executes. -/
def servedLaunch (s : State) (x : Tile) : Option Exec :=
  match (s.ctx x.ctx).exec with
  | some e => if e.launch.id = x.launchId ∧ x.job = .launch then some e else none
  | none => none

/-- A tile of a launch traps: record, event, abort (02 R96, R97, R99). -/
def trapLaunch (t : Nat) (x : Tile) (tr : Trap) (e : Exec) (s : State) : State :=
  let old := primaryFault e.faults
  let first : Bool := match old with
    | none => true
    | some f => decide (f.stroke = s.now) &&
        (decide (x.crew < f.crew) || (decide (x.crew = f.crew) && decide (x.tid < f.tid)))
  let r := faultRecord s t x tr (!first)
  let s := match old with
    | some f => if first then demote x.ctx f s else s
    | none => s
  let s := pushFault (tilePart t) r s
  let s := raise (0x1000 + tr.cause) (tilePart t) x.launchId.toNat s
  let f : FaultOf := { stroke := s.now, crew := x.crew, tid := x.tid, ptile := t, cause := tr.cause,
                       pc := tr.pc, frec := r }
  let s := s.modExec x.ctx (fun e => { e with faults := e.faults ++ [f] })
  let s := if tr.imprecise then noteStop x.ctx x.cycle s else noteCycles x.ctx (x.cycle + 1) s
  decideEnd x.ctx stTileTrap 0 s.now s

/-- An abort of its launch has stopped tile x: 1,000 counts after its start (11 Table 11-5). -/
def stoppedByAbort (s : State) (x : Tile) : Bool :=
  match (s.ctx x.ctx).abort with
  | some a => decide (x.job = .launch) && decide (1000 ≤ s.since a.start)
  | none => false

/-- Tile t traps: it stops issuing, and what follows depends on whom it runs for (02 R96, R98, 10 R602). A tile
that is not running raises no trap (02 R97). -/
def trapTile (t : Nat) (tr : Trap) (s : State) : State :=
  let x := s.tile t
  if x.run = .off ∨ x.run = .stopped ∨ stoppedByAbort s x = true then s
  else
    let s := s.setTile t { x with run := .stopped, held := none, trapped := decide (x.job ≠ .launch) }
    let ue := decide (tr.cause = tcSramUe) || decide (tr.cause = tcImemUe) || decide (tr.cause = tcEddyUe)
    let s := match servedLaunch s x with
      | some e => trapLaunch t x tr e s
      | none => s
    if ue then countUe t (if x.job = .launch then some (x.launchId, x.ctx) else none) s else s

/-- Counts one out-of-range index against context c and its launch (04 R189). -/
def countOor (c : Nat) (s : State) : State :=
  (s.modCtx c (fun x => { x with oor := satAdd 48 x.oor 1 })).modExec c
    (fun e => { e with oor := satAdd 48 e.oor 1 })

/-- Counts n out-of-range indices (04 R189). -/
def countOors (c n : Nat) (s : State) : State := forUp (fun _ s => countOor c s) 0 n s

end Sys2Proof.Machine
end

