-- ==== Sys2Proof/Machine/UmpSched.lean ====
section
/-!
DEFINITION. What dispatch and the Umpire share: which crews are idle, which are kept from dispatch, committed
power and room for more (06 R262, 10 R408, R411 to R414, R424), and Umpire work that ends void.
-/

namespace Sys2Proof.Machine

/-- The device has begun its start, so its reset unit and registers answer (12 Table 12-1). -/
def State.up (s : State) : Bool := s.alive && decide (s.boot.stage ≠ .rom)

/-- A launch with TIMED = 1 executes on the device (08 R341, 10 R412). -/
def timedRuns (s : State) : Bool := (execs s).any (fun e => e.2.launch.desc.timed)

/-- An executing launch holds crews in partition p. -/
def holdsPart (s : State) (p : Nat) : Bool := (execs s).any (fun e => e.2.crews.any (fun g => decide (g / 64 = p)))

/-- Committed power of partition p, in pW: executing launches and Umpire work (06 R262, 10 R411). -/
def committed (s : State) (p : Nat) : Nat :=
  ((execs s).map (fun e => e.2.shares.getD p 0)).foldl (· + ·) 0 + Tbl.look 0 p s.ump.commit

/-- DEF_CREW_MW of one crew, in pW. -/
def defCrewPw (s : State) : Nat := s.defCrewMw * 1000000000

/-- Umpire work of power n may start on partition p under 06 R262. -/
def room (s : State) (p n : Nat) : Bool := decide (committed s p + n ≤ (s.part p).budget) || !holdsPart s p

/-- The Umpire's work on crew g. -/
def crewWork (s : State) (g : Nat) : Option Work := s.ump.work.find? (fun w => decide (w.subject = .crew g))

/-- Enabled, held by no launch, pair check or Umpire work, and its partition is not in reset (10 R408). -/
def crewIdle (s : State) (g : Nat) : Bool :=
  let k := s.crew g
  !k.tiles.isEmpty && k.heldBy.isNone && k.partnerOf.isNone && (crewWork s g).isNone && !stackShut s (g / 64)

/-- The Umpire begins work: its firmware runs and the device is in service (11 R466). -/
def umpWorks (s : State) : Bool := s.alive && s.coxRuns && !s.rst.oos

/-- Crew g is at suspect rate (10 R409). -/
def suspectRate (s : State) (g : Nat) : Bool :=
  (s.part (g / 64)).crack || (s.crew g).tiles.any (fun t => decide ((s.utile t).st = .suspect))

/-- Period of crew g's nominal sweeps, in counts (10 Table 10-3). -/
def crewPeriod (s : State) (g : Nat) (margin : Bool) : Nat :=
  secs * (if suspectRate s g then s.ump.suspectS else if margin then s.ump.marginS else s.ump.trialS)

/-- The Umpire claims crew g for a nominal trial ahead of dispatch (10 R414). -/
def claims (s : State) (g : Nat) : Bool :=
  umpWorks s && s.ump.trials && !timedRuns s && crewIdle s g && !(s.crew g).claimUsed &&
    decide (crewPeriod s g false + s.ump.trialS * secs < s.since (s.crew g).lastNom)

/-- A pin taken at or before count a is held (10 R424, R429). -/
def pinHeldSince (s : State) (a : BitVec 64) : Bool :=
  (execs s).any (fun e => e.2.pinEnd.isSome && decide (e.2.pinFrom ≤ a.toNat))

/-- Crew g waits for a swap or an eviction, so nothing is dispatched onto it (10 R424, R430). -/
def swapHolds (s : State) (g : Nat) : Bool :=
  (s.crew g).tiles.any (fun t =>
    s.ump.evicting.contains t ||
    (match (s.utile t).pending with
     | some a => !pinHeldSince s a
     | none => false))

/-- A triage waits for its third crew (10 R420). -/
def triageWaits (s : State) : Bool :=
  (execs s).any (fun e => match e.2.pair with
    | some p => !p.mism.isEmpty && p.gThird.isNone
    | none => false)

/-- Crew g may take a dispatch now; an idle crew goes to a waiting triage first (10 R413, R414, R420, R424). -/
def crewTakes (s : State) (g : Nat) : Bool :=
  let k := s.crew g
  !k.tiles.isEmpty && k.heldBy.isNone && !stackShut s (g / 64) && !claims s g && !swapHolds s g &&
    !(triageWaits s && crewIdle s g) &&
    (match crewWork s g with
     | some w => !w.claimed
     | none => true) &&
    (match k.partnerOf with
     | none => true
     | some c => match (s.ctx c).exec.bind (·.pair) with
       | some p => decide (p.gThird ≠ some g)
       | none => true)

/-- The partition of a subject. -/
def Subject.part : Subject → Nat
  | .crew g => g / 64
  | .tile t => tilePart t

/-- Umpire work that `f` picks is void: it stops, and its power is released (10 R413, R430, 11 R475). -/
def voidWork (f : Work → Bool) (s : State) : State :=
  let gone := s.ump.work.filter f
  forList (fun w s => releasePower w.subject.part w.power s) gone
    (s.modUmp (fun u => { u with work := u.work.filter (fun w => !f w) }))

/-- All Umpire work on crew g ends void: its trial, and the pair check that it is a partner of (10 R413). -/
def voidCrewWork (g : Nat) (s : State) : State :=
  let s := voidWork (fun w => decide (w.subject = .crew g)) s
  match (s.crew g).partnerOf with
  | some c => voidPair c s
  | none => s

/-- Crews that may be a partner: idle, with room for DEF_CREW_MW, and no triage waits for an idle crew (10 R417,
R420). -/
def partnerOk (s : State) (g : Nat) : Bool := crewIdle s g && !triageWaits s && !swapHolds s g && room s (g / 64) (defCrewPw s)

/-- The crew indices in rotation: those after r, then those up to it (10 R417). -/
def rotation (r : Nat) : List Nat := ((List.range 512).map (fun i => (r + 1 + i) % 512))

/-- The partner of a checked crew g: of another partition when one qualifies, else of its own (10 R417). -/
def pickPartner (s : State) (g : Nat) : Option Nat :=
  let l := (rotation s.ump.rotate).filter (partnerOk s)
  match l.find? (fun h => decide (h / 64 ≠ g / 64)) with
  | some h => some h
  | none => l.find? (fun h => decide (h ≠ g))

end Sys2Proof.Machine
end

