-- ==== Sys2Proof/Machine/MapBuild.lean ====
section
/-!
DEFINITION. The retired map in flash (10 R431 to R433, 14 R560, R561) and the dispatch map: its build at a start
(12 R481), the choice of a spare (10 R425), swaps and withdrawals (10 R427 to R429, R434).
-/

namespace Sys2Proof.Machine

/-! ### The retired map in flash -/

/-- Flash offset of half h of the retired map (14 Table 14-2). -/
def rmapBase (h : Nat) : Nat := 0x40000 + h * 0x20000
def rmapMagic : Nat := 0x4B524D50
def rmapStamps : Nat := 504
def rmapEntries : Nat := 15872

/-- A record of seven bytes with its CHECK (10 Table 10-6). -/
def checked (bs : List Byte) : List Byte := bs ++ [BitVec.ofNat 8 (crc8 bs)]

/-- CHECK is correct, and the bytes are not all 0xFF (10 R432). -/
def goodRec (bs : List Byte) : Bool :=
  decide (checked (bs.take 7) = bs) && bs.any (fun b => decide (b ≠ 0xFF#8))

/-- The bytes of an entry (10 Table 10-6). -/
def MapEntry.bytes (e : MapEntry) : List Byte :=
  checked (leBytes 2 (e.ptile + e.kind * 2 ^ 13) ++ leBytes 1 e.cause ++ leBytes 1 0 ++ leBytes 2 e.boots ++ leBytes 1 0)

/-- The bytes of a BOOTS stamp (14 Table 14-3). -/
def stampBytes (boots : Nat) : List Byte := checked (leBytes 4 boots ++ leBytes 3 0)

/-- An entry that names a tile and a KIND; others are ignored (10 R432). -/
def parseEntry (bs : List Byte) : Option MapEntry :=
  let w := leNat (bs.take 2)
  let e : MapEntry := { ptile := w % 2 ^ 13, kind := w / 2 ^ 13, cause := leNat ((bs.drop 2).take 1),
                        boots := leNat ((bs.drop 4).take 2) }
  if goodRec bs && decide (e.ptile < 4608) && decide (1 ≤ e.kind) && decide (e.kind ≤ 3) then some e else none

/-- The listed flash bytes of a region, so that what follows looks at them alone. -/
def flashPart (s : State) (a n : Nat) : Tbl Byte :=
  s.flash.filter (fun e => decide (a ≤ e.1) && decide (e.1 < a + n))

/-- The records of eight bytes at offset a, n of them. -/
def recordsAt (s : State) (a n : Nat) : List (List Byte) :=
  let m := flashPart s a (8 * n)
  (List.range n).map (fun i => bytesAt 0xFF m (a + 8 * i) 8)

/-- How many of the records have been written: up to the last that is not blank. -/
def usedOf (l : List (List Byte)) : Nat :=
  listMax0 (l.zipIdx.map (fun e => if e.1.any (fun b => decide (b ≠ 0xFF#8)) then e.2 + 1 else 0))

def halfHeader (s : State) (h : Nat) : List Byte := bytesAt 0xFF (flashPart s (rmapBase h) 64) (rmapBase h) 64

/-- MAGIC and CRC of a half are correct (14 R560). -/
def halfValid (s : State) (h : Nat) : Bool :=
  let b := halfHeader s h
  decide (leNat (b.take 4) = rmapMagic) && decide (leNat (b.drop 60) = crc32 (b.take 60))

def halfSeq (s : State) (h : Nat) : Nat := leNat (((halfHeader s h).drop 4).take 4)

/-- The governing half: the valid one with the higher HALF_SEQ (14 R560). -/
def governing (s : State) : Option Nat :=
  match halfValid s 0, halfValid s 1 with
  | true, true => some (if halfSeq s 0 < halfSeq s 1 then 1 else 0)
  | true, false => some 0
  | false, true => some 1
  | false, false => none

def halfStamps (s : State) (h : Nat) : List (List Byte) := recordsAt s (rmapBase h + 64) rmapStamps
def halfEntries (s : State) (h : Nat) : List (List Byte) := recordsAt s (rmapBase h + 4096) rmapEntries

/-- BOOTS of the last correct stamp of the governing half (14 R560); 0 with none. -/
def flashBoots (s : State) : Nat :=
  match governing s with
  | none => 0
  | some h => (((halfStamps s h).filter goodRec).getLast?.map (fun b => leNat (b.take 4))).getD 0

/-- The correct entries of the governing half, in append order (10 R432). -/
def flashEntries (s : State) : List MapEntry :=
  match governing s with
  | none => []
  | some h => (halfEntries s h).filterMap parseEntry

/-- The latest entry of each tile, in append order. -/
def latestEntries : List MapEntry → List MapEntry
  | [] => []
  | e :: r => if r.any (fun k => decide (k.ptile = e.ptile)) then latestEntries r else e :: latestEntries r

/-- The retired map: the tiles whose latest KIND is QUARANTINED or RETIRED (10 R432). -/
def retiredMap (s : State) : List Nat :=
  ((latestEntries (flashEntries s)).filter (fun e => decide (e.kind ≠ 2))).map (·.ptile)

/-- The 576-byte bitmap of a set of tiles (10 R433). -/
def tileBitmap (l : List Nat) : List Byte :=
  (List.range 576).map (fun i => BitVec.ofNat 8
    (((List.range 8).map (fun j => if l.contains (8 * i + j) then 2 ^ j else 0)).foldl (· + ·) 0))

/-- UMP_RMAP_HASH follows the retired map (10 R433). -/
def setRmapHash (s : State) : State :=
  s.modUmp (fun u => { u with rmapHash := sha384 (tileBitmap (retiredMap s)) })

/-- Writes half h afresh: erased, then entries, one stamp, and the header last (14 R561). -/
def writeHalf (h seq boots : Nat) (l : List MapEntry) (s : State) : State :=
  let a := rmapBase h
  let body := leBytes 4 rmapMagic ++ leBytes 4 seq ++ List.replicate 52 0#8
  let f := Tbl.clear a 0x20000 s.flash
  let f := putBytes 0xFF f (a + 4096) (l.flatMap (·.bytes))
  let f := putBytes 0xFF f (a + 64) (stampBytes boots)
  { s with flash := putBytes 0xFF f a (body ++ leBytes 4 (crc32 body)) }

/-- Rewrites the map into the other half; with no valid half, a fresh half 0 (14 R561, R581). -/
def rewriteMap (s : State) : State :=
  match governing s with
  | none => writeHalf 0 1 s.ump.boots [] s
  | some h => writeHalf (1 - h) (halfSeq s h + 1) s.ump.boots (latestEntries (flashEntries s)) s

/-- Appends a stamp of BOOTS, which a rewrite writes by itself (12 R476, 14 R561). -/
def appendStamp (s : State) : State :=
  match governing s with
  | none => rewriteMap s
  | some h =>
    let n := usedOf (halfStamps s h)
    if n < rmapStamps
    then { s with flash := putBytes 0xFF s.flash (rmapBase h + 64 + 8 * n) (stampBytes s.ump.boots) }
    else rewriteMap s

/-- Appends an entry, after a rewrite when the half is full (10 R431, 14 R561). -/
def appendEntry (e : MapEntry) (s : State) : State :=
  let full := match governing s with
    | none => true
    | some h => decide (rmapEntries ≤ usedOf (halfEntries s h))
  let s := if full then rewriteMap s else s
  match governing s with
  | none => s
  | some h =>
    { s with flash := putBytes 0xFF s.flash (rmapBase h + 4096 + 8 * usedOf (halfEntries s h)) e.bytes }

/-! ### The dispatch map -/

/-- Enabled crews per partition of a grade (00 Table 0-2). -/
def gradeCrews (s : State) : Nat := if s.fuses.grade = 0 then 64 else if s.fuses.grade = 1 then 60 else 56

/-- Mesh distance of two tiles: rows and columns between them (10 R425, log 28). -/
def meshDist (a b : Nat) : Nat :=
  (Int.natAbs ((tileRow a : Int) - tileRow b)) + (Int.natAbs ((tileCol a : Int) - tileCol b))

/-- Total distance of tile x to the tiles of a crew other than its tile i (10 R425). -/
def distTo (crew : List Nat) (i x : Nat) : Nat :=
  ((listDrop crew i).map (meshDist x)).foldl (· + ·) 0

/-- The tile of a pool nearest to the rest of the crew; ties go to the lowest number (10 R425). -/
def nearest (crew : List Nat) (i : Nat) (pool : List Nat) : Option Nat :=
  listMin (fun a b =>
    let da := distTo crew i a
    let db := distTo crew i b
    if da ≠ db then decide (da < db) else decide (a < b)) pool

/-- The eight tiles of physical crew c of partition p by position (12 R481). -/
def physCrew (p c : Nat) : List Nat :=
  (List.range 8).map (fun k => 96 * (4 * (c / 6) + k / 2) + 12 * p + 2 * (c % 6) + k % 2)

/-- Replaces the unusable tiles of one crew in ascending position: the crew and what is left of the pool (12 R481). -/
def repairCrew (bad : Nat → Bool) : Nat → Nat → List Nat × List Nat → List Nat × List Nat
  | _, 0, x => x
  | k, n + 1, (crew, pool) =>
    let t := crew.getD k 0
    match (if bad t then nearest crew k pool else none) with
    | none => repairCrew bad (k + 1) n (crew, pool)
    | some y => repairCrew bad (k + 1) n (listSet crew k y, pool.filter (fun z => decide (z ≠ y)))

/-- Repairs the crews in ascending logical number (12 R481). -/
def repairCrews (bad : Nat → Bool) : List (List Nat) → List Nat → List (List Nat)
  | [], _ => []
  | c :: r, pool =>
    let x := repairCrew bad 0 8 (c, pool)
    x.1 :: repairCrews bad r x.2

/-- The logical crews of partition p from the disabled and the retired map (12 R481). -/
def buildCrews (bad : Nat → Bool) (e p : Nat) : List (List Nat) :=
  let cnt := fun (c : List Nat) => (c.filter bad).length
  let order := sortBy (fun a b => decide (cnt a < cnt b)) ((List.range 72).map (physCrew p))
  let pool := ((order.drop e).flatMap id).filter (fun t => !bad t)
  (repairCrews bad (order.take e) pool).filter (fun c => c.all (fun t => !bad t))

/-- The state that a tile takes at a start (10 R402, R432). -/
def startTileState (s : State) (hist latest : List MapEntry) (t : Nat) : UmpTile :=
  if s.fuses.disabled.contains t then { st := .fused, role := .fused }
  else
    let st := match (latest.find? (fun e => decide (e.ptile = t))).map (·.kind) with
      | some 1 => UState.quarantined
      | some 2 => UState.cleared
      | some 3 => UState.retired
      | _ => UState.active
    { st := st, role := if st = .quarantined ∨ st = .retired then .out else .spare
      wasCleared := hist.any (fun e => decide (e.ptile = t) && decide (e.kind = 2)) }

/-- Binds logical tile i of crew g to tile t. -/
def bindTile (g i t : Nat) (s : State) : State :=
  s.modUtile t (fun u => { u with role := .enabled, gcrew := g, ltile := i })

/-- Gives logical crew g its tiles. -/
def bindCrew (g : Nat) (l : List Nat) (s : State) : State :=
  forList (fun e s => bindTile g e.2 e.1 s) l.zipIdx (s.modCrew g (fun k => { k with tiles := l }))

/-- A partition below its grade's count is reported once (10 R434). -/
def subGrade (p : Nat) (s : State) : State :=
  if gradeCrews s ≤ Tbl.look 0 p s.ump.nCrews || Tbl.look false p s.ump.subRaised then s
  else raise evUmpSubGrade p (spareCount s p) (s.modUmp (fun u => { u with subRaised := Tbl.put false p true u.subRaised }))

/-- Builds the tile state table and the dispatch map from flash and fuses (10 R403, R432, 12 R481). Every bound
crew and spare is due for both sweeps of the qualification (12 R484). -/
def buildMap (s : State) : State :=
  let hist := flashEntries s
  let latest := latestEntries hist
  let out := (latest.filter (fun e => decide (e.kind ≠ 2))).map (·.ptile)
  let bad := fun t => s.fuses.disabled.contains t || out.contains t
  let s := forList (fun t s => s.setUtile t (startTileState s hist latest t)) (s.fuses.disabled ++ hist.map (·.ptile)) s
  let s := forUp (fun p s =>
    let l := buildCrews bad (gradeCrews s) p
    let s := forList (fun c s => bindCrew (64 * p + c.2) c.1
      (s.modCrew (64 * p + c.2) (fun k => { k with dueNom := true, dueMar := true }))) l.zipIdx s
    let s := forUp (fun i s => s.modUtile (tileOf p i) (fun u =>
      if u.role = .spare then { u with dueNom := true, dueMar := true } else u)) 0 576 s
    s.modUmp (fun u => { u with nCrews := Tbl.put 0 p l.length u.nCrews })) 0 8 s
  forUp (fun p s => subGrade p s) 0 8 (s.modHost (fun h => { h with mapAt := s.now }))

/-! ### Changes of the map -/

/-- One map change: the epoch, and every pin held is lost (10 R428, R429). -/
def epochStep (s : State) : State :=
  let e := BitVec.ofNat 32 (s.ump.epoch.toNat / 2 ^ 16 * 2 ^ 16 + (s.ump.epoch.toNat + 1) % 2 ^ 16)
  let s := s.modUmp (fun u => { u with epoch := e })
  let s := s.modHost (fun h => { h with mapAt := s.now })
  let s := raise evUmpEpochChange noUnit e.toNat s
  forList (fun k s =>
    if k.2.pinEnd.isSome then
      raise evUmpPinLost k.1 k.2.launch.id.toNat
        (s.modExec k.1 (fun x => { x with pinEnd := none, pinLost := true }))
    else s) (execs s) s

/-- A tile that has left its crew takes the outcome of Table 10-5: `old` was bound, and becomes OUT or a spare. -/
def leaveCrew (t : Nat) (s : State) : State :=
  let u := s.utile t
  let s := s.modUmp (fun x => { x with evicting := x.evicting.filter (fun y => decide (y ≠ t)) })
  let s := s.setUtile t { u with
    role := if u.st = .quarantined ∨ u.st = .retired ∨ u.pending.isSome = true then .out else .spare
    pending := none, pendLaunch := none, gcrew := 0, ltile := 0 }
  if u.pending.isNone || u.st = .quarantined || u.st = .retired then s
  else if u.st = .cleared then changeTile t .retired u.cause evUmpRetired u.pendLaunch s
  else quarantine t u.cause evUmpQuarantined u.pendLaunch s

/-- Rebinds logical tile i of crew g from tile t to spare x (10 R425). Umpire work on the crew is void. -/
def rebind (g i t x : Nat) (s : State) : State :=
  let p := tilePart t
  let before := spareCount s p
  let s := voidWork (fun w => decide (w.subject = .tile x)) (voidCrewWork g s)
  let s := s.modCrew g (fun k => { k with tiles := listSet k.tiles i x })
  let s := leaveCrew t (epochStep (bindTile g i x s))
  sparesLow p before s

/-- The index that a crew has once crew g of partition p is withdrawn, last being the highest (10 R427). -/
def renumber (g last h : Nat) : Nat := if h = last then g else h

/-- Withdraws crew g; the partition's highest-numbered crew takes its number (10 R427, R434, 00 R32, R36). -/
def withdraw (g : Nat) (s : State) : State :=
  let p := g / 64
  let n := Tbl.look 0 p s.ump.nCrews
  let last := 64 * p + (n - 1)
  let gone := (s.crew g).tiles
  let before := spareCount s p
  let s := voidCrewWork g s
  let k := s.crew last
  let s := s.setCrew last { }
  let s := if g = last then s else s.setCrew g k
  let s := if g = last then s
    else forList (fun t s => s.modUtile t (fun u => { u with gcrew := g })) k.tiles s
  let s := s.modUmp (fun u => { u with
    nCrews := Tbl.put 0 p (n - 1) u.nCrews
    work := u.work.map (fun w => if w.subject = .crew last then { w with subject := .crew g } else w) })
  let s := forList (fun e s => s.modExec e.1 (fun x => { x with
    crews := (x.crews.filter (fun h => decide (h ≠ g))).map (renumber g last)
    pair := x.pair.map (fun q => { q with
      gChk := renumber g last q.gChk, gPart := q.gPart.map (renumber g last)
      gThird := q.gThird.map (renumber g last) }) })) (execs s) s
  let s := epochStep s
  let s := subGrade p (forList (fun t s => leaveCrew t s) (sortBy (fun a b => decide (a < b)) gone) s)
  sparesLow p before s

end Sys2Proof.Machine
end

