-- ==== Sys2Proof/Machine/FwSlots.lean ====
section
/-!
DEFINITION. Firmware in flash: slot headers and their checks (12 R493, R495), the boot record (R497 to R499), slot
states (R500), and the updates of the record.
-/

namespace Sys2Proof.Machine

/-! ### Slots -/

/-- Slots: false is A, true is B (14 Table 14-2). -/
def slotBase (b : Bool) : Nat := if b then 0x2800000 else 0x1000000
def slotBytes : Nat := 25165824
def sealWord : Nat := 0x5EA15EA15EA15EA1

/-- Bytes [off, off + n) of a slot. -/
def slotRead (s : State) (b : Bool) (off n : Nat) : List Byte :=
  bytesAt 0xFF (flashPart s (slotBase b + off) n) (slotBase b + off) n

def slotHeader (s : State) (b : Bool) : List Byte := slotRead s b 0 4096

/-- A little-endian field of a header (12 Table 12-3). -/
def hdrNat (h : List Byte) (off n : Nat) : Nat := leNat ((h.drop off).take n)

def hdrSealed (h : List Byte) : Bool := decide (hdrNat h 4088 8 = sealWord)
def hdrVersion (h : List Byte) : BitVec 32 := BitVec.ofNat 32 (hdrNat h 4 4)
def hdrMinStep (h : List Byte) : Nat := hdrNat h 8 1
def hdrImageLen (h : List Byte) : Nat := hdrNat h 12 4
def hdrImageSha (h : List Byte) : List Byte := (h.drop 16).take 48

/-- Offset and length of section k: 0 COX, 1 MCODE, 2 TRIALS. -/
def hdrSection (h : List Byte) (k : Nat) : Nat × Nat := (hdrNat h (64 + 8 * k) 4, hdrNat h (68 + 8 * k) 4)

/-- The SHA-384 of MCODE as the header records it. -/
def hdrMcodeSha (h : List Byte) : List Byte := (h.drop 88).take 8 ++ (h.drop 288).take 40

/-- Bytes of section k of the slot's image. -/
def sectionBytes (s : State) (b : Bool) (k : Nat) : List Byte :=
  let e := hdrSection (slotHeader s b) k
  slotRead s b (4096 + e.1) e.2

/-- Reasons of a failed check (12 Table 12-9, FW_SLOTn.REASON); 0 passes. -/
def frFormat : Nat := 1
def frKey : Nat := 2
def frSignature : Nat := 3
def frStepping : Nat := 4
def frHash : Nat := 5
def frTrialExpired : Nat := 6
def frTrialBoots : Nat := 7
def frBootCheck : Nat := 8

/-- The first check of Table 12-4 passes (12 R495). -/
def formatOk (h : List Byte) : Bool :=
  let len := hdrImageLen h
  hdrSealed h && decide (hdrNat h 0 4 = 1) && decide (len % 4096 = 0) && decide (4096 ≤ len) &&
    decide (len ≤ 25161728) && [0, 1, 2].all (fun k => decide ((hdrSection h k).1 + (hdrSection h k).2 ≤ len)) &&
    decide ((hdrSection h 1).2 ≤ 8192)

/-- The SIGNATURE over bytes 0 to 191 verifies with SIGN_KEY; keys and signatures are big-endian (12 R493). -/
def signatureOk (h : List Byte) : Bool :=
  let f := fun off => beNat ((h.drop off).take 48)
  ecdsaOk (f 96) (f 144) (f 192) (f 240) (sha384 (h.take 192))

/-- STEPPING as a number (01 Table 1-2). -/
def stepping (s : State) : Nat := boolNat s.fuses.b0

/-- The reason for which slot b fails the checks of Table 12-4, in their order; 0 when it passes (12 R495). -/
def verifySlot (s : State) (b : Bool) : Nat :=
  let h := slotHeader s b
  if !formatOk h then frFormat
  else if sha384 ((h.drop 96).take 96) ≠ s.fuses.keyHash then frKey
  else if !signatureOk h then frSignature
  else if stepping s < hdrMinStep h then frStepping
  else if sha384 (slotRead s b 4096 (hdrImageLen h)) ≠ hdrImageSha h then frHash
  else 0

/-- FW_SLOTn.VERSION: 0 while the slot is UNSEALED (12 Table 12-9). -/
def slotVersion (s : State) (b : Bool) : BitVec 32 :=
  let h := slotHeader s b
  if hdrSealed h then hdrVersion h else 0

/-- Erases the sector of 64 KiB that holds the header of a slot, which becomes UNSEALED (12 Table 12-6, 14 R558). -/
def eraseHeader (b : Bool) (s : State) : State := { s with flash := Tbl.clear (slotBase b) 0x10000 s.flash }

/-- Writes bytes into a slot at an offset. -/
def slotWrite (b : Bool) (off : Nat) (bs : List Byte) (s : State) : State :=
  { s with flash := putBytes 0xFF s.flash (slotBase b + off) bs }

/-- The header with SEAL as written last (12 R491, 13 R536). -/
def sealHeader (h : List Byte) : List Byte := h.take 4088 ++ leBytes 8 sealWord

/-- FW_CMD_STAT.RESULT (12 Table 12-9). -/
def fwDone : Nat := 0
def fwBadState : Nat := 1
def fwVerifyFail : Nat := 2
def fwTrialHeld : Nat := 3
def fwBadOp : Nat := 4
def fwFlashFail : Nat := 5

/-! ### The boot record -/

def recMagic : Nat := 0x4B524252

/-- Bytes 8 to 19 of a record (12 Table 12-5). -/
def BootRec.fields (r : BootRec) : List Byte :=
  leBytes 1 (boolNat r.active) ++
    leBytes 1 (boolNat r.trial + 2 * boolNat r.fellBack + 4 * boolNat r.rejA + 8 * boolNat r.rejB) ++
    leBytes 1 r.trialBoots ++ leBytes 1 r.trialMin ++ leBytes 4 r.activeVer.toNat ++ leBytes 4 r.standbyVer.toNat

/-- The 64 bytes of a record, with PRIOR (12 Table 12-5). -/
def BootRec.bytes (r : BootRec) (prior : List Byte) : List Byte :=
  let b := leBytes 4 recMagic ++ leBytes 4 r.seq ++ r.fields ++ prior ++ List.replicate 28 0#8
  b ++ leBytes 4 (crc32 b)

/-- A record from its SEQ and twelve bytes of fields. -/
def recOf (seq : Nat) (f : List Byte) : BootRec :=
  let n := fun (off k : Nat) => leNat ((f.drop off).take k)
  { seq := seq, active := bit (n 0 1) 0, trial := bit (n 1 1) 0, fellBack := bit (n 1 1) 1, rejA := bit (n 1 1) 2
    rejB := bit (n 1 1) 3, trialBoots := n 2 1, trialMin := n 3 1, activeVer := BitVec.ofNat 32 (n 4 4)
    standbyVer := BitVec.ofNat 32 (n 8 4) }

def recCopy (s : State) (k : Nat) : List Byte := bytesAt 0xFF (flashPart s (0x10000 * k) 64) (0x10000 * k) 64

/-- MAGIC and CRC of a copy are correct (12 R497). -/
def recValid (b : List Byte) : Bool :=
  decide (leNat (b.take 4) = recMagic) && decide (leNat (b.drop 60) = crc32 (b.take 60))

def recSeq (b : List Byte) : Nat := leNat ((b.drop 4).take 4)

/-- The record that a device with no valid copy boots by: the passing slot with the lower FW_VERSION, the other as
standby if it passes too (12 R499). -/
def recFromSlots (s : State) : Option BootRec :=
  let va := slotVersion s false
  let vb := slotVersion s true
  match decide (verifySlot s false = 0), decide (verifySlot s true = 0) with
  | true, true =>
    if vb.toNat < va.toNat then some { active := true, activeVer := vb, standbyVer := va }
    else some { active := false, activeVer := va, standbyVer := vb }
  | true, false => some { active := false, activeVer := va }
  | false, true => some { active := true, activeVer := vb }
  | false, false => none

/-- Writes both copies of a record, which is then in force (12 R498). -/
def writeRecord (r : BootRec) (prior : List Byte) (s : State) : State :=
  let b := r.bytes prior
  let f := putBytes 0xFF (Tbl.clear 0 0x10000 s.flash) 0 b
  let f := putBytes 0xFF (Tbl.clear 0x10000 0x10000 f) 0x10000 b
  { s with flash := f, boot := { s.boot with record := r } }

/-- One update of the record in force: SEQ + 1, PRIOR the old state (12 R498). -/
def updateRecord (f : BootRec → BootRec) (s : State) : State :=
  let old := s.boot.record
  writeRecord { f old with seq := (old.seq + 1) % 2 ^ 32 } old.fields s

/-- An update in which a write fails three times: that of copy 0, or that of copy 1 with copy 0 written. The record
in force stands, and the copy that failed is left with bytes that nothing states (12 R498, R499, log 1). -/
def failRecord (f : BootRec → BootRec) (s : State) : State :=
  let old := s.boot.record
  let new := { f old with seq := (old.seq + 1) % 2 ^ 32 }.bytes old.fields
  let (k, s) := s.freeBelow 2
  let (b, s) := s.freeBytes 64
  if k = 0 then { s with flash := putBytes 0xFF (Tbl.clear 0 0x10000 s.flash) 0 b }
  else { s with flash := putBytes 0xFF (Tbl.clear 0x10000 0x10000 (putBytes 0xFF (Tbl.clear 0 0x10000 s.flash) 0 new)) 0x10000 b }

/-- An update that the card flash takes or fails (12 R498). -/
def commitRecord (f : BootRec → BootRec) (s : State) : State :=
  if s.card.flashFails then (failRecord f s).modBoot (fun b => { b with result := fwFlashFail }) else updateRecord f s

/-- Resolves the record in force, and rewrites both copies where they differ or one is invalid (12 R499). The Bool
says that a record exists. A flash that fails the writes leaves the copies as they are. -/
def resolveRecord (s : State) : State × Bool :=
  let c0 := recCopy s 0
  let c1 := recCopy s 1
  let v0 := recValid c0
  let v1 := recValid c1
  let found : Option BootRec :=
    if v1 then some (recOf (recSeq c1) ((c1.drop 8).take 12))
    else if v0 then some (recOf (recSeq c0) ((c0.drop 20).take 12))
    else recFromSlots s
  match found with
  | none => (s, false)
  | some r =>
    if (v0 && v1 && decide (c0 = c1)) || s.card.flashFails then (s.modBoot (fun b => { b with record := r }), true)
    else
      let top := Nat.max (if v0 then recSeq c0 else 0) (if v1 then recSeq c1 else 0)
      let s := writeRecord { r with seq := (top + 1) % 2 ^ 32 } r.fields s
      let s := s.modBoot (fun b => { b with repaired := true })
      (raise 0x7008 (boolNat r.active) (slotVersion s r.active).toNat s, true)

/-- A fallback (12 R500). -/
def fallback (r : BootRec) : BootRec :=
  { r with
    active := !r.active, activeVer := r.standbyVer, standbyVer := 0, trial := false, trialBoots := 0, trialMin := 0
    rejA := r.rejA || !r.active, rejB := r.rejB || r.active, fellBack := true }

/-! ### Slot states -/

/-- Slot states as FW_SLOTn codes them (12 Table 12-9). -/
def ssUnsealed : Nat := 0
def ssStaged : Nat := 1
def ssRejected : Nat := 2
def ssTrial : Nat := 3
def ssActive : Nat := 4
def ssStandby : Nat := 5

/-- The REJ bit of a slot. -/
def BootRec.rej (r : BootRec) (b : Bool) : Bool := if b then r.rejB else r.rejA
def BootRec.setRej (r : BootRec) (b v : Bool) : BootRec := if b then { r with rejB := v } else { r with rejA := v }

/-- State of slot b, from its header and the record (12 R500). -/
def slotState (s : State) (b : Bool) : Nat :=
  let r := s.boot.record
  if b = r.active then (if r.trial then ssTrial else ssActive)
  else if !hdrSealed (slotHeader s b) then ssUnsealed
  else if r.rej b then ssRejected
  else if r.standbyVer ≠ 0 ∧ slotVersion s b = r.standbyVer then ssStandby
  else ssStaged

/-- The slot that is not ACTIVE. -/
def inactiveSlot (s : State) : Bool := !s.boot.record.active

/-- REASON of a slot (12 Table 12-9). -/
def setReason (b : Bool) (r : Nat) (s : State) : State :=
  s.modBoot (fun x => if b then { x with reasonB := r } else { x with reasonA := r })

/-- A boot or firmware event of slot b: DETAIL is the slot's FW_VERSION (15 Table 15-7). -/
def slotEvent (code : Nat) (b : Bool) (s : State) : State := raise code (boolNat b) (slotVersion s b).toNat s

/-- A slot is complete: its header and SEAL are written, its REJ bit cleared by an update (12 Table 12-6). -/
def sealSlot (b : Bool) (h : List Byte) (s : State) : State :=
  let s := slotWrite b 0 (sealHeader h) s
  let s := if s.boot.record.rej b then commitRecord (fun r => r.setRej b false) s else s
  slotEvent 0x7002 b s

end Sys2Proof.Machine
end

