-- ==== Sys2Proof/Machine/Flags.lean ====
section
/-!
DEFINITION. The sticky arithmetic flags of FPSTAT (02 Table 2-3) and the values that arithmetic hands back
with them.
-/

namespace Sys2Proof.Machine

/-- A set of FPSTAT flags: INV [0], DZ [1], OVF [2], UNF [3], INX [4], IOVF [5]. -/
abbrev Fl := BitVec 6

def flInv : Fl := 1#6
def flDz : Fl := 2#6
def flOvf : Fl := 4#6
def flUnf : Fl := 8#6
def flInx : Fl := 16#6
def flIovf : Fl := 32#6

/-- The flag f when b holds, else none. -/
def flIf (b : Bool) (f : Fl) : Fl := if b then f else 0#6

/-- FPSTAT is sticky: an operation adds its flags (02 R89). -/
def Tile.flag (x : Tile) (f : Fl) : Tile := { x with fpstat := x.fpstat ||| f }

/-- A W1C write clears the flags whose bits are 1 (03 R138). -/
def fpstatClear (old : Fl) (w : Word) : Fl := old &&& ~~~ (w.setWidth 6)

end Sys2Proof.Machine
end

