-- ==== Sys2Proof/Machine/Fp.lean ====
section
/-!
DEFINITION. FP32, FP8, BF16, INT8 and MXFP8 arithmetic (02 R86 to R90, R603, R606): values are exact
dyadic numbers, rounded once. Every result comes with the flags it sets.
-/

namespace Sys2Proof.Machine

/-- A number that a code stands for: (-1)^neg × m × 2^e, an infinity, or a NaN. -/
inductive FV where
  | nan (signalling : Bool)
  | inf (neg : Bool)
  | fin (neg : Bool) (m : Nat) (e : Int)
deriving DecidableEq, Repr

/-- A binary format: precision in bits (hidden bit included) and least normal exponent. -/
structure FFmt where
  prec : Nat
  emin : Int
deriving DecidableEq, Repr

def fmt32 : FFmt := { prec := 24, emin := -126 }
def fmtBf : FFmt := { prec := 8, emin := -126 }
def fmtE4 : FFmt := { prec := 4, emin := -6 }
def fmtE5 : FFmt := { prec := 3, emin := -14 }

/-- The one quiet NaN of FP32 results (02 R89). -/
def qNaN : Word := 0x7FC00000#32

/-- Number of bits of a number; 0 for 0. -/
def bitLen (n : Nat) : Nat := if n = 0 then 0 else n.log2 + 1

/-- m × 2^e as a multiple of 2^q, ties to even, and whether it was inexact. -/
def rneAt (m : Nat) (e q : Int) : Nat × Bool :=
  if q ≤ e then (m <<< (e - q).toNat, false)
  else
    let sh := (q - e).toNat
    let r := m >>> sh
    let rem := m % 2 ^ sh
    let half := 2 ^ (sh - 1)
    let up := decide (half < rem) || (decide (rem = half) && decide (r % 2 = 1))
    (if up then r + 1 else r, decide (rem ≠ 0))

/-- A rounded magnitude: r × 2^q, whether inexact, and whether tiny after rounding (02 R89). -/
structure Rounded where
  r : Nat
  q : Int
  inexact : Bool
  tiny : Bool
deriving DecidableEq, Repr

/-- Rounds m × 2^e (m not 0) to the format, subnormals kept, exponent unbounded above (02 R89, R90). -/
def roundFmt (f : FFmt) (m : Nat) (e : Int) : Rounded :=
  let top : Int := e + (bitLen m : Int) - 1
  let qu := top - ((f.prec : Int) - 1)
  let qmin := f.emin - ((f.prec : Int) - 1)
  let q := if qu < qmin then qmin else qu
  let (r, ix) := rneAt m e q
  let tiny :=
    if top < f.emin then
      let (ru, _) := rneAt m e qu
      -- ru × 2^qu < 2^emin; ru is at most 2^prec
      decide (qu + (bitLen ru : Int) - 1 < f.emin)
    else false
  { r := r, q := q, inexact := ix, tiny := tiny }

/-- The magnitude bits of r × 2^q in the format: subnormals and the carry into the next binade included. -/
def packMag (f : FFmt) (r : Nat) (q : Int) : Nat :=
  (q - (f.emin - ((f.prec : Int) - 1))).toNat * 2 ^ (f.prec - 1) + r

/-- Flags of a rounding that did not overflow. -/
def roundFlags (x : Rounded) : Fl := flIf x.inexact flInx ||| flIf (x.inexact && x.tiny) flUnf

/-- FP32 of (-1)^neg × m × 2^e with one rounding (02 R89); m = 0 gives the zero of that sign. -/
def round32 (neg : Bool) (m : Nat) (e : Int) : Word × Fl :=
  let sg : Nat := if neg then 2 ^ 31 else 0
  if m = 0 then (BitVec.ofNat 32 sg, 0#6)
  else
    let x := roundFmt fmt32 m e
    let mag := packMag fmt32 x.r x.q
    if 0x7F800000 ≤ mag then (BitVec.ofNat 32 (sg + 0x7F800000), flOvf ||| flInx)
    else (BitVec.ofNat 32 (sg + mag), roundFlags x)

/-- The number that an IEEE-style code of ew exponent bits and fw fraction bits stands for. -/
def decodeIeee (ew fw : Nat) (c : Nat) : FV :=
  let neg := bit c (ew + fw)
  let ex := bits c fw ew
  let fr := bits c 0 fw
  let bias : Int := (2 ^ (ew - 1) : Nat) - 1
  if ex = 2 ^ ew - 1 then
    if fr = 0 then .inf neg else .nan (!bit fr (fw - 1))
  else if ex = 0 then .fin neg fr (1 - bias - fw)
  else .fin neg (fr + 2 ^ fw) (ex - bias - fw)

/-- FP32 (02 R89). -/
def dec32 (w : Word) : FV := decodeIeee 8 23 w.toNat

/-- BF16 (02 Table 2-5). -/
def decBf (c : Nat) : FV := decodeIeee 8 7 c

/-- E4M3: S.1111.111 is NaN, no infinity; every NaN is quiet (02 Table 2-5, R606). -/
def decE4 (c : Nat) : FV :=
  let neg := bit c 7
  let ex := bits c 3 4
  let fr := bits c 0 3
  if ex = 15 ∧ fr = 7 then .nan false
  else if ex = 0 then .fin neg fr (-9)
  else .fin neg (fr + 8) ((ex : Int) - 10)

/-- E5M2: IEEE-style; every NaN is quiet (02 Table 2-5, R606). -/
def decE5 (c : Nat) : FV :=
  match decodeIeee 5 2 c with
  | .nan _ => .nan false
  | v => v

/-- FP8 by format: false E4M3, true E5M2. -/
def decFp8 (e5 : Bool) (c : Nat) : FV := if e5 then decE5 c else decE4 c

def FV.isNaN : FV → Bool
  | .nan _ => true
  | _ => false

def FV.isSNaN : FV → Bool
  | .nan sg => sg
  | _ => false

def FV.negate : FV → FV
  | .nan sg => .nan sg
  | .inf n => .inf (!n)
  | .fin n m e => .fin (!n) m e

def infWord (neg : Bool) : Word := if neg then 0xFF800000#32 else 0x7F800000#32

/-- FP32 code of a value, rounded once. -/
def enc32 : FV → Word × Fl
  | .nan _ => (qNaN, 0#6)
  | .inf n => (infWord n, 0#6)
  | .fin n m e => round32 n m e

/-- m × 2^e with sign, as a multiple of 2^q for q at most e. -/
def alignInt (n : Bool) (m : Nat) (e q : Int) : Int :=
  let v : Int := (m <<< (e - q).toNat : Nat)
  if n then -v else v

/-- x + y with one rounding; an exact zero sum is +0 unless both are -0 (02 R87, R89). -/
def fvAdd (x y : FV) : Word × Fl :=
  match x, y with
  | .fin nx mx ex, .fin ny my ey =>
    let q := if ex < ey then ex else ey
    let t := alignInt nx mx ex q + alignInt ny my ey q
    if t = 0 then
      (if mx = 0 ∧ my = 0 ∧ nx = true ∧ ny = true then 0x80000000#32 else 0#32, 0#6)
    else round32 (decide (t < 0)) t.natAbs q
  | .inf nx, .inf ny => if nx = ny then (infWord nx, 0#6) else (qNaN, flInv)
  | .inf nx, .fin _ _ _ => (infWord nx, 0#6)
  | .fin _ _ _, .inf ny => (infWord ny, 0#6)
  | _, _ => (qNaN, flIf (x.isSNaN || y.isSNaN) flInv)

/-- The exact product, with INV for an invalid one (02 R87, R89). -/
def fvMul (x y : FV) : FV × Fl :=
  match x, y with
  | .fin nx mx ex, .fin ny my ey => (.fin (nx != ny) (mx * my) (ex + ey), 0#6)
  | .inf nx, .inf ny => (.inf (nx != ny), 0#6)
  | .inf nx, .fin ny m _ => if m = 0 then (.nan false, flInv) else (.inf (nx != ny), 0#6)
  | .fin nx m _, .inf ny => if m = 0 then (.nan false, flInv) else (.inf (nx != ny), 0#6)
  | _, _ => (.nan false, flIf (x.isSNaN || y.isSNaN) flInv)

/-- a + b. -/
def fpAdd (a b : Word) : Word × Fl := fvAdd (dec32 a) (dec32 b)

/-- a - b. -/
def fpSub (a b : Word) : Word × Fl := fvAdd (dec32 a) (dec32 b).negate

/-- a × b. -/
def fpMul (a b : Word) : Word × Fl :=
  let (p, f) := fvMul (dec32 a) (dec32 b)
  let (w, g) := enc32 p
  (w, f ||| g)

/-- c + x × y with one rounding; an invalid product sets INV whatever c holds (02 R89, 03 Table 3-7). -/
def fvFma (c : FV) (x y : FV) : Word × Fl :=
  let (p, f) := fvMul x y
  let (w, g) := fvAdd c p
  (w, f ||| g)

def fpFma (c a b : Word) : Word × Fl := fvFma (dec32 c) (dec32 a) (dec32 b)

/-- a ÷ b correctly rounded; a finite non-zero value over 0 sets DZ (03 Table 3-7). -/
def fpDiv (a b : Word) : Word × Fl :=
  match dec32 a, dec32 b with
  | .fin nx mx ex, .fin ny my ey =>
    let n := nx != ny
    if my = 0 then
      if mx = 0 then (qNaN, flInv) else (infWord n, flDz)
    else
      -- 64 quotient bits and a sticky bit below them
      let k := 64 + bitLen my
      let num := mx <<< k
      let m := 2 * (num / my) + (if num % my = 0 then 0 else 1)
      round32 n m (ex - ey - k - 1)
  | .inf nx, .fin ny _ _ => (infWord (nx != ny), 0#6)
  | .fin nx _ _, .inf ny => (if nx != ny then 0x80000000#32 else 0#32, 0#6)
  | .inf _, .inf _ => (qNaN, flInv)
  | x, y => (qNaN, flIf (x.isSNaN || y.isSNaN) flInv)

/-- One Newton step of the integer square root, for at most `fuel` rounds. -/
def isqrtGo (n : Nat) : Nat → Nat → Nat
  | 0, x => x
  | fuel + 1, x =>
    let y := (x + n / x) / 2
    if y < x then isqrtGo n fuel y else x

/-- The integer square root: it starts above the root and falls to it, 64 rounds being more than enough
for numbers of 1,100 bits. -/
def isqrt (n : Nat) : Nat := if n = 0 then 0 else isqrtGo n 64 (2 ^ (bitLen n / 2 + 1))

/-- √a correctly rounded; √−0 is −0 (03 Table 3-7). -/
def fpSqrt (a : Word) : Word × Fl :=
  match dec32 a with
  | .nan sg => (qNaN, flIf sg flInv)
  | .inf n => if n then (qNaN, flInv) else (infWord false, 0#6)
  | .fin n m e =>
    if m = 0 then (a, 0#6)
    else if n then (qNaN, flInv)
    else
      -- an even exponent and 64 root bits, with a sticky bit below them
      let odd : Nat := (e % 2).toNat
      let big := m <<< (128 + odd)
      let r := isqrt big
      let mm := 2 * r + (if r * r = big then 0 else 1)
      round32 false mm ((e - odd - 128) / 2 - 1)

/-- Less-than on non-NaN values, with −0 below +0 when `zeros` (VMIN, VMAX) and equal to it else. -/
def fvLt (zeros : Bool) (x y : FV) : Bool :=
  match x, y with
  | .fin nx mx ex, .fin ny my ey =>
    let q := if ex < ey then ex else ey
    let a := alignInt nx mx ex q
    let b := alignInt ny my ey q
    decide (a < b) || (zeros && decide (a = b) && nx && !ny)
  | .inf nx, .inf ny => nx && !ny
  | .inf nx, .fin _ _ _ => nx
  | .fin _ _ _, .inf ny => !ny
  | _, _ => false

/-- minimumNumber (wantMax false) and maximumNumber of IEEE 754-2019 (03 Table 3-7). -/
def fpMinMax (wantMax : Bool) (a b : Word) : Word × Fl :=
  let x := dec32 a
  let y := dec32 b
  let f := flIf (x.isSNaN || y.isSNaN) flInv
  if x.isNaN && y.isNaN then (qNaN, f)
  else if x.isNaN then (b, f)
  else if y.isNaN then (a, f)
  else
    let pickB := if wantMax then fvLt true x y else fvLt true y x
    (if pickB then b else a, f)

/-- FLT: false if either is NaN, and a NaN sets INV (03 Table 3-3). -/
def fpLt (a b : Word) : Bool × Fl :=
  let x := dec32 a
  let y := dec32 b
  if x.isNaN || y.isNaN then (false, flInv) else (fvLt false x y, 0#6)

/-- FEQ: +0 equals −0; only a signalling NaN sets INV (03 Table 3-3). -/
def fpEq (a b : Word) : Bool × Fl :=
  let x := dec32 a
  let y := dec32 b
  if x.isNaN || y.isNaN then (false, flIf (x.isSNaN || y.isSNaN) flInv)
  else (!fvLt false x y && !fvLt false y x, 0#6)

/-- INT32 to FP32 (02 R603). -/
def fpOfInt (w : Word) : Word × Fl :=
  let v := w.toInt
  round32 (decide (v < 0)) v.natAbs 0

/-- FP32 to INT32, ties to even; NaN gives 0 and out of range saturates, both with INV (03 Table 3-7). -/
def fpToInt (w : Word) : Word × Fl :=
  match dec32 w with
  | .nan _ => (0#32, flInv)
  | .inf n => (if n then 0x80000000#32 else 0x7FFFFFFF#32, flInv)
  | .fin n m e =>
    let (r, ix) := rneAt m e 0
    if n then
      if 2 ^ 31 < r then (0x80000000#32, flInv) else (BitVec.ofInt 32 (-(r : Int)), flIf ix flInx)
    else
      if 2 ^ 31 - 1 < r then (0x7FFFFFFF#32, flInv) else (BitVec.ofNat 32 r, flIf ix flInx)

/-- FP32 to FP8: saturates above the maximum with OVF and INX; infinity saturates and sets OVF; NaN
converts to 0x7F or 0x7E and sets no flag (02 R90, log 10). -/
def toFp8 (e5 : Bool) (w : Word) : Byte × Fl :=
  let f := if e5 then fmtE5 else fmtE4
  let maxCode : Nat := if e5 then 0x7B else 0x7E
  match dec32 w with
  | .nan _ => (if e5 then 0x7E#8 else 0x7F#8, 0#6)
  | .inf n => (BitVec.ofNat 8 ((if n then 128 else 0) + maxCode), flOvf)
  | .fin n m e =>
    let sg : Nat := if n then 128 else 0
    if m = 0 then (BitVec.ofNat 8 sg, 0#6)
    else
      let x := roundFmt f m e
      let mag := packMag f x.r x.q
      if maxCode < mag then (BitVec.ofNat 8 (sg + maxCode), flOvf ||| flInx)
      else (BitVec.ofNat 8 (sg + mag), roundFlags x)

/-- Exact FP32 of an FP8 code (02 R603). -/
def ofFp8 (e5 : Bool) (c : Nat) : Word := (enc32 (decFp8 e5 c)).1

/-- FP32 to BF16: overflow gives infinity with OVF and INX; infinity stays; NaN becomes 0x7FC0 (02 R603). -/
def toBf (w : Word) : BitVec 16 × Fl :=
  match dec32 w with
  | .nan _ => (0x7FC0#16, 0#6)
  | .inf n => (if n then 0xFF80#16 else 0x7F80#16, 0#6)
  | .fin n m e =>
    let sg : Nat := if n then 32768 else 0
    if m = 0 then (BitVec.ofNat 16 sg, 0#6)
    else
      let x := roundFmt fmtBf m e
      let mag := packMag fmtBf x.r x.q
      if 0x7F80 ≤ mag then (BitVec.ofNat 16 (sg + 0x7F80), flOvf ||| flInx)
      else (BitVec.ofNat 16 (sg + mag), roundFlags x)

/-- Exact FP32 of a BF16 code (02 R603). -/
def ofBf (c : Nat) : Word := (enc32 (decBf c)).1

/-! ### Element formats of the matrix unit and the walker -/

/-- Element formats (02 Table 2-5). -/
inductive EFmt where
  | e4m3 | e5m2 | bf16 | int8
deriving DecidableEq, Repr

def EFmt.bytes : EFmt → Nat
  | .bf16 => 2
  | _ => 1

/-- The value of a floating-point element. -/
def EFmt.val : EFmt → Nat → FV
  | .e4m3, c => decE4 c
  | .e5m2, c => decE5 c
  | .bf16, c => decBf c
  | .int8, c => .fin (decide (sext c 8 < 0)) (sext c 8).natAbs 0

/-- INT8 product added to an INT32 element modulo 2^32; a wrap sets IOVF (02 R87). -/
def macInt (acc : Word) (a b : Nat) : Word × Fl :=
  let t := acc.toInt + sext a 8 * sext b 8
  (BitVec.ofInt 32 t, flIf (decide (t < -(2 ^ 31 : Nat)) || decide (((2 ^ 31 - 1 : Nat) : Int) < t)) flIovf)

/-- One multiply and add of the MAC array or the walker: acc + a × b (02 R87). -/
def macStep (fa fb : EFmt) (acc : Word) (a b : Nat) : Word × Fl :=
  if fa = .int8 then macInt acc a b else fvFma (dec32 acc) (fa.val a) (fb.val b)

/-- Sums products in order, each rounded (02 R87). -/
def macSum (fa fb : EFmt) : Word × Fl → List (Nat × Nat) → Word × Fl
  | x, [] => x
  | (acc, f), (a, b) :: r =>
    let (w, g) := macStep fa fb acc a b
    macSum fa fb (w, f ||| g) r

/-- The scaling of a block sum and its addition to the accumulator (02 R88). -/
def mxScale (acc blk : Word) (sa sb : Nat) : Word × Fl :=
  let (b, f) :=
    if sa = 0xFF ∨ sb = 0xFF then (qNaN, 0#6)
    else
      match dec32 blk with
      | .fin n m e => round32 n m (e + sa + sb - 254)
      | .inf n => (infWord n, 0#6)
      | .nan _ => (qNaN, 0#6)
  let (w, g) := fpAdd acc b
  (w, f ||| g)

/-- An MXFP8 block: inner sum from 0.0 rounded after every addition, scaled, added (02 R88). -/
def mxBlock (fa : EFmt) (acc : Word) (ps : List (Nat × Nat)) (sa sb : Nat) : Word × Fl :=
  let (blk, f) := macSum fa fa (0#32, 0#6) ps
  let (w, g) := mxScale acc blk sa sb
  (w, f ||| g)

/-! ### Base-2 exponential and logarithm -/

/-- Fraction bits of the fixed-point work below (log 11). -/
def fxBits : Nat := 256

/-- The product of 2^(2^-i) over the set fraction bits of f, where f has n bits and bit n-1 weighs 1/2;
r is 2^(2^-(i-1)) in fixed point, rounded down. -/
def exp2Go (f : Nat) : Nat → Nat → Nat → Nat
  | 0, _, acc => acc
  | n + 1, r, acc =>
    let r' := isqrt (r <<< fxBits)
    exp2Go f n r' (if bit f n then (acc * r') >>> fxBits else acc)

/-- 2^a correctly rounded (03 R123, log 11). -/
def fpExp2 (w : Word) : Word × Fl :=
  match dec32 w with
  | .nan sg => (qNaN, flIf sg flInv)
  | .inf n => (if n then 0#32 else infWord false, 0#6)
  | .fin n m e =>
    if m = 0 then (0x3F800000#32, 0#6)
    else if 8 < e + (bitLen m : Int) then
      if n then (0#32, flUnf ||| flInx) else (infWord false, flOvf ||| flInx)
    else if 0 ≤ e then
      let v : Int := (m <<< e.toNat : Nat)
      round32 false 1 (if n then -v else v)
    else
      let k := (-e).toNat
      let sgn : Int := if n then -(m : Int) else m
      let ip : Int := sgn / ((2 ^ k : Nat) : Int)
      let fr := (sgn % ((2 ^ k : Nat) : Int)).toNat
      if fr = 0 then round32 false 1 ip
      else
        let p := exp2Go fr k (2 <<< fxBits) (1 <<< fxBits)
        round32 false (2 * p + 1) (ip - fxBits - 1)

/-- n bits of log2 of y, 1 ≤ y < 2 in fixed point of 2 × fxBits bits, most significant first. -/
def log2Go : Nat → Nat → Nat → Nat
  | 0, _, acc => acc
  | n + 1, y, acc =>
    let y2 := (y * y) >>> (2 * fxBits)
    if 2 <<< (2 * fxBits) ≤ y2 then log2Go n (y2 >>> 1) (2 * acc + 1)
    else log2Go n y2 (2 * acc)

/-- log₂ a correctly rounded (03 R123, log 11); log₂ of ±0 is −∞ with DZ, of a negative number NaN with INV
(IEEE 754-2019). -/
def fpLog2 (w : Word) : Word × Fl :=
  match dec32 w with
  | .nan sg => (qNaN, flIf sg flInv)
  | .inf n => if n then (qNaN, flInv) else (infWord false, 0#6)
  | .fin n m e =>
    if m = 0 then (infWord true, flDz)
    else if n then (qNaN, flInv)
    else
      let top := bitLen m - 1
      let ip : Int := e + top
      if m = 2 ^ top then round32 (decide (ip < 0)) ip.natAbs 0
      else
        let l := log2Go 192 (m <<< (2 * fxBits - top)) 0
        if 0 ≤ ip then round32 false (2 * ((ip.toNat <<< 192) + l) + 1) (-193)
        else round32 true (2 * ((((-ip).toNat <<< 192) - l) - 1) + 1) (-193)

end Sys2Proof.Machine
end

