-- ==== Sys2Proof/Machine/WeirOps.lean ====
section
/-!
DEFINITION. What the Weir engines do with a descriptor: its fields and conditions, the four operations, atomic adds,
and the pages that it touches (05 R219 to R224, R228, R230, R233).
-/

namespace Sys2Proof.Machine

/-- Codes of WEIR_FAULT_LOG (05 Table 5-8). -/
def wcOk : Nat := 0
def wcDesc : Nat := 1
def wcXlate : Nat := 2
def wcPerm : Nat := 3
def wcPoison : Nat := 4
def wcReset : Nat := 5

def MFault.weir : MFault → Nat
  | .xlate => wcXlate | .perm => wcPerm | .poison => wcPoison

/-! ### Weir descriptors (05 Table 5-6) -/

structure WDesc where
  op       : Nat
  fmt      : Nat
  rsv      : Nat
  rowBytes : Nat
  table    : Nat
  idx      : Nat
  offs     : Nat
  dst      : Nat
  count    : Nat
  nseg     : Nat
  nrows    : Nat
  pattern  : Nat
deriving DecidableEq, Repr

def parseWeir (bs : List Byte) : WDesc :=
  let f := fun lo n => leNat ((bs.drop lo).take n)
  { op := f 0 1, fmt := f 1 1, rsv := f 2 2 + f 56 8, rowBytes := f 4 4, table := f 8 8, idx := f 16 8
    offs := f 24 8, dst := f 32 8, count := f 40 4, nseg := f 44 4, nrows := f 48 4, pattern := f 52 4 }

/-- A row size: a power of two from 64 to 4,096. -/
def rowOk (n : Nat) : Bool := [64, 128, 256, 512, 1024, 2048, 4096].contains n

/-- The conditions of 05 Table 5-6 and R221 that end a descriptor with DESC when one is broken. -/
def weirOk (d : WDesc) : Bool :=
  let adr := decide (d.table < 2 ^ 42) && decide (d.idx < 2 ^ 42) && decide (d.offs < 2 ^ 42) && decide (d.dst < 2 ^ 42)
  let z := fun (n : Nat) => decide (n = 0)
  let al := fun (n k : Nat) => decide (n % k = 0)
  z d.rsv && adr &&
  (match d.op with
   | 0 => z d.fmt && rowOk d.rowBytes && al d.table d.rowBytes && al d.idx 4 && al d.dst 64 &&
       z d.offs && z d.nseg && z d.pattern
   | 1 => decide (d.fmt ≤ 3) && rowOk d.rowBytes && al d.table d.rowBytes && al d.idx 4 && al d.offs 4 &&
       al d.dst 64 && z d.pattern
   | 2 => decide (d.fmt ≤ 1) && z d.rowBytes && z d.table && al d.idx 8 && z d.offs &&
       al d.dst (if d.fmt = 0 then 4 else 2) && z d.nseg && z d.pattern
   | 3 => z d.fmt && z d.rowBytes && z d.table && z d.idx && z d.offs && al d.dst 64 && z d.nseg && z d.nrows
   | _ => false)

/-- How a descriptor's work ends: it goes on, ends with a code and address, or waits for a stack in reset. -/
inductive WEnd where
  | go
  | done (code addr : Nat)
  | wait
deriving DecidableEq, Repr

/-- A read by a Weir engine for context c, which then goes on with k. -/
def wRead (c loc len : Nat) (k : List Byte → State → WEnd × State) (s : State) : WEnd × State :=
  if rangeShut s c loc len then (.wait, s)
  else
    match readLocal (viaWeir c) loc len s with
    | (.err f a, s) => (.done f.weir a, s)
    | (.ok bs, s) => k bs s

/-- A write by a Weir engine for context c. -/
def wWrite (c loc : Nat) (bs : List Byte) (s : State) : WEnd × State :=
  if rangeShut s c loc bs.length then (.wait, s)
  else
    match writeLocal (viaWeir c) loc bs s with
    | (.err f a, s) => (.done f.weir a, s)
    | (.ok _, s) => (.go, s)

/-- Runs f for i, i + 1, ... for n rounds, to the first that does not go on. -/
def wFor (f : Nat → State → WEnd × State) : Nat → Nat → State → WEnd × State
  | _, 0, s => (.go, s)
  | i, n + 1, s =>
    match f i s with
    | (.go, s) => wFor f (i + 1) n s
    | r => r

/-- A GATHER whose DST range overlaps its TABLE rows or IDX list (05 R230). -/
def gatherOverlaps (d : WDesc) : Bool :=
  let n := d.count * d.rowBytes
  (decide (d.dst < d.table + d.nrows * d.rowBytes) && decide (d.table < d.dst + n)) ||
    (decide (d.dst < d.idx + 4 * d.count) && decide (d.idx < d.dst + n))

/-- LOCAL address a lies in the TABLE rows or the IDX list of d (05 R230). -/
def gatherShared (d : WDesc) (a : Nat) : Bool :=
  (decide (d.table ≤ a) && decide (a < d.table + d.nrows * d.rowBytes)) ||
    (decide (d.idx ≤ a) && decide (a < d.idx + 4 * d.count))

/-- Source bytes of a GATHER: with an overlap, as they were when it began, in s0 (05 R230). -/
def gatherSource (c : Nat) (d : WDesc) (s0 : State) (loc : Nat) (bs : List Byte) : List Byte :=
  if gatherOverlaps d then
    match (readLocal (viaWeir c) loc bs.length s0).1 with
    | .ok b => b
    | .err _ _ => bs
  else bs

/-- The bytes that a GATHER writes at loc: each byte of an overlap is free (05 R230, log 1). -/
def gatherBytes (d : WDesc) (loc : Nat) (bs : List Byte) (s : State) : List Byte × State :=
  if gatherOverlaps d then
    let (f, s) := s.freeBytes bs.length
    ((List.range bs.length).map (fun k => if gatherShared d (loc + k) then f.getD k 0 else bs.getD k 0), s)
  else (bs, s)

/-- Row i of a GATHER written. -/
def gatherWrite (c : Nat) (d : WDesc) (i : Nat) (bs : List Byte) (s : State) : WEnd × State :=
  let dst := d.dst + i * d.rowBytes
  let (bs, s) := gatherBytes d dst bs s
  wWrite c dst bs s

/-- GATHER (05 R222, R230). -/
def weirGather (c : Nat) (d : WDesc) (s0 : State) : WEnd × State :=
  wFor (fun i s => wRead c (d.idx + 4 * i) 4 (fun ib s =>
    let x := leNat (gatherSource c d s0 (d.idx + 4 * i) ib)
    if d.nrows ≤ x then gatherWrite c d i (List.replicate d.rowBytes 0) (countOor c s)
    else wRead c (d.table + x * d.rowBytes) d.rowBytes (fun bs s =>
      gatherWrite c d i (gatherSource c d s0 (d.table + x * d.rowBytes) bs) s) s) s) 0 d.count s0

/-- FILL (05 R222), in whole lines. -/
def weirFill (c : Nat) (d : WDesc) : State → WEnd × State :=
  wFor (fun i s => wWrite c (d.dst + 64 * i) (List.replicate 16 (leBytes 4 d.pattern)).flatten s) 0 d.count

/-- Bytes of an element of a SEGSUM row (05 Table 5-6). -/
def segElem (fmt : Nat) : Nat := if fmt ≤ 1 then 1 else if fmt = 2 then 2 else 4

/-- An element of a row as exact FP32. -/
def segVal (fmt : Nat) (v : Nat) : Word :=
  if fmt = 0 then ofFp8 false v else if fmt = 1 then ofFp8 true v else if fmt = 2 then ofBf v
  else BitVec.ofNat 32 v

/-- The elements of a row. -/
def segRow (fmt : Nat) (bs : List Byte) : List Word :=
  (List.range (bs.length / segElem fmt)).map (fun e => segVal fmt (leNat ((bs.drop (e * segElem fmt)).take (segElem fmt))))

/-- Element by element sums, rounded to FP32. -/
def addWords (a b : List Word) : List Word := (a.zip b).map (fun p => (fpAdd p.1 p.2).1)

/-- Stack of the row at a LOCAL address (05 R222). -/
def stackAt (s : State) (c loc : Nat) : Nat :=
  match (Tbl.look [] devCache s.tcache).find? (fun x => x.ctx = c && x.page = loc / frameBytes) with
  | some e => frameStack e.frame
  | none => 0

/-- Adds the rows IDX[i], ... of one segment into the partial sums of their stacks. -/
def segRows (c : Nat) (d : WDesc) (n : Nat) : Nat → Nat → Tbl (List Word) → State → (WEnd × State) × Tbl (List Word)
  | _, 0, p, s => ((.go, s), p)
  | i, k + 1, p, s =>
    match wRead c (d.idx + 4 * i) 4 (fun b s => (.done 0 (leNat b), s)) s with
    | (.done 0 x, s) =>
      if d.nrows ≤ x then segRows c d n (i + 1) k p (countOor c s)
      else
        let loc := d.table + x * d.rowBytes
        if rangeShut s c loc d.rowBytes then ((.wait, s), p)
        else
          match readLocal (viaWeir c) loc d.rowBytes s with
          | (.err f a, s) => ((.done f.weir a, s), p)
          | (.ok bs, s) =>
            let t := stackAt s c loc
            let old := Tbl.look (List.replicate n 0#32) t p
            segRows c d n (i + 1) k (Tbl.insert t (addWords old (segRow d.fmt bs)) p) s
    | (r, s) => ((r, s), p)

/-- One segment of a SEGSUM (05 R222). -/
def segOne (c : Nat) (d : WDesc) (g : Nat) (s : State) : WEnd × State :=
  wRead c (d.offs + 4 * g) 8 (fun ob s =>
    let a := leNat (ob.take 4)
    let b := leNat (ob.drop 4)
    if b < a ∨ d.count < b then (.done wcDesc 0, s)
    else
      let n := d.rowBytes / segElem d.fmt
      match segRows c d n a (b - a) [] s with
      | ((.go, s), p) =>
        let out := p.foldl (fun o e => addWords o e.2) (List.replicate n 0#32)
        wWrite c (d.dst + g * 4 * n) (out.flatMap (fun w => leBytes 4 w.toNat)) s
      | (r, _) => r) s

/-- SEGSUM (05 R222, R224). -/
def weirSegsum (c : Nat) (d : WDesc) : State → WEnd × State := wFor (segOne c d) 0 d.nseg

/-- An atomic add in the base die: FP32, or BF16 from the rounded FP32 sum (05 R223). -/
def atomBytes (bf : Bool) (old : Nat) (v : Word) : List Byte :=
  if bf then leBytes 2 (toBf (fpAdd (ofBf old) v).1).1.toNat
  else leBytes 4 (fpAdd (BitVec.ofNat 32 old) v).1.toNat

/-- Performs one atomic add at a LOCAL address; it needs W, and RMT when another device asks (05 R211, R223,
R233). -/
def atomAdd (v : Via) (bf : Bool) (loc : Nat) (val : Word) (s : State) : Res Unit × State :=
  match translate v true loc s with
  | (.err f a, s) => (.err f a, s)
  | (.ok pa, s) =>
    match hbmRead pa (if bf then 2 else 4) s with
    | (.err f _, s) => (.err f loc, s)
    | (.ok bs, s) =>
      match hbmWrite pa (atomBytes bf (leNat bs) val) s with
      | (.err f _, s) => (.err f loc, s)
      | (.ok _, s) => (.ok (), s)

/-- One record of an ATOMADD descriptor (05 R222). -/
def atomRec (c : Nat) (d : WDesc) (r : Nat) (s : State) : WEnd × State :=
  wRead c (d.idx + 8 * r) 8 (fun b s =>
    let k := leNat (b.take 4)
    if k = 0xFFFFFFFF then (.go, s)
    else if d.nrows ≤ k then (.go, countOor c s)
    else
      let bf := decide (d.fmt = 1)
      let loc := d.dst + k * (if bf then 2 else 4)
      if pageShut s c loc then (.wait, s)
      else
        match atomAdd (viaWeir c) bf loc (BitVec.ofNat 32 (leNat (b.drop 4))) s with
        | (.err f a, s) => (.done f.weir a, s)
        | (.ok _, s) => (.go, s)) s

/-- ATOMADD (05 R222). -/
def weirAtoms (c : Nat) (d : WDesc) : State → WEnd × State := wFor (atomRec c d) 0 d.count

/-- What the engines do with a well-formed descriptor of context c (05 R222). -/
def weirRun (c : Nat) (d : WDesc) (s : State) : WEnd × State :=
  if d.count = 0 ∨ (d.op = 1 ∧ d.nseg = 0) then (.go, s)
  else if d.op = 0 then weirGather c d s
  else if d.op = 1 then weirSegsum c d s
  else if d.op = 2 then weirAtoms c d s
  else weirFill c d s

/-- A descriptor cut to its first n rows, segments, records or units. -/
def WDesc.upTo (n : Nat) (d : WDesc) : WDesc :=
  if d.op = 1 then { d with nseg := Nat.min n d.nseg } else { d with count := Nat.min n d.count }

/-- One address in each page of the n bytes at a. -/
def pageSpan (a n : Nat) : List Nat :=
  if n = 0 then [] else (List.range ((a % frameBytes + n - 1) / frameBytes + 1)).map (fun i => a + i * frameBytes)

/-- One address in each page that a descriptor of context c reads or writes (05 R222). -/
def weirPages (s : State) (c : Nat) (d : WDesc) : List Nat :=
  let at_ := fun (step size base elem : Nat) => (List.range d.count).filterMap (fun i =>
    let x := peekLocal s c (d.idx + step * i) size
    if x < d.nrows then some (base + x * elem) else none)
  match d.op with
  | 0 => pageSpan d.idx (4 * d.count) ++ at_ 4 4 d.table d.rowBytes ++ pageSpan d.dst (d.count * d.rowBytes)
  | 1 => pageSpan d.idx (4 * d.count) ++ pageSpan d.offs (4 * (d.nseg + 1)) ++ at_ 4 4 d.table d.rowBytes ++
      pageSpan d.dst (d.nseg * 4 * (d.rowBytes / segElem d.fmt))
  | 2 => pageSpan d.idx (8 * d.count) ++ at_ 8 4 d.dst (if d.fmt = 1 then 2 else 4)
  | _ => pageSpan d.dst (64 * d.count)

/-- The descriptor of a job, as memory holds it. -/
def jobDesc (s : State) (j : WeirJob) : WDesc :=
  match pageFrame s j.ctx j.addr with
  | none => parseWeir []
  | some f => parseWeir (bytesAt 0 s.hbm (f * frameBytes + j.addr % frameBytes) 64)

/-- The work of a job lies on stack k in part: its descriptor, or a page that this reads or writes (05 R225, R231). -/
def onStack (s : State) (k : Nat) (j : WeirJob) : Bool :=
  (j.addr :: weirPages s j.ctx (jobDesc s j)).any (fun a =>
    match pageFrame s j.ctx a with
    | some f => decide (frameStack f = k)
    | none => false)

end Sys2Proof.Machine
end

