-- ==== Sys2Proof/Machine/WeirCore.lean ====
section
/-!
DEFINITION. Weir descriptors in flight: issue from command streams with its limits and waits (05 R226, 06 R252),
and descriptors that a partition reset or a context abort ends (05 R231, 11 Table 11-5).
-/

namespace Sys2Proof.Machine

/-- Descriptors of context c in flight. -/
def weirOf (s : State) (c : Nat) : Nat := (s.weir.filter (fun j => decide (j.ctx = c))).length

/-- Descriptors that the executing launch of c has issued and that are not complete. -/
def weirPending (s : State) (c : Nat) (id : BitVec 32) : Bool :=
  s.weir.any (fun j => decide (j.ctx = c) && decide (j.launch = id))

/-- The command at which the executing launch x stands, while its end is not decided. -/
def nextCmd (x : Exec) : Option Cmd := if x.ending.isSome then none else x.stream[x.next]?

/-- The command at x.next has completed. -/
def advance (c : Nat) (s : State) : State :=
  s.modExec c (fun x => { x with next := x.next + 1, began := true, prevDone := s.now })

/-- Issues the WEIR command at which context c stands (05 R219, 06 R252). -/
def issueWeir (c : Nat) (s : State) : State :=
  match (s.ctx c).exec with
  | none => s
  | some x =>
    match nextCmd x with
    | none => s
    | some cmd =>
      let j : WeirJob := { ctx := c, launch := x.launch.id, cmdIx := x.next
                           addr := cmd.addr.toNat, code := none, fadr := 0 }
      advance c ({ s with weir := s.weir ++ [j] }.modExec c (fun x => { x with weirWait := none }))

/-- The context whose waiting WEIR command issues next: below its limit, waiting longest, then lowest (05 R226). -/
def weirNextUp (s : State) : Option Nat :=
  if 256 ≤ s.weir.length then none
  else
    let l := s.ctxs.filterMap (fun e => match e.2.exec with
      | some x => match x.weirWait with
        | some a => if x.ending.isNone && decide (weirOf s e.1 < 16) then some (a.toNat, e.1) else none
        | none => none
      | none => none)
    (listMin (fun a b => decide (a.1 < b.1)) l).map (·.2)

/-- Issues the waiting command that is next (05 R226). -/
def issueWaiting (s : State) : State :=
  match weirNextUp s with
  | none => s
  | some c => issueWeir c s

/-- CS_DETAIL (06 R255). -/
def csDetail (ix reason fetch : Nat) : Nat := ix % 256 + reason * 2 ^ 8 + fetch * 2 ^ 16

/-- Reasons of 06 Table 6-15. -/
def crBadOp : Nat := 4
def crNoEnd : Nat := 5
def crSecondRun : Nat := 6
def crCodeFetch : Nat := 7
def crAlign : Nat := 8
def crReserved : Nat := 9
def crDesc : Nat := 10
def crReset : Nat := 11

/-- CS_DETAIL reason of a Weir code (06 Table 6-15). -/
def weirReason (code : Nat) : Nat :=
  if code = wcDesc then crDesc else if code = wcReset then crReset else code - 1

/-- Descriptor i ends with a code. A fault is logged, raised, and ends its launch in the step that meets it (05 R228,
06 R255). -/
def weirEnds (i code addr : Nat) (s : State) : State :=
  match s.weir[i]? with
  | none => s
  | some j =>
    let s := { s with weir := listSet s.weir i { j with code := some code, fadr := addr } }
    if code = wcOk then s
    else
      let s := raise 0x2004 j.ctx code { s with wfCtx := j.ctx, wfCode := code, wfAddr := addr }
      match (s.ctx j.ctx).exec with
      | some x =>
        if x.launch.id = j.launch then
          decideEnd j.ctx stWeirFault (csDetail j.cmdIx (weirReason code) 0) s.now s
        else s
      | none => s

/-- A part of job j, descriptor i, that works when stack p's partition is reset stops after a free number of rows (05 R231, log 17). -/
def weirStops (p i : Nat) (j : WeirJob) (s : State) : State :=
  let r := (s.part p).reset
  let (n, s) := s.free
  let (e, s) := wRead j.ctx j.addr 64 (fun bs s =>
    let d := parseWeir bs
    if weirOk d then weirRun j.ctx (d.upTo n) s else (.done wcDesc 0, s)) (s.modPart p (fun x => { x with reset := none }))
  let s := s.modPart p (fun x => { x with reset := r })
  match e with
  | .done code a => weirEnds i code a s
  | _ => weirEnds i wcReset 0 s

/-- A partition reset of p ends the descriptors of which stack p holds a part. Whether it holds one at that moment is
free for a descriptor not yet performed that has work there (05 R231, log 17). -/
def weirReset (p : Nat) (s : State) : State :=
  forList (fun e s =>
    if e.1.code.isSome || !onStack s p e.1 then s
    else
      let (b, s) := s.freeBelow 2
      if b = 0 then s else weirStops p e.2 e.1 s) s.weir.zipIdx s

/-- Frees the descriptors of an aborted launch (11 Table 11-5). -/
def weirFree (c : Nat) (id : BitVec 32) (s : State) : State :=
  { s with weir := s.weir.filter (fun j => !(decide (j.ctx = c) && decide (j.launch = id))) }

end Sys2Proof.Machine
end

