-- ==== Sys2Proof/Machine/ResetCore.lean ====
section
/-!
DEFINITION. Partition resets as every cause starts them (11 R453, R455 to R458), the reset log, escalation
(R464, R473), the end of an abort (R452, 06 R242), and the out-of-service state (R465, R466).
-/

namespace Sys2Proof.Machine

/-- Causes of a partition reset (11 Table 11-6). -/
def prQuiesce : Nat := 1
def prClk : Nat := 2
def prHclk : Nat := 3
def prEdge : Nat := 4
def prHost : Nat := 5
def prCox : Nat := 6

/-- Out-of-service causes (11 Table 11-9). -/
def oosEscalation : Nat := 1
def oosCox : Nat := 2
def oosClk : Nat := 3
def oosTrain : Nat := 4
def oosShort : Nat := 5

/-- The faulting context that a reset log entry names (11 Table 11-12). -/
structure Named where
  ctx    : Nat
  launch : BitVec 32
  ptile  : Nat
  pc     : BitVec 12
  trap   : Nat
  status : Nat
deriving DecidableEq, Repr

/-- Adds an entry to the reset log of 16 (11 R455, R468, Table 11-12). -/
def resetLog (p cause : Nat) (n : Option Named) (s : State) : State :=
  let w1 := p + cause * 2 ^ 8 + (s.part p).rgen.toNat * 2 ^ 16 + (match n with
    | none => 0
    | some n => n.ctx * 2 ^ 24 + 2 ^ 30)
  let (w2, w3) := match n with
    | none => (0, 0)
    | some n => (n.launch.toNat + n.ptile * 2 ^ 32 + n.pc.toNat * 2 ^ 48, n.trap + n.status * 2 ^ 8)
  let e : ResetEntry := { w0 := s.now, w1 := BitVec.ofNat 64 w1, w2 := BitVec.ofNat 64 w2, w3 := BitVec.ofNat 64 w3 }
  let (r, lost) := s.rst.log.push 16 32 e
  let s := s.modRst (fun x => { x with log := r })
  if lost then raise 0x6009 noUnit 0 s else s

/-- Escalation events in the trailing window (11 R464, ESC_STAT.IN_WINDOW). -/
def inWindow (s : State) : Nat :=
  (s.rst.escEvents.filter (fun a => decide (s.since a ≤ s.rst.escWindow * secs))).length

/-- One escalation event, by the reset of partition `who` or (8) a Cox restart; the count may be reached. Reached
during a Cox restart, the device leaves service when the restart ends (11 R464, R473). -/
def escalate (who : Nat) (s : State) : State :=
  let s := s.modRst (fun x => { x with
    escEvents := s.now :: x.escEvents.filter (fun a => decide (s.since a ≤ 3600 * secs))
    escTotal := satAdd 32 x.escTotal 1 })
  let who := if s.rst.cox.isSome then 8 else who
  if s.rst.escCount ≤ inWindow s then s.modRst (fun x => { x with escDue := some (x.escDue.getD who) }) else s

/-- A partition reset's escalation event; one that coincides with a Cox restart is counted with it (11 R473). -/
def escalatePart (p : Nat) (s : State) : State := if s.rst.cox = some s.now then s else escalate p s

/-- A Cox restart's escalation event; one that a partition's reset of the same count has made is counted with it
(11 R473). -/
def escalateCox (s : State) : State :=
  if s.rst.escEvents.head? = some s.now then
    s.modRst (fun x => { x with escDue := x.escDue.map (fun w => if inWindow s = x.escCount then 8 else w) })
  else escalate 8 s

/-- Requests of tile t that have been sent to this device's stacks and not answered, once for each reply to come
(11 R458). -/
def lateOf (s : State) (t : Nat) (x : Tile) : List (Nat × Nat) :=
  x.tags.flatMap (fun e => match e.2 with
    | none => []
    | some r =>
      if r.waiting || r.discard || decide (bits r.ga.toNat 42 14 ≠ s.fab.devNum.toNat) then []
      else
        let two := decide (frameBytes < r.ga.toNat % frameBytes + r.len)
        if r.inbound && two && decide (r.doneLen = 0) then [(t, e.1), (t, e.1)] else [(t, e.1)])

/-- Clears the tiles of partition p: every tile, stream unit, tag, drain and walker (11 R453, R456). What a tile
counts toward its launch's CYCLES is kept first. -/
def clearTiles (p : Nat) (s : State) : State :=
  let mine := s.tiles.filter (fun e => decide (tilePart e.1 = p))
  let s := forList (fun e s =>
    if e.2.job = .launch && (decide (e.2.run = .running) || decide (e.2.run = .halting))
    then noteStop e.2.ctx e.2.cycle s else s) mine s
  let late := mine.flatMap (fun e => lateOf s e.1 e.2)
  let s := s.modPart p (fun x => { x with late := x.late ++ late })
  { s with
    tiles := s.tiles.filter (fun e => decide (tilePart e.1 ≠ p))
    tileCe := s.tileCe.filter (fun e => decide (tilePart e.1 ≠ p))
    tileUe := s.tileUe.filter (fun e => decide (tilePart e.1 ≠ p)) }

/-- The crews of a list that lie in partition p. -/
def crewsIn (p : Nat) (l : List Nat) : Bool := l.any (fun g => decide (g / 64 = p))

/-- A reset of partition p holds context c until it completes (11 R453, R456). -/
def holdCtx (c p : Nat) (s : State) : State :=
  s.modCtx c (fun x => { x with abort := x.abort.map (fun a =>
    { a with parts := if a.parts.contains p then a.parts else p :: a.parts }) })

/-- Aborts every context whose executing launch holds a crew in p; the reset holds them (11 R456, R457). -/
def abortIn (p status : Nat) (s : State) : State :=
  forList (fun e s =>
    if crewsIn p e.2.crews then holdCtx e.1 p (decideEnd e.1 status 0 s.now s) else s) (execs s) s

/-- Umpire work on crews of partition p is void (11 R475). -/
def voidUmpIn (p : Nat) (s : State) : State :=
  let s := voidWork (fun w => decide (w.subject.part = p)) s
  forList (fun e s => match e.2.pair with
    | some k => if crewsIn p (k.gPart.toList ++ k.gThird.toList) then voidPair e.1 s else s
    | none => s) (execs s) s

/-- Starts a partition reset of p (11 Table 11-7), or joins the one in progress (R469). Launches that it touches
end with `status`; out of service only the resets of entering it run (R466). -/
def startReset (p cause : Nat) (counted : Bool) (named : Option Named) (status : Nat) (s : State) : State :=
  match (s.part p).reset with
  | some r =>
    let s := resetLog p cause named s
    if counted && !r.counted then
      escalatePart p (s.modPart p (fun x => { x with reset := some { r with counted := true } }))
    else s
  | none =>
    let s := s.modPart p (fun x => { x with
      rgen := x.rgen + 1, cntReset := satAdd 16 x.cntReset 1, faults := { }
      reset := some { start := s.now, cause := cause, counted := counted } })
    let s := resetLog p cause named s
    let s := raise 0x6001 p cause s
    let s := if counted then escalatePart p s else s
    let s := voidUmpIn p s
    let s := abortIn p status s
    weirReset p (dropCache p (clearTiles p s))

/-- The abort of context c has finished: quiesced, its sweep ended, and no partition reset holds it (11 Table 11-5). -/
def abortOver (x : Ctx) : Bool :=
  match x.abort with
  | none => true
  | some a => a.quiesced && x.sweep.isNone && a.parts.isEmpty && a.stuck.isEmpty && x.exec.isNone

/-- An abort under CONT_ON_FAULT = 1 ends without a change of state (06 Table 6-9). -/
def settleAbort (c : Nat) (s : State) : State :=
  let x := s.ctx c
  if abortOver x && decide (x.st ≠ .aborting) then s.setCtx c { x with abort := none } else s

/-- ABORTING goes to STOPPED once the abort has finished and the sweep bit is clear (06 Table 6-1); a context that
a host detach has disabled goes on to DISABLED (13 R522). -/
def ctxStopped (c : Nat) (s : State) : State :=
  let x := s.ctx c
  if x.st = .aborting && abortOver x && x.exec.isNone && x.sweep.isNone then
    let s := enterStopped c (s.setCtx c { x with abort := none })
    if x.en then s else s.modCtx c (fun k => { k with st := .disabled })
  else s

/-- Enters the out-of-service state (11 R466). A device that is out of service stays so with its first cause
(R465). -/
def enterOos (cause : Nat) (s : State) : State :=
  if s.rst.oos then s
  else
    let s := s.modRst (fun x => { x with oos := true, oosCause := cause, escDue := none })
    let s := forUp (fun p s =>
      if (s.part p).reset.isSome then s else startReset p prCox false none stCollateral s) 0 8 s
    let s := allToP15 s
    let s := forList (fun e s => decideEnd e.1 stCollateral 0 s.now s) (execs s) s
    let s := forUp (fun c s => refuseFetched c stFlushed s) 0 64 s
    let s := voidWork (fun _ => true) s
    raise 0x6005 noUnit cause s

end Sys2Proof.Machine
end

