-- ==== Sys2Proof/Machine/Ctx.lean ====
section
/-!
DEFINITION. Contexts: doorbells (06 R237, R240), enabling and disabling (R242, R243, R274, 01 R54), RESUME, FLUSH
and ABORT (R244, R245), the quiesce check (11 R453), and the berth commands (06 R247).
-/

namespace Sys2Proof.Machine

/-- Another context is bound to this non-zero job ID (01 R54). -/
def jobTaken (s : State) (c : Nat) (job : BitVec 32) : Bool :=
  decide (job ≠ 0) && s.ctxs.any (fun e => decide (e.1 ≠ c) && decide (e.2.jobid = job))

/-- The context holds a fetched or executing launch. -/
def ctxBusy (x : Ctx) : Bool := !x.fetched.isEmpty || x.exec.isSome

/-- A write of CTX_CFG (06 R242, R243, R274, 01 R54). EN acts only where Table 6-1 has a transition for it. -/
def ctxCfgWrite (c : Nat) (v : BitVec 64) (s : State) : State :=
  let x := s.ctx c
  let n := v.toNat
  let x1 := { x with contOnFault := bit n 1, irqEn := bit n 2 }
  let job := BitVec.ofNat 32 (n / 2 ^ 32)
  let x2 := if ctxBusy x then x1
    else
      let x2 := { x1 with limitMs := bits n 16 16 }
      if jobTaken s c job || decide (job = x.jobid) then x2 else { x2 with jobid := job, jobAt := s.now }
  let x3 :=
    if bit n 0 && decide (x.st = .disabled) then
      { x2 with st := .running, en := true, sqHead := 0, cqTail := 0, sqTail := 0, cqHead := 0, cqPhase := true,
                cqHold := false, seqNo := 0 }
    else if !bit n 0 && !ctxBusy x && (decide (x.st = .running) || decide (x.st = .stopped)) then
      { x2 with st := .disabled, en := false }
    else x2
  s.setCtx c x3

/-- A doorbell write of context c (06 R237, R240, 11 R466). -/
def doorbell (c : Nat) (tail : Bool) (width : Nat) (v : BitVec 64) (s : State) : State :=
  if !s.alive || s.rst.oos || !(decide (width = 4) || decide (width = 8)) then s
  else
    let x := s.ctx c
    let i := bits v.toNat 0 12
    if ringSize (if tail then x.sqSize else x.cqSize) ≤ i then raise 0x7011 c i s
    else if tail then s.setCtx c { x with sqTail := i }
    else
      let y := { x with cqHead := i }
      s.setCtx c { y with cqHold := x.cqHold && !cqRoom y }

/-- Address of the descriptor at an index of context c's ring (06 R236). -/
def sqAddr (x : Ctx) (i : Nat) : Nat := x.sqBase + 64 * i

/-- The next launch ID of a context (06 R246). -/
def nextId (c : Nat) (x : Ctx) : BitVec 32 := BitVec.ofNat 32 (c * 2 ^ 26 + x.seqNo)

/-- The 64 bytes of a descriptor (06 Table 6-3). -/
def parseDesc (bs : List Byte) : Desc :=
  let f := fun lo n => leNat ((bs.drop lo).take n)
  { version := BitVec.ofNat 8 (f 0 1), flags := BitVec.ofNat 8 (f 1 1), ncrew := f 2 2, entry := f 4 2
    codeWords := f 6 2, code := BitVec.ofNat 64 (f 8 8), cstream := BitVec.ofNat 64 (f 16 8)
    argp := BitVec.ofNat 64 (f 24 8), deadline := f 32 8, catchCnt := f 40 8, estTile := f 48 4
    estFixed := f 52 4, energy := f 56 4, pinTime := f 60 2, rsv := BitVec.ofNat 16 (f 62 2) }

/-- The bytes of the descriptor at index i of the ring, where they can be read. -/
def readSq (c i : Nat) (s : State) : Res (List Byte) × State :=
  let x := s.ctx c
  if x.sqLoc then devRead .engine (sqAddr x i) 64 s else (.ok (bytesAt 0 s.hostMem (sqAddr x i) 64), s)

/-- DMA_FAULT_LOG records a failure and HOST_DMA_FAULT is raised; a RUNNING context stops once its executing
launch is done (13 R523, 06 R604). -/
def dmaFault (c kind addr : Nat) (s : State) : State :=
  let s := { s with host := { s.host with dmaCtx := c, dmaKind := kind, dmaAddr := BitVec.ofNat 64 addr } }
  let s := raise 0x7033 c 0 s
  let x := s.ctx c
  if x.st ≠ .running then s
  else if x.exec.isNone then enterStopped c s
  else s.setCtx c { x with stopAfter := true }

/-- KIND of a refused access to a ring in device memory (06 R604, 13 Table 13-11). -/
def ringKind (f : MFault) : Nat := if f = .poison then 3 else 5

/-- KIND of a failed host read (13 Table 13-11). -/
def hostKind : DmaFail → Nat
  | .unsupported => 1 | .completerAbort => 2 | .poisoned => 3 | .timeout => 4

/-- One descriptor of the ring completes with FLUSHED; its launch ID and T_ARRIVE are those of this moment. A read of
it that is refused is recorded, and it is flushed all the same (06 R245, R260, R604, log 40). -/
def flushOne (c : Nat) (s : State) : State :=
  let x := s.ctx c
  let (d, s) := match readSq c x.sqHead s with
    | (.ok bs, s) => (parseDesc bs, s)
    | (.err f a, s) => ({ }, dmaFault c (ringKind f) a s)
  let l : Launch := { id := nextId c x, sqIndex := x.sqHead, tArrive := s.now, desc := d, admitted := false }
  let s := s.modCtx c (fun x => { x with
    seqNo := (x.seqNo + 1) % 2 ^ 26, sqHead := (x.sqHead + 1) % ringSize x.sqSize })
  refuseLaunch c stFlushed l s

/-- FLUSH in STOPPED: the fetched launches, then every descriptor up to SQ_TAIL as read once (06 R244, R245, R275). -/
def flushCtx (c : Nat) (s : State) : State :=
  let x := s.ctx c
  if !s.alive || decide (x.st ≠ .stopped) then s
  else
    let n := (x.sqTail + ringSize x.sqSize - x.sqHead) % ringSize x.sqSize
    forUp (fun _ s => flushOne c s) 0 n (refuseFetched c stFlushed s)

def resumeCtx (c : Nat) (s : State) : State :=
  let x := s.ctx c
  if s.alive && decide (x.st = .stopped) then s.setCtx c { x with st := .running } else s

/-- CTX_CMD ABORT: in RUNNING with an executing launch (06 R242, R244). -/
def abortCtx (c : Nat) (s : State) : State :=
  let x := s.ctx c
  if s.alive && decide (x.st = .running) && x.exec.isSome then decideEnd c stHostAbort 0 s.now s else s

/-- The reset log's view of context c's launch, with the first tile not idle (11 R453, Table 11-12). -/
def namedOf (s : State) (c t : Nat) : Option Named :=
  (s.ctx c).exec.map (fun x =>
    { ctx := c, launch := x.launch.id, ptile := t, pc := (s.tile t).pc
      trap := ((primaryFault x.faults).map (·.cause)).getD 0, status := (x.ending.map (·.status)).getD 0 })

/-- The tiles of the launch stop for good: what CYCLES counts of them is kept and nothing else of them survives
(11 R451, Table 11-5, 06 Table 6-8). -/
def clearLaunchTiles (c : Nat) (x : Exec) (s : State) : State :=
  forList (fun k s =>
    let y := s.tile k.2.2
    let s := if y.run = .running ∨ y.run = .halting then noteStop c y.cycle s else s
    if y.launchId = x.launch.id ∧ y.job = .launch then s.setTile k.2.2 { } else s) x.tiles s

/-- QUIESCE_CHECK at A + 8,000: the crews are idle and released and the launch is done; a partition with a tile
that is not idle is reset, and the launch ends after that (11 R452, R453). -/
def quiesce (c : Nat) (stuck : List Nat) (s : State) : State :=
  let k := s.ctx c
  match k.abort, k.exec with
  | some a, some x =>
    if a.quiesced || decide (s.since a.start < 8000) then s
    else
      let mine := stuck.filter (fun t => x.tiles.any (fun e => decide (e.2.2 = t)) && !stackShut s (tilePart t))
      let parts := (List.range 8).filter (fun p => mine.any (fun t => decide (tilePart t = p)))
      let s := forList (fun p s =>
        let t := (mine.find? (fun t => decide (tilePart t = p))).getD 0
        let s1 := raise 0x6007 p prQuiesce s
        startReset p prQuiesce true (namedOf s c t) stCollateral s1) parts s
      let s := dropTranslations c (weirFree c x.launch.id (clearLaunchTiles c x s))
      let s := s.modCtx c (fun k => { k with abort := k.abort.map (fun a =>
        { a with quiesced := true, stuck := parts, parts := parts ++ a.parts.filter (fun p => !parts.contains p) }) })
      if parts.isEmpty then settleAbort c (launchDone c s) else s
  | _, _ => s

/-! ### Berths -/

/-- BERTH_STAT.RESULT (06 Table 6-12). -/
def brDone : Nat := 0
def brBusy : Nat := 1
def brTaken : Nat := 2
def brBadCrew : Nat := 3
def brNotMember : Nat := 4
def brBadOp : Nat := 5

/-- Crew g is enabled (12 R481). -/
def crewEnabled (s : State) (g : Nat) : Bool := decide (g < 512) && !(s.crew g).tiles.isEmpty

/-- The crews of context c's berth in ascending order (06 R248). -/
def berthOf (s : State) (c : Nat) : List Nat :=
  (s.ump.crews.filter (fun e => decide (e.2.berth = some c) && !e.2.tiles.isEmpty)).map (·.1)

/-- RESULT of a BERTH_CMD, the first failing row of 06 Table 6-2. OP 1 ADD, 2 REMOVE, 3 CLEAR. -/
def berthResultOf (s : State) (op c g n : Nat) : Nat :=
  let l := (List.range n).map (g + ·)
  if s.rst.oos || decide (op = 0) then brBadOp
  else if ctxBusy (s.ctx c) then brBusy
  else if op = 3 then brDone
  else if n = 0 || decide (512 < g + n) || l.any (fun h => !crewEnabled s h) then brBadCrew
  else if decide (op = 1) && l.any (fun h => match (s.crew h).berth with
    | some k => decide (k ≠ c)
    | none => false) then brTaken
  else if decide (op = 2) && l.any (fun h => decide ((s.crew h).berth ≠ some c)) then brNotMember
  else brDone

/-- BERTH_CMD as one indivisible step (06 R247). -/
def berthCmd (op c g n : Nat) (s : State) : State :=
  if !s.alive then s
  else
    let r := berthResultOf s op c g n
    let s := { s with berthResult := r }
    if r ≠ brDone then s
    else if op = 3 then
      forList (fun e s => if (s.crew e.1).berth = some c then s.modCrew e.1 (fun k => { k with berth := none }) else s)
        s.ump.crews s
    else
      forUp (fun h s => s.modCrew h (fun k => { k with berth := if op = 1 then some c else none })) g n s

/-- SQ_TAIL: the submission doorbell of a context (R237). -/
def execSqTail (c : CtxIx) (width : Nat) (v : BitVec 64) (s : State) : Host.Outcome State Fault Refusal :=
  .next (doorbell c.val true width v s)

/-- CQ_HEAD: the completion doorbell; a held record may be written again (R237, R240). -/
def execCqHead (c : CtxIx) (width : Nat) (v : BitVec 64) (s : State) : Host.Outcome State Fault Refusal :=
  .next (doorbell c.val false width v s)

/-- CTX_ENABLE: a write of CTX_CFG with EN 1 (R242, R274). -/
def execCtxEnable (c : CtxIx) (v : BitVec 64) (s : State) : Host.Outcome State Fault Refusal :=
  .next (if s.alive && bit v.toNat 0 then ctxCfgWrite c.val v s else s)

/-- CTX_DISABLE: a write of CTX_CFG with EN 0 (R242, R243). -/
def execCtxDisable (c : CtxIx) (v : BitVec 64) (s : State) : Host.Outcome State Fault Refusal :=
  .next (if s.alive && !bit v.toNat 0 then ctxCfgWrite c.val v s else s)

/-- RESUME: a STOPPED context runs again (R244). -/
def execResumeCtx (c : CtxIx) (s : State) : Host.Outcome State Fault Refusal := .next (resumeCtx c.val s)

/-- ABORT: the executing launch ends with HOST_ABORT (R244). -/
def execAbortCmd (c : CtxIx) (s : State) : Host.Outcome State Fault Refusal := .next (abortCtx c.val s)

/-- CTX_STOPPED: an aborting context enters STOPPED (R242). -/
def execCtxStopped (c : CtxIx) (s : State) : Host.Outcome State Fault Refusal := .next (ctxStopped c.val s)

/-- ADD_CREWS: BERTH_CMD ADD (R247). -/
def execAddCrews (c : CtxIx) (g : BitVec 9) (count : BitVec 10) (s : State) : Host.Outcome State Fault Refusal :=
  .next (berthCmd 1 c.val g.toNat count.toNat s)

/-- REMOVE_CREWS: BERTH_CMD REMOVE (R247). -/
def execRemoveCrews (c : CtxIx) (g : BitVec 9) (count : BitVec 10) (s : State) : Host.Outcome State Fault Refusal :=
  .next (berthCmd 2 c.val g.toNat count.toNat s)

/-- CLEAR: BERTH_CMD CLEAR removes every crew of the context (R247). -/
def execClearBerth (c : CtxIx) (s : State) : Host.Outcome State Fault Refusal := .next (berthCmd 3 c.val 0 0 s)

end Sys2Proof.Machine
end

