-- ==== Sys2Proof/Machine/Launch.lean ====
section
/-!
DEFINITION. Launches from the ring to dispatch: descriptor fetch and its faults (06 R238, R246, R604, 13 R523),
admission (06 R249, R250, R256 to R258), scheduler passes (R259 to R263, 08 R335) and dispatch (06 R253, R264 to
R267, 08 R341, 10 R413, R415 to R417).
-/

namespace Sys2Proof.Machine

/-! ### Fetch -/

/-- The Cox firmware admits (06 CE_STAT.READY, 11 R461, R466, 12 R503). -/
def admitting (s : State) : Bool := s.alive && s.boot.ready && s.rst.cox.isNone && !s.rst.oos

/-- The command engine may fetch for context c (06 R238, R240, 11 R461, 12 R503, 13 R522, R523). -/
def mayFetch (s : State) (c : Nat) : Bool :=
  let x := s.ctx c
  admitting s && decide (x.st = .running) && x.en && decide (x.sqHead ≠ x.sqTail) && decide (x.fetched.length < 32) &&
    !x.cqHold && !x.stopAfter &&
    (if x.sqLoc then !stackShut s (frameStack (sqAddr x x.sqHead / frameBytes)) else s.host.attached)

/-- DESCRIPTOR_FETCH: the descriptor at SQ_HEAD becomes a fetched launch (06 R238, R246, R256). -/
def fetchDesc (c : Nat) (s : State) : State :=
  let x := s.ctx c
  if !mayFetch s c then s
  else
    match readSq c x.sqHead s with
    | (.err f a, s) => dmaFault c (ringKind f) a s
    | (.ok bs, s) =>
      s.modCtx c (fun x => { x with
        fetched := x.fetched ++ [{ id := nextId c x, sqIndex := x.sqHead, tArrive := s.now,
                                   desc := parseDesc bs, admitted := false }]
        seqNo := (x.seqNo + 1) % 2 ^ 26
        sqHead := (x.sqHead + 1) % ringSize x.sqSize })

/-- HOST_DMA_FAULT: a read of a descriptor in host memory fails (13 R523). -/
def fetchFails (c : Nat) (k : DmaFail) (s : State) : State :=
  let x := s.ctx c
  if mayFetch s c && !x.sqLoc then dmaFault c (hostKind k) (sqAddr x x.sqHead) s else s

/-! ### Admission -/

/-- The descriptor is malformed (06 R249, Table 6-3). -/
def malformed (d : Desc) : Bool :=
  decide (d.version ≠ 1) || decide (8 ≤ d.flags.toNat) || decide (d.rsv ≠ 0) ||
  decide (2 ^ 42 ≤ d.code.toNat) || decide (2 ^ 42 ≤ d.cstream.toNat) || decide (2 ^ 42 ≤ d.argp.toNat) ||
  decide (d.ncrew = 0) || decide (512 < d.ncrew) || decide (d.codeWords = 0) || decide (4096 < d.codeWords) ||
  decide (d.codeWords ≤ d.entry) || decide (d.code.toNat % 64 ≠ 0) || decide (d.cstream.toNat % 16 ≠ 0) ||
  (!d.isCatch && decide (d.catchCnt ≠ 0)) || (!d.pin && decide (d.pinTime ≠ 0))

/-- TCLK of a clock point, in MHz (09 Table 9-2). -/
def pointMHz (p : Nat) : Nat := 1500 - 60 * p

/-- The lowest TCLK in force among the partitions that hold the crews, in MHz (06 R250). -/
def lowestMHz (s : State) (crews : List Nat) : Nat :=
  pointMHz (listMax0 (crews.map (fun g => (s.part (g / 64)).point)))

/-- Predicted duration D, in ns, rounded up (06 R250). -/
def duration (s : State) (d : Desc) (crews : List Nat) : Nat :=
  let f := lowestMHz s crews
  d.estFixed + 1000 + ((d.estTile + 1536) * 1000 + f - 1) / f

/-- The crews that a launch of context c runs on (06 R248). -/
def crewsFor (s : State) (c : Nat) (d : Desc) : List Nat := (berthOf s c).take d.ncrew

/-- S of a launch, given the predicted completion ahead of it (06 R258). -/
def startAt (s : State) (d : Desc) (ahead : Option Nat) : Nat :=
  let a := ahead.getD s.now.toNat
  if d.isCatch then Nat.max a d.catchCnt else a

/-- Predicted completion of the executing launch (06 R258). -/
def execEnd (x : Ctx) : Option Nat := x.exec.map (fun e => e.tDispatch.toNat + e.dur)

/-- Predicted completion of the last of the admitted launches in a list (06 R258). -/
def predAhead (s : State) (c : Nat) : List Launch → Option Nat → Option Nat
  | [], a => a
  | l :: r, a =>
    if l.admitted then predAhead s c r (some (startAt s l.desc a + duration s l.desc (crewsFor s c l.desc))) else a

/-- The status of the first check of 06 Table 6-7 that fails. -/
def admitFails (s : State) (c : Nat) (l : Launch) : Option Nat :=
  let x := s.ctx c
  let d := l.desc
  if malformed d || (d.isCatch && decide (x.jobid = 0)) then some stMalformed
  else if (berthOf s c).length < d.ncrew then some stBerthShort
  else if d.isCatch && !s.fab.placed then some stNotPlaced
  else if d.isCatch && decide (d.catchCnt < s.now.toNat + 50000) then some stCatchLate
  else if decide (d.deadline ≠ 0) && decide (d.deadline <
      startAt s d (predAhead s c x.fetched (execEnd x)) + duration s d (crewsFor s c d)) then some stInfeasible
  else none

/-- Takes the launch at index i out of the fetched list. -/
def takeLaunch (c i : Nat) (s : State) : State := s.modCtx c (fun x => { x with fetched := listDrop x.fetched i })

/-- ADMISSION_CHECK: the oldest launch in FETCHED is admitted or refused (06 R256, R257, R272, 05 R208). -/
def admitOldest (c : Nat) (s : State) : State :=
  let x := s.ctx c
  if !admitting s || decide (x.st ≠ .running) || !x.en || x.sweep.isSome then s
  else
    match x.fetched.findIdx? (fun l => !l.admitted) with
    | none => s
    | some i =>
      match x.fetched[i]? with
      | none => s
      | some l =>
        match admitFails s c l with
        | some st => refuseLaunch c st l (takeLaunch c i s)
        | none =>
          let s := s.modCtx c (fun x => { x with fetched := listSet x.fetched i { l with admitted := true } })
          { s with cntAdmitted := satAdd 48 s.cntAdmitted 1, passMark := s.passMark + 1 }

/-! ### The command stream -/

/-- What each OP asks of IMM and ADDR (06 Table 6-5): IMM must be 0; alignment of ADDR, 0 where ADDR must be 0. -/
def cmdRule : Nat → Option (Bool × Nat)
  | 0x01 => some (true, 64)
  | 0x02 => some (true, 0)
  | 0x03 => some (true, 0)
  | 0x04 => some (true, 0)
  | 0x05 => some (false, 4)
  | 0x06 => some (true, 8)
  | 0x0F => some (true, 0)
  | _ => none

/-- Reason, and fetch fault, of a memory fault (06 Table 6-15). -/
def MFault.reason : MFault → Nat
  | .xlate => 1 | .perm => 2 | .poison => 3

/-- The reason for which the 16 bytes of a command are refused (06 R253). -/
def cmdFails (bs : List Byte) (ran : Bool) : Option Nat :=
  let op := leNat (bs.take 1)
  let imm := leNat ((bs.drop 4).take 4)
  let addr := leNat ((bs.drop 8).take 8)
  match cmdRule op with
  | none => some crBadOp
  | some (imm0, al) =>
    if decide (leNat ((bs.drop 1).take 3) ≠ 0) || decide (2 ^ 42 ≤ addr) || (imm0 && decide (imm ≠ 0)) ||
        (decide (al = 0) && decide (addr ≠ 0)) then some crReserved
    else if decide (al ≠ 0) && decide (addr % al ≠ 0) then some crAlign
    else if decide (op = 0x03) && ran then some crSecondRun
    else none

/-- Reads the stream up to its first END, at most 256 commands: the commands, or CS_DETAIL (06 R253, R255). -/
def readStream (c base : Nat) : Nat → Nat → Bool → State → (List Cmd ⊕ Nat) × State
  | 0, _, _, s => (.inr (csDetail 0 crNoEnd 0), s)
  | n + 1, i, ran, s =>
    match readLocal (viaDev c) (base + 16 * i) 16 s with
    | (.err f _, s) => (.inr (csDetail i f.reason 0), s)
    | (.ok bs, s) =>
      match cmdFails bs ran with
      | some r => (.inr (csDetail i r 0), s)
      | none =>
        let cmd : Cmd := { op := leNat (bs.take 1), imm := BitVec.ofNat 32 (leNat ((bs.drop 4).take 4)),
                           addr := BitVec.ofNat 64 (leNat ((bs.drop 8).take 8)) }
        if cmd.op = 0x0F then (.inl [cmd], s)
        else
          match readStream c base n (i + 1) (ran || decide (cmd.op = 0x03)) s with
          | (.inl l, s) => (.inl (cmd :: l), s)
          | (.inr d, s) => (.inr d, s)

/-! ### Dispatch -/

/-- Power share of a launch on partition p, in pW, rounded down (06 R262). -/
def share (s : State) (d : Desc) (crews : List Nat) (dur p : Nat) : Nat :=
  let n := (crews.filter (fun g => decide (g / 64 = p))).length
  if d.energy = 0 then defCrewPw s * n else d.energy * 10 ^ 15 * n / (dur * d.ncrew)

/-- The candidate is eligible: its crews may take it, and power allows (06 R262, R280). -/
def eligible (s : State) (d : Desc) (crews : List Nat) (dur : Nat) : Bool :=
  let parts := (List.range 8).filter (fun p => crewsIn p crews)
  decide (crews.length = d.ncrew) && crews.all (crewTakes s) &&
    (parts.all (fun p => !holdsPart s p) ||
     parts.all (fun p => decide (committed s p + share s d crews dur p ≤ (s.part p).budget)))

/-- The pin of a launch begins at dispatch (06 R267, 10 R429). -/
def beginPin (c : Nat) (d : Desc) (s : State) : State :=
  if !d.pin then s
  else
    let len := Nat.min (d.pinTime * 10000000) (s.ump.pinLimitS * secs)
    s.modExec c (fun x =>
      if len = 0 then { x with pinExpired := true, pinFrom := s.now.toNat }
      else { x with pinEnd := some (s.now.toNat + len), pinFrom := s.now.toNat })

/-- Starts a pair check of context c's launch, if a partner qualifies (10 R417, R418). -/
def beginPair (c : Nat) (x : Exec) (s : State) : State :=
  let k := match x.crews.findIdx? (fun g => (s.crew g).tiles.any (fun t => decide ((s.utile t).st = .suspect))) with
    | some i => i
    | none => s.ump.samples % Nat.max 1 x.crews.length
  match x.crews[k]? with
  | none => s
  | some g =>
    match pickPartner s g with
    | none => s
    | some h =>
      let p : Pair := { crew := k, gChk := g, gPart := some h, gThird := none, pTiles := (s.crew h).tiles, mism := []
                        power := defCrewPw s }
      let s := s.modUmp (fun u => { u with owed := false, samples := u.samples + 1, rotate := h })
      let s := commitPower (h / 64) (defCrewPw s) (s.modCrew h (fun y => { y with partnerOf := some c }))
      (s.umpCount 3).modExec c (fun e => { e with pair := some p })

/-- Samples every INTERVAL-th eligible launch; a sample without a partner passes to the next (10 R415, R417). -/
def samplePair (c : Nat) (x : Exec) (s : State) : State :=
  let u := s.ump
  if !bit u.checkCtx.toNat c || timedRuns s || x.launch.desc.isCatch || !u.pair || decide (u.interval = 0) ||
      !umpWorks s then s
  else
    let n := u.eligible + 1
    let s := s.modUmp (fun u => { u with eligible := n, owed := u.owed || decide (n % u.interval = 0) })
    if s.ump.owed then beginPair c x s else s

/-- The executing launch as dispatch makes it. A TIMED launch that begins while the current clamp stretches TCLK is
disturbed (09 R367, Table 9-8). -/
def newExec (s : State) (l : Launch) (crews : List Nat) (dur : Nat) : Exec :=
  { launch := l, tDispatch := s.now, mapEpoch := s.ump.epoch, fwVersion := s.boot.version
    enabled := (s.ump.nCrews.map (·.2)).foldl (· + ·) 0
    dur := dur, crews := crews
    tiles := crews.zipIdx.flatMap (fun g => (s.crew g.1).tiles.zipIdx.map (fun t => (g.2, t.2, t.1)))
    shares := (List.range 8).map (share s l.desc crews dur)
    stream := [], next := 0, prevDone := s.now, began := false, weirWait := none, ranAt := none, image := []
    slipped := false, disturbed := l.desc.timed && decide (s.pwr.clamp ≠ 0), pinEnd := none, pinFrom := 0, pinExpired := false, pinLost := false
    oor := 0, energy := 0, wakes := [], wakeOver := false, faults := [], cycles := 0, ending := none, pair := none }

/-- Dispatches the head of context c's admitted list (06 R256, R264, R253). -/
def dispatch (c : Nat) (l : Launch) (crews : List Nat) (dur : Nat) (s : State) : State :=
  let x := newExec s l crews dur
  let s := s.modCtx c (fun k => { k with
    fetched := k.fetched.drop 1, exec := some x, lastLaunch := l.id })
  let s := forList (fun g s => (voidCrewWork g s).modCrew g (fun k => { k with heldBy := some c, lastLaunch := some (l.id, c) })) crews s
  let s := beginPin c l.desc s
  let s := if l.desc.timed then
      let s := dropTranslations c s
      if (s.ctx c).jobid = 0 then s else combFlush (s.ctx c).jobid s.fab.comb.length s
    else s
  let s := samplePair c x s
  match readStream c l.desc.cstream.toNat 256 0 false s with
  | (.inl cmds, s) => s.modExec c (fun x => { x with stream := cmds })
  | (.inr d, s) => decideEnd c stCstream d s.now s

/-! ### The scheduler -/

/-- The head of context c's admitted list. -/
def headOf (x : Ctx) : Option Launch :=
  match x.fetched with
  | l :: _ => if l.admitted then some l else none
  | [] => none

/-- The status of the recheck that fails at a pass (06 R259, R277, 08 R335). -/
def recheckFails (s : State) (c : Nat) (l : Launch) : Option Nat :=
  let d := l.desc
  if (berthOf s c).length < d.ncrew then some stBerthShort
  else if d.isCatch && decide (d.catchCnt < s.now.toNat + 10000) then some stCatchLate
  else if decide (d.deadline ≠ 0) && decide (d.deadline <
      Nat.max s.now.toNat (startAt s d (execEnd (s.ctx c))) + duration s d (crewsFor s c d)) then some stInfeasible
  else none

/-- Rechecks the head of every context that is not STOPPED: the contexts whose head stands, with it (06 R259,
R272). -/
def recheckAll : List Nat → State → List (Nat × Launch) × State
  | [], s => ([], s)
  | c :: r, s =>
    let x := s.ctx c
    match (if x.st = .stopped then none else headOf x) with
    | none => recheckAll r s
    | some l =>
      match recheckFails s c l with
      | some st => recheckAll r (refuseLaunch c st l (takeLaunch c 0 s))
      | none =>
        let (k, s) := recheckAll r s
        ((c, l) :: k, s)

/-- The order of candidates (06 R261). -/
def before (a b : Nat × Launch) : Bool :=
  let da := if a.2.desc.deadline = 0 then 2 ^ 64 else a.2.desc.deadline
  let db := if b.2.desc.deadline = 0 then 2 ^ 64 else b.2.desc.deadline
  if da ≠ db then decide (da < db)
  else if a.2.tArrive ≠ b.2.tArrive then decide (a.2.tArrive.toNat < b.2.tArrive.toNat) else decide (a.1 < b.1)

/-- Catch launches wait until the counts have settled for 100 ms after a master change (08 Table 8-2, 14 R582). -/
def countsSettled (s : State) : Bool :=
  match s.stroke.masterAt with
  | some a => decide (100000000 ≤ s.since a)
  | none => true

/-- The context may dispatch now: RUNNING, no executing launch, not held (06 R240, R261, 13 R522, R523), and no abort
of it still under way (log 18). -/
def mayDispatch (s : State) (c : Nat) (l : Launch) : Bool :=
  let x := s.ctx c
  decide (x.st = .running) && x.en && x.exec.isNone && !x.cqHold && !x.stopAfter && x.abort.isNone &&
    !rangeShut s c l.desc.cstream.toNat 4096 &&
    (!l.desc.isCatch || (decide (l.desc.catchCnt ≤ s.now.toNat + 40000) && countsSettled s))

/-- SCHEDULER_PASS (06 R259, R261 to R263). -/
def schedulerPass (s : State) : State :=
  if !admitting s then s
  else
    let (l, s) := recheckAll (List.range 64) s
    forList (fun e s =>
      let crews := crewsFor s e.1 e.2.desc
      let dur := duration s e.2.desc crews
      if mayDispatch s e.1 e.2 && eligible s e.2.desc crews dur then dispatch e.1 e.2 crews dur s else s)
      (sortBy before (l.filter (fun e => mayDispatch s e.1 e.2))) s

/-- Scheduler passes as long as launches have been admitted, refused or done since the mark n (06 R261). Fuel counts
passes. -/
def passesFrom : Nat → Nat → State → State
  | 0, _, s => s
  | k + 1, n, s => if s.passMark = n then s else passesFrom k s.passMark (schedulerPass s)

/-- Every launch that a pass takes leaves its list, so no more passes follow one another than launches are listed. -/
def passFuel (s : State) : Nat := (s.ctxs.map (fun e => e.2.fetched.length)).foldl (· + ·) 0 + 1

/-- Runs f, and a scheduler pass where it has admitted or completed a launch (06 R261). -/
def thenPass (f : State → State) (s : State) : State := passesFrom (passFuel (f s)) s.passMark (f s)

/-- DESCRIPTOR_FETCH: the descriptor at SQ_HEAD becomes a fetched launch (R238). -/
def execDescriptorFetch (c : CtxIx) (s : State) : Host.Outcome State Fault Refusal := .next (fetchDesc c.val s)

/-- HOST_DMA_FAULT: a host read of a descriptor fails (R523). -/
def execHostDmaFault (c : CtxIx) (kind : DmaFail) (s : State) : Host.Outcome State Fault Refusal :=
  .next (fetchFails c.val kind s)

/-- ADMISSION_CHECK: the checks of a fetched launch (R257). -/
def execAdmissionCheck (c : CtxIx) (s : State) : Host.Outcome State Fault Refusal :=
  .next (thenPass (admitOldest c.val) s)

/-- SCHEDULER_PASS: rechecks list heads and dispatches eligible candidates (R261). -/
def execSchedulerPass (s : State) : Host.Outcome State Fault Refusal := .next (thenPass schedulerPass s)

/-- FLUSH: completes fetched launches and ring descriptors with FLUSHED (R245). -/
def execFlushCtx (c : CtxIx) (s : State) : Host.Outcome State Fault Refusal := .next (thenPass (flushCtx c.val) s)

/-- QUIESCE_CHECK: crews idle and released, or the partition resets (R453). -/
def execQuiesceCheck (c : CtxIx) (stuck : List TileIx) (s : State) : Host.Outcome State Fault Refusal :=
  .next (thenPass (quiesce c.val (stuck.map (·.val))) s)

end Sys2Proof.Machine
end

