-- ==== Sys2Proof/Machine/Link.lean ====
section
/-!
DEFINITION. Placement (07 R286, R287) and the twelve ports: training (R289, R290, Table 7-3), retry (R292 to
R296) and in-service re-equalisation (R293).
-/

namespace Sys2Proof.Machine

/-! ### Placement -/

/-- A STROKE event names the parent port, or 0xFF, and the master's device number (15 Table 15-7). -/
def strokeEvent (code : Nat) (s : State) : State :=
  raise code ((s.stroke.parent.map (·.val)).getD noUnit) s.stroke.master.toNat s

/-- The device becomes master: STROKE_LOCKED, EVER_LOCKED is 1 (08 Table 8-1). -/
def becomeMaster (s : State) : State :=
  strokeEvent 0x3010 (s.modStroke (fun k => { k with
    st := .master, ever := true, parent := none, master := s.devNo, hops := 0, run := 0 }))

/-- PLACED is set, with DEV_NUM and MACHINE_SIZE (07 R287, 01 R39). -/
def placeDevice (num size : Nat) (s : State) : State :=
  raise 0x300A noUnit 0 (s.modFab (fun f => { f with
    place := .placed, placed := true, devNum := BitVec.ofNat 14 num, machine := size }))

/-- Enters a state, from this count. -/
def portTo (n : Nat) (st : PState) (s : State) : State :=
  s.modPort n (fun x => { x with
    st := st, since := s.now, reeq := none, settled := x.settled || decide (st = .up) || decide (st = .down) })

/-- START: places the device, or begins training on every port (07 R287, 08 Table 8-1). -/
def fabBegin (s : State) : State :=
  let f := s.fab
  let racks := f.racks.toNat
  if racks = 0 then becomeMaster (placeDevice 0 1 s)
  else if 256 < racks then
    becomeMaster (raise 0x3006 noUnit 0 (s.modFab (fun f => { f with place := .refusedSize })))
  else if racks ≤ f.rack.toNat then becomeMaster (s.modFab (fun f => { f with place := .refusedCfg }))
  else
    let s := s.modFab (fun f => { f with place := .training })
    let s := s.modStroke (fun k => { k with st := .acquire, master := s.devNo })
    forUp (fun n s => portTo n .detect (s.modPort n (fun x => { x with attempts := 1 }))) 0 12 s

/-- A write of FAB_CFG: ignored once START has been set (07 R286). -/
def fabCfgWrite (v : BitVec 64) (s : State) : State :=
  if s.fab.start.isSome || !s.alive then s
  else
    let n := v.toNat
    let s := s.modFab (fun f => { f with
      x := BitVec.ofNat 2 n, y := BitVec.ofNat 2 (n / 4), z := BitVec.ofNat 2 (n / 16)
      rack := BitVec.ofNat 8 (n / 2 ^ 8), racks := BitVec.ofNat 9 (n / 2 ^ 16) })
    if bit n 63 then fabBegin (s.modFab (fun f => { f with start := some s.now })) else s

/-- FAB_PLACED: every port has reached UP or DOWN, or 500 ms have passed since START (07 R287). A device that has
heard of no better master then names itself (08 R329, log 20). -/
def fabPlaced (s : State) : State :=
  let settled := (List.range 12).all (fun n => (s.port n).settled)
  match s.fab.start with
  | none => s
  | some a =>
    if s.fab.place = .training ∧ (settled = true ∨ 500000000 ≤ s.since a) then
      let s := placeDevice s.devNo.toNat (64 * s.fab.racks.toNat) s
      if s.stroke.st = .acquire ∧ s.stroke.parent = none then becomeMaster s else s
    else s

/-! ### Training -/

/-- The device's highest partition band (07 R293). -/
def deviceBand (s : State) : Nat := listMax0 (s.parts.map (·.2.band))

/-- The preset wanted is CONSERVATIVE (07 R293). -/
def wantConserv (s : State) : Bool := decide (deviceBand s = 4)

/-- A link event: the port, and PORT_STAT [31:0] (15 Table 15-7). -/
def linkEvent (code n : Nat) (s : State) : State := raise code n (portStat s n) s

/-- The router takes back a packet of port n: it routes it again, an ATOMADD by way of the combiner, and sends a
control packet on the other UP ports, whose partners discard what they have had (07 R294, R304, R310, log 22). -/
def takeBack (n : Nat) (q : Packet) (s : State) : State :=
  match q.ptype with
  | .easyAll => flood (fun k => decide (k ≠ n)) q s
  | .boot => flood (fun k => decide (k ≠ n) && sameRack s k) q s
  | .atomAdd => s.modFab (fun f => { f with arrived := f.arrived ++ [{ port := none, pkt := q, esc := none }] })
  | _ => routerPut q s

/-- A port goes DOWN: the packets of its replay buffer and those that wait for it are routed again (07 R294, R319). -/
def goDown (n : Nat) (s : State) : State :=
  let x := s.port n
  let back := x.replay.filterMap (·.pkt) ++ x.ctlq
  forList (takeBack n) back (portTo n .down (s.setPort n { x with replay := [], ctlq := [] }))

/-- The end of a training attempt with a reason: another attempt, or DOWN (07 Table 7-3). -/
def attemptEnd (n reason : Nat) (s : State) : State :=
  let s := s.modPort n (fun x => { x with downReason := reason })
  if (s.port n).attempts < 3 then
    portTo n .detect (s.modPort n (fun x => { x with attempts := x.attempts + 1 }))
  else linkEvent 0x3002 n (goDown n s)

/-- Equalisation begins with the preset in force (07 R293). -/
def toEq (n : Nat) (s : State) : State :=
  portTo n .eq (s.modPort n (fun x => { x with conserv := wantConserv s }))

/-- DETECT_SIGNAL: the signal within 10 ms of the present detection (07 Table 7-3). -/
def detectSignal (n : Nat) (s : State) : State :=
  let x := s.port n
  if x.st = .detect ∧ s.since x.since ≤ 10000000 then portTo n .rate s else s

/-- DETECT_TIMEOUT: no signal within 10 ms; detection repeats every 100 ms (07 Table 7-3). -/
def detectTimeout (n : Nat) (s : State) : State :=
  let x := s.port n
  if x.st = .detect ∧ notAfter x.since s.now = true ∧ 10000000 ≤ s.since x.since then
    s.setPort n { x with since := x.since + 100000000 }
  else s

/-- RATE_EXCHANGE: after 1 ms, the highest common rate (07 Table 7-3). -/
def rateExchange (n : Nat) (reach2 : Bool) (s : State) : State :=
  let x := s.port n
  if x.st = .rate ∧ 1000000 ≤ s.since x.since then
    toEq n (s.setPort n { x with rate2 := reach2, fallback := false })
  else s

/-- EQ_DONE: convergence within 20 ms, or none (07 Table 7-3). -/
def eqDone (n : Nat) (ok : Bool) (s : State) : State :=
  let x := s.port n
  if x.st ≠ .eq then s
  else if ok then (if s.since x.since ≤ 20000000 then portTo n .lanes s else s)
  else if s.since x.since < 20000000 then s
  else if x.rate2 then toEq n (s.setPort n { x with rate2 := false, fallback := true })
  else attemptEnd n 1 s

/-- LANES_CHECK: the 1 ms check sets the width, or ends the attempt (07 Table 7-3). -/
def lanesCheck (n : Nat) (mask : BitVec 8) (s : State) : State :=
  let x := s.port n
  if ¬(x.st = .lanes ∧ 1000000 ≤ s.since x.since) then s
  else
    let m := mask.toNat
    let s := s.setPort n { x with goodLanes := mask }
    if m = 255 then portTo n .ident (s.modPort n (fun x => { x with half := false }))
    else if m % 16 = 15 ∨ m / 16 = 15 then portTo n .ident (s.modPort n (fun x => { x with half := true }))
    else attemptEnd n 2 s

/-- The neighbour that R284 names in port n's direction: rack, x, y, z (07 R284). -/
def neighbour (f : Fabric) (n : Nat) : Nat × Nat × Nat × Nat :=
  let (r, x, y, z) := (f.rack.toNat, f.x.toNat, f.y.toNat, f.z.toNat)
  let k := f.racks.toNat
  match n / 2 with
  | 0 => (r, (x + 1) % 4, y, z)
  | 1 => (r, (x + 3) % 4, y, z)
  | 2 => (r, x, (y + 1) % 4, z)
  | 3 => (r, x, (y + 3) % 4, z)
  | 4 => if z = 3 then ((r + 1) % k, x, y, 0) else (r, x, y, z + 1)
  | _ => if z = 0 then ((r + k - 1) % k, x, y, 3) else (r, x, y, z - 1)

/-- The partner port that Table 7-1 names. -/
def partnerPort (n : Nat) : Nat := if n / 2 % 2 = 0 then n + 2 else n - 2

/-- The Eddy request that a packet carries or a reply answers: to its sender, and else by address (log 14). -/
def eddyReq (x : Tile) (dev loc : Nat) : Option Nat :=
  match x.eddyRem.findIdx? (fun e => decide (e.loc = loc) && decide (e.dev = dev)) with
  | some k => some k
  | none => x.eddyRem.findIdx? (fun e => decide (e.loc = loc))

/-- A handle of an Eddy request (log 14). -/
def isEddy (q : Packet) : Bool := decide (2 ^ 30 ≤ q.handle.toNat)

/-- The wake point whose window was open when this device's tile issued the request of a packet (08 Table 8-8). -/
def wakeOfPacket (q : Packet) (x : Tile) (dev : Nat) : Option Nat :=
  if isEddy q then ((eddyReq x dev q.loc.toNat).bind (fun k => x.eddyRem[k]?)).bind (·.wake)
  else (Tbl.look none (q.handle.toNat % 16) x.tags).bind (·.wake)

/-- A packet of a request of this device's tiles, or of its reply, waited on a resent flit: RETRY_HITS of the wake
point whose window was open counts it (08 Table 8-8). -/
def waitedOnResend (q : Packet) (dev : Nat) (s : State) : State :=
  let h := q.handle.toNat
  let x := s.tile (h / 16 % 2 ^ 13)
  if 2 ^ 31 ≤ h || decide (x.launchId.toNat % 2 ^ 12 ≠ h / 2 ^ 17 % 2 ^ 12) then s
  else match wakeOfPacket q x dev with
    | some w => s.modWake x.ctx w (fun k => { k with retryHits := satAdd 32 k.retryHits 1 })
    | none => s

/-- Resends flits of port n in order, with the acknowledgement due now, and counts them (07 R292, R294, R296). A
packet that waits on a resend is counted once. -/
def resend (n : Nat) (l : List Flit) (s : State) : State :=
  let ack := (s.port n).rxSeq - 1
  let s := s.modPort n (fun x => { x with
    retry := satAdd 48 x.retry l.length
    resends := (s.now, l.length) :: x.resends.filter (fun e => decide (s.since e.1 ≤ 1000000))
    replay := x.replay.map (fun f => if l.contains f then { f with ack := ack, hit := true } else f) })
  let s := { s with sent := s.sent ++ l.map (fun f => (n, { f with ack := ack, hit := true })) }
  forList (fun f s => match f.pkt with
    | some q =>
      if f.hit = false ∧ q.src = s.devNo ∧ isRequest q.ptype = true then waitedOnResend q q.dest.toNat s else s
    | none => s) l s

/-- Sends the control packets that wait on port n while there is room (07 R292, R300). Fuel counts them. -/
def drainCtl (n : Nat) : Nat → State → State
  | 0, s => s
  | k + 1, s =>
    let x := s.port n
    match x.ctlq with
    | [] => s
    | q :: r => if x.room q then drainCtl n k (putFlit n q none (s.setPort n { x with ctlq := r })) else s

def drainPort (n : Nat) (s : State) : State := drainCtl n (s.port n).ctlq.length s

/-- IDENT: the partner's identity brings the port UP or DOWN (07 R290, Table 7-3). A difference in RACKS is taken
before the neighbour, which depends on RACKS (log 21). -/
def identify (n : Nat) (who : Ident) (s : State) : State :=
  let x := s.port n
  if x.st ≠ .ident then s
  else if who.racks ≠ s.fab.racks then
    linkEvent 0x3005 n (goDown n (s.setPort n { x with downReason := 4 }))
  else if (who.rack.toNat, who.x.toNat, who.y.toNat, who.z.toNat) ≠ neighbour s.fab n ∨ who.port.val ≠ partnerPort n then
    linkEvent 0x3005 n (goDown n (s.setPort n { x with downReason := 3 }))
  else
    let s := portTo n .up (s.setPort n { x with partnerRack := some who.rack, markTx := none, markRx := none })
    let s := linkEvent 0x3001 n s
    let s := if x.half || x.fallback then linkEvent 0x3003 n s else s
    let s := if x.replay.isEmpty then s else resend n x.replay s
    drainPort n s

/-- LINK_RETRAIN: more than 1,000 flits resent within 1 ms, or a lane has lost lock (07 R296, Table 7-3). -/
def linkRetrain (n : Nat) (lockLost : Bool) (s : State) : State :=
  let x := s.port n
  let storm : Nat := ((x.resends.filter (fun e => decide (s.since e.1 ≤ 1000000))).map (fun e => e.2)).sum
  if !(decide (x.st = .up) && (lockLost || decide (1000 < storm))) then s
  else
    let s := s.setPort n { x with
      st := .retrain, since := s.now, reeq := none, nak := false, resent := 0, resends := []
      retrains := s.now :: x.retrains.filter (fun a => decide (s.since a < 10000000000)) }
    let s := linkEvent 0x3004 n s
    if 4 ≤ retrainsNow s (s.port n) then
      linkEvent 0x3002 n (goDown n (s.modPort n (fun x => { x with downReason := 5 })))
    else toEq n s

/-- TRAIN: begins a cycle of attempts from DOWN; the sequence numbers begin anew (07 R289, R322, log 22). -/
def portTrain (n : Nat) (s : State) : State :=
  let x := s.port n
  if s.alive && decide (x.st = .down) then
    portTo n .detect (s.setPort n { x with
      attempts := 1, retrains := [], txSeq := 0, rxSeq := 0, nak := false, resent := 0 })
  else s

/-- DOWN: acts in every state but OFF (07 Table 7-3). -/
def portDown (n : Nat) (s : State) : State :=
  let x := s.port n
  if s.alive && decide (x.st ≠ .off) then goDown n (s.setPort n { x with downReason := 6 }) else s

/-! ### Retry -/

/-- The flits left in a replay buffer once the partner has accepted flit `ack` and all before it (07 R292). -/
def ackReplay (ack : BitVec 12) (l : List Flit) : List Flit :=
  match l.findIdx? (fun f => decide (f.seq = ack)) with
  | some i => l.drop (i + 1)
  | none => l

/-- Ring length and own coordinate of a dimension (07 R299). -/
def ringLen (f : Fabric) (dim : Nat) : Nat := if dim = 2 then 4 * f.racks.toNat else 4

def ownCoord (f : Fabric) (dim : Nat) : Nat :=
  match dim with
  | 0 => f.x.toNat
  | 1 => f.y.toNat
  | _ => 4 * f.rack.toNat + f.z.toNat

/-- A packet that comes in escape on port n: its ring, and whether the ring's dateline lies behind it (07 R300). -/
def escOnArrival (f : Fabric) (n : Nat) (ch : Bool) : Nat × Bool :=
  let dim := n / 4
  let crossed := if n / 2 % 2 = 0 then decide (ownCoord f dim + 1 = ringLen f dim) else decide (ownCoord f dim = 0)
  (dim, ch || crossed)

/-- A packet is delivered by port n: what this device or its combiner handles waits in `arrived`, and the rest in
the router's output queues (07 R299, R304). -/
def deliverPacket (n : PortIx) (pkt : Packet) (esc : Option Bool) (s : State) : State :=
  let e := esc.map (escOnArrival s.fab n.val)
  if pkt.ptype = .easyAll ∨ pkt.ptype = .boot ∨ pkt.ptype = .atomAdd ∨ pkt.dest = s.devNo then
    s.modFab (fun f => { f with arrived := f.arrived ++ [{ port := some n, pkt := pkt, esc := e }] })
  else s.modFab (fun f => { f with queue := f.queue ++ [{ pkt := pkt, since := s.now, esc := e }] })

/-- FLIT_RECEIVE: a flit, with the packet that ends in it, is delivered once and in order, or its failure is answered
with a NAK and what follows is discarded until it comes again (07 R292). -/
def flitReceive (n : PortIx) (seq : BitVec 12) (crcOk : Bool) (pkt : Option Packet) (ack : BitVec 12)
    (esc : Option Bool) (s : State) : State :=
  let x := s.port n.val
  if !x.carries then s
  else if !crcOk then
    let s := s.setPort n.val { x with crc := satAdd 48 x.crc 1, nak := true, resent := x.resent + 1 }
    if !x.nak || decide (seq = x.rxSeq) then { s with naks := s.naks ++ [(n.val, x.rxSeq)] } else s
  else if seq ≠ x.rxSeq then
    if x.nak then s.setPort n.val { x with resent := x.resent + 1 } else s
  else
    let s := s.setPort n.val { x with
      rxSeq := x.rxSeq + 1, nak := false, resent := x.resent - 1, replay := ackReplay ack x.replay }
    let s := match pkt with
      | some q =>
        let s := if 0 < x.resent ∧ q.dest = s.devNo ∧ (q.ptype = .replyData ∨ q.ptype = .replyAck)
          then waitedOnResend q q.src.toNat s else s
        deliverPacket n q esc s
      | none => s
    drainPort n.val s

/-- NAK_RECEIVE: go-back-N from the failed flit (07 R292). -/
def nakReceive (n : Nat) (seq : BitVec 12) (s : State) : State :=
  let x := s.port n
  if !x.carries then s
  else
    match x.replay.findIdx? (fun f => decide (f.seq = seq)) with
    | none => s
    | some i => resend n (x.replay.drop i) s

/-! ### In-service re-equalisation -/

/-- The sibling of a port (07 R282). -/
def sibling (n : Nat) : Nat := if n % 2 = 0 then n + 1 else n - 1

/-- PORT_REEQUALISE: an UP port takes a changed preset, never together with its sibling (07 R293). -/
def portReequalise (n : Nat) (s : State) : State :=
  let x := s.port n
  if x.st = .up ∧ x.reeq = none ∧ x.conserv ≠ wantConserv s ∧ (s.port (sibling n)).reeq = none then
    s.setPort n { x with conserv := wantConserv s, reeq := some s.now }
  else s

/-- PORT_REEQ_DONE: after 40 µs the port carries packets again (07 R293). -/
def portReeqDone (n : Nat) (s : State) : State :=
  let x := s.port n
  match x.reeq with
  | none => s
  | some a => if 40000 ≤ s.since a then drainPort n (s.setPort n { x with reeq := none }) else s

/-! ### Meanings -/

/-- FAB_PLACED: the device is placed (R287). -/
def execFabPlaced (s : State) : Host.Outcome State Fault Refusal := .next (fabPlaced s)

/-- DETECT_SIGNAL: the partner's signal moves the port to RATE (R289). -/
def execDetectSignal (n : PortIx) (s : State) : Host.Outcome State Fault Refusal := .next (detectSignal n.val s)

/-- DETECT_TIMEOUT: no signal; detection repeats every 100 ms (R289). -/
def execDetectTimeout (n : PortIx) (s : State) : Host.Outcome State Fault Refusal := .next (detectTimeout n.val s)

/-- RATE_EXCHANGE: the highest common rate is chosen (R289). -/
def execRateExchange (n : PortIx) (reach2 : Bool) (s : State) : Host.Outcome State Fault Refusal :=
  .next (rateExchange n.val reach2 s)

/-- EQ_DONE: equalisation converges, falls back or ends the attempt (R289). -/
def execEqDone (n : PortIx) (ok : Bool) (s : State) : Host.Outcome State Fault Refusal := .next (eqDone n.val ok s)

/-- LANES_CHECK: the PRBS check sets the width or ends the attempt (R289). -/
def execLanesCheck (n : PortIx) (mask : BitVec 8) (s : State) : Host.Outcome State Fault Refusal :=
  .next (lanesCheck n.val mask s)

/-- IDENT: the partner's identity is exchanged and the port goes UP or DOWN (R290). -/
def execIdent (n : PortIx) (who : Ident) (s : State) : Host.Outcome State Fault Refusal := .next (identify n.val who s)

/-- LINK_RETRAIN: a retry storm or loss of lane lock retrains an UP port (R296). -/
def execLinkRetrain (n : PortIx) (lockLost : Bool) (s : State) : Host.Outcome State Fault Refusal :=
  .next (linkRetrain n.val lockLost s)

/-- TRAIN: PORT_CMD TRAIN starts an attempt from DOWN (R289). -/
def execPortTrain (n : PortIx) (s : State) : Host.Outcome State Fault Refusal := .next (portTrain n.val s)

/-- DOWN: PORT_CMD DOWN takes a port down (R289). -/
def execPortDown (n : PortIx) (s : State) : Host.Outcome State Fault Refusal := .next (portDown n.val s)

/-- FLIT_RECEIVE: a flit is CRC-checked and delivered or NAKed (R292). -/
def execFlitReceive (n : PortIx) (seq : BitVec 12) (crcOk : Bool) (pkt : Option Packet) (ack : BitVec 12)
    (esc : Option Bool) (s : State) : Host.Outcome State Fault Refusal :=
  .next (flitReceive n seq crcOk pkt ack esc s)

/-- NAK_RECEIVE: the sender resends from the failed flit (R292). -/
def execNakReceive (n : PortIx) (seq : BitVec 12) (s : State) : Host.Outcome State Fault Refusal :=
  .next (nakReceive n.val seq s)

/-- PORT_REEQUALISE: a preset change starts a 40 µs re-equalisation (R293). -/
def execPortReequalise (n : PortIx) (s : State) : Host.Outcome State Fault Refusal := .next (portReequalise n.val s)

/-- PORT_REEQ_DONE: the port carries packets again (R293). -/
def execPortReeqDone (n : PortIx) (s : State) : Host.Outcome State Fault Refusal := .next (portReeqDone n.val s)

end Sys2Proof.Machine
end

