-- ==== Sys2Proof/Machine/Operands.lean ====
section
/-!
DEFINITION. The operands of a tile instruction: the fields of its word (03 Table 3-2), which instruction a
word is (03 R110 to R114, R141), and the registers that a field names (02 Table 2-1).
-/

namespace Sys2Proof.Machine

/-! ### Fields -/

def wMajor (w : Word) : Nat := bits w.toNat 26 6
/-- Guard predicate G, or P of format B. -/
def wG (w : Word) : Nat := bits w.toNat 23 3
/-- rd of S, I and E, rt of M, ra of Y. -/
def wRd (w : Word) : Nat := bits w.toNat 18 5
/-- rs1 of S, I, M and E, rs of B, rb of Y. -/
def wRs1 (w : Word) : Nat := bits w.toNat 13 5
/-- rs2 of S and E, rc of Y. -/
def wRs2 (w : Word) : Nat := bits w.toNat 8 5
/-- fn of S, imm8 of Y. -/
def wImm8 (w : Word) : Nat := bits w.toNat 0 8
/-- imm13 of I, off13 of B. -/
def wImm13 (w : Word) : Nat := bits w.toNat 0 13
def wImm18 (w : Word) : Nat := bits w.toNat 0 18
def wSz (w : Word) : Nat := bits w.toNat 10 3
def wOff10 (w : Word) : Nat := bits w.toNat 0 10
def wN (w : Word) : Bool := bit w.toNat 22
def wBfn (w : Word) : Nat := bits w.toNat 18 4
def wVd (w : Word) : Nat := bits w.toNat 19 4
def wVa (w : Word) : Nat := bits w.toNat 15 4
def wVb (w : Word) : Nat := bits w.toNat 11 4
def wVfn (w : Word) : Nat := bits w.toNat 5 6
def wSub (w : Word) : Nat := bits w.toNat 0 5
def wAd (w : Word) : Nat := bits w.toNat 21 2
/-- rs1 of X and W. -/
def wXrs1 (w : Word) : Nat := bits w.toNat 16 5
def wXrs2 (w : Word) : Nat := bits w.toNat 11 5
def wXrs3 (w : Word) : Nat := bits w.toNat 6 5
def wXfmt (w : Word) : Nat := bits w.toNat 3 3
def wXfn (w : Word) : Nat := bits w.toNat 0 3
/-- v of W. -/
def wWv (w : Word) : Nat := bits w.toNat 12 4
def wMode (w : Word) : Nat := bits w.toNat 9 3
def wWfmt (w : Word) : Nat := bits w.toNat 6 3
def wWfn (w : Word) : Nat := bits w.toNat 0 6
/-- v of E. -/
def wEv (w : Word) : Nat := bits w.toNat 4 4
def wEfn (w : Word) : Nat := bits w.toNat 0 4

/-! ### Which instruction a word is -/

/-- The tile instructions, one for each tile row of the command table. -/
inductive Op where
  | add
  | sub
  | and
  | or
  | xor
  | sll
  | srl
  | sra
  | mul
  | mulh
  | mulhu
  | min
  | max
  | minu
  | maxu
  | clz
  | popc
  | ceq
  | cne
  | clt
  | cltu
  | cge
  | cgeu
  | flt
  | feq
  | pand
  | por
  | pxor
  | pandn
  | addi
  | andi
  | ori
  | xori
  | shi
  | lui
  | llo
  | lb
  | lbu
  | lh
  | lhu
  | lw
  | vld8
  | vld
  | sb
  | sh
  | sw
  | vst8
  | vst
  | br
  | call
  | jr
  | loop
  | vadd
  | vsub
  | vmul
  | vfma
  | vmin
  | vmax
  | vdiv
  | vsqrt
  | vexp2
  | vlog2
  | vabs
  | vneg
  | vsum
  | vmaxh
  | vsplat
  | vget
  | vset
  | vcvtif
  | vcvtfi
  | vpk8
  | vunpk8
  | vpkbf
  | aget
  | aput
  | vmov
  | vunpkbf
  | mma
  | mmaz
  | aclr
  | swalk
  | nzmap
  | ecfg
  | eadd
  | eaddv
  | espill
  | emerge
  | ecount
  | stream
  | swaitt
  | crRead
  | crWrite
  | cbar
  | lbar
  | fence
  | waits
  | nop
  | halt
  | sig
  | wake
  | rbinit
  | rbnext
  | trap
deriving DecidableEq, Repr

/-- A legal form: the instruction if its reserved and unused fields are zero, else undefined (03 R111). -/
def okIf (b : Bool) (o : Op) : Option Op := if b then some o else none

/-- The bits of a 5-bit p field that are reserved are zero (03 R112). -/
def pOk (r : Nat) : Bool := decide (r < 8)

/-- S-format functions (03 Table 3-3). -/
def classifyS (w : Word) : Option Op :=
  let d := pOk (wRd w)
  let pp := d && pOk (wRs1 w) && pOk (wRs2 w)
  let u := decide (wRs2 w = 0)
  match wImm8 w with
  | 0x00 => some .add | 0x01 => some .sub | 0x02 => some .and | 0x03 => some .or | 0x04 => some .xor
  | 0x05 => some .sll | 0x06 => some .srl | 0x07 => some .sra | 0x08 => some .mul | 0x09 => some .mulh
  | 0x0A => some .mulhu | 0x0B => some .min | 0x0C => some .max | 0x0D => some .minu | 0x0E => some .maxu
  | 0x0F => okIf u .clz | 0x10 => okIf u .popc
  | 0x20 => okIf d .ceq | 0x21 => okIf d .cne | 0x22 => okIf d .clt | 0x23 => okIf d .cltu
  | 0x24 => okIf d .cge | 0x25 => okIf d .cgeu | 0x26 => okIf d .flt | 0x27 => okIf d .feq
  | 0x30 => okIf pp .pand | 0x31 => okIf pp .por | 0x32 => okIf pp .pxor | 0x33 => okIf pp .pandn
  | _ => none

/-- Loads and stores; bit 4 of rt is reserved where rt names a v register (03 Table 3-5, R120). -/
def classifyLoad (w : Word) : Option Op :=
  let v := decide (wRd w < 16)
  match wSz w with
  | 0 => some .lb | 1 => some .lbu | 2 => some .lh | 3 => some .lhu | 4 => some .lw
  | 5 => okIf v .vld8 | 6 => okIf v .vld
  | _ => none

def classifyStore (w : Word) : Option Op :=
  let v := decide (wRd w < 16)
  match wSz w with
  | 0 => some .sb | 1 => some .sh | 2 => some .sw | 3 => okIf v .vst8 | 4 => okIf v .vst
  | _ => none

/-- Branches with their reserved fields (03 Table 3-6). -/
def classifyB (w : Word) : Option Op :=
  match wBfn w with
  | 0 => okIf (wRs1 w == 0) .br
  | 1 => some .call
  | 2 => okIf (wImm13 w == 0) .jr
  | 3 => okIf (wG w == 0 && !wN w && wRs1 w != 0) .loop
  | _ => none

/-- V-format functions with their unused and reserved fields (03 Table 3-7, R124). -/
def classifyV (w : Word) : Option Op :=
  let d := wVd w == 0
  let a := wVa w == 0
  let b := wVb w == 0
  let sb := wSub w
  let three := fun o => okIf (sb == 0) o
  let two := fun o => okIf (b && sb == 0) o
  match wVfn w with
  | 0x00 => three .vadd | 0x01 => three .vsub | 0x02 => three .vmul | 0x03 => three .vfma
  | 0x04 => three .vmin | 0x05 => three .vmax | 0x06 => three .vdiv
  | 0x07 => two .vsqrt | 0x08 => two .vexp2 | 0x09 => two .vlog2 | 0x0A => two .vabs | 0x0B => two .vneg
  | 0x0C => two .vsum | 0x0D => two .vmaxh
  | 0x10 => okIf (a && b) .vsplat
  | 0x11 => okIf (d && wVb w < 4) .vget
  | 0x12 => okIf (a && wVb w < 4) .vset
  | 0x13 => two .vcvtif | 0x14 => two .vcvtfi
  | 0x15 => okIf (sb < 2) .vpk8
  | 0x16 => okIf (b && sb < 8) .vunpk8
  | 0x17 => three .vpkbf
  | 0x18 => okIf (a && b && sb < 16) .aget
  | 0x19 => okIf (d && b && sb < 16) .aput
  | 0x1A => two .vmov
  | 0x1B => okIf (b && sb < 2) .vunpkbf
  | _ => none

/-- X-format functions (03 Table 3-8, R125, R126). -/
def classifyX (w : Word) : Option Op :=
  let sc := 6 ≤ wXfmt w || wXrs3 w == 0
  match wXfn w with
  | 0 => okIf sc .mma
  | 1 => okIf sc .mmaz
  | 2 => okIf (wXrs1 w == 0 && wXrs2 w == 0 && wXrs3 w == 0 && wXfmt w == 0) .aclr
  | _ => none

/-- W-format functions (03 R129, Tables 3-10 and 3-11). -/
def classifyW (w : Word) : Option Op :=
  match wWfn w with
  | 0 => okIf (wMode w < 5 && wWfmt w < 6) .swalk
  | 1 => okIf (wAd w == 0 && wMode w == 0 && wWfmt w < 6) .nzmap
  | _ => none

/-- E-format functions; a pair field is even (03 Table 3-12, R114). -/
def classifyE (w : Word) : Option Op :=
  let d := wRd w == 0
  let a := wRs1 w == 0
  let b := wRs2 w == 0
  let v := wEv w == 0
  match wEfn w with
  | 0 => okIf (d && b && v) .ecfg
  | 1 => okIf (d && v) .eadd
  | 2 => okIf (d && a && b && wEv w % 2 == 0) .eaddv
  | 3 => okIf (d && a && b && v) .espill
  | 4 => okIf (d && b && v && wRs1 w % 2 == 0) .emerge
  | 5 => okIf (a && b && v) .ecount
  | _ => none

/-- MISC functions (03 Table 3-13, R141). -/
def classifyMisc (w : Word) : Option Op :=
  let a := wRd w == 0
  let b := wRs1 w == 0
  let c := wRs2 w == 0
  let lo := wImm8 w % 16
  match wImm8 w / 16 with
  | 0 => okIf (a && b && c && lo == 0) .nop
  | 1 => okIf (a && b && c && lo == 0) .halt
  | 2 => okIf (wRd w < 16 && c && lo == 0) .sig
  | 3 => okIf (b && c && lo < 2 && (lo == 1 || a)) .wake
  | 4 => okIf (c && lo == 0) .rbinit
  | 5 => okIf (b && c && lo == 0) .rbnext
  | _ => none

/-- The instruction that a word is; none where it raises ILLEGAL_OP (03 R110 to R114). -/
def classify (w : Word) : Option Op :=
  let a := wRd w == 0
  let b := wRs1 w == 0
  let c := wRs2 w == 0
  let i := wImm8 w
  match wMajor w with
  | 0x01 => classifyS w
  | 0x02 => some .addi | 0x03 => some .andi | 0x04 => some .ori | 0x05 => some .xori
  | 0x06 => okIf (wImm13 w < 128 && bits (wImm13 w) 5 2 != 3) .shi
  | 0x07 => some .lui
  | 0x08 => okIf (wImm18 w < 2 ^ 14) .llo
  | 0x0A => classifyLoad w
  | 0x0B => classifyStore w
  | 0x0C => classifyB w
  | 0x10 => classifyV w
  | 0x11 => classifyX w
  | 0x12 => classifyW w
  | 0x13 => classifyE w
  | 0x18 => okIf (i < 32 && wRs1 w % 2 == 0) .stream
  | 0x19 => okIf (b && c && i == 0) .swaitt
  | 0x1A =>
    if bit i 6 then none
    else if bit i 7 then okIf (a && c) .crWrite else okIf (b && c) .crRead
  | 0x1B =>
    let ok := a && b && c
    match i % 4 with
    | 0 => okIf ok .cbar | 1 => okIf ok .lbar | 2 => okIf ok .fence
    | _ => none
  | 0x1C => okIf (b && c && i == 0 && wRd w % 2 == 0) .waits
  | 0x1E => classifyMisc w
  | 0x1F => okIf (a && b && c) .trap
  | _ => none

/-! ### Registers -/

/-- s[n]; s0 reads as zero (02 Table 2-1). -/
def Tile.sreg (x : Tile) (n : Nat) : Word := if n = 0 then 0#32 else Tbl.look 0#32 n x.s

/-- Writes s[n]; a write to s0 is discarded. -/
def Tile.setS (x : Tile) (n : Nat) (v : Word) : Tile :=
  if n = 0 then x else { x with s := Tbl.put 0#32 n v x.s }

/-- A pair of s registers: low 32 bits in n, high in n + 1 (03 R114). -/
def Tile.spair (x : Tile) (n : Nat) : BitVec 64 := x.sreg (n + 1) ++ x.sreg n

/-- p[n]; p0 reads as true. -/
def Tile.preg (x : Tile) (n : Nat) : Bool := if n = 0 then true else Tbl.look false n x.p

/-- Writes p[n]; a write to p0 is discarded. -/
def Tile.setP (x : Tile) (n : Nat) (v : Bool) : Tile :=
  if n = 0 then x else { x with p := Tbl.put false n v x.p }

def Tile.vreg (x : Tile) (n : Nat) : VWord := Tbl.look 0#128 n x.v
def Tile.setV (x : Tile) (n : Nat) (v : VWord) : Tile := { x with v := Tbl.put 0#128 n v x.v }

/-- Lane n occupies bits [32n + 31 : 32n] (02 Table 2-1). -/
def lane (v : VWord) (i : Nat) : Word := v.extractLsb' (32 * i) 32

def ofLanes (a b c d : Word) : VWord := d ++ c ++ b ++ a

def setLane (v : VWord) (i : Nat) (x : Word) : VWord :=
  ofLanes (if i = 0 then x else lane v 0) (if i = 1 then x else lane v 1)
    (if i = 2 then x else lane v 2) (if i = 3 then x else lane v 3)

/-- Byte i of a v register. -/
def vbyte (v : VWord) (i : Nat) : Byte := v.extractLsb' (8 * i) 8

def ofBytes128 (bs : List Byte) : VWord := BitVec.ofNat 128 (leNat bs)

/-- Word k of a[r]; element (i, j) is word 4i + j (02 Table 2-1). -/
def Tile.aword (x : Tile) (r k : Nat) : Word := Tbl.look 0#32 (16 * r + k) x.a
def Tile.setA (x : Tile) (r k : Nat) (v : Word) : Tile :=
  { x with a := Tbl.put 0#32 (16 * r + k) v x.a }

/-- Writes words from k upward of a[r]. -/
def Tile.setAs (x : Tile) (r : Nat) : Nat → List Word → Tile
  | _, [] => x
  | k, v :: l => (x.setA r k v).setAs r (k + 1) l

/-! ### Readiness codes of the scoreboard (03 R145) -/

def rcS (n : Nat) : Nat := n
def rcP (n : Nat) : Nat := 32 + n
def rcV (n : Nat) : Nat := 40 + n
def rcA (n : Nat) : Nat := 56 + n
def rcEddy : Nat := 60
/-- Completion of every vector, matrix, Eddy and compare instruction, for which FPSTAT waits (03 R138). -/
def rcFp : Nat := 61

end Sys2Proof.Machine
end

