-- ==== Sys2Proof/Machine/TileOps.lean ====
section
/-!
DEFINITION. What every tile instruction shares: data SRAM and its protection (02 R71 to R78), fetch (02 R75, R76,
03 R111), the scoreboard (02 R61, 03 R145), and issue with guards, precise traps and waits (03 R113, R115, R122).
-/

namespace Sys2Proof.Machine

/-! ### Data SRAM -/

def sramBytes : Nat := 0x18000

/-- LOCAL of a byte of a request, without wrapping at 4 TiB (02 R81). -/
def reqLocal (r : StreamReq) (off : Nat) : Nat := r.ga.toNat % 2 ^ 42 + off

def reqDevice (r : StreamReq) : Nat := bits r.ga.toNat 42 14

/-- Way of a request of tile t in context c: its partition's translation cache (05 R212). -/
def viaTile (t c : Nat) : Via := { cache := tilePart t, ctx := c, remote := false }

/-- Request r is inbound, has been sent, and brings the aligned 64-byte unit u, which has not arrived (02 R78). -/
def bringsUnit (u : Nat) (r : StreamReq) : Bool :=
  r.inbound && !r.waiting && decide (r.sram < 64 * (u + 1)) && decide (64 * u < r.sram + r.len) &&
    !r.got.any (fun g => decide (r.sram + g.1 ≤ 64 * u) && decide (64 * (u + 1) ≤ r.sram + g.1 + g.2))

/-- The request of tile x that has still to bring unit u. -/
def unitReq (x : Tile) (u : Nat) : Option StreamReq := (x.tags.filterMap (·.2)).find? (bringsUnit u)

/-- An inbound request of tile x is outstanding on unit u (02 R78). -/
def unitBusy (x : Tile) (u : Nat) : Bool := (unitReq x u).isSome

/-- What request r brings to unit u: the bytes at their global address now where this device holds it, else free bytes;
none where the read would fault (02 R78, log 1). -/
def unitNew (t u : Nat) (r : StreamReq) (s : State) : Option (List Byte) × State :=
  if reqDevice r = s.fab.devNum.toNat then
    let c := (s.tile t).ctx
    let loc := reqLocal r (64 * u - r.sram)
    if pageShut s c loc then (none, s)
    else
      match readPage (viaTile t c) loc 64 s with
      | (.ok bs, s1) => (some bs, { s with freeIx := s1.freeIx })
      | (.err _ _, s1) => (none, { s with freeIx := s1.freeIx })
  else
    let (bs, s) := s.freeBytes 64
    (some bs, s)

/-- What a protected word gives when it is read (02 R75, R76, R605). -/
inductive Checked where
  | good
  | corrected
  | bad (syndrome : Nat)
  /-- three or more wrong bits, corrected wrongly or not reported -/
  | wrong (counted : Bool)
deriving DecidableEq, Repr

/-- Checks a protected word. Three or more wrong bits end in any of three ways (02 R605, log 1). -/
def checkWord (e : EccErr) (s : State) : Checked × State :=
  match e with
  | .none => (.good, s)
  | .single => (.corrected, s)
  | .double n => (.bad (Config.syndrome n).toNat, s)
  | .multi n =>
    let (k, s) := s.freeBelow 3
    (if k = 0 then .bad (Config.syndrome n).toNat else .wrong (decide (k = 1)), s)

/-- Reads the 64-bit word i of data SRAM through its check; an uncorrectable one answers its address and
syndrome. -/
def sramWord (t i : Nat) (s : State) : Option (Nat × Nat) × State :=
  let e := Tbl.look EccErr.none i (s.tile t).sramErr
  match checkWord e s with
  | (.good, s) => (none, s)
  | (.corrected, s) =>
    (none, countCe t (s.modTile t (fun x => { x with sramErr := Tbl.put .none i .none x.sramErr })))
  | (.bad y, s) => (some (8 * i, y), s)
  | (.wrong counted, s) =>
    let (bs, s) := s.freeBytes 8
    let s := s.modTile t (fun x => { x with sram := putBytes 0 x.sram (8 * i) bs })
    if counted then
      (none, countCe t (s.modTile t (fun x => { x with sramErr := Tbl.put .none i .none x.sramErr })))
    else (none, s)

/-- Checks n words that are read together: all of them are checked and corrected, and the lowest uncorrectable one
is answered (02 R601, R107). -/
def sramWords (t : Nat) : Nat → Nat → State → Option (Nat × Nat) × State
  | _, 0, s => (none, s)
  | i, n + 1, s =>
    let (e, s) := sramWord t i s
    let (f, s) := sramWords t (i + 1) n s
    (if e.isSome then e else f, s)

/-- Checks the words of [a, a + n), the at most 64 bytes of a cycle together, to the first cycle that meets an
uncorrectable one (02 R77). Fuel counts cycles. -/
def sramCheck (t : Nat) : Nat → Nat → Nat → State → Option (Nat × Nat) × State
  | 0, _, _, s => (none, s)
  | k + 1, a, n, s =>
    if n = 0 then (none, s)
    else
      let m := Nat.min n (64 - a % 64)
      match sramWords t (a / 8) ((a + m - 1) / 8 - a / 8 + 1) s with
      | (none, s) => sramCheck t k (a + m) (n - m) s
      | r => r

/-- Replaces the part of the bytes at a that lies in unit u by what an inbound request brings, where the read obtains
the new content of a unit that the request is writing: which one it obtains is free (02 R78, log 1). -/
def overlayUnit (t a u : Nat) (bs : List Byte) (s : State) : List Byte × State :=
  match unitReq (s.tile t) u with
  | none => (bs, s)
  | some r =>
    let (k, s) := s.freeBelow 2
    if k = 0 then (bs, s)
    else
      match unitNew t u r s with
      | (none, s) => (bs, s)
      | (some new, s) =>
        let lo := 64 * u - a
        let hi := 64 * (u + 1) - a
        (bs.take lo ++ (new.drop (a - 64 * u)).take (Nat.min hi bs.length - lo) ++ bs.drop hi, s)

def overlayUnits (t a : Nat) : Nat → Nat → List Byte → State → List Byte × State
  | _, 0, bs, s => (bs, s)
  | u, n + 1, bs, s =>
    let (bs, s) := overlayUnit t a u bs s
    overlayUnits t a (u + 1) n bs s

/-- What a read of data SRAM gives. -/
inductive Got where
  | ok (bs : List Byte)
  | ue (addr syndrome : Nat)
deriving DecidableEq, Repr

/-- Reads n bytes of data SRAM at an address whose range is inside it. -/
def sramRead (t a n : Nat) (s : State) : Got × State :=
  if n = 0 then (.ok [], s)
  else
    match sramCheck t (n / 64 + 2) a n s with
    | (some (adr, y), s) => (.ue adr y, s)
    | (none, s) =>
      let (bs, s) := overlayUnits t a (a / 64) ((a + n - 1) / 64 - a / 64 + 1)
        (bytesAt 0 (s.tile t).sram a n) s
      (.ok bs, s)

/-- Writes whole 64-bit words with fresh check bits. -/
def sramPut (t a : Nat) (bs : List Byte) (s : State) : State :=
  s.modTile t (fun x => { x with
    sram := putBytes 0 x.sram a bs, sramErr := Tbl.clear (a / 8) (bs.length / 8) x.sramErr })

/-- A store of 1, 2, 4, 8 or 16 aligned bytes: below 64 bits it is a read-modify-write of its word (02 R74). -/
def sramStore (t a : Nat) (bs : List Byte) (s : State) : Option (Nat × Nat) × State :=
  if 8 ≤ bs.length then (none, sramPut t a bs s)
  else
    let b := a / 8 * 8
    match sramRead t b 8 s with
    | (.ue adr y, s) => (some (adr, y), s)
    | (.ok old, s) => (none, sramPut t b (old.take (a - b) ++ bs ++ old.drop (a - b + bs.length)) s)

/-! ### Scoreboard -/

def listAt (l : List Nat) (i d : Nat) : Nat := l.getD i d

/-- Registers that an instruction reads, by readiness code (03 Tables 3-3 to 3-13). -/
def srcs (op : Op) (w : Word) : List Nat :=
  let s2 := [rcS (wRs1 w), rcS (wRs2 w)]
  let s1 := [rcS (wRs1 w)]
  let va := [rcV (wVa w)]
  let vab := [rcV (wVa w), rcV (wVb w)]
  let pair := fun n => [rcS n, rcS (n + 1)]
  let mm := [rcS (wXrs1 w), rcS (wXrs2 w)] ++ (if 6 ≤ wXfmt w then [rcS (wXrs3 w)] else [])
  match op with
  | .add | .sub | .and | .or | .xor | .sll | .srl | .sra | .mul | .mulh | .mulhu | .min | .max | .minu | .maxu
  | .ceq | .cne | .clt | .cltu | .cge | .cgeu | .flt | .feq => s2
  | .clz | .popc | .addi | .andi | .ori | .xori | .shi => s1
  | .pand | .por | .pxor | .pandn => [rcP (wRs1 w), rcP (wRs2 w)]
  | .lui => []
  | .llo => [rcS (wRd w)]
  | .lb | .lbu | .lh | .lhu | .lw | .vld8 | .vld => s1
  | .sb | .sh | .sw => [rcS (wRs1 w), rcS (wRd w)]
  | .vst8 | .vst => [rcS (wRs1 w), rcV (wRd w)]
  | .br | .call => []
  | .jr | .loop => s1
  | .vadd | .vsub | .vmul | .vmin | .vmax | .vdiv | .vpk8 | .vpkbf => vab
  | .vfma => rcV (wVd w) :: vab
  | .vsqrt | .vexp2 | .vlog2 | .vabs | .vneg | .vsum | .vmaxh | .vcvtif | .vcvtfi | .vunpk8 | .vunpkbf | .vmov => va
  | .vsplat => [rcS (wSub w)]
  | .vget => va
  | .vset => [rcV (wVd w), rcS (wSub w)]
  | .aget => [rcA (wSub w / 4)]
  | .aput => rcA (wSub w / 4) :: va
  | .mma | .mmaz => mm
  | .aclr => [rcA (wAd w)]
  | .swalk => [rcS (wXrs1 w), rcV (wWv w), rcA (wAd w)]
  | .nzmap => [rcS (wXrs1 w)]
  | .ecfg => s1
  | .eadd => s2
  | .eaddv => [rcV (wEv w), rcV (wEv w + 1)]
  | .espill | .ecount => [rcEddy]
  | .emerge => rcEddy :: pair (wRs1 w)
  | .stream => rcS (wRd w) :: rcS (wRs2 w) :: pair (wRs1 w)
  | .swaitt => [rcS (wRd w)]
  | .crRead => if wImm8 w % 64 = 0x12 then [rcFp] else []
  | .crWrite => if wImm8 w % 64 = 0x12 then [rcFp, rcS (wRs1 w)] else s1
  | .cbar | .lbar | .fence => []
  | .waits => pair (wRd w)
  | .nop | .halt | .rbnext | .trap => []
  | .sig => [rcV (wRd w), rcS (wRs1 w)]
  | .wake => if wImm8 w % 2 = 1 then [rcS (wRd w)] else []
  | .rbinit => [rcS (wRd w), rcS (wRs1 w)]

/-- First cycle at which the unit that an instruction needs is free (03 Table 3-14, R128). -/
def unitFree (op : Op) (x : Tile) : Nat :=
  match op with
  | .vdiv | .vsqrt => x.divFree
  | .vexp2 | .vlog2 => x.expFree
  | .mma | .mmaz => x.macFree - 32
  | .ecfg | .eadd | .eaddv | .espill | .emerge | .ecount => x.eddyFree
  | _ => 0

/-- B-format instructions are never guarded (03 R121). -/
def isB (op : Op) : Bool :=
  match op with
  | .br | .call | .jr | .loop => true
  | _ => false

def readyOf (x : Tile) (c : Nat) : Nat := Tbl.look 0 c x.ready

/-- The cycle in which an instruction issues: not before its guard, its sources and its unit are ready. -/
def issueAt (x : Tile) (op : Op) (w : Word) : Nat :=
  let g := if op = .loop then 0 else readyOf x (rcP (wG w))
  ((srcs op w).map (readyOf x)).foldl max (max x.cycle (max g (unitFree op x)))

/-- An MMA or MMAZ in flight names a[r] (03 R128). -/
def macPending (x : Tile) (r : Nat) : Bool := x.mma.any (fun j => decide (j.ad = r))

/-! ### Issue -/

/-- What an instruction does once it issues. -/
inductive Did where
  /-- retires after `cost` issue cycles; the registers `dest` are usable `lat` cycles after the last of them -/
  | retire (cost : Nat) (dest : List Nat) (lat : Nat) (s : State)
  /-- retires and goes on at pc -/
  | jump (cost : Nat) (pc : BitVec 12) (dest : List Nat) (s : State)
  /-- waits at issue -/
  | hold (s : State)
  | trap (tr : Trap) (s : State)
  /-- the tile is as s says -/
  | stop (s : State)

/-- An instruction's own part: tile, word, issue cycle, state. -/
abbrev Body := Nat → Word → Nat → State → Did

/-- A precise trap of the instruction at the tile's PC. -/
def trapAt (s : State) (t cause addr detail : Nat) : Trap :=
  { cause := cause, pc := (s.tile t).pc, addr := addr, detail := detail }

/-- The registers `dest` are usable from cycle c on: s0 and p0 always are, and FPSTAT and the Eddy entries not before
every earlier instruction has completed (02 R61, 03 R138, R145, log 38). -/
def readyFrom (c : Nat) (dest : List Nat) (r : Tbl Nat) : Tbl Nat :=
  dest.foldl (fun r k =>
    if k = rcS 0 ∨ k = rcP 0 then r
    else if k = rcFp ∨ k = rcEddy then Tbl.put 0 k (max (Tbl.look 0 k r) c) r
    else Tbl.put 0 k c r) r

/-- Retires: the cycle count moves from `start` over the wait to `atc`, the issue cost and any corrections made
meanwhile. -/
def finish (t start atc cost : Nat) (pc : BitVec 12) (dest : List Nat) (lat : Nat) (s : State) : State :=
  s.modTile t (fun x =>
    let c := x.cycle + (atc - start) + cost
    { x with
      cycle := c, pc := pc
      ready := readyFrom (c - 1 + lat) dest x.ready })

/-- Runs an instruction's own part and retires, holds or traps. -/
def perform (t : Nat) (op : Op) (w : Word) (body : Body) (s : State) : State :=
  let x := s.tile t
  let atc := issueAt x op w
  match body t w atc s with
  | .retire cost dest lat s => finish t x.cycle atc cost (x.pc + 1) dest lat s
  | .jump cost pc dest s => finish t x.cycle atc cost pc dest 1 s
  | .hold s => s.modTile t (fun y => { y with held := some w })
  | .trap tr s => trapTile t tr (s.modTile t (fun y => { y with cycle := y.cycle + (atc - x.cycle) + tr.late }))
  | .stop s => s

/-- The tile issues: it runs, waits for nothing, and no abort of its launch has stopped it (11 Table 11-5). -/
def mayIssue (s : State) (x : Tile) : Bool :=
  decide (x.run = .running) && x.held.isNone && x.bar.isNone && !stoppedByAbort s x

/-- Fetches the word at the PC through its check; an uncorrectable one answers its syndrome (02 R75, R76). -/
def fetch (t : Nat) (s : State) : Word × Option Nat × State :=
  let x := s.tile t
  let i := x.pc.toNat
  let w := Tbl.look 0#32 i x.imem
  let fix := fun (x : Tile) => { x with imemErr := Tbl.put .none i .none x.imemErr }
  match checkWord (Tbl.look EccErr.none i x.imemErr) s with
  | (.good, s) => (w, none, s)
  | (.corrected, s) => (w, none, countCe t (s.modTile t fix))
  | (.bad y, s) => (w, some (y % 128), s)
  | (.wrong counted, s) =>
    let (bs, s) := s.freeBytes 4
    let v := BitVec.ofNat 32 (leNat bs)
    let s := s.modTile t (fun x => { x with imem := Tbl.put 0 i v x.imem })
    (v, none, if counted then countCe t (s.modTile t fix) else s)

/-- A control register number that Table 2-2 lists (02 R69). -/
def crKnown (n : Nat) : Bool := decide (n ≤ 0x14)

/-- A control register that tile code may write (02 Table 2-2). -/
def crWritable (n : Nat) : Bool := decide (0x0C ≤ n ∧ n ≤ 0x0F) || decide (n = 0x12)

/-- The instruction raises CREG (03 R138). -/
def raisesCreg (op : Op) (w : Word) : Bool :=
  match op with
  | .crRead => !crKnown (wImm8 w % 64)
  | .crWrite => !crWritable (wImm8 w % 64)
  | _ => false

/-- Falls through when it retires: neither a branch nor HALT or TRAP (03 R122). -/
def fallsThrough (op : Op) : Bool := !isB op && decide (op ≠ .halt) && decide (op ≠ .trap)

/-- A precise trap raised before the instruction's own part. -/
def earlyTrap (t cause addr detail : Nat) (s : State) : State := trapTile t (trapAt s t cause addr detail) s

/-- A guard that is false: the instruction retires in 1 cycle without effect (03 R113). -/
def skip (t : Nat) (w : Word) (s : State) : State :=
  let x := s.tile t
  finish t x.cycle (max x.cycle (readyOf x (rcP (wG w)))) 1 (x.pc + 1) [] 0 s

/-- The walker, the Eddy accumulator and the stream unit run tile microcode (12, "Tile microcode"). -/
def usesMicrocode (op : Op) : Bool :=
  match op with
  | .swalk | .ecfg | .eadd | .eaddv | .espill | .emerge | .ecount | .stream => true
  | _ => false

/-- Latent errors of tile t's microcode store of 2,048 words. -/
def mcodeErrs (s : State) (t : Nat) : Tbl EccErr := s.boot.mcodeErr.filter (fun e => decide (e.1 / 2048 = t))

/-- An instruction reads words of the microcode store through their check. Which ones it runs is free (log 1): a
corrected one is counted and written back, and the first uncorrectable one answers its word address and syndrome
(12 R482, 02 R75, R601). -/
def mcodeCheck (t : Nat) : Tbl EccErr → State → Option (Nat × Nat) × State
  | [], s => (none, s)
  | (k, e) :: r, s =>
    let (b, s) := s.freeBelow 2
    if b = 0 then mcodeCheck t r s
    else
      let fixed := fun (s : State) =>
        countCe t (s.modBoot (fun m => { m with mcodeErr := Tbl.put .none k .none m.mcodeErr }))
      match checkWord e s with
      | (.good, s) => mcodeCheck t r s
      | (.corrected, s) => mcodeCheck t r (fixed s)
      | (.bad y, s) => (some (k % 2048, y % 128), s)
      | (.wrong counted, s) => mcodeCheck t r (if counted then fixed s else s)

/-- Runs an instruction whose guard is true, and the microcode that it needs. -/
def runOp (t : Nat) (op : Op) (w : Word) (body : Body) (s : State) : State :=
  if usesMicrocode op then
    match mcodeCheck t (mcodeErrs s t) s with
    | (some (a, y), s) => earlyTrap t tcImemUe a y s
    | (none, s) => perform t op w body s
  else perform t op w body s

/-- Tile t issues its next instruction, which the command names. The word fetched decides: where it is another
instruction than the one named, what the command says does not come about and nothing changes (log 13); where it
is none, the trap is the effect, whatever instruction was named. -/
def issue (t : Nat) (op : Op) (body : Body) (s : State) : State :=
  let x := s.tile t
  if !mayIssue s x then s
  else
    match fetch t s with
    | (_, some y, s1) => earlyTrap t tcImemUe x.pc.toNat y s1
    | (w, none, s1) =>
      match classify w with
      | none => earlyTrap t tcIllegalOp w.toNat 0 s1
      | some o =>
        if o ≠ op then s
        else
          let go := isB o || x.preg (wG w)
          if go && raisesCreg o w then earlyTrap t tcCreg (wImm8 w % 64) 0 s1
          else if decide (x.pc = 0xFFF) && (!go || fallsThrough o) then earlyTrap t tcPcOverrun 0x1000 0 s1
          else if go then runOp t o w body s1
          else skip t w s1

/-! ### Shapes of bodies -/

/-- A change of the tile's registers alone. -/
def regOp (cost lat : Nat) (dest : Word → List Nat) (f : Word → Tile → Tile) : Body :=
  fun t w _ s => .retire cost (dest w) lat (s.modTile t (f w))

/-- s[rd] from two s registers (03 Table 3-3). -/
def sOp (lat : Nat) (f : Word → Word → Word) : Body :=
  regOp 1 lat (fun w => [rcS (wRd w)]) (fun w x => x.setS (wRd w) (f (x.sreg (wRs1 w)) (x.sreg (wRs2 w))))

/-- p[rd] from two s registers. -/
def cmpOp (f : Word → Word → Bool) : Body :=
  regOp 1 1 (fun w => [rcP (wRd w), rcFp]) (fun w x => x.setP (wRd w) (f (x.sreg (wRs1 w)) (x.sreg (wRs2 w))))

/-- p[rd] from two s registers as FP32, with the flags of the compare. -/
def fcmpOp (f : Word → Word → Bool × Fl) : Body :=
  regOp 1 1 (fun w => [rcP (wRd w), rcFp]) (fun w x =>
    let r := f (x.sreg (wRs1 w)) (x.sreg (wRs2 w))
    (x.setP (wRd w) r.1).flag r.2)

/-- p[rd] from two p registers. -/
def pOp (f : Bool → Bool → Bool) : Body :=
  regOp 1 1 (fun w => [rcP (wRd w)]) (fun w x => x.setP (wRd w) (f (x.preg (wRs1 w)) (x.preg (wRs2 w))))

/-- s[rd] from s[rs1] and imm13 (03 Table 3-4). -/
def iOp (f : Word → Word → Word) : Body :=
  regOp 1 1 (fun w => [rcS (wRd w)]) (fun w x => x.setS (wRd w) (f (x.sreg (wRs1 w)) w))

/-- Tiles of the same crew in the same work: launch, partner or third crew (03 R139, R143, 10 R418). -/
def crewPeers (s : State) (x : Tile) : List (Nat × Tile) :=
  s.tiles.filter (fun e => decide (e.2.run ≠ .off) && decide (e.2.job = x.job) && decide (e.2.ctx = x.ctx) &&
    decide (e.2.launchId = x.launchId) && decide (e.2.crew = x.crew))

/-- Tiles of the same launch on this device. -/
def launchPeers (s : State) (x : Tile) : List (Nat × Tile) :=
  s.tiles.filter (fun e => decide (e.2.run ≠ .off) && decide (e.2.job = x.job) && decide (e.2.ctx = x.ctx) &&
    decide (e.2.launchId = x.launchId))

/-- Tile x runs under a pair check, as its checked crew, partner or third crew (10 R418). -/
def pairOf (s : State) (x : Tile) : Option Pair :=
  match (s.ctx x.ctx).exec with
  | none => none
  | some e =>
    match e.pair with
    | none => none
    | some p => if e.launch.id = x.launchId ∧ p.crew = x.crew ∧ x.job ≠ .none then some p else none

/-- The pair check that tile t belongs to is void (10 R418). -/
def voidIfPaired (t : Nat) (s : State) : State :=
  match pairOf s (s.tile t) with
  | some _ => voidPair (s.tile t).ctx s
  | none => s

/-- Goes on after a void check, unless the tile was a partner and has been stopped with it. -/
def unlessGated (t : Nat) (s : State) (k : State → Did) : Did :=
  if (s.tile t).run = .off then .stop s else k s

/-- Tile t still runs the work that a request of a launch belongs to: it has not stopped (02 R96, R106). -/
def liveFor (s : State) (t : Nat) (launch : BitVec 32) : Bool :=
  let x := s.tile t
  (decide (x.run = .running) || decide (x.run = .halting)) && decide (x.launchId = launch) && !stoppedByAbort s x

end Sys2Proof.Machine
end

