-- ==== Sys2Proof/Machine/Eddy.lean ====
section
/-!
DEFINITION. The Eddy accumulator: hash, sets and victims, spill lines, drains, and the spillway's allocator
(03 R133 to R135, R147, R148, 04 R175 to R186, R195).
-/

namespace Sys2Proof.Machine

/-- Set of a key (04 R175). -/
def eddySet (k : Word) : Nat := (k * 0x9E3779B1#32).toNat / 2 ^ 25

def eddyAt (x : Tile) (i : Nat) : Option EddyEnt := Tbl.look none i x.eddy

/-- Writes an entry with fresh check bits. -/
def setEddy (i : Nat) (e : Option EddyEnt) (x : Tile) : Tile :=
  { x with eddy := Tbl.put none i e x.eddy, eddyErr := Tbl.put .none i .none x.eddyErr }

/-- Checks entry i as it is read; an uncorrectable one answers its syndrome (02 R75, R76, R605). -/
def eddyCheck (t i : Nat) (s : State) : Option Nat × State :=
  let fix := fun (x : Tile) => { x with eddyErr := Tbl.put .none i .none x.eddyErr }
  match checkWord (Tbl.look EccErr.none i (s.tile t).eddyErr) s with
  | (.good, s) => (none, s)
  | (.corrected, s) => (none, countCe t (s.modTile t fix))
  | (.bad y, s) => (some y, s)
  | (.wrong counted, s) =>
    let (bs, s) := s.freeBytes 8
    let e : EddyEnt := { key := BitVec.ofNat 32 (leNat (bs.take 4)), val := BitVec.ofNat 32 (leNat (bs.drop 4)) }
    let s := s.modTile t (fun x =>
      { x with eddy := if (eddyAt x i).isSome then Tbl.put none i (some e) x.eddy else x.eddy })
    (none, if counted then countCe t (s.modTile t fix) else s)

/-- Checks the entries of a set, which are read together: all are checked and corrected, and the lowest uncorrectable
one is answered: (entry index, syndrome) (02 R75, R107, log 38). -/
def eddyChecks (t : Nat) : List Nat → State → Option (Nat × Nat) × State
  | [], s => (none, s)
  | i :: r, s =>
    let (e, s) := eddyCheck t i s
    let (f, s) := eddyChecks t r s
    (match e with
      | some y => some (i, y)
      | none => f, s)

/-! ### Spill lines -/

/-- A record joins the line being gathered; the eighth completes it (04 R177). -/
def gatherRec (pc : BitVec 12) (r : Word × Word) (x : Tile) : Tile :=
  let g := x.gather ++ [r]
  if g.length = 8 then { x with gather := [], spillQ := x.spillQ ++ [{ recs := g, pc := pc }] }
  else { x with gather := g }

/-- The line being gathered is completed as it stands (04 R177). -/
def flushGather (pc : BitVec 12) (x : Tile) : Tile :=
  if x.gather.isEmpty then x
  else { x with gather := [], spillQ := x.spillQ ++ [{ recs := x.gather, pc := pc }] }

/-- The 64 bytes of a line, filled up with null records (04 R177). -/
def lineBytes (l : SpillLine) : List Byte :=
  ((l.recs ++ List.replicate (8 - l.recs.length) (0xFFFFFFFF#32, 0#32)).map
    (fun r => leBytes 4 r.1.toNat ++ leBytes 4 r.2.toNat)).flatten

/-- Completed lines that may wait for dispatch (04 R179). -/
def spillWait : Nat := 2

/-- The wake point whose window a launch's tile has open, which counts the hits of its requests (08 Table 8-8). -/
def launchWake (x : Tile) : Option Nat := if x.job = .launch then x.wake else none

/-- A completed line leaves through port B on its way to the allocator (04 R179, R183). -/
def sendLine (t : Nat) (l : SpillLine) (s : State) : State :=
  let x := s.tile t
  { (s.setTile t { x with eddyOut := x.eddyOut + 1 }) with
    spills := s.spills ++ [{ tile := t, ctx := x.ctx, launch := x.launchId, line := l,
                             rgen := (s.part (tilePart t)).rgen, acked := false, wake := launchWake x }] }

/-! ### EADD -/

/-- What EADDs have done so far: the tile, dropped keys, spilled records, flags. -/
structure EddyRun where
  x      : Tile
  oor    : Nat
  spills : Nat
  fl     : Fl

/-- Entry indices of a set. -/
def waysOf (k : Word) : List Nat := (List.range 4).map (fun w => 4 * eddySet k + w)

/-- A new entry's way: the lowest invalid one, or the victim's, which is spilled (04 R176). -/
def newWay (pc : BitVec 12) (k : Word) (r : EddyRun) : Nat × EddyRun :=
  match (waysOf k).find? (fun i => (eddyAt r.x i).isNone) with
  | some i => (i, r)
  | none =>
    let st := eddySet k
    let v := Tbl.look 0 st r.x.victim
    let i := 4 * st + v
    match eddyAt r.x i with
    | none => (i, r)
    | some e =>
      (i, { r with
        x := gatherRec pc (e.key, e.val) { r.x with victim := Tbl.put 0 st ((v + 1) % 4) r.x.victim }
        spills := r.spills + 1 })

/-- One EADD (03 R133). -/
def eaddOne (pc : BitVec 12) (k v : Word) (r : EddyRun) : EddyRun :=
  if r.x.extent.ule k then { r with oor := r.oor + 1 }
  else
    let hit := (waysOf k).find? (fun i => match eddyAt r.x i with
      | some e => decide (e.key = k)
      | none => false)
    let (i, old, r) := match hit with
      | some i => (i, (match eddyAt r.x i with | some e => e.val | none => 0#32), r)
      | none =>
        let (i, r) := newWay pc k r
        (i, 0#32, r)
    let z := fpAdd old v
    { r with x := setEddy i (some { key := k, val := z.1 }) r.x, fl := r.fl ||| z.2 }

/-- The lookups of these keys, one a cycle, to the first that meets an uncorrectable entry: its lane, the entry and the
syndrome. A key at or above the extent looks nothing up (03 R133, R135). -/
def laneChecks (t : Nat) (extent : Word) : Nat → List Word → State → Option (Nat × Nat × Nat) × State
  | _, [], s => (none, s)
  | n, k :: r, s =>
    if extent.ule k then laneChecks t extent (n + 1) r s
    else
      match eddyChecks t (waysOf k) s with
      | (some (i, y), s) => (some (n, i, y), s)
      | (none, s) => laneChecks t extent (n + 1) r s

/-- EADDs in order: the sets are checked first, then all take effect or the instruction waits for a line to be
sent (04 R179, 03 R135, R147). Each spill costs a cycle more, and each dropped key counts (04 R189). -/
def eaddAll (cost : Nat) (ps : List (Word × Word)) : Body := fun t _ _ s0 =>
  let x := s0.tile t
  if x.drain.isSome then .hold s0
  else
    match laneChecks t x.extent 0 (ps.map (·.1)) s0 with
    | (some (n, i, y), s) => .trap { trapAt s t tcEddyUe i y with late := n } s
    | (none, s) =>
      let y := s.tile t
      let r := ps.foldl (fun r p => eaddOne x.pc p.1 p.2 r) { x := y, oor := 0, spills := 0, fl := 0 }
      if spillWait < r.x.spillQ.length then .hold s0
      else
        let s := s.setTile t (r.x.flag r.fl)
        let s := countOors x.ctx r.oor s
        let s := if y.spillQ.length < r.x.spillQ.length then voidIfPaired t s else s
        unlessGated t s fun s => .retire (cost + r.spills) [rcEddy, rcFp] 2 s

def bodyEadd : Body := fun t w c s =>
  let x := s.tile t
  eaddAll 1 [(x.sreg (wRs1 w), x.sreg (wRs2 w))] t w c s

def bodyEaddv : Body := fun t w c s =>
  let x := s.tile t
  let k := x.vreg (wEv w)
  let v := x.vreg (wEv w + 1)
  eaddAll 4 ((List.range 4).map (fun i => (lane k i, lane v i))) t w c s

/-! ### The other Eddy instructions -/

/-- An Eddy instruction waits for a drain to send its last request (03 R135). -/
def afterDrain (b : Body) : Body := fun t w c s => if (s.tile t).drain.isSome then .hold s else b t w c s

def bodyEcfg : Body := afterDrain fun t w _ s =>
  .retire 1 [] 0 (s.modTile t (fun x => { x with extent := x.sreg (wRs1 w) }))

def bodyEcount : Body := afterDrain fun t w _ s =>
  .retire 1 [rcS (wRd w), rcFp] 1 (s.modTile t (fun x => x.setS (wRd w) (BitVec.ofNat 32 x.eddy.length)))

/-- Starts a drain, whose first entry leaves in the cycle after; the instruction retires at issue (03 R135). A drain
voids a pair check (10 R418). -/
def startDrain (base : Option (BitVec 64)) (t atc : Nat) (s : State) : Did :=
  unlessGated t (voidIfPaired t s) fun s =>
    .retire 1 [] 0 (s.modTile t (fun x => { x with drain := some { emerge := base, pc := x.pc, start := atc + 1 } }))

def bodyEspill : Body := afterDrain fun t _ atc s => startDrain none t atc s

/-- EMERGE checks its base at issue (03 R134). -/
def bodyEmerge : Body := afterDrain fun t w atc s =>
  let base := (s.tile t).spair (wRs1 w)
  if bits base.toNat 56 8 ≠ 0 then .trap (trapAt s t tcAddrReserved base.toNat 0) s
  else if s.fab.machine ≤ bits base.toNat 42 14 then .trap (trapAt s t tcDeviceRange base.toNat 0) s
  else startDrain (some base) t atc s

/-! ### Drains -/

/-- Handle of an Eddy request over the fabric: bit 30, the launch's low bits, the tile (log 14). -/
def eddyHandle (t : Nat) (launch : BitVec 32) : BitVec 32 :=
  BitVec.ofNat 32 (2 ^ 30 + (launch.toNat % 2 ^ 12) * 2 ^ 17 + 16 * t)

/-- LOCAL of an EMERGE add: (base[41:2] × 4 + 4 × key) mod 2^42 (03 R134). -/
def emergeLocal (base : BitVec 64) (k : Word) : Nat :=
  (bits base.toNat 2 40 * 4 + 4 * k.toNat) % 2 ^ 42

/-- One atomic add of an EMERGE: to this device's stacks, or a packet to another device (03 R134, 07 R304). -/
def sendAtom (t : Nat) (base : BitVec 64) (pc : BitVec 12) (e : EddyEnt) (s : State) : State :=
  let x := s.tile t
  let dev := bits base.toNat 42 14
  let loc := emergeLocal base e.key
  let s := s.setTile t { x with eddyOut := x.eddyOut + 1 }
  if dev = s.fab.devNum.toNat then
    { s with atoms := s.atoms ++ [{ ctx := x.ctx, loc := loc, val := e.val, tile := some (t, pc, x.launchId),
                                    pkt := none, rgen := (s.part (tilePart t)).rgen, acked := false
                                    wake := launchWake x }] }
  else
    let pkt : Packet := { blankPacket .atomAdd with
      dest := BitVec.ofNat 14 dev, src := s.devNo, handle := eddyHandle t x.launchId
      rgen := (s.part (tilePart t)).rgen, jobid := (s.ctx x.ctx).jobid, loc := BitVec.ofNat 42 loc, value := e.val }
    let s := s.modTile t (fun y => { y with eddyRem := y.eddyRem ++ [{ dev := dev, loc := loc, pc := pc, wake := launchWake x }] })
    s.modFab (fun f => { f with arrived := f.arrived ++ [{ port := none, pkt := pkt, esc := none }] })

/-- Sends the oldest completed lines until n are left. -/
def sendLines (t : Nat) : Nat → State → State
  | 0, s => s
  | n + 1, s =>
    let x := s.tile t
    match x.spillQ with
    | [] => s
    | l :: r => sendLines t n (sendLine t l (s.setTile t { x with spillQ := r }))

/-- Drains entry i: a spill record, or an atomic add; then it is invalid (03 R133, R134). -/
def drainOne (t i : Nat) (d : Drain) (s : State) : State :=
  let x := s.tile t
  match eddyAt x i with
  | none => s
  | some e =>
    let s := s.setTile t (setEddy i none x)
    match d.emerge with
    | none => s.modTile t (gatherRec d.pc (e.key, e.val))
    | some base => sendAtom t base d.pc e s

/-- The first cycle at which a later Eddy instruction may issue: the drain takes a cycle for each entry (04 R179). The
last line of an ESPILL leaves when port B and the mesh take it, a free number of cycles later (log 1). -/
def drainEnds (d : Drain) (n : Nat) (spilled : Bool) (s : State) : Nat × State :=
  if d.emerge.isNone && spilled then
    let (k, s) := s.free
    (d.start + n + 1 + k, s)
  else (d.start + n, s)

/-- Drains the entries in ascending order, to the first uncorrectable one. -/
def drainAll (t : Nat) (d : Drain) : List Nat → State → Option (Nat × Nat) × State
  | [], s => (none, s)
  | i :: r, s =>
    match eddyCheck t i s with
    | (some y, s) => (some (i, y), s)
    | (none, s) => drainAll t d r (drainOne t i d s)

/-- EDDY_DRAIN_DONE: the whole drain, its lines sent, and the line left over flushed; an uncorrectable entry ends
it with an imprecise trap (03 R135, 04 R177, R179, log 15). -/
def drainDone (t : Nat) (s : State) : State :=
  let x := s.tile t
  if !liveFor s t x.launchId then s
  else
    match x.drain with
    | none => s
    | some d =>
      match drainAll t d (x.eddy.map (·.1)) s with
      | (some (i, y), s) =>
        let s := sendLines t 512 s
        trapTile t { cause := tcEddyUe, imprecise := true, pc := d.pc, addr := i, detail := y } s
      | (none, s) =>
        let s := sendLines t 512 (s.modTile t (flushGather d.pc))
        let (c, s) := drainEnds d x.eddy.length (!x.eddy.isEmpty || !x.gather.isEmpty || !x.spillQ.isEmpty) s
        s.modTile t (fun x => { x with drain := none, eddyFree := c })

/-! ### The allocator -/

/-- The device raises SPILLWAY_HIGH when LINES first reaches three quarters of the capacity (04 R186). -/
def spillHigh (c : Nat) (s : State) : State :=
  let k := s.ctx c
  if k.spillPages ≠ 0 && decide (3 * (k.spillPages * 32768) ≤ 4 * k.spillLines) && !k.spillHigh then
    raise 0x8002 c k.spillLines (s.setCtx c { k with spillHigh := true })
  else s

/-- An imprecise trap of a spill line or of an EMERGE add, where its tile still runs the launch. -/
def eddyTrap (t : Nat) (launch : BitVec 32) (pc : BitVec 12) (cause addr : Nat) (s : State) : State :=
  if liveFor s t launch then trapTile t { cause := cause, imprecise := true, pc := pc, addr := addr } s else s

/-- SPILL_LINE_WRITE: line i takes the next slot of its context's spillway, or is refused (04 R183, R185). -/
def spillWrite (i : Nat) (s : State) : State :=
  match s.spills[i]? with
  | none => s
  | some f =>
    let k := s.ctx f.ctx
    let adr := k.spillBase + 64 * k.spillLines
    if f.acked || pageShut s f.ctx adr then s
    else
      let gone := { s with spills := listDrop s.spills i }
      if k.spillPages * frameBytes < 64 * (k.spillLines + 1) then
        eddyTrap f.tile f.launch f.line.pc tcSpillway adr gone
      else
        match writePage (viaTile f.tile f.ctx) adr (lineBytes f.line) s with
        | (.err e _, s) =>
          eddyTrap f.tile f.launch f.line.pc (if e = .xlate then tcSpillway else tcPerm) adr
            { s with spills := listDrop s.spills i }
        | (.ok _, s) =>
          let s := s.modCtx f.ctx (fun k => { k with spillLines := k.spillLines + 1 })
          spillHigh f.ctx { s with spills := listSet s.spills i { f with acked := true } }

/-- ECFG: sets the Eddy key extent (R133). -/
def execEcfg (t : TileIx) (s : State) : Host.Outcome State Fault Refusal := .next (issue t.val .ecfg bodyEcfg s)

/-- EADD: adds an FP32 value under a key (R133). -/
def execEadd (t : TileIx) (s : State) : Host.Outcome State Fault Refusal := .next (issue t.val .eadd bodyEadd s)

/-- EADDV: four EADDs in lane order (R133). -/
def execEaddv (t : TileIx) (s : State) : Host.Outcome State Fault Refusal :=
  .next (issue t.val .eaddv bodyEaddv s)

/-- ESPILL: starts the drain of every valid entry to the spillway (R133). -/
def execEspill (t : TileIx) (s : State) : Host.Outcome State Fault Refusal :=
  .next (issue t.val .espill bodyEspill s)

/-- EMERGE: starts the drain of every valid entry as atomic adds (R134). -/
def execEmerge (t : TileIx) (s : State) : Host.Outcome State Fault Refusal :=
  .next (issue t.val .emerge bodyEmerge s)

/-- ECOUNT: the number of valid entries (R133). -/
def execEcount (t : TileIx) (s : State) : Host.Outcome State Fault Refusal :=
  .next (issue t.val .ecount bodyEcount s)

/-- SPILL_LINE_WRITE: a spill line reaches the allocator (R185). -/
def execSpillLineWrite (i : Nat) (s : State) : Host.Outcome State Fault Refusal := .next (spillWrite i s)

end Sys2Proof.Machine
end

