-- ==== Sys2Proof/Machine/Stream.lean ====
section
/-!
DEFINITION. The stream unit: requests and their checks (03 R136, 02 R79 to R85), SIG and wake digests of what is
written (02 R91, 03 R142, 08 R345, R346), the pieces a request is carried in (02 R81, 07 R297), and replies.
-/

namespace Sys2Proof.Machine

/-! ### SIG and wake digests -/

/-- crc64 of bytes followed by a number as 8 little-endian bytes (02 R91). -/
def crcWith (bs : List Byte) (n : Nat) : Nat := crc64 (bs ++ leBytes 8 n)

/-- SIG after the 64-byte blocks of an outbound request whose first byte goes to LOCAL loc (02 R91). -/
def sigBlocks (base loc : Nat) : Nat → List Byte → BitVec 64 → BitVec 64
  | 0, _, g => g
  | n + 1, bs, g =>
    let off := intBits 64 ((loc % 2 ^ 42 : Nat) - (base : Int))
    sigBlocks base (loc + 64) n (bs.drop 64) (g + BitVec.ofNat 64 (crcWith (bs.take 64) off))

/-- Digest of the 256-byte blocks that a request carries whole, their count, and the blocks carried in part
(03 R142, 08 R345). Fuel counts blocks. -/
def digestBlocks : Nat → Nat → List Byte → BitVec 64 × Nat × Nat → BitVec 64 × Nat × Nat
  | 0, _, _, r => r
  | n + 1, ga, bs, (g, b, p) =>
    if bs.isEmpty then (g, b, p)
    else
      let k := 256 - ga % 256
      let now := bs.take k
      let r := if now.length = 256 then (g + BitVec.ofNat 64 (crcWith now ga), b + 1, p) else (g, b, p + 1)
      digestBlocks n (ga + k) (bs.drop k) r

/-- The launch's wake point n after an outbound request (08 R345, R346). -/
def digestWake (c n ga : Nat) (bs : List Byte) (s : State) : State :=
  s.modWake c n (fun k =>
    let (g, b, p) := digestBlocks 18 ga bs (k.digest, 0, 0)
    { k with digest := g, blocks := satAdd 32 k.blocks b, partials := satAdd 32 k.partials p })

/-! ### The pieces of a request -/

/-- A transfer of a request: offset, length; a request that crosses a 2 MiB page has two (02 R81). -/
def transfersOf (r : StreamReq) : List (Nat × Nat) :=
  let k := frameBytes - r.ga.toNat % frameBytes
  if r.len ≤ k then [(0, r.len)] else [(0, k), (k, r.len - k)]

/-- The pieces of at most k bytes of a transfer. -/
def cutBy (k : Nat) : Nat → Nat → Nat → List (Nat × Nat)
  | 0, _, _ => []
  | n + 1, off, len => if len = 0 then [] else (off, Nat.min k len) :: cutBy k n (off + Nat.min k len) (len - k)

/-- The packets of a request to another device: READs of up to 4,096 bytes, WRITEs of up to 256 (07 R297); a
transfer beyond 4 TiB - 1 has none. -/
def packetCuts (r : StreamReq) : List (Nat × Nat) :=
  ((transfersOf r).filter (fun t => decide (reqLocal r t.1 < 2 ^ 42))).flatMap
    (fun t => cutBy (if r.inbound then 4096 else 256) 17 t.1 t.2)

/-- Handle of a stream request over the fabric: the launch's low bits, the tile and the tag (log 14). -/
def streamHandle (t tag : Nat) (launch : BitVec 32) : BitVec 32 :=
  BitVec.ofNat 32 ((launch.toNat % 2 ^ 12) * 2 ^ 17 + 16 * t + tag)

/-- Sends the packets of a request to another device (07 R297). -/
def sendPackets (t tag : Nat) (r : StreamReq) (s : State) : State :=
  let x := s.tile t
  forList (fun cut s => routerPut { blankPacket (if r.inbound then .read else .write) with
      dest := BitVec.ofNat 14 (reqDevice r), src := s.fab.devNum, handle := streamHandle t tag x.launchId
      rgen := r.rgen, jobid := (s.ctx x.ctx).jobid, loc := BitVec.ofNat 42 (reqLocal r cut.1)
      len := BitVec.ofNat 16 cut.2, data := (r.data.drop cut.1).take cut.2 } s) (packetCuts r) s

/-- Two requests overlap at 64-byte granularity in global address, at least one of them writing (02 R83). A range does
not carry into DEVICE (02 R81). -/
def clash (a b : StreamReq) : Bool :=
  (!a.inbound || !b.inbound) && decide (reqDevice a = reqDevice b) &&
    decide (reqLocal a 0 < reqLocal b b.len) && decide (reqLocal b 0 < reqLocal a a.len)

/-- Request r waits for an earlier one of its tile (02 R83). -/
def mustWait (x : Tile) (r : StreamReq) : Bool :=
  x.tags.any (fun e => match e.2 with
    | some q => decide (q.order < r.order) && clash q r
    | none => false)

def tagOf (x : Tile) (tag : Nat) : Option StreamReq := Tbl.look none tag x.tags
def setTag (tag : Nat) (r : Option StreamReq) (x : Tile) : Tile := { x with tags := Tbl.put none tag r x.tags }

/-- Sends a request, unless it must wait for an overlapping one (02 R83, R84). -/
def sendReq (t tag : Nat) (r : StreamReq) (s : State) : State :=
  let x := s.tile t
  if mustWait x r then s.setTile t (setTag tag (some { r with waiting := true }) x)
  else
    let r := { r with waiting := false, sentAt := s.now, rgen := (s.part (tilePart t)).rgen }
    let s := s.setTile t (setTag tag (some r) x)
    if reqDevice r ≠ s.fab.devNum.toNat && !r.discard then sendPackets t tag r s else s

/-- Sends the waiting requests that no longer have to wait, in issue order (02 R83). -/
def sendWaiting (t : Nat) (s : State) : State :=
  let l := (s.tile t).tags.filterMap (fun e => match e.2 with
    | some r => if r.waiting then some (e.1, r) else none
    | none => none)
  forList (fun e s => if mustWait (s.tile t) e.2 then s else sendReq t e.1 e.2 s)
    (sortBy (fun a b => decide (a.2.order < b.2.order)) l) s

/-! ### STREAM -/

/-- The checks of STREAM in their order (03 R136, 02 R601). -/
def streamCheck (s : State) (t : Nat) (ga : BitVec 64) (a len tag : Nat) : Option Trap :=
  let g := ga.toNat
  if bits g 56 8 ≠ 0 then some (trapAt s t tcAddrReserved g tag)
  else if s.fab.machine ≤ bits g 42 14 then some (trapAt s t tcDeviceRange g tag)
  else if a % 64 ≠ 0 then some (trapAt s t tcAlign a 0)
  else if len < 64 ∨ 4096 < len ∨ len % 64 ≠ 0 ∨ g % 64 ≠ 0 then some (trapAt s t tcAlign g 0)
  else if sramBytes < a + len then some (trapAt s t tcSramRange a 0)
  else none

/-- STREAM: the request is checked, waits for its tag, and is sent; an outbound one first copies its source, feeds
SIG and the open wake window (03 R136, 02 R80 to R84, R91). -/
def bodyStream : Body := fun t w atc s =>
  let x := s.tile t
  let ga := x.spair (wRs1 w)
  let a := (x.sreg (wRd w)).toNat
  let len := (x.sreg (wRs2 w)).toNat
  let tag := wImm8 w % 16
  let outb := bit (wImm8 w) 4
  match streamCheck s t ga a len tag with
  | some tr => .trap tr s
  | none =>
    if (tagOf x tag).isSome then .hold s
    else
      let r : StreamReq := {
        inbound := !outb, sram := a, ga := ga, len := len, pc := x.pc, sentAt := s.now, waiting := false
        order := atc, wake := x.wake, refHit := false, doneLen := 0, data := [], rgen := 0, discard := false }
      if !outb then .retire 1 [] 0 (sendReq t tag r s)
      else
        match sramRead t a len s with
        | (.ue adr y, s) => .trap { trapAt s t tcSramUe adr y with late := 1 + (adr - a) / 64 } s
        | (.ok bs, s) =>
          let s := s.modTile t (fun x => { x with
            sig := sigBlocks x.sigbase.toNat (ga.toNat % 2 ^ 42) (len / 64) bs x.sig })
          let s := match x.wake with
            | some n => if x.job = .launch then digestWake x.ctx n ga.toNat bs s else s
            | none => s
          .retire (1 + len / 64) [] 0
            (sendReq t tag { r with data := bs, discard := decide (x.job ≠ .launch) } s)

/-- Tags of s[ra][15:0] that are outstanding (03 R137). -/
def tagsBusy (x : Tile) (mask : Nat) : Bool :=
  x.tags.any (fun e => e.2.isSome && bit mask e.1)

def bodySwaitt : Body := fun t w _ s =>
  let x := s.tile t
  if tagsBusy x ((x.sreg (wRd w)).toNat % 2 ^ 16) then .hold s else .retire 1 [] 0 s

/-! ### Replies -/

/-- A tag completes: later requests that waited for it are sent (02 R80, R83). -/
def completeTag (t tag : Nat) (s : State) : State := sendWaiting t (s.modTile t (setTag tag none))

/-- An imprecise trap of a request, with the global address of its transfer and its tag (02 R601). -/
def streamTrap (t tag cause off : Nat) (r : StreamReq) (s : State) : State :=
  trapTile t { cause := cause, imprecise := true, pc := r.pc, addr := r.ga.toNat + off, detail := tag } s

/-- A reply whose generation differs is dropped at the partition edge (11 R458). -/
def staleReply (p : Nat) (s : State) : State :=
  let x := s.part p
  let s := s.setPart p { x with cntStale := satAdd 48 x.cntStale 1 }
  let due := match x.staleAt with
    | some a => decide (1000000 ≤ s.since a)
    | none => true
  if due then raise 0x6006 p x.rgen.toNat (s.modPart p (fun x => { x with staleAt := some s.now })) else s

/-- A reply to tile t's tag that was on its way when its partition was reset: dropped at the edge (11 R458). -/
def lateReply (t tag : Nat) (s : State) : Option State :=
  let p := tilePart t
  ((s.part p).late.findIdx? (fun e => decide (e = (t, tag)))).map (fun i =>
    staleReply p (s.modPart p (fun x => { x with late := listDrop x.late i })))

/-- Data of an inbound request arrive at byte offset off and are written to data SRAM (02 R82). -/
def streamData (t tag off : Nat) (bs : List Byte) (s : State) : State :=
  match tagOf (s.tile t) tag with
  | none => s
  | some r =>
    let s := sramPut t (r.sram + off) bs s
    let n := r.doneLen + bs.length
    if r.len ≤ n then completeTag t tag s
    else s.modTile t (setTag tag (some { r with doneLen := n, got := r.got ++ [(off, bs.length)] }))

/-- The transfer of a request at byte offset off. -/
def transferAt (r : StreamReq) (off : Nat) : Nat := (((transfersOf r).find? (fun t => decide (t.1 = off))).map (·.2)).getD 0

/-- The transfer of a request that lies beyond 4 TiB - 1 and names no page: its offset (02 R81). -/
def beyond (r : StreamReq) : Option Nat := ((transfersOf r).find? (fun k => decide (2 ^ 42 ≤ reqLocal r k.1))).map (·.1)

/-- STREAM_REPLY: the next transfer of an inbound request is served on this device, the transfers in ascending
order, or its fault arrives (02 R81, R82, R93, 05 R205, R211, log 38). -/
def serveReply (t tag : Nat) (s : State) : State :=
  let x := s.tile t
  match lateReply t tag s with
  | some s => s
  | none =>
  match tagOf x tag with
  | none => s
  | some r =>
    if !liveFor s t x.launchId || r.waiting || !r.inbound then s
    else if reqDevice r ≠ s.fab.devNum.toNat then
      match beyond r with
      | some off => streamTrap t tag tcXlate off r s
      | none => s
    else
      if pageShut s x.ctx (reqLocal r r.doneLen) then s
      else
      match readPage (viaTile t x.ctx) (reqLocal r r.doneLen) (transferAt r r.doneLen) s with
      | (.err f _, s) => streamTrap t tag f.cause r.doneLen r s
      | (.ok bs, s) => streamData t tag r.doneLen bs s

/-- The transfers of an outbound request are written to this device's stacks, to the first fault: its cause and
offset (02 R81, 07 R298). -/
def writeTransfers (t c : Nat) (r : StreamReq) : List (Nat × Nat) → State → Option (Nat × Nat) × State
  | [], s => (none, s)
  | (off, len) :: l, s =>
    match writePage (viaTile t c) (reqLocal r off) ((r.data.drop off).take len) s with
    | (.err f _, s) => (some (f.cause, off), s)
    | (.ok _, s) => writeTransfers t c r l s

/-- WRITE_ACK of a stream tag: the stack accepts the write and the acknowledgement completes the tag. A partner
acknowledges its blocks itself and writes nothing (07 R298, 10 R418). -/
def ackStream (t tag : Nat) (s : State) : State :=
  let x := s.tile t
  match lateReply t tag s with
  | some s => s
  | none =>
  match tagOf x tag with
  | none => s
  | some r =>
    if !liveFor s t x.launchId || r.waiting || r.inbound then s
    else if r.discard then completeTag t tag s
    else if reqDevice r ≠ s.fab.devNum.toNat then
      match beyond r with
      | some off => streamTrap t tag tcXlate off r s
      | none => s
    else
      if (transfersOf r).any (fun k => pageShut s x.ctx (reqLocal r k.1)) then s
      else
      match writeTransfers t x.ctx r (transfersOf r) s with
      | (some (cause, off), s) => streamTrap t tag cause off r s
      | (none, s) => completeTag t tag s

/-- WRITE_ACK of an Eddy request: the oldest accepted one of the tile is acknowledged (03 R139). -/
def ackEddy (t : Nat) (s : State) : State :=
  let p := tilePart t
  let mine := fun (l : BitVec 32) (g : BitVec 6) (s : State) =>
    if (s.part p).rgen ≠ g then staleReply p s
    else s.modTile t (fun x => if x.launchId = l then { x with eddyOut := x.eddyOut - 1 } else x)
  match s.spills.findIdx? (fun f => f.acked && decide (f.tile = t)) with
  | some i =>
    match s.spills[i]? with
    | some f => mine f.launch f.rgen { s with spills := listDrop s.spills i }
    | none => s
  | none =>
    match s.atoms.findIdx? (fun a => a.acked && decide (a.tile.map (·.1) = some t)) with
    | some i =>
      match s.atoms[i]? with
      | some a => mine ((a.tile.map (·.2.2)).getD 0) a.rgen { s with atoms := listDrop s.atoms i }
      | none => s
    | none => s

/-- The transfer of a request at which it stands: the second where the first is done, in bytes or, over the fabric, in
packets acknowledged (02 R601, log 38). -/
def standsAt (s : State) (r : StreamReq) : Nat :=
  match transfersOf r with
  | [_, (k, _)] =>
    let first := if r.inbound || decide (reqDevice r = s.fab.devNum.toNat) then k else (cutBy 256 17 0 k).length
    if first ≤ r.doneLen then k else 0
  | _ => 0

/-- STREAM_TIMEOUT: no reply within 2,000,000 counts of sending (02 R85), or not all of it (log 38). -/
def streamTimeout (t tag : Nat) (s : State) : State :=
  match tagOf (s.tile t) tag with
  | none => s
  | some r =>
    if !r.waiting && decide (2000000 ≤ s.since r.sentAt) then streamTrap t tag tcStreamTimeout (standsAt s r) r s
    else s

/-- STREAM: checks and sends one stream request under a tag (R136). -/
def execStream (t : TileIx) (s : State) : Host.Outcome State Fault Refusal :=
  .next (issue t.val .stream bodyStream s)

/-- SWAITT: holds issue until the named tags are no longer outstanding (R137). -/
def execSwaitt (t : TileIx) (s : State) : Host.Outcome State Fault Refusal :=
  .next (issue t.val .swaitt bodySwaitt s)

/-- STREAM_TIMEOUT: a request with no reply after 2 ms traps (R85). -/
def execStreamTimeout (t : TileIx) (tag : Fin 16) (s : State) : Host.Outcome State Fault Refusal :=
  .next (streamTimeout t.val tag.val s)

end Sys2Proof.Machine
end

