-- ==== Sys2Proof/Machine/Sync.lean ====
section
/-!
DEFINITION. Control registers, barriers, fences and Stroke waits (03 R138 to R140, 02 R69, R70, R94).
-/

namespace Sys2Proof.Machine

/-! ### Control registers -/

/-- Tags outstanding, as STREAM_BUSY shows them (02 R80). -/
def streamBusy (x : Tile) : Nat := x.tags.foldl (fun n e => if e.2.isSome then n ||| 2 ^ e.1 else n) 0

/-- The value that a CR read returns, and the tile after it; the count is Stroke's and `atc` the issue cycle
(02 Table 2-2, R70). -/
def crValue (s : State) (n atc : Nat) (x : Tile) : Word × Tile :=
  let nat := fun v => (BitVec.ofNat 32 v, x)
  match n with
  | 0x00 => nat x.tid
  | 0x01 => nat x.crew
  | 0x02 => nat x.ncrew
  | 0x03 => nat x.ctx
  | 0x04 => (x.launchId, x)
  | 0x05 => nat x.partNo
  | 0x06 => nat s.fab.devNum.toNat
  | 0x07 => (x.jobid, x)
  | 0x08 => (s.now.setWidth 32, { x with strokeHi := (s.now >>> 32).setWidth 32 })
  | 0x09 => (x.strokeHi, x)
  | 0x0A => (BitVec.ofNat 32 atc, { x with cycleHi := BitVec.ofNat 32 (atc / 2 ^ 32) })
  | 0x0B => (x.cycleHi, x)
  | 0x0C => (x.sig.setWidth 32, x)
  | 0x0D => ((x.sig >>> 32).setWidth 32, x)
  | 0x0E => (x.sigbase.setWidth 32, x)
  | 0x0F => ((x.sigbase >>> 32).setWidth 32, x)
  | 0x10 => (x.argp.setWidth 32, x)
  | 0x11 => ((x.argp >>> 32).setWidth 32, x)
  | 0x12 => (x.fpstat.setWidth 32, x)
  | 0x13 => nat (streamBusy x)
  | _ => nat x.eccCe

/-- A CR write to one of the writable numbers (02 Tables 2-2, 2-3). -/
def crStore (n : Nat) (v : Word) (x : Tile) : Tile :=
  match n with
  | 0x0C => { x with sig := x.sig.extractLsb' 32 32 ++ v }
  | 0x0D => { x with sig := v ++ x.sig.extractLsb' 0 32 }
  | 0x0E => { x with sigbase := x.sigbase.extractLsb' 32 10 ++ v }
  | 0x0F => { x with sigbase := v.extractLsb' 0 10 ++ x.sigbase.extractLsb' 0 32 }
  | 0x12 => { x with fpstat := fpstatClear x.fpstat v }
  | _ => x

/-- A read or write of FPSTAT waits for the matrix work in flight (03 R138). -/
def fpstatWaits (x : Tile) (n : Nat) : Bool := decide (n = 0x12) && !x.mma.isEmpty

def bodyCrRead : Body := fun t w atc s =>
  let x := s.tile t
  let n := wImm8 w % 64
  if fpstatWaits x n then .hold s
  else
    let r := crValue s n atc x
    .retire 1 [rcS (wRd w)] 2 (s.setTile t (r.2.setS (wRd w) r.1))

def bodyCrWrite : Body := fun t w _ s =>
  let x := s.tile t
  let n := wImm8 w % 64
  if fpstatWaits x n then .hold s
  else .retire 1 [] 0 (s.setTile t (crStore n (x.sreg (wRs1 w)) x))

/-! ### Fences and barriers -/

/-- Every outbound stream write and every Eddy request of the tile is acknowledged (03 R139). -/
def fenceClear (x : Tile) : Bool :=
  !x.tags.any (fun e => match e.2 with
    | some r => !r.inbound
    | none => false) &&
    x.gather.isEmpty && x.spillQ.isEmpty && decide (x.eddyOut = 0) && x.drain.isNone

/-- The line being gathered is sent off, where two completed lines do not wait already; a line voids a pair check
(04 R177, R179, 10 R418). -/
def flushLine (t : Nat) (s : State) : State :=
  let x := s.tile t
  if x.gather.isEmpty || decide (spillWait ≤ x.spillQ.length) then s
  else voidIfPaired t (s.setTile t (flushGather x.pc x))

/-- FENCE, then k (03 R139). -/
def fenced (k : Nat → Word → State → Did) : Body := fun t w _ s =>
  let s := flushLine t s
  unlessGated t s fun s => if fenceClear (s.tile t) then k t w s else .hold s

def bodyFence : Body := fenced fun _ _ s => .retire 1 [] 0 s

/-- The tile arrives at a barrier and waits for its completion (03 R139). -/
def arrive (launch : Bool) (t : Nat) (w : Word) (s : State) : Did :=
  .stop (s.modTile t (fun x => { x with
    held := none
    cbars := if launch then x.cbars else x.cbars + 1
    lbars := if launch then x.lbars + 1 else x.lbars
    bar := some { launch := launch, id := BitVec.ofNat 6 (wImm8 w / 4), at_ := s.now } }))

def bodyCbar : Body := fenced (arrive false)

/-- LBAR voids a pair check (10 R418). -/
def bodyLbar : Body := fenced fun t w s => unlessGated t (voidIfPaired t s) (arrive true t w)

/-- Tile y counts as arrived at barrier number n: it has halted, or stopped in Umpire work, or has arrived
(03 R139, 10 R602). -/
def arrivedAt (launch : Bool) (n : Nat) (y : Tile) : Bool :=
  decide (y.run = .halted) || (decide (y.run = .stopped) && y.trapped) ||
    decide (n ≤ if launch then y.lbars else y.cbars)

/-- The barrier that tile x waits at has its last participant; it completes at every waiting tile. The cycles
waited are free (03 R139, R145, log 1). -/
def barrierDone (t : Nat) (s : State) : State :=
  let x := s.tile t
  match x.bar with
  | none => s
  | some b =>
    let peers := if b.launch then launchPeers s x else crewPeers s x
    let n := if b.launch then x.lbars else x.cbars
    if peers.all (fun e => arrivedAt b.launch n e.2) then
      forList (fun e s =>
        match (s.tile e.1).bar with
        | none => s
        | some c =>
          if c.launch = b.launch then
            let (k, s) := s.free
            s.modTile e.1 (fun y => { y with bar := none, pc := y.pc + 1, cycle := y.cycle + 1 + k })
          else s) peers s
    else s

/-- SYNC_TIMEOUT: a barrier not completed 10,000,000 counts after the tile arrived (02 Table 2-6). The tile cycles that
it has waited are free (02 R70, log 1). -/
def syncTimeout (t : Nat) (s : State) : State :=
  let x := s.tile t
  match x.bar with
  | none => s
  | some b =>
    if x.run = .running ∧ 10000000 ≤ s.since b.at_ then
      let (k, s) := s.free
      trapTile t { cause := tcSyncTimeout, pc := x.pc, detail := b.id.toNat }
        (s.modTile t (fun y => { y with cycle := y.cycle + k }))
    else s

/-! ### Stroke waits -/

/-- WAITS: the counts are compared as plain 64-bit numbers (03 R140, 02 R94, Table 2-6, log 16). -/
def bodyWaits : Body := fun t w _ s =>
  let target := (s.tile t).spair (wRd w)
  if target.toNat ≤ s.now.toNat then .retire 1 [] 0 s
  else if 1000000000 < target.toNat - s.now.toNat then
    .trap (trapAt s t tcWaitRange (target.toNat % 2 ^ 32) 0) s
  else .hold s

/-- CR_READ: reads a tile control register (R138). -/
def execCrRead (t : TileIx) (s : State) : Host.Outcome State Fault Refusal :=
  .next (issue t.val .crRead bodyCrRead s)

/-- CR_WRITE: writes a tile control register (R138). -/
def execCrWrite (t : TileIx) (s : State) : Host.Outcome State Fault Refusal :=
  .next (issue t.val .crWrite bodyCrWrite s)

/-- CBAR: fences, then arrives at the crew barrier (R139). -/
def execCbar (t : TileIx) (s : State) : Host.Outcome State Fault Refusal :=
  .next (issue t.val .cbar bodyCbar s)

/-- LBAR: fences, then arrives at the launch barrier (R139). -/
def execLbar (t : TileIx) (s : State) : Host.Outcome State Fault Refusal :=
  .next (issue t.val .lbar bodyLbar s)

/-- FENCE: holds issue until every outbound write and Eddy request is acknowledged (R139). -/
def execFence (t : TileIx) (s : State) : Host.Outcome State Fault Refusal :=
  .next (issue t.val .fence bodyFence s)

/-- BARRIER_COMPLETE: the barrier that tile t waits at completes at every waiting tile (R139). -/
def execBarrierComplete (t : TileIx) (s : State) : Host.Outcome State Fault Refusal :=
  .next (barrierDone t.val s)

/-- WAITS: holds issue until the Stroke count reaches a target (R140). -/
def execWaits (t : TileIx) (s : State) : Host.Outcome State Fault Refusal :=
  .next (issue t.val .waits bodyWaits s)

/-- SYNC_TIMEOUT: a barrier not completed 10 ms after arrival traps (R93). -/
def execSyncTimeout (t : TileIx) (s : State) : Host.Outcome State Fault Refusal :=
  .next (syncTimeout t.val s)

end Sys2Proof.Machine
end

