-- ==== Sys2Proof/Machine/Misc.lean ====
section
/-!
DEFINITION. MISC and TRAP: HALT, explicit folds into SIG, wake windows, and row-block queues (03 R141 to R144,
R149, 04 R172, R198, 02 R65, R92, 08 R346, 10 R418).
-/

namespace Sys2Proof.Machine

/-- NOP has no effect (03 Table 3-13). -/
def bodyNop : Body := fun _ _ _ s => .retire 1 [] 0 s

/-- Every request of the tile has completed and every write is acknowledged, those of a drain and of EMERGE among them
(02 R65, log 38). -/
def haltClear (x : Tile) : Bool :=
  x.tags.isEmpty && x.gather.isEmpty && x.spillQ.isEmpty && decide (x.eddyOut = 0) && x.drain.isNone

/-- HALT: the gathered line is sent, the wake window closes, and the tile issues nothing more; the cycle of its
retirement is free where something is still outstanding (02 R65, R70, 04 R177, log 1). -/
def bodyHalt : Body := fun t _ atc s =>
  let c0 := (s.tile t).cycle
  let s := flushLine t s
  unlessGated t s fun s =>
    let x := s.tile t
    if !x.gather.isEmpty then .hold s
    else
      let (k, s) := if haltClear x then (0, s) else s.free
      .stop (s.modTile t (fun x => { x with
        run := .halting, held := none, wake := none, cycle := x.cycle + (atc - c0) + 1 + k }))

/-- SIG: folds crc64 of a v register and an s register (02 R92, 03 Table 3-13). -/
def bodySig : Body := fun t w _ s =>
  .retire 2 [] 0 (s.modTile t (fun x =>
    let bs := (List.range 16).map (vbyte (x.vreg (wRd w % 16)))
    { x with sig := x.sig + BitVec.ofNat 64 (crcWith bs (x.sreg (wRs1 w)).toNat) }))

/-- A tile opens wake point n: the launch keeps at most 64 digests, and the first beyond raises WAKE_OVERFLOW
once (08 R346). -/
def openWake (c n : Nat) (s : State) : State :=
  match (s.ctx c).exec with
  | none => s
  | some e =>
    if e.wakes.any (fun k => decide (k.num = n)) then s
    else
      let full := decide (64 ≤ (e.wakes.filter (fun k => !k.overflow)).length)
      let k : WakePt := { num := n, digest := 0, blocks := 0, partials := 0, overflow := full,
                          refreshHits := 0, retryHits := 0 }
      let s := s.modExec c (fun e => { e with wakes := e.wakes ++ [k], wakeOver := e.wakeOver || full })
      if full && !e.wakeOver then raise 0x7020 c e.launch.id.toNat s else s

/-- WAKE: opens a window, closing an open one, or closes it; a partner forms no digest (03 Table 3-13, 10 R418). -/
def bodyWake : Body := fun t w _ s =>
  let x := s.tile t
  if bit (wImm8 w) 0 then
    let n := (x.sreg (wRd w)).toNat % 1024
    let s := s.setTile t { x with wake := some n }
    .retire 1 [] 0 (if x.job = .launch then openWake x.ctx n s else s)
  else .retire 1 [] 0 (s.setTile t { x with wake := none })

/-- RBINIT: the tile's queue holds a run of indices, modulo 2^32 (03 Table 3-13, R149, 04 R198). -/
def bodyRbinit : Body := fun t w _ s =>
  .retire 1 [] 0 (s.modTile t (fun x => { x with
    rbHead := x.sreg (wRd w), rbLen := (x.sreg (wRs1 w)).toNat % 2 ^ 16 }))

/-- The tile of the crew whose TID is q. -/
def peerTid (l : List (Nat × Tile)) (q : Nat) : Option (Nat × Tile) := l.find? (fun e => decide (e.2.tid = q))

/-- Probes queue (TID + i) mod 8 and so on: the index taken, the tile it is taken from with its queue after it,
and how many queues were probed before (03 R143). -/
def probe (l : List (Nat × Tile)) (tid : Nat) : Nat → Nat → Option (Word × Nat × Tile × Nat)
  | _, 0 => none
  | i, n + 1 =>
    match peerTid l ((tid + i) % 8) with
    | none => probe l tid (i + 1) n
    | some (q, y) =>
      if y.rbLen = 0 then probe l tid (i + 1) n
      else if i = 0 then
        some (y.rbHead, q, { y with rbHead := y.rbHead + 1, rbLen := y.rbLen - 1 }, i)
      else
        some (y.rbHead + BitVec.ofNat 32 (y.rbLen - 1), q, { y with rbLen := y.rbLen - 1 }, i)

/-- Row-block indices that a pair check replays; more void it (10 R418). -/
def rbMax : Nat := 4096

/-- RBNEXT gives s[ra] an index; under a pair check the index is kept. -/
def giveIndex (t : Nat) (w v : Word) (cost : Nat) (s : State) : Did :=
  let s := if (pairOf s (s.tile t)).isSome then s.modTile t (fun x => { x with rbLog := x.rbLog ++ [v] }) else s
  let s := if rbMax < (s.tile t).rbLog.length then voidIfPaired t s else s
  unlessGated t s fun s => .retire cost [rcS (wRd w)] 1 (s.modTile t (fun x => x.setS (wRd w) v))

/-- The checked crew's tile that tile x replays (10 R418). -/
def checkedTile (s : State) (x : Tile) : Option Tile :=
  (s.tiles.find? (fun e => decide (e.2.job = .launch) && decide (e.2.ctx = x.ctx) &&
    decide (e.2.launchId = x.launchId) && decide (e.2.crew = x.crew) && decide (e.2.tid = x.tid))).map (·.2)

/-- The cycles that an RBNEXT waits for the crew's queue unit: free, but at most one for each other tile of the crew
that runs, since each has one request (03 R143, log 1). -/
def queueWait (t : Nat) (s : State) : Nat × State :=
  let n := ((crewPeers s (s.tile t)).filter (fun e => decide (e.1 ≠ t) && decide (e.2.run = .running))).length
  if n = 0 then (0, s) else s.freeBelow (n + 1)

/-- RBNEXT: the next row-block index of the crew, or in a partner the one that the checked tile received
(03 R143, 10 R418). -/
def bodyRbnext : Body := fun t w _ s =>
  let x := s.tile t
  if x.job = .launch then
    let (k, s) := queueWait t s
    match probe (crewPeers s x) x.tid 0 8 with
    | some (v, q, y, i) => giveIndex t w v (k + (2 + i)) (s.setTile q y)
    | none => giveIndex t w 0xFFFFFFFF#32 (k + 9) s
  else
    match checkedTile s x with
    | none => giveIndex t w 0xFFFFFFFF#32 2 s
    | some y =>
      match y.rbLog[x.rbLog.length]? with
      | some v => giveIndex t w v 2 s
      | none => if y.run = .halted then giveIndex t w 0xFFFFFFFF#32 2 s else .hold s

/-- TRAP raises USER with imm8 as DETAIL (03 R141). -/
def bodyTrap : Body := fun t w _ s => .trap (trapAt s t tcUser 0 (wImm8 w)) s

/-- NOP: does nothing (R141). -/
def execNop (t : TileIx) (s : State) : Host.Outcome State Fault Refusal := .next (issue t.val .nop bodyNop s)

/-- HALT: ends the tile's part of the launch once outstanding requests drain (R141). -/
def execHalt (t : TileIx) (s : State) : Host.Outcome State Fault Refusal := .next (issue t.val .halt bodyHalt s)

/-- SIG: folds crc64 of a v register and an s register into SIG (R141). -/
def execSig (t : TileIx) (s : State) : Host.Outcome State Fault Refusal := .next (issue t.val .sig bodySig s)

/-- WAKE: opens or closes a wake window (R141). -/
def execWake (t : TileIx) (s : State) : Host.Outcome State Fault Refusal := .next (issue t.val .wake bodyWake s)

/-- RBINIT: loads the tile's row-block queue (R141). -/
def execRbinit (t : TileIx) (s : State) : Host.Outcome State Fault Refusal :=
  .next (issue t.val .rbinit bodyRbinit s)

/-- TRAP: raises the USER trap (R141). -/
def execTrap (t : TileIx) (s : State) : Host.Outcome State Fault Refusal := .next (issue t.val .trap bodyTrap s)

end Sys2Proof.Machine
end

