-- ==== Sys2Proof/Machine/Vector.lean ====
section
/-!
DEFINITION. The V-format instructions: FP32 lanes, conversions and register moves (03 R123, R124, Table 3-7).
-/

namespace Sys2Proof.Machine

/-- Lane results with their flags. -/
def lanes4 (f : Nat → Word × Fl) : VWord × Fl :=
  let r0 := f 0
  let r1 := f 1
  let r2 := f 2
  let r3 := f 3
  (ofLanes r0.1 r1.1 r2.1 r3.1, r0.2 ||| r1.2 ||| r2.2 ||| r3.2)

/-- A vector result in v[vd] with flags. -/
def vOp (lat : Nat) (f : Word → Tile → VWord × Fl) : Body :=
  regOp 1 lat (fun w => [rcV (wVd w), rcFp]) (fun w x =>
    let r := f w x
    (x.setV (wVd w) r.1).flag r.2)

/-- Lane by lane from va and vb (03 R123). -/
def vBin (f : Word → Word → Word × Fl) : Body :=
  vOp 4 (fun w x => lanes4 (fun i => f (lane (x.vreg (wVa w)) i) (lane (x.vreg (wVb w)) i)))

/-- Lane by lane from va. -/
def vUn (lat : Nat) (f : Word → Word × Fl) : Body :=
  vOp lat (fun w x => lanes4 (fun i => f (lane (x.vreg (wVa w)) i)))

/-- Occupies the divide unit for 14 cycles (03 Table 3-14). -/
def divUnit (b : Body) : Body := fun t w atc s =>
  b t w atc (s.modTile t (fun x => { x with divFree := atc + 14 }))

/-- Occupies the exponential unit for 10 cycles (03 Table 3-14). -/
def expUnit (b : Body) : Body := fun t w atc s =>
  b t w atc (s.modTile t (fun x => { x with expFree := atc + 10 }))

/-- VSUM: (va0 + va1) + (va2 + va3), each addition rounded (03 Table 3-7). -/
def vSum4 (v : VWord) : VWord × Fl :=
  let a := fpAdd (lane v 0) (lane v 1)
  let b := fpAdd (lane v 2) (lane v 3)
  let c := fpAdd a.1 b.1
  (ofLanes c.1 0 0 0, a.2 ||| b.2 ||| c.2)

/-- VMAXH: maximumNumber of the lanes, in lane order. -/
def vMax4 (v : VWord) : VWord × Fl :=
  let a := fpMinMax true (lane v 0) (lane v 1)
  let b := fpMinMax true a.1 (lane v 2)
  let c := fpMinMax true b.1 (lane v 3)
  (ofLanes c.1 0 0 0, a.2 ||| b.2 ||| c.2)

/-- Bytes with flags, gathered into a register from byte 0. -/
def pack (l : List (List Byte × Fl)) : VWord × Fl :=
  (ofBytes128 (l.map (·.1)).flatten, l.foldl (fun f r => f ||| r.2) 0#6)

/-- VPK8: va lanes then vb lanes in FP8; bytes 8 to 15 are 0 (03 Table 3-7). -/
def vPack8 (w : Word) (x : Tile) : VWord × Fl :=
  let e5 := bit (wSub w) 0
  let one := fun (v : VWord) (i : Nat) => let r := toFp8 e5 (lane v i); ([r.1], r.2)
  pack ((List.range 4).map (one (x.vreg (wVa w))) ++ (List.range 4).map (one (x.vreg (wVb w))))

/-- VPKBF: va lanes then vb lanes as BF16 (02 R603). -/
def vPackBf (w : Word) (x : Tile) : VWord × Fl :=
  let one := fun (v : VWord) (i : Nat) => let r := toBf (lane v i); (leBytes 2 r.1.toNat, r.2)
  pack ((List.range 4).map (one (x.vreg (wVa w))) ++ (List.range 4).map (one (x.vreg (wVb w))))

/-- VUNPK8: lane i is FP8 byte 4 × sub[2:1] + i (03 Table 3-7). -/
def vUnpack8 (w : Word) (x : Tile) : VWord × Fl :=
  let v := x.vreg (wVa w)
  lanes4 (fun i => (ofFp8 (bit (wSub w) 0) (vbyte v (4 * bits (wSub w) 1 2 + i)).toNat, 0))

/-- VUNPKBF: lane i is BF16 element 4 × sub[0] + i. -/
def vUnpackBf (w : Word) (x : Tile) : VWord × Fl :=
  let v := x.vreg (wVa w)
  lanes4 (fun i => (ofBf (bits v.toNat (16 * (4 * (wSub w % 2) + i)) 16), 0))

/-- A move into v[vd], with latency 1 and no flags. -/
def vMove (f : Word → Tile → VWord) : Body :=
  regOp 1 1 (fun w => [rcV (wVd w), rcFp]) (fun w x => x.setV (wVd w) (f w x))

/-- The a register of AGET and APUT. -/
def moveA (w : Word) : Nat := bits (wSub w) 2 2

/-- The row of AGET and APUT. -/
def moveRow (w : Word) : Nat := wSub w % 4

def bodyAget : Body := fun t w _ s =>
  let x := s.tile t
  if macPending x (moveA w) then .hold s
  else
    let row := fun j => x.aword (moveA w) (4 * moveRow w + j)
    .retire 1 [rcV (wVd w), rcFp] 1 (s.modTile t (fun x =>
      x.setV (wVd w) (ofLanes (row 0) (row 1) (row 2) (row 3))))

def bodyAput : Body := fun t w _ s =>
  let x := s.tile t
  if macPending x (moveA w) then .hold s
  else
    let v := x.vreg (wVa w)
    .retire 1 [rcA (moveA w), rcFp] 1 (s.modTile t (fun x =>
      x.setAs (moveA w) (4 * moveRow w) [lane v 0, lane v 1, lane v 2, lane v 3]))

/-- VADD: lane-wise FP32 addition (R123). -/
def execVadd (t : TileIx) (s : State) : Host.Outcome State Fault Refusal :=
  .next (issue t.val .vadd (vBin fpAdd) s)

/-- VSUB: lane-wise FP32 subtraction (R123). -/
def execVsub (t : TileIx) (s : State) : Host.Outcome State Fault Refusal :=
  .next (issue t.val .vsub (vBin fpSub) s)

/-- VMUL: lane-wise FP32 multiplication (R123). -/
def execVmul (t : TileIx) (s : State) : Host.Outcome State Fault Refusal :=
  .next (issue t.val .vmul (vBin fpMul) s)

/-- VFMA: lane-wise fused multiply-add into vd with one rounding (R123). -/
def execVfma (t : TileIx) (s : State) : Host.Outcome State Fault Refusal :=
  .next (issue t.val .vfma (vOp 4 (fun w x => lanes4 (fun i =>
    fpFma (lane (x.vreg (wVd w)) i) (lane (x.vreg (wVa w)) i) (lane (x.vreg (wVb w)) i)))) s)

/-- VMIN: lane-wise IEEE minimumNumber (R123). -/
def execVmin (t : TileIx) (s : State) : Host.Outcome State Fault Refusal :=
  .next (issue t.val .vmin (vBin (fpMinMax false)) s)

/-- VMAX: lane-wise IEEE maximumNumber (R123). -/
def execVmax (t : TileIx) (s : State) : Host.Outcome State Fault Refusal :=
  .next (issue t.val .vmax (vBin (fpMinMax true)) s)

/-- VDIV: lane-wise correctly rounded FP32 division on the shared divide unit (R123). -/
def execVdiv (t : TileIx) (s : State) : Host.Outcome State Fault Refusal :=
  .next (issue t.val .vdiv (divUnit (vOp 14 (fun w x => lanes4 (fun i =>
    fpDiv (lane (x.vreg (wVa w)) i) (lane (x.vreg (wVb w)) i))))) s)

/-- VSQRT: lane-wise correctly rounded square root (R123). -/
def execVsqrt (t : TileIx) (s : State) : Host.Outcome State Fault Refusal :=
  .next (issue t.val .vsqrt (divUnit (vUn 14 fpSqrt)) s)

/-- VEXP2: lane-wise correctly rounded base-2 exponential (R123). -/
def execVexp2 (t : TileIx) (s : State) : Host.Outcome State Fault Refusal :=
  .next (issue t.val .vexp2 (expUnit (vUn 10 fpExp2)) s)

/-- VLOG2: lane-wise correctly rounded base-2 logarithm (R123). -/
def execVlog2 (t : TileIx) (s : State) : Host.Outcome State Fault Refusal :=
  .next (issue t.val .vlog2 (expUnit (vUn 10 fpLog2)) s)

/-- VABS: clears the sign bit of each lane (R123). -/
def execVabs (t : TileIx) (s : State) : Host.Outcome State Fault Refusal :=
  .next (issue t.val .vabs (vUn 1 (fun a => (a &&& 0x7FFFFFFF#32, 0))) s)

/-- VNEG: flips the sign bit of each lane (R123). -/
def execVneg (t : TileIx) (s : State) : Host.Outcome State Fault Refusal :=
  .next (issue t.val .vneg (vUn 1 (fun a => (a ^^^ 0x80000000#32, 0))) s)

/-- VSUM: pairwise rounded sum of the four lanes into lane 0 (R123). -/
def execVsum (t : TileIx) (s : State) : Host.Outcome State Fault Refusal :=
  .next (issue t.val .vsum (vOp 4 (fun w x => vSum4 (x.vreg (wVa w)))) s)

/-- VMAXH: maximumNumber of the four lanes into lane 0 (R123). -/
def execVmaxh (t : TileIx) (s : State) : Host.Outcome State Fault Refusal :=
  .next (issue t.val .vmaxh (vOp 4 (fun w x => vMax4 (x.vreg (wVa w)))) s)

/-- VSPLAT: copies an s register to every lane (R123). -/
def execVsplat (t : TileIx) (s : State) : Host.Outcome State Fault Refusal :=
  .next (issue t.val .vsplat (vMove (fun w x =>
    let a := x.sreg (wSub w)
    ofLanes a a a a)) s)

/-- VGET: copies one lane into an s register (R123). -/
def execVget (t : TileIx) (s : State) : Host.Outcome State Fault Refusal :=
  .next (issue t.val .vget (regOp 1 1 (fun w => [rcS (wSub w), rcFp])
    (fun w x => x.setS (wSub w) (lane (x.vreg (wVa w)) (wVb w)))) s)

/-- VSET: copies an s register into one lane (R123). -/
def execVset (t : TileIx) (s : State) : Host.Outcome State Fault Refusal :=
  .next (issue t.val .vset (vMove (fun w x => setLane (x.vreg (wVd w)) (wVb w) (x.sreg (wSub w)))) s)

/-- VCVTIF: converts INT32 lanes to FP32 (R123). -/
def execVcvtif (t : TileIx) (s : State) : Host.Outcome State Fault Refusal :=
  .next (issue t.val .vcvtif (vUn 4 fpOfInt) s)

/-- VCVTFI: converts FP32 lanes to INT32, ties to even, saturating (R123). -/
def execVcvtfi (t : TileIx) (s : State) : Host.Outcome State Fault Refusal :=
  .next (issue t.val .vcvtfi (vUn 4 fpToInt) s)

/-- VPK8: packs FP32 lanes of two registers into FP8 bytes with saturation (R123). -/
def execVpk8 (t : TileIx) (s : State) : Host.Outcome State Fault Refusal :=
  .next (issue t.val .vpk8 (vOp 4 vPack8) s)

/-- VUNPK8: unpacks four FP8 bytes to exact FP32 lanes (R123). -/
def execVunpk8 (t : TileIx) (s : State) : Host.Outcome State Fault Refusal :=
  .next (issue t.val .vunpk8 (vOp 4 vUnpack8) s)

/-- VPKBF: packs FP32 lanes of two registers into BF16 (R603). -/
def execVpkbf (t : TileIx) (s : State) : Host.Outcome State Fault Refusal :=
  .next (issue t.val .vpkbf (vOp 4 vPackBf) s)

/-- AGET: copies a row of an a register into a v register after earlier matrix work on it completes (R123). -/
def execAget (t : TileIx) (s : State) : Host.Outcome State Fault Refusal :=
  .next (issue t.val .aget bodyAget s)

/-- APUT: copies a v register into a row of an a register (R123). -/
def execAput (t : TileIx) (s : State) : Host.Outcome State Fault Refusal :=
  .next (issue t.val .aput bodyAput s)

/-- VMOV: copies a v register (R123). -/
def execVmov (t : TileIx) (s : State) : Host.Outcome State Fault Refusal :=
  .next (issue t.val .vmov (vMove (fun w x => x.vreg (wVa w))) s)

/-- VUNPKBF: unpacks four BF16 elements to exact FP32 lanes (R123). -/
def execVunpkbf (t : TileIx) (s : State) : Host.Outcome State Fault Refusal :=
  .next (issue t.val .vunpkbf (vOp 4 vUnpackBf) s)

end Sys2Proof.Machine
end

