-- ==== Sys2Proof/Machine/Matrix.lean ====
section
/-!
DEFINITION. Matrix instructions and NZMAP: operand reads, the MAC array's two buffers, and the computation of a
block product (03 R125 to R130, R600, 02 R86 to R88).
-/

namespace Sys2Proof.Machine

/-! ### Several loads of one instruction -/

/-- Loads of k bytes at successive addresses from a (03 R126, R127). -/
def loadsFrom (a k n : Nat) : List (Nat × Nat) := (List.range n).map (fun i => (((a + k * i) % 2 ^ 32), k))

/-- ALIGN and SRAM_RANGE of all the loads, ranked among all of them (03 R600, R115). -/
def checkLoads (s : State) (t : Nat) (l : List (Nat × Nat)) : Option Trap :=
  match l.find? (fun r => decide (r.1 % r.2 ≠ 0)) with
  | some r => some (trapAt s t tcAlign r.1 0)
  | none =>
    match l.find? (fun r => decide (sramBytes < r.1 + r.2)) with
    | some r => some (trapAt s t tcSramRange r.1 0)
    | none => none

/-- Performs the loads in order, to the first uncorrectable word (03 R600). -/
def readLoads (t : Nat) : List (Nat × Nat) → State → Got × State
  | [], s => (.ok [], s)
  | (a, n) :: r, s =>
    match sramRead t a n s with
    | (.ue adr y, s) => (.ue adr y, s)
    | (.ok bs, s) =>
      match readLoads t r s with
      | (.ue adr y, s) => (.ue adr y, s)
      | (.ok cs, s) => (.ok (bs ++ cs), s)

/-- The issue cycle, counted from the first, in which a word is loaded: 64 bytes, four loads, a cycle (02 R77). -/
def loadCycle (l : List (Nat × Nat)) (word : Nat) : Nat :=
  ((l.findIdx? (fun r => decide (r.1 / 8 * 8 ≤ word) && decide (word < r.1 + r.2))).getD 0) / 4

/-! ### Formats -/

/-- Operand formats of MMA fmt 0 to 7: A, B and K (03 Table 3-9). -/
def mmaFmt (f : Nat) : EFmt × EFmt × Nat :=
  match f with
  | 0 => (.e4m3, .e4m3, 32)
  | 1 => (.e5m2, .e5m2, 32)
  | 2 => (.e4m3, .e5m2, 32)
  | 3 => (.e5m2, .e4m3, 32)
  | 4 => (.int8, .int8, 32)
  | 5 => (.bf16, .bf16, 16)
  | 6 => (.e4m3, .e4m3, 32)
  | _ => (.e5m2, .e5m2, 32)

/-- Element k of a run of elements. -/
def elemAt (e : EFmt) (bs : List Byte) (k : Nat) : Nat := leNat ((bs.drop (e.bytes * k)).take e.bytes)

/-- K elements that begin at element k0. -/
def elems (e : EFmt) (bs : List Byte) (k0 n : Nat) : List Nat :=
  let l := bs.drop (e.bytes * k0)
  (List.range n).map (elemAt e l)

/-- Element (i, j) of the block product (03 R127). -/
def mmaElem (j : MmaJob) (acc : Word) (row col : Nat) : Word × Fl :=
  let (fa, fb, k) := mmaFmt j.fmt
  let ps := (elems fa j.a (row * k) k).zip (elems fb j.b (col * k) k)
  if 6 ≤ j.fmt then mxBlock fa acc ps (elemAt .int8 j.sc row) (elemAt .int8 j.sc (4 + col))
  else macSum fa fb (acc, 0#6) ps

/-- The 16 elements of the result, in word order, and the flags. -/
def mmaResult (x : Tile) (j : MmaJob) : List (Word × Fl) :=
  (List.range 16).map (fun n => mmaElem j (if j.zero then 0#32 else x.aword j.ad n) (n / 4) (n % 4))

/-! ### Instructions -/

/-- MMA and MMAZ: wait for a buffer, read A, B and the scales, queue the computation (03 R127, R128). -/
def bodyMma (zero : Bool) : Body := fun t w atc s =>
  let x := s.tile t
  if 2 ≤ x.mma.length then .hold s
  else
    let f := wXfmt w
    let la := loadsFrom (x.sreg (wXrs1 w)).toNat 16 8
    let lb := loadsFrom (x.sreg (wXrs2 w)).toNat 16 8
    let lc := if 6 ≤ f then [((x.sreg (wXrs3 w)).toNat, 8)] else []
    match checkLoads s t (la ++ lb ++ lc) with
    | some tr => .trap tr s
    | none =>
      match readLoads t (la ++ lb ++ lc) s with
      | (.ue a y, s) => .trap { trapAt s t tcSramUe a y with late := loadCycle (la ++ lb ++ lc) a } s
      | (.ok bs, s) =>
        let cost := if 6 ≤ f then 5 else 4
        .retire cost [] 0 (s.modTile t (fun y =>
          let last := max (atc + cost + (y.cycle - x.cycle)) y.macFree + 31
          let job : MmaJob := { ad := wAd w, fmt := f, zero := zero, a := bs.take 128,
                                b := (bs.drop 128).take 128, sc := bs.drop 256, last := last }
          { y with mma := y.mma ++ [job], macFree := last + 1 }))

def bodyAclr : Body := fun t w _ s =>
  let x := s.tile t
  if macPending x (wAd w) then .hold s
  else .retire 1 [rcA (wAd w)] 1 (s.modTile t (fun x => x.setAs (wAd w) 0 (List.replicate 16 0#32)))

/-- MMA_COMPLETE: the oldest computation ends, writes a[ad] and its flags, and frees its buffer (03 R128). -/
def mmaEnd (t : Nat) (s : State) : State :=
  let x := s.tile t
  match x.mma with
  | [] => s
  | j :: r =>
    let res := mmaResult x j
    let y := { (x.setAs j.ad 0 (res.map (·.1))) with
      mma := r
      ready := Tbl.put 0 rcFp (max (readyOf x rcFp) (j.last + 4)) (Tbl.put 0 (rcA j.ad) (j.last + 4) x.ready) }
    s.setTile t (y.flag (res.foldl (fun f e => f ||| e.2) 0#6))

/-- Formats of the W-format field fmt (03 R129). -/
def wFmt (f : Nat) : EFmt :=
  match f with
  | 0 => .e4m3
  | 1 => .e5m2
  | 2 => .int8
  | 3 => .bf16
  | 4 => .e4m3
  | _ => .e5m2

/-- An element is non-zero: both zeros of a floating-point format are zero, every NaN is not (03 R130). -/
def elemNonZero (e : EFmt) (c : Nat) : Bool :=
  match e with
  | .int8 => decide (c ≠ 0)
  | .bf16 => decide (c % 2 ^ 15 ≠ 0)
  | _ => decide (c % 2 ^ 7 ≠ 0)

/-- NZMAP: the presence bitmap of 128 elements (03 R130). -/
def bodyNzmap : Body := fun t w _ s =>
  let x := s.tile t
  let e := wFmt (wWfmt w)
  let l := loadsFrom (x.sreg (wXrs1 w)).toNat 16 (8 * e.bytes)
  match checkLoads s t l with
  | some tr => .trap tr s
  | none =>
    match readLoads t l s with
    | (.ue a y, s) => .trap { trapAt s t tcSramUe a y with late := loadCycle l a } s
    | (.ok bs, s) =>
      let m := (elems e bs 0 128).foldr (fun c n => 2 * n + boolNat (elemNonZero e c)) 0
      .retire (if wWfmt w = 3 then 4 else 2) [rcV (wWv w)] 2
        (s.modTile t (fun x => x.setV (wWv w) (BitVec.ofNat 128 m)))

/-- MMA: reads its operands and queues a block product accumulating into a[ad] (R127). -/
def execMma (t : TileIx) (s : State) : Host.Outcome State Fault Refusal :=
  .next (issue t.val .mma (bodyMma false) s)

/-- MMAZ: the same, accumulating from zero (R127). -/
def execMmaz (t : TileIx) (s : State) : Host.Outcome State Fault Refusal :=
  .next (issue t.val .mmaz (bodyMma true) s)

/-- ACLR: clears every word of a[ad] (R125). -/
def execAclr (t : TileIx) (s : State) : Host.Outcome State Fault Refusal :=
  .next (issue t.val .aclr bodyAclr s)

/-- NZMAP: builds the presence bitmap of 128 elements in v[v] (R130). -/
def execNzmap (t : TileIx) (s : State) : Host.Outcome State Fault Refusal :=
  .next (issue t.val .nzmap bodyNzmap s)

end Sys2Proof.Machine
end

