-- ==== Sys2Proof/Machine/Walker.lean ====
section
/-!
DEFINITION. SWALK: the walk descriptor, the five operand forms, the checks in their phases, matching and
accumulation, and the walk's timing (04 R154 to R170, R189 to R194, 03 R131, R132).
-/

namespace Sys2Proof.Machine

/-- A value or the trap that ended the walk, and the state. -/
abbrev WalkRes (α : Type) := Except Trap α × State

def WalkRes.bind {α β : Type} (r : WalkRes α) (f : α → State → WalkRes β) : WalkRes β :=
  match r with
  | (.ok a, s) => f a s
  | (.error tr, s) => (.error tr, s)

/-- One read of the walk, a whole region, list, scale group or column: SRAM_RANGE, then the end of the panel (WALK),
then the read (SRAM_UE). The fetch phase has read n0 bytes before it, 64 in a cycle, after the 4 cycles of the
descriptor (04 R164, R169, log 38). -/
def walkRead (t daddr : Nat) (panelEnd : Option Nat) (n0 a n : Nat) (s : State) : WalkRes (List Byte) :=
  if n = 0 then (.ok [], s)
  else if sramBytes < a + n then (.error { trapAt s t tcSramRange a 0 with late := 4 + n0 / 64 }, s)
  else if (match panelEnd with
      | some e => decide (e < a + n)
      | none => false) then (.error { trapAt s t tcWalk daddr 0 with late := 4 + n0 / 64 }, s)
  else
    match sramRead t a n s with
    | (.ue adr y, s) => (.error { trapAt s t tcSramUe adr y with late := 4 + (n0 + (adr - a)) / 64 }, s)
    | (.ok bs, s) => (.ok bs, s)

/-- What a walk works on: tile, descriptor address, mode, fmt, and the descriptor's fields (04 Table 4-5). -/
structure WalkDesc where
  tile    : Nat
  daddr   : Nat
  mode    : Nat
  fmt     : Nat
  panel   : Nat
  xbase   : Nat
  xstride : Nat
  xscale  : Nat
  quad    : Nat
  ncol    : Nat
  ext     : Nat
  /-- PANEL + LEN -/
  pend    : Nat
  /-- BMAP and OFF0 to OFF3 (04 Table 4-1) -/
  bmap    : Nat
  offs    : List Nat

/-- Bytes of an element. -/
def WalkDesc.esz (d : WalkDesc) : Nat := if d.fmt = 3 then 2 else 1
/-- MXFP8 formats carry scales. -/
def WalkDesc.mx (d : WalkDesc) : Bool := decide (4 ≤ d.fmt)

/-- A candidate that a lane emits: block, position k, element code. -/
structure Cand where
  blk : Nat
  k   : Nat
  w   : Nat

/-- What the fetch phase gathers: per lane the candidates in emission order and the weight scale of each block;
dropped indices, match cycles M, and weight bytes WB. -/
structure Plan where
  lanes : List (List Cand) := [[], [], [], []]
  wsc   : List (List Nat) := [[], [], [], []]
  drops : Nat := 0
  m     : Nat := 0
  wb    : Nat := 16

/-- Number at a byte offset. -/
def leAt (bs : List Byte) (o n : Nat) : Nat := leNat ((bs.drop o).take n)

/-- Appends to each lane. -/
def addLanes {α : Type} (a b : List (List α)) : List (List α) := List.zipWith (· ++ ·) a b

/-- Appends one more block to the plan: its candidates after the presence bitmap, scales, and its match cycles
max(1, largest lane) (04 Table 4-8). -/
def Plan.addBlock (p : Plan) (cs : List (List Cand)) (sc : List (List Nat)) (bytes : Nat) : Plan :=
  { p with
    lanes := addLanes p.lanes cs, wsc := addLanes p.wsc sc, wb := p.wb + bytes
    m := p.m + max 1 (listMax0 (cs.map (·.length))) }

/-- Bit k of the presence bitmap (03 R130). -/
def present (v : VWord) (k : Nat) : Bool := v.getLsbD k

/-- Block c of the block form (04 R156). -/
def planBlock (d : WalkDesc) (v : VWord) (c : Nat) (p : Plan) (s : State) : WalkRes Plan :=
  let e := d.esz
  let reg := d.panel + 16 * listAt d.offs c 0
  (walkRead d.tile d.daddr (some d.pend) p.wb (reg + 4 * d.quad * 32 * e) (128 * e) s).bind fun rows s =>
  (walkRead d.tile d.daddr (some d.pend) (p.wb + 128 * e) (reg + 1024 + 4 * d.quad) (if d.mx then 4 else 0) s).bind fun sc s =>
    let lane := fun i => (List.range 32).filterMap (fun m =>
      if present v (32 * c + m) then
        some { blk := c, k := 32 * c + m, w := leAt rows ((32 * i + m) * e) e : Cand }
      else none)
    (.ok (p.addBlock ((List.range 4).map lane) ((List.range 4).map (fun i => [leAt sc i 1]))
      (128 * e + sc.length)), s)

/-- Rows below r whose L1 bit is 1. -/
def rowsBelow (l1 r : Nat) : Nat := ((List.range r).filter (fun i => bit l1 i)).length

/-- Set bits of a 32-bit number. -/
def pop32 (n : Nat) : Nat := ((List.range 32).filter (fun i => bit n i)).length

/-- Bits set below m. -/
def popBelow (n m : Nat) : Nat := ((List.range m).filter (fun i => bit n i)).length

/-- Block c of the bitmap form (04 R157, R158). -/
def planBitmap (d : WalkDesc) (v : VWord) (c : Nat) (p : Plan) (s : State) : WalkRes Plan :=
  let e := d.esz
  let reg := d.panel + 16 * listAt d.offs c 0
  (walkRead d.tile d.daddr (some d.pend) p.wb reg 4 s).bind fun b1 s =>
  let l1 := leNat b1
  let n := pop32 l1
  (walkRead d.tile d.daddr (some d.pend) (p.wb + 4) (reg + 4) (4 * n) s).bind fun b0 s =>
  let l0 := fun r => if bit l1 r then leAt b0 (4 * rowsBelow l1 r) 4 else 0
  let vals := fun r => ((List.range r).map (fun i => pop32 (l0 i))).sum
  let before := vals (4 * d.quad)
  let quadv := vals (4 * d.quad + 4) - before
  (walkRead d.tile d.daddr (some d.pend) (p.wb + 4 + 4 * n) (reg + 4 + 4 * n + before * e) (quadv * e) s).bind fun vb s =>
  let sb := rowsBelow l1 (4 * d.quad)
  let sq := if d.mx then rowsBelow l1 (4 * d.quad + 4) - sb else 0
  (walkRead d.tile d.daddr (some d.pend) (p.wb + 4 + 4 * n + quadv * e) (reg + 4 + 4 * n + vals 32 * e + sb) sq s).bind fun scb s =>
    let lane := fun i =>
      let r := 4 * d.quad + i
      let base := vals r - before
      (List.range 32).filterMap (fun m =>
        if bit (l0 r) m && present v (32 * c + m) then
          some { blk := c, k := 32 * c + m, w := leAt vb ((base + popBelow (l0 r) m) * e) e : Cand }
        else none)
    let scale := fun i =>
      let r := 4 * d.quad + i
      [if d.mx && bit l1 r then leAt scb (rowsBelow l1 r - sb) 1 else 0]
    (.ok (p.addBlock ((List.range 4).map lane) ((List.range 4).map scale)
      (4 + 4 * n + quadv * e + sq)), s)

/-- The blocks of BMAP in ascending order; an absent block has no region and no cycle (04 R169). -/
def planBlocks (d : WalkDesc) (v : VWord) : Nat → Nat → Plan → State → WalkRes Plan
  | _, 0, p, s => (.ok p, s)
  | c, n + 1, p, s =>
    if bit d.bmap c then
      ((if d.mode = 0 then planBlock d v c p s else planBitmap d v c p s)).bind
        fun p s => planBlocks d v (c + 1) n p s
    else planBlocks d v (c + 1) n
      { p with wsc := addLanes p.wsc [[0], [0], [0], [0]] } s

/-- Slots of a group's metadata as the walker uses them: (value slot, position) (04 Table 4-4). -/
def pairedSlots (form nib : Nat) : List (Nat × Nat) :=
  if form = 2 then [(0, nib % 4), (1, nib / 4)]
  else (List.zip [0, 1] ((List.range 4).filter (fun m => bit nib m)))

/-- The paired forms (04 R159, R160). Every block takes 16 match cycles (R170). -/
def planPaired (d : WalkDesc) (v : VWord) (s : State) : WalkRes Plan :=
  let e := d.esz
  let sz := 64 * e + 16
  (walkRead d.tile d.daddr (some d.pend) 16 (d.panel + 16 + 4 * d.quad * sz) (4 * sz) s).bind fun recs s =>
  (walkRead d.tile d.daddr (some d.pend) (16 + 4 * sz) (d.panel + 16 + 32 * sz + 16 * d.quad)
    (if d.mx then 16 else 0) s).bind
    fun scb s =>
    let lane := fun i =>
      let rec_ := recs.drop (i * sz)
      let md := leAt rec_ (64 * e) 16
      ((List.range 32).map (fun g => (pairedSlots d.mode (bits md (4 * g) 4)).filterMap (fun q =>
        let k := 4 * g + q.2
        if present v k then some { blk := k / 32, k := k, w := leAt rec_ ((2 * g + q.1) * e) e : Cand }
        else none))).flatten
    (.ok { lanes := (List.range 4).map lane
           wsc := (List.range 4).map (fun i => (List.range 4).map (fun c => leAt scb (4 * i + c) 1))
           drops := 0, m := 64, wb := 16 + 4 * sz + scb.length }, s)

def pad16 (n : Nat) : Nat := (n + 15) / 16 * 16

/-- The indexed form (04 R161, R162). -/
def planIndexed (d : WalkDesc) (v : VWord) (s : State) : WalkRes Plan :=
  let e := d.esz
  (walkRead d.tile d.daddr (some d.pend) 16 (d.panel + 16) 32 s).bind fun ct s =>
  let cnt := fun r => leAt ct r 1
  let start := fun r => 48 + ((List.range r).map (fun i => pad16 (4 * cnt i))).sum
  let s0 := start (4 * d.quad)
  let len := start (4 * d.quad + 4) - s0
  (walkRead d.tile d.daddr (some d.pend) 48 (d.panel + s0) len s).bind fun lst s =>
  (walkRead d.tile d.daddr (some d.pend) (48 + len) (d.panel + start 32 + 16 * d.quad)
    (if d.mx then 16 else 0) s).bind
    fun scb s =>
    let entry := fun i n => lst.drop (start (4 * d.quad + i) - s0 + 4 * n)
    let lane := fun i => (List.range (cnt (4 * d.quad + i))).filterMap (fun n =>
      let k := leAt (entry i n) 0 2
      if k < d.ext && present v k then some { blk := k / 32, k := k, w := leAt (entry i n) 2 e : Cand } else none)
    let drop := fun i => ((List.range (cnt (4 * d.quad + i))).filter (fun n =>
      decide (d.ext ≤ leAt (entry i n) 0 2))).length
    (.ok { lanes := (List.range 4).map lane
           wsc := (List.range 4).map (fun i => (List.range 4).map (fun c => leAt scb (4 * i + c) 1))
           drops := ((List.range 4).map drop).sum
           m := max 1 (listMax0 ((List.range 4).map (fun i => cnt (4 * d.quad + i))))
           wb := 48 + len + scb.length }, s)

/-- The weight bytes of the walk's form. -/
def planOf (d : WalkDesc) (v : VWord) (s : State) : WalkRes Plan :=
  if d.mode < 2 then planBlocks d v 0 4 { } s
  else if d.mode < 4 then planPaired d v s
  else planIndexed d v s

/-- The activation columns in ascending order (04 R169). -/
def readCols (d : WalkDesc) (n0 : Nat) : Nat → Nat → State → WalkRes (List (List Byte))
  | _, 0, s => (.ok [], s)
  | j, n + 1, s =>
    (walkRead d.tile d.daddr none (n0 + j * 128 * d.esz) (d.xbase + j * d.xstride) (128 * d.esz) s).bind fun b s =>
    (readCols d n0 (j + 1) n s).bind fun r s => (.ok (b :: r), s)

/-- Phases 1 and 2: the descriptor and its checks (04 R164). -/
def walkDesc (t : Nat) (w : Word) (s : State) : WalkRes WalkDesc :=
  let a := ((s.tile t).sreg (wXrs1 w)).toNat
  let loads := loadsFrom a 16 4
  match checkLoads s t loads with
  | some tr => (.error tr, s)
  | none =>
    match readLoads t loads s with
    | (.ue adr y, s) => (.error { trapAt s t tcSramUe adr y with late := (adr - a) / 16 }, s)
    | (.ok b, s) =>
      let d : WalkDesc := {
        tile := t, daddr := a, mode := wMode w, fmt := wWfmt w, panel := leAt b 0 4, xbase := leAt b 4 4
        xstride := leAt b 8 4, xscale := leAt b 12 4, quad := leAt b 16 1, ncol := leAt b 17 1
        ext := leAt b 18 1, pend := 0, bmap := 0, offs := [] }
      let ok := decide (d.quad < 8) && (b.drop 19).all (fun x => x == 0#8) &&
        decide (1 ≤ d.ncol ∧ d.ncol ≤ 4) &&
        (if d.mode = 4 then decide (1 ≤ d.ext ∧ d.ext ≤ 128) else decide (d.ext = 0)) &&
        decide (d.panel % 16 = 0 ∧ d.xbase % 16 = 0 ∧ d.xstride % 16 = 0) &&
        (!d.mx || decide (d.xscale % 16 = 0))
      if ok then (.ok d, s) else (.error { trapAt s t tcWalk a 0 with late := 3 }, s)

/-- Phases 3 and 4: the panel header and its checks (04 R164, Table 4-1). -/
def walkHeader (d : WalkDesc) (s : State) : WalkRes WalkDesc :=
  (walkRead d.tile d.daddr none 0 d.panel 16 s).bind fun h s =>
    let len := leAt h 4 4
    let ok := decide (16 ≤ len ∧ len % 16 = 0) && decide (leAt h 0 1 = d.mode ∧ leAt h 1 1 = d.fmt) &&
      decide (leAt h 3 1 = 0) && decide (leAt h 2 1 < 16)
    if ok then
      (.ok { d with pend := d.panel + len, bmap := leAt h 2 1
                    offs := (List.range 4).map (fun c => leAt h (8 + 2 * c) 2) }, s)
    else (.error { trapAt s d.tile tcWalk d.daddr 0 with late := 4 }, s)

/-- MXFP8: the block sum of lane i over block c, if it received a product, scaled and added (04 R167). -/
def walkBlockSum (e : EFmt) (cs : List Cand) (col : List Byte) (sc : List Nat) (xs : List Byte) (j c : Nat)
    (r : Word × Fl) : Word × Fl :=
  let ps := (cs.filter (fun x => decide (x.blk = c))).map (fun x => (x.w, elemAt e col x.k))
  if ps.isEmpty then r
  else
    let b := mxBlock e r.1 ps (listAt sc c 0) (leAt xs (4 * j + c) 1)
    (b.1, r.2 ||| b.2)

/-- Element (i, j) after the walk (04 R167). -/
def walkElem (d : WalkDesc) (p : Plan) (cols : List (List Byte)) (xs : List Byte) (acc : Word) (i j : Nat) :
    Word × Fl :=
  let e := wFmt d.fmt
  let cs := p.lanes.getD i []
  let col := cols.getD j []
  if d.mx then
    (List.range 4).foldl (fun r c => walkBlockSum e cs col (p.wsc.getD i []) xs j c r) (acc, 0#6)
  else macSum e e (acc, 0#6) (cs.map (fun x => (x.w, elemAt e col x.k)))

/-- The whole walk: descriptor, plan, columns and activation scales. -/
def walk (t : Nat) (w : Word) (s : State) : WalkRes (WalkDesc × Plan × List (List Byte) × List Byte) :=
  (walkDesc t w s).bind fun d s =>
  (walkHeader d s).bind fun d s =>
  (planOf d ((s.tile t).vreg (wWv w)) s).bind fun p s =>
  let n0 := (p.wb + 63) / 64 * 64
  (readCols d n0 0 d.ncol s).bind fun cols s =>
  (walkRead t d.daddr none (n0 + d.ncol * 128 * d.esz) d.xscale (if d.mx then 16 else 0) s).bind fun xs s =>
    (.ok (d, p, cols, xs), s)

/-- Cycles of port B in the fetch phase of 04 R169: 64 bytes in each. -/
def fetchCycles (d : WalkDesc) (p : Plan) : Nat :=
  let xb := d.ncol * 128 * d.esz + (if d.mx then 16 else 0)
  (p.wb + 63) / 64 + (xb + 63) / 64

/-- T of 04 R169, with port B uncontended. -/
def walkCycles (d : WalkDesc) (p : Plan) : Nat := 4 + fetchCycles d p + p.m + 1

/-- The other requesters of port B that can be ready: the stream unit with inbound data, and Eddy spills (02 R77). -/
def portBRivals (x : Tile) : Nat :=
  boolNat (x.tags.any (fun e => match e.2 with
    | some r => r.inbound
    | none => false)) + boolNat (!x.spillQ.isEmpty || x.drain.isSome)

/-- Another requester of port B can be ready (02 R77, 04 R169). -/
def portBBusy (x : Tile) : Bool := decide (portBRivals x ≠ 0)

/-- The cycles that other requesters of port B take from n cycles of the fetch phase: free, but in the rotation each of
them is served at most once before each of the walker's (02 R77, 04 R169, log 1). -/
def portBLost (x : Tile) (n : Nat) (s : State) : Nat × State :=
  if portBBusy x then s.freeBelow (portBRivals x * n + 1) else (0, s)

/-- SWALK (04 R164 to R170). -/
def bodySwalk : Body := fun t w _ s =>
  let x := s.tile t
  if macPending x (wAd w) then .hold s
  else
    match walk t w s with
    | (.error tr, s) =>
      let (extra, s) := portBLost x (tr.late - 3) s
      .trap { tr with late := tr.late + extra } s
    | (.ok (d, p, cols, xs), s) =>
      let res := (List.range 16).map (fun n =>
        let acc := x.aword (wAd w) n
        if n % 4 < d.ncol then walkElem d p cols xs acc (n / 4) (n % 4) else (acc, 0#6))
      let fl := res.foldl (fun f e => f ||| e.2) 0#6
      let s := s.modTile t (fun y => (y.setAs (wAd w) 0 (res.map (·.1))).flag fl)
      let s := countOors x.ctx p.drops s
      let (extra, s) := portBLost x (fetchCycles d p) s
      .retire (walkCycles d p + extra) [rcA (wAd w), rcFp] 1 s

/-- SWALK: walks a sparse panel against the presence bitmap v[v] into a[ad] (R164). -/
def execSwalk (t : TileIx) (s : State) : Host.Outcome State Fault Refusal :=
  .next (issue t.val .swalk bodySwalk s)

end Sys2Proof.Machine
end

