-- ==== Sys2Proof/Machine/TileEvents.lean ====
section
/-!
DEFINITION. What happens in a tile after its instructions have issued: instructions that wait go on, computations
and requests end, HALT retires; and how a tile starts a launch (02 R61, R63 to R65, 03 R128, R143, 08 R336).
-/

namespace Sys2Proof.Machine

/-- The bodies of the instructions that can wait at issue. -/
def heldBody (o : Op) : Option Body :=
  match o with
  | .aget => some bodyAget
  | .aput => some bodyAput
  | .mma => some (bodyMma false)
  | .mmaz => some (bodyMma true)
  | .aclr => some bodyAclr
  | .swalk => some bodySwalk
  | .ecfg => some bodyEcfg
  | .eadd => some bodyEadd
  | .eaddv => some bodyEaddv
  | .espill => some bodyEspill
  | .emerge => some bodyEmerge
  | .ecount => some bodyEcount
  | .stream => some bodyStream
  | .swaitt => some bodySwaitt
  | .crRead => some bodyCrRead
  | .crWrite => some bodyCrWrite
  | .cbar => some bodyCbar
  | .lbar => some bodyLbar
  | .fence => some bodyFence
  | .waits => some bodyWaits
  | .halt => some bodyHalt
  | .rbnext => some bodyRbnext
  | _ => none


/-- The instruction that tile t holds goes on, if what it waits for has come about. The cycles waited are free,
but for a wait on matrix work and for one behind a drain (log 1). -/
def resume (t : Nat) (s : State) : State :=
  let x := s.tile t
  match x.held with
  | none => s
  | some w =>
    match (if stoppedByAbort s x then none else classify w) with
    | none => s
    | some o =>
      match heldBody o with
      | none => s
      | some body =>
        let s0 := s.setTile t { x with held := none }
        match body t w (issueAt x o w) s0 with
        | .hold s => s.modTile t (fun y => { y with held := some w })
        | _ =>
          match o with
          | .aget | .aput | .mma | .mmaz | .aclr | .swalk | .crRead | .crWrite
          | .ecfg | .eadd | .eaddv | .espill | .emerge | .ecount => perform t o w body s0
          | _ =>
            let (k, s0) := s0.free
            perform t o w body (s0.modTile t (fun y => { y with cycle := y.cycle + k }))

/-- The partner and third crew's tiles that replay tile x (10 R418). -/
def replayers (s : State) (x : Tile) : List Nat :=
  (s.tiles.filter (fun e => decide (e.2.job = .partner ∨ e.2.job = .triage) && decide (e.2.ctx = x.ctx) &&
    decide (e.2.launchId = x.launchId) && decide (e.2.crew = x.crew) && decide (e.2.tid = x.tid))).map (·.1)

/-- Partners that wait for tile t's next index, or for its HALT, go on (10 R418). -/
def resumeReplayers (t : Nat) (s : State) : State :=
  let x := s.tile t
  if x.job = .launch then forList resume (replayers s x) s else s

/-- HALT retires: Eddy entries still valid are discarded, and the count is the tile's (02 R65, R70, 04 R180). -/
def haltRetire (t : Nat) (s : State) : State :=
  let x := s.tile t
  if x.run = .halting ∧ haltClear x = true then
    let s := s.setTile t { x with run := .halted, eddy := [], eddyErr := [] }
    let s := if x.job = .launch then noteCycles x.ctx x.cycle s else s
    resumeReplayers t s
  else s

/-- An EADD or EADDV of tile x waits for a line to be sent (04 R179). -/
def awaitsLine (x : Tile) : Bool :=
  match x.held.bind classify with
  | some .eadd | some .eaddv => x.drain.isNone
  | _ => false

/-- SPILL_LINE_SEND: the oldest completed line is served by port B; the cycles that an instruction has waited for it are
free (04 R179, log 1). -/
def spillSend (t : Nat) (s : State) : State :=
  let x := s.tile t
  if !liveFor s t x.launchId then s
  else
    let s := sendLines t 1 s
    if awaitsLine x then
      let (k, s) := s.free
      resume t (s.modTile t (fun y => { y with cycle := y.cycle + k }))
    else resume t s

/-- The state that a tile starts a launch from, with its identity (02 R63, Table 2-2, 03 R133, 04 R172). -/
def freshTile (x : Tile) (image : List Word) : Tile :=
  { run := .loaded, job := x.job, tid := x.tid, crew := x.crew, ncrew := x.ncrew, ctx := x.ctx
    launchId := x.launchId, partNo := x.partNo, jobid := x.jobid, argp := x.argp, entry := x.entry
    imem := image.zipIdx.foldl (fun m e => Tbl.put 0 e.2 e.1 m) [] }

/-- The executing launch that tile x works for, as a crew of it or under its pair check. -/
def launchOf (s : State) (x : Tile) : Option Exec :=
  match (s.ctx x.ctx).exec with
  | some e => if e.launch.id = x.launchId then some e else none
  | none => none

/-- CODE_IMAGE_ARRIVE: the tile initialises its state, zero-fills data SRAM and loads the code (02 R63, R64). -/
def codeArrive (t : Nat) (s : State) : State :=
  let x := s.tile t
  if x.run ≠ .waitCode then s
  else
    match launchOf s x with
    | none => s
    | some e => s.setTile t (freshTile x e.image)

/-- TILE_EXEC_BEGIN: the first instruction, at ENTRY; a catch launch holds until its count (06 R264, 08 R336). -/
def execBegin (t : Nat) (s : State) : State :=
  let x := s.tile t
  match launchOf s x with
  | none => s
  | some e =>
    let held := e.launch.desc.isCatch && !e.slipped && decide (s.now.toNat < e.launch.desc.catchCnt)
    let gone := decide (x.job = .launch) && (s.ctx x.ctx).abort.isSome
    if x.run ≠ .loaded || held || gone then s
    else s.setTile t { x with run := .running, pc := x.entry, cycle := 0 }

/-- MMA_COMPLETE: a computation ends, writing a[ad] and freeing its operand buffer (R128). -/
def execMmaComplete (t : TileIx) (s : State) : Host.Outcome State Fault Refusal :=
  .next (resume t.val (mmaEnd t.val s))

/-- HALT_RETIRE: HALT retires when every request has completed and every write is acknowledged (R65). -/
def execHaltRetire (t : TileIx) (s : State) : Host.Outcome State Fault Refusal := .next (haltRetire t.val s)

/-- RBNEXT: takes the next row-block index from its own queue or steals one (R143). -/
def execRbnext (t : TileIx) (s : State) : Host.Outcome State Fault Refusal :=
  .next (resumeReplayers t.val (issue t.val .rbnext bodyRbnext s))

/-- STREAM_REPLY: data for a stream request arrive and may complete its tag (R82). -/
def execStreamReply (t : TileIx) (tag : Fin 16) (s : State) : Host.Outcome State Fault Refusal :=
  .next (resume t.val (serveReply t.val tag.val s))

/-- WRITE_ACK: a write or atomic add is accepted and its acknowledgement reaches the tile (R298). -/
def execWriteAck (t : TileIx) (what : AckOf) (s : State) : Host.Outcome State Fault Refusal :=
  match what with
  | .stream tag => .next (resume t.val (ackStream t.val tag.val s))
  | .eddy => .next (resume t.val (ackEddy t.val s))

/-- SPILL_LINE_SEND: a completed spill line is sent through port B (R179). -/
def execSpillLineSend (t : TileIx) (s : State) : Host.Outcome State Fault Refusal := .next (spillSend t.val s)

/-- CODE_IMAGE_ARRIVE: the broadcast code image reaches a tile, which initialises and loads (R264). -/
def execCodeImageArrive (t : TileIx) (s : State) : Host.Outcome State Fault Refusal := .next (codeArrive t.val s)

/-- TILE_EXEC_BEGIN: a tile issues at ENTRY after loading, or at the catch count (R336). -/
def execTileExecBegin (t : TileIx) (s : State) : Host.Outcome State Fault Refusal := .next (execBegin t.val s)

/-- EDDY_DRAIN_DONE: a drain sends its last request and flushes its spill line (R135). -/
def execEddyDrainDone (t : TileIx) (s : State) : Host.Outcome State Fault Refusal :=
  .next (resume t.val (drainDone t.val s))

end Sys2Proof.Machine
end

