-- ==== Sys2Proof/Machine/CStream.lean ====
section
/-!
DEFINITION. The commands of a command stream and what ends an executing launch: WEIR to END (06 Table 6-5, R252,
R255), RUN and its code image (R264, 08 R336, R339), time limit (R268), pin end (R267), wake records (08 R347 to
R349), and the writing of completion records (06 R239 to R241, R269, R604).
-/

namespace Sys2Proof.Machine

/-- The executing launch of c and the command at which it stands, where that is `op`. -/
def atCmd (s : State) (c op : Nat) : Option (Exec × Cmd) :=
  match (s.ctx c).exec with
  | none => none
  | some x =>
    match nextCmd x with
    | none => none
    | some k => if k.op = op then some (x, k) else none

/-- Every Weir descriptor that the launch has issued is complete (06 WAITW). -/
def weirDone (s : State) (c : Nat) (x : Exec) : Bool := !weirPending s c x.launch.id

/-- Every tile of the launch has retired HALT; a launch that has not run has none (06 WAITT). -/
def tilesDone (s : State) (x : Exec) : Bool :=
  x.ranAt.isNone || x.tiles.all (fun t => decide ((s.tile t.2.2).run = .halted))

/-- The command has executed and its target faulted: CSTREAM_FAULT (06 R255, R271). -/
def cmdFault (c ix reason fetch : Nat) (s : State) : State :=
  let s := s.modExec c (fun x => { x with began := true })
  decideEnd c stCstream (csDetail ix reason fetch) s.now s

/-- WEIR: issues, or begins to wait (05 R226, 06 R252). -/
def cmdWeir (c : Nat) (s : State) : State :=
  match atCmd s c 0x01 with
  | none => s
  | some _ =>
    let s1 := s.modExec c (fun x => { x with weirWait := some (x.weirWait.getD s.now) })
    if weirNextUp s1 = some c then issueWeir c s1 else s1

/-- The tiles that a RUN starts: (tile, job, CREW, TID, PART as tile code reads it) (06 R248, 10 R418). -/
def startTiles (x : Exec) : List (Nat × TJob × Nat × Nat × Nat) :=
  let own := x.tiles.map (fun t => (t.2.2, TJob.launch, t.1, t.2.1, tilePart t.2.2))
  match x.pair with
  | none => own
  | some p =>
    own ++ p.pTiles.zipIdx.map (fun t => (t.1, TJob.partner, p.crew, t.2, p.gChk / 64))

/-- RUN: reads the code image once and starts the tile phase; a catch launch's not before C - 6,000, and late when
the commands before it completed after that (06 R264, 08 R336, R339). -/
def cmdRun (c : Nat) (s : State) : State :=
  match atCmd s c 0x03 with
  | none => s
  | some (x, _) =>
    let d := x.launch.desc
    let len := 4 * d.codeWords
    if (d.isCatch && decide (s.now.toNat + 6000 < d.catchCnt)) || rangeShut s c d.code.toNat len then s
    else
      let late := d.isCatch && decide (d.catchCnt < x.prevDone.toNat + 6000)
      let s := if late then
          raise 0x3013 c x.launch.id.toNat
            (s.modStroke (fun k => { k with cntSlip := satAdd 32 k.cntSlip 1 }))
        else s
      match readLocal (viaDev c) d.code.toNat len s with
      | (.err f _, s) => cmdFault c x.next crCodeFetch f.reason s
      | (.ok bs, s) =>
        let image := (List.range d.codeWords).map (fun i => BitVec.ofNat 32 (leNat ((bs.drop (4 * i)).take 4)))
        let s := forList (fun t s => s.setTile t.1 {
          run := .waitCode, job := t.2.1, crew := t.2.2.1, tid := t.2.2.2.1, partNo := t.2.2.2.2
          ncrew := d.ncrew, ctx := c, launchId := x.launch.id, jobid := (s.ctx c).jobid
          argp := BitVec.ofNat 42 d.argp.toNat, entry := BitVec.ofNat 12 d.entry }) (startTiles x) s
        advance c (s.modExec c (fun x => { x with image := image, ranAt := some s.now, slipped := late }))

def cmdWaitw (c : Nat) (s : State) : State :=
  match atCmd s c 0x02 with
  | none => s
  | some (x, _) => if weirDone s c x then advance c s else s

def cmdWaitt (c : Nat) (s : State) : State :=
  match atCmd s c 0x04 with
  | none => s
  | some (x, _) => if tilesDone s x then advance c s else s

/-- Writes the bytes of a WRITE or STAMP at its target (06 R251, R255). -/
def cmdStore (c : Nat) (x : Exec) (k : Cmd) (bs : List Byte) (s : State) : State :=
  if pageShut s c k.addr.toNat then s
  else
    match writeLocal (viaDev c) k.addr.toNat bs s with
    | (.err f _, s) => cmdFault c x.next f.reason 0 s
    | (.ok _, s) => advance c s

def cmdWrite (c : Nat) (s : State) : State :=
  match atCmd s c 0x05 with
  | none => s
  | some (x, k) =>
    if weirDone s c x && tilesDone s x then cmdStore c x k (leBytes 4 k.imm.toNat) s else s

def cmdStamp (c : Nat) (s : State) : State :=
  match atCmd s c 0x06 with
  | none => s
  | some (x, k) => cmdStore c x k (leBytes 8 s.now.toNat) s

/-! ### Wake records -/

/-- The 64 bytes of a wake record (08 Table 8-8, R346). -/
def wakeBytes (s : State) (x : Exec) (w : WakePt) : List Byte :=
  let z := fun (n : Nat) => if w.overflow then 0 else n
  leBytes 8 (z w.digest.toNat) ++ leBytes 4 (z w.blocks) ++ leBytes 4 (z w.partials) ++
    leBytes 4 x.launch.id.toNat ++ leBytes 2 w.num ++
    leBytes 1 (1 + 2 * boolNat w.overflow + 4 * boolNat x.launch.desc.timed) ++ leBytes 1 0 ++
    leBytes 4 x.mapEpoch.toNat ++ leBytes 4 x.fwVersion.toNat ++ leBytes 2 s.fab.devNum.toNat ++
    leBytes 2 x.enabled ++ leBytes 4 (z w.refreshHits) ++ leBytes 4 (z w.retryHits) ++ leBytes 4 0 ++
    leBytes 8 x.tDispatch.toNat ++ leBytes 8 0

/-- Writes the wake records of a launch that completes with class C (08 R347, R348). -/
def writeWakes (c : Nat) (x : Exec) (s : State) : State :=
  if !(s.ctx c).wakeEn then s
  else
    forList (fun w s =>
      match writeLocal (viaDev c) ((s.ctx c).wakeBase + 64 * w.num) (wakeBytes s x w) s with
      | (.ok _, s) => s
      | (.err _ _, s) => raise 0x7021 c x.launch.id.toNat s) x.wakes s

/-! ### END, time limit, pin -/

/-- The class C status with which a launch completes now (06 R265, 10 R429). -/
def finalStatus (s : State) (x : Exec) : Nat :=
  if x.pinLost then stEpochLost
  else if decide (x.launch.desc.deadline ≠ 0) && decide (x.launch.desc.deadline < s.now.toNat) then stOverrun
  else stOk

/-- An easy-all for context c's job has arrived and waits to be handled: it comes in the count of END and takes
precedence (07 R316, 06 R276, 01 R50). -/
def easyAllHere (s : State) (c : Nat) : Bool :=
  s.fab.arrived.any (fun a => decide (a.pkt.ptype = .easyAll) && decide (a.pkt.jobid = (s.ctx c).jobid) &&
    decide (a.pkt.jobid ≠ 0) && notAfter (s.ctx c).jobAt a.pkt.stroke &&
    !(keptTriples s).any (fun t =>
      !t.boot && decide (t.job = a.pkt.jobid) && decide (t.origin = a.pkt.src) && decide (t.stroke = a.pkt.stroke)))

/-- END: waits as WAITW and WAITT do and for a pair check's verdict; then the launch completes (06 R251, R276,
10 R419). -/
def cmdEnd (c : Nat) (s : State) : State :=
  match atCmd s c 0x0F with
  | none => s
  | some (x, _) =>
    let base := (s.ctx c).wakeBase
    if !weirDone s c x || !tilesDone s x || (x.pair.isSome && x.ranAt.isSome) ||
        ((s.ctx c).wakeEn && !x.wakes.isEmpty && pageShut s c base) || easyAllHere s c then s
    else
      let s := voidPair c s
      let st := finalStatus s x
      let s := if st = stEpochLost then s.umpCount 7 else s
      let s := writeWakes c x s
      launchDone c (s.modExec c (fun x => { x with
        began := true, ending := some { status := st, csDetail := 0, at_ := s.now } }))

/-- TIME_LIMIT: the launch has executed longer than LIMIT_MS (06 R268, R271). -/
def timeLimit (c : Nat) (s : State) : State :=
  match (s.ctx c).exec with
  | none => s
  | some x =>
    let lim := (s.ctx c).limitMs
    if decide (lim ≠ 0) && decide (lim * 1000000 < s.since x.tDispatch) then decideEnd c stTimeLimit 0 s.now s else s

/-- PIN_EXPIRED: a pin ends by time (06 R267). -/
def pinExpired (c : Nat) (s : State) : State :=
  s.modExec c (fun x => match x.pinEnd with
    | some e => if e ≤ s.now.toNat then { x with pinEnd := none, pinExpired := true } else x
    | none => x)

/-! ### Completion records -/

/-- Sets PHASE in a record (06 R239). -/
def withPhase (ph : Bool) (bs : List Byte) : List Byte :=
  listSet bs 5 (bs.getD 5 0 ||| BitVec.ofNat 8 (128 * boolNat ph))

/-- The record at the head has left: CQ_TAIL and PHASE move on (06 R239). -/
def cqAdvance (c : Nat) (s : State) : State :=
  s.modCtx c (fun x =>
    let t := (x.cqTail + 1) % ringSize x.cqSize
    { x with done := x.done.drop 1, cqTail := t, cqPhase := if t = 0 then !x.cqPhase else x.cqPhase })

/-- The completion interrupt (06 R241, 13 R527). -/
def cqInterrupt (c : Nat) (s : State) : State :=
  if (s.ctx c).irqEn && s.host.attached then { s with msix := s.msix ++ [c] } else s

/-- COMPLETION_RECORD_WRITE: the oldest record, when the ring has room (06 R239 to R241, R604, 13 R522). -/
def recordWrite (c : Nat) (s : State) : State :=
  let x := s.ctx c
  match x.done with
  | [] => s
  | d :: _ =>
    let a := x.cqBase + 128 * x.cqTail
    let bs := withPhase x.cqPhase d.bytes
    if !s.alive then s
    else if !cqRoom x then noteFull c s
    else if x.cqLoc then
      if stackShut s (frameStack (a / frameBytes)) then s
      else
        match devWrite .engine a bs s with
        | (.err f e, s) => noteFull c (dmaFault c (ringKind f) e (cqAdvance c s))
        | (.ok _, s) => noteFull c (cqInterrupt c (cqAdvance c s))
    else if s.host.attached then
      noteFull c (cqInterrupt c (cqAdvance c { s with hostMem := putBytes 0 s.hostMem a bs }))
    else s

/-- WEIR: issues the Weir descriptor at ADDR (R251). -/
def execWeirCmd (c : CtxIx) (s : State) : Host.Outcome State Fault Refusal := .next (cmdWeir c.val s)

/-- WAITW: waits until the launch's Weir descriptors are complete (R251). -/
def execWaitw (c : CtxIx) (s : State) : Host.Outcome State Fault Refusal := .next (cmdWaitw c.val s)

/-- RUN: starts the tile phase (R264). -/
def execRunCmd (c : CtxIx) (s : State) : Host.Outcome State Fault Refusal := .next (cmdRun c.val s)

/-- WAITT: waits until every tile has retired HALT (R251). -/
def execWaitt (c : CtxIx) (s : State) : Host.Outcome State Fault Refusal := .next (cmdWaitt c.val s)

/-- WRITE: waits, then writes IMM at ADDR (R251). -/
def execWriteCmd (c : CtxIx) (s : State) : Host.Outcome State Fault Refusal := .next (cmdWrite c.val s)

/-- STAMP: writes the Stroke count at ADDR (R251). -/
def execStampCmd (c : CtxIx) (s : State) : Host.Outcome State Fault Refusal := .next (cmdStamp c.val s)

/-- END: waits, then the launch completes (R251). -/
def execEndStream (c : CtxIx) (s : State) : Host.Outcome State Fault Refusal := .next (thenPass (cmdEnd c.val) s)

/-- TIME_LIMIT: an executing launch exceeds LIMIT_MS (R268). -/
def execTimeLimit (c : CtxIx) (s : State) : Host.Outcome State Fault Refusal :=
  .next (thenPass (timeLimit c.val) s)

/-- PIN_EXPIRED: a pin ends by time (R267). -/
def execPinExpired (c : CtxIx) (s : State) : Host.Outcome State Fault Refusal := .next (pinExpired c.val s)

/-- COMPLETION_RECORD_WRITE: a ready record is written when the ring has room (R239). -/
def execCompletionRecordWrite (c : CtxIx) (s : State) : Host.Outcome State Fault Refusal :=
  .next (recordWrite c.val s)

end Sys2Proof.Machine
end

