-- ==== Sys2Proof/Machine/Weir.lean ====
section
/-!
DEFINITION. Frame commands, the sweep and the scrubber (05 R204 to R208, R607), invalidation of translations
(R212), and the Weir engines: descriptors, their four operations, single atomic adds and their ends (R219 to R228).
-/

namespace Sys2Proof.Machine

/-! ### Frames -/

def FState.code : FState → Nat
  | .free => 0 | .owned => 1 | .system => 2 | .poisoned => 3

/-- FRAME_STAT.RESULT (05 Table 5-8). -/
def frDone : Nat := 0
def frBadState : Nat := 1
def frSweeping : Nat := 2
def frBadFrame : Nat := 3
def frBadOp : Nat := 4

/-- The frame's state allows the OP: 1 ASSIGN_OWNED, 2 ASSIGN_SYSTEM, 3 RELEASE, 4 QUERY (05 Table 5-3). -/
def frameAllows (x : Frame) (op : Nat) : Bool :=
  match x.st with
  | .free => decide (op = 1) || decide (op = 2) || decide (op = 4)
  | .owned | .system => decide (op = 3) || decide (op = 4)
  | .poisoned => (decide (op = 3) && !x.scrub) || decide (op = 4)

/-- RESULT of a FRAME_CMD (05 R607, 11 R466). -/
def frameResult (s : State) (op f c : Nat) : Nat :=
  if s.rst.oos || decide (op < 1) || decide (4 < op) then frBadOp
  else if numFrames ≤ f then frBadFrame
  else if decide (op = 1) && s.sweeping c then frSweeping
  else if frameAllows (s.frame f) op then frDone else frBadState

/-- What an OP makes of a frame; only ASSIGN_OWNED writes the owner (05 Table 5-3, log 37). -/
def frameAfter (x : Frame) (op c : Nat) : Frame :=
  if op = 1 then { st := .owned, owner := c, scrub := false }
  else if op = 2 then { x with st := .system, scrub := false }
  else if op = 3 then { x with st := .poisoned, scrub := true }
  else x

/-- FRAME_CMD (05 R607). -/
def frameCmd (op f c : Nat) (s : State) : State :=
  if !s.alive then s
  else
    let r := frameResult s op f c
    let s := if r = frDone then s.setFrame f (frameAfter (s.frame f) op c) else s
    let s := { s with fcResult := r }
    if r = frBadOp ∨ r = frBadFrame then s
    else
      let x := s.frame f
      { s with fcState := x.st.code, fcScrub := x.scrub, fcOwner := x.owner }

/-- FRAME_SWEEP_DONE: after 24,576 MCLK cycles the frames of the context are POISONED (05 R207). -/
def sweepDone (c : Nat) (s : State) : State :=
  match (s.ctx c).sweep with
  | none => s
  | some a =>
    if s.since a < 12288 then s
    else
      let s := forList (fun e s =>
        let x := s.frame e.1
        if x.st = .owned ∧ x.owner = c then s.setFrame e.1 { x with st := .poisoned, scrub := false } else s)
        s.frames s
      let s := raise 0x2003 c 0 (s.modCtx c (fun x => { x with sweep := none }))
      settleAbort c s

/-- The lowest frame of stack k that the scrubber has before it (05 R206). -/
def nextScrub (s : State) (k : Nat) : Option Nat :=
  ((List.range 24576).map (24576 * k + ·)).find? (fun f =>
    (frameCheck s .scrubber true (f * frameBytes)).isNone)

/-- SCRUB_FRAME_DONE: the frame reads as zero and is FREE (05 R206). No frame is scrubbed while a TIMED launch
executes (08 R341), nor before training nor during a reset of the stack. -/
def scrubDone (k : Nat) (s : State) : State :=
  if timedRuns s || stackShut s k || !(s.stk k).trained then s
  else
    match nextScrub s k with
    | none => s
    | some f =>
      let st := s.stk k
      let mine := fun (l : Nat) => decide (l * 64 / frameBytes = f)
      let s := { (s.setStk k { st with snoop := st.snoop.filter (fun l => !mine l) }) with
        snoops := s.snoops ++ st.snoop.filter mine
        hbm := Tbl.clear (f * frameBytes) frameBytes s.hbm
        lineErr := Tbl.clear (f * frameBytes / 64) (frameBytes / 64) s.lineErr }
      s.setFrame f { s.frame f with st := .free, scrub := false }

/-! ### BTT_INVAL -/

/-- A write of BTT_INVAL. GO starts an invalidation of what the write names; while one runs GO stays 1, the other fields
take the write and the invalidation under way goes on as it began (05 R212, 00 Table 0-5, log 19). -/
def bttWrite (v : BitVec 64) (s : State) : State :=
  if !s.alive then s
  else
    let n := v.toNat
    let starts := bit n 63 && !s.btiGo
    { s with
      btiCtx := bits n 0 6, btiPage := bits n 6 21, btiAll := bit n 62, btiGo := s.btiGo || bit n 63
      btiNow := if starts then (bits n 0 6, bits n 6 21, bit n 62) else s.btiNow }

/-- BTT_INVAL_DONE: the entries leave every cache and GO reads 0 (05 R212). -/
def bttDone (s : State) : State :=
  if !s.btiGo then s
  else
    let s1 := forUp (fun k s =>
      { s with tcache := Tbl.put [] k ((Tbl.look [] k s.tcache).filter (fun e =>
          !(decide (e.ctx = s.btiNow.1) && (s.btiNow.2.2 || decide (e.page = s.btiNow.2.1))))) s.tcache }) 0 9 s
    { s1 with btiGo := false }

/-! ### Weir engines -/

/-- An abort has stopped the parts of the launch's descriptors: 3,000 counts after its start (11 Table 11-5). -/
def weirStopped (s : State) (j : WeirJob) : Bool :=
  match (s.ctx j.ctx).abort with
  | some a => decide (3000 ≤ s.since a.start)
  | none => false

/-- The engines perform descriptor i, which the command says is an OP; a bad descriptor ends with its fault
whatever OP was named (05 R221, R222, R228). -/
def weirPerform (op i : Nat) (s : State) : State :=
  match s.weir[i]? with
  | none => s
  | some j =>
    if j.code.isSome || weirStopped s j then s
    else
      let r := wRead j.ctx j.addr 64 (fun bs s1 =>
        let d := parseWeir bs
        if !weirOk d then (.done wcDesc 0, s1)
        else if d.op ≠ op then (.wait, s1)
        else weirRun j.ctx d s1) s
      match r with
      | (.wait, _) => s
      | (.go, s) => weirEnds i wcOk 0 s
      | (.done code a, s) => weirEnds i code a s

/-- WEIR_DESC_COMPLETE: descriptor i is complete and gives up its place, and the WEIR command that has waited longest
issues (05 R225, R226). -/
def weirComplete (i : Nat) (s : State) : State :=
  match s.weir[i]? with
  | none => s
  | some j => if j.code.isNone then s else issueWaiting { s with weir := listDrop s.weir i }

/-- SINGLE_ATOMADD: request i is performed in the base die, or its fault is answered (05 R223, 07 R298, R302). -/
def singleAtom (i : Nat) (s : State) : State :=
  match s.atoms[i]? with
  | none => s
  | some a =>
    if a.acked || pageShut s a.ctx a.loc then s
    else
      match a.tile with
      | some (t, pc, launch) =>
        match atomAdd (viaTile t a.ctx) false a.loc a.val s with
        | (.err f _, s) =>
          eddyTrap t launch pc f.cause (s.fab.devNum.toNat * 2 ^ 42 + a.loc) { s with atoms := listDrop s.atoms i }
        | (.ok _, s) => { s with atoms := listSet s.atoms i { a with acked := true } }
      | none =>
        match a.pkt with
        | none => { s with atoms := listDrop s.atoms i }
        | some q =>
          let (r, s) := atomAdd { cache := devCache, ctx := a.ctx, remote := true } false a.loc a.val s
          let s := { s with atoms := listDrop s.atoms i }
          match r with
          | .err f _ => faultReply q (match f with
              | .xlate => reXlate
              | .perm => rePerm
              | .poison => rePoison) s
          | .ok _ => routerPut (replyTo s q .replyAck 0 [] q.loc) s

/-- ASSIGN_OWNED: a FREE frame becomes OWNED by a context (R607). -/
def execAssignOwned (frame : BitVec 18) (c : CtxIx) (s : State) : Host.Outcome State Fault Refusal :=
  .next (frameCmd 1 frame.toNat c.val s)

/-- ASSIGN_SYSTEM: a FREE frame becomes SYSTEM (R607). -/
def execAssignSystem (frame : BitVec 18) (s : State) : Host.Outcome State Fault Refusal :=
  .next (frameCmd 2 frame.toNat 0 s)

/-- RELEASE: a frame is given up for scrubbing (R607). -/
def execReleaseFrame (frame : BitVec 18) (s : State) : Host.Outcome State Fault Refusal :=
  .next (frameCmd 3 frame.toNat 0 s)

/-- QUERY: reports a frame's state (R607). -/
def execQueryFrame (frame : BitVec 18) (s : State) : Host.Outcome State Fault Refusal :=
  .next (frameCmd 4 frame.toNat 0 s)

/-- BTT_INVAL: a write of the register; GO starts an invalidation (R212). -/
def execBttInval (v : BitVec 64) (s : State) : Host.Outcome State Fault Refusal := .next (bttWrite v s)

/-- BTT_INVAL_DONE: the invalidation completes (R212). -/
def execBttInvalDone (s : State) : Host.Outcome State Fault Refusal := .next (bttDone s)

/-- FRAME_SWEEP_DONE: the frames of an aborted context are POISONED (R207). -/
def execFrameSweepDone (c : CtxIx) (s : State) : Host.Outcome State Fault Refusal := .next (sweepDone c.val s)

/-- SCRUB_FRAME_DONE: the scrubber finishes a frame (R206). -/
def execScrubFrameDone (st : PartIx) (s : State) : Host.Outcome State Fault Refusal := .next (scrubDone st.val s)

/-- GATHER: copies indexed rows (R222). -/
def execWeirGather (i : Nat) (s : State) : Host.Outcome State Fault Refusal := .next (weirPerform 0 i s)

/-- SEGSUM: sums indexed rows per segment (R222). -/
def execWeirSegsum (i : Nat) (s : State) : Host.Outcome State Fault Refusal := .next (weirPerform 1 i s)

/-- ATOMADD descriptor: scatters spill records as atomic adds (R222). -/
def execWeirAtomadd (i : Nat) (s : State) : Host.Outcome State Fault Refusal := .next (weirPerform 2 i s)

/-- FILL: writes a repeated pattern (R222). -/
def execWeirFill (i : Nat) (s : State) : Host.Outcome State Fault Refusal := .next (weirPerform 3 i s)

/-- WEIR_DESC_COMPLETE: a descriptor is complete and frees its place (R225). -/
def execWeirDescComplete (i : Nat) (s : State) : Host.Outcome State Fault Refusal := .next (weirComplete i s)

/-- SINGLE_ATOMADD: one FP32 atomic add is performed (R223). -/
def execSingleAtomadd (i : Nat) (s : State) : Host.Outcome State Fault Refusal := .next (singleAtom i s)

end Sys2Proof.Machine
end

