-- ==== Sys2Proof/Machine/Packets.lean ====
section
/-!
DEFINITION. Packets at this device: the router (07 R299 to R301), the combiner and its pending slots (R304 to R306),
requests served as their target (R297, R298, R302), and replies to this device's tiles.
-/

namespace Sys2Proof.Machine

/-! ### The router -/

/-- Coordinates of a device number on the machine's torus (01 R39, 07 R284). -/
def devCoord (d dim : Nat) : Nat :=
  match dim with
  | 0 => d % 4
  | 1 => d / 4 % 4
  | _ => 4 * (d / 64) + d / 16 % 4

/-- Offset of a packet in a dimension (07 R299). -/
def offset (f : Fabric) (dest dim : Nat) : Nat :=
  let l := ringLen f dim
  if l = 0 then 0 else (devCoord dest dim + l - ownCoord f dim % l) % l

/-- The productive ports of a destination (07 R299). -/
def productive (f : Fabric) (dest : Nat) : List Nat :=
  (List.range 12).filter (fun n =>
    let dim := n / 4
    let d := offset f dest dim
    let l := ringLen f dim
    if n / 2 % 2 = 0 then decide (0 < d) && decide (2 * d ≤ l) else decide (0 < d) && decide (l ≤ 2 * d))

/-- The ports of the dimension-order direction of a packet in escape, and its dimension; none where the packet is
at its destination (07 R300). -/
def escapePorts (f : Fabric) (dest : Nat) : Option (Nat × List Nat) :=
  match (List.range 3).find? (fun dim => decide (offset f dest dim ≠ 0)) with
  | none => none
  | some dim =>
    let base := 4 * dim + (if 2 * offset f dest dim ≤ ringLen f dim then 0 else 2)
    some (dim, [base, base + 1])

/-- The port of the most credits, the lowest number on a tie; none where every credit is 0. -/
def mostCredit (credit : Nat → Nat) (l : List Nat) : Option Nat :=
  match listMin (fun a b => decide (credit b < credit a)) l with
  | some n => if 0 < credit n then some n else none
  | none => none

def creditOf (l : List Credits) (n : Nat) : Credits := l[n]?.getD { adaptive := 0, esc0 := 0, esc1 := 0 }

/-- Packet i leaves the router's queue on port n. -/
def leave (i n : Nat) (q : Queued) (esc : Option Bool) (s : State) : State := putFlit n q.pkt esc (leaveQueue i q s)

/-- ROUTE_PACKET: an adaptive hop on the productive port of the most free credits, or else a hop in escape
(07 R299, R300). Either UP port of the escape direction may be used (log 1). -/
def routePacket (i : Nat) (credits : List Credits) (s : State) : State :=
  match s.fab.queue[i]? with
  | none => s
  | some q =>
    let dest := q.pkt.dest.toNat
    let usable := fun n => (s.port n).room q.pkt
    let adaptive := if q.esc.isSome then none
      else mostCredit (fun n => (creditOf credits n).adaptive) ((productive s.fab dest).filter usable)
    match adaptive with
    | some n => leave i n q none s
    | none =>
      match escapePorts s.fab dest with
      | none => s
      | some (dim, ports) =>
        let ch := decide (q.esc = some (dim, true))
        let free := fun n => let c := creditOf credits n; if ch then c.esc1 else c.esc0
        let l := ports.filter (fun n => usable n && decide (0 < free n))
        match l with
        | [] => s
        | [n] => leave i n q (some ch) s
        | n :: _ =>
          let (k, s) := s.freeBelow 2
          leave i (n + k) q (some ch) s

/-- UNROUTABLE: no productive port is UP, or more than 100 µs at this router (07 R301). -/
def unroutable (i : Nat) (s : State) : State :=
  match s.fab.queue[i]? with
  | none => s
  | some q =>
    let ports := productive s.fab q.pkt.dest.toNat
    if ports.any (fun n => decide ((s.port n).st = .up)) && decide (s.since q.since ≤ 100000) then s
    else
      let due := match s.fab.unroutableAt with
        | some a => decide (1000000 ≤ s.since a)
        | none => true
      let s := (leaveQueue i q s).modFab (fun f => { f with
        cntUnroutable := satAdd 32 f.cntUnroutable 1
        unroutableAt := if due then some s.now else f.unroutableAt })
      let s := if due then raise 0x3007 noUnit q.pkt.dest.toNat s else s
      if isRequest q.pkt.ptype then faultReply q.pkt reUnroutable s else s

/-! ### The combiner -/

/-- The combiner's entries: those held, then those of the output queues (07 R304). -/
def entries (f : Fabric) : List Comb := f.comb ++ f.queue.filterMap (·.entry)

/-- A free pending slot: neither in use nor taken by an entry (07 R304). -/
def freeSlot (f : Fabric) : Option Nat :=
  (List.range 512).find? (fun k => (Tbl.look none k f.slots).isNone && !((entries f).any (fun e => decide (e.slot = some k))))

/-- The entry has a packet's key (07 R304). -/
def Comb.keyed (q : Packet) (e : Comb) : Bool := decide (e.dest = q.dest) && decide (e.jobid = q.jobid) && decide (e.loc = q.loc)

/-- Records absorbed by an entry: all but its own (07 R304). -/
def absorbed (e : Comb) : Nat := e.recs.length - 1

/-- The entry takes in a packet's value and record, with a slot from the first on (07 R304). -/
def absorb (q : Packet) (slot : Option Nat) (e : Comb) : Comb :=
  { e with value := (fpAdd e.value q.value).1, recs := e.recs ++ [{ src := q.src, handle := q.handle, rgen := q.rgen }]
           slot := if e.slot.isSome then e.slot else slot }

/-- The first entry with a packet's key absorbs it, held or in an output queue, whose packet then is the entry's
(07 R304, R305). -/
def absorbFirst (q : Packet) (s : State) : State :=
  let slot := freeSlot s.fab
  let s := s.modFab (fun f => { f with cntCombined := satAdd 48 f.cntCombined 1 })
  match s.fab.comb.findIdx? (Comb.keyed q) with
  | some i => s.modFab (fun f => { f with comb := f.comb.modify i (absorb q slot) })
  | none =>
    match s.fab.queue.findIdx? (fun w => w.entry.any (Comb.keyed q)) with
    | some i => s.modFab (fun f => { f with queue := f.queue.modify i (fun w =>
        match w.entry with
        | none => w
        | some e => let e := absorb q slot e; { w with pkt := combPacket s e, entry := some e }) })
    | none => s

/-- An ATOMADD packet that is not for this device: absorbed, entered, or routed on its own (07 R304). -/
def combine (a : Arrival) (s : State) : State :=
  let q := a.pkt
  match (entries s.fab).find? (Comb.keyed q) with
  | some e =>
    if s.fab.combEn && decide (absorbed e < 7) && (e.slot.isSome || (freeSlot s.fab).isSome) then absorbFirst q s
    else s.modFab (fun f => { f with queue := f.queue ++ [{ pkt := q, since := s.now, esc := a.esc }] })
  | none =>
    if (entries s.fab).length < 256 then
      s.modFab (fun f => { f with comb := f.comb ++ [{
        dest := q.dest, jobid := q.jobid, loc := q.loc, value := q.value
        recs := [{ src := q.src, handle := q.handle, rgen := q.rgen }], slot := none, entered := s.now, esc := a.esc }] })
    else s.modFab (fun f => { f with queue := f.queue ++ [{ pkt := q, since := s.now, esc := a.esc }] })

/-- COMBINER_HOLD_EXPIRE: entry i may leave with its output's next credit (07 R306). -/
def combExpire (i : Nat) (s : State) : State :=
  match s.fab.comb[i]? with
  | none => s
  | some e => if s.fab.holdNs ≤ s.since e.entered then combOut i s else s

/-- PENDING_SLOT_REPLY: every record of the slot is answered in order, and the slot is free (07 R305). -/
def slotReply (i : Nat) (s : State) : State :=
  match s.fab.arrived[i]? with
  | none => s
  | some a =>
    let q := a.pkt
    let k := q.handle.toNat % 2 ^ 31
    if q.handle.toNat < 2 ^ 31 || !(decide (q.ptype = .replyAck) || decide (q.ptype = .replyFault)) ||
        decide (q.dest ≠ s.devNo) then s
    else
      let s := s.modFab (fun f => { f with arrived := listDrop f.arrived i })
      match Tbl.look none k s.fab.slots with
      | none => s
      | some p =>
        let s := s.modFab (fun f => { f with slots := Tbl.put none k none f.slots })
        forList (fun r s => routerPut { q with src := s.devNo, dest := r.src, handle := r.handle, rgen := r.rgen } s) p.recs s

/-- PENDING_SLOT_TIMEOUT: no reply within 2,000,000 counts (07 R305). -/
def slotTimeout (k : Nat) (s : State) : State :=
  match Tbl.look none k s.fab.slots with
  | none => s
  | some p =>
    if 2000000 ≤ s.since p.sent then s.modFab (fun f => { f with slots := Tbl.put none k none f.slots }) else s

/-! ### Requests at their target -/

/-- The context bound to a non-zero job ID (01 R43, R53). -/
def ctxOfJob (s : State) (job : BitVec 32) : Option Nat :=
  if job = 0 then none else (s.ctxs.find? (fun e => decide (e.2.jobid = job))).map (·.1)

/-- Why a request is refused before it reaches memory (07 Table 7-5). -/
def turnedAway (s : State) (q : Packet) : Option Nat :=
  if !s.fab.placed || s.rst.oos then some reUnreachable
  else if (ctxOfJob s q.jobid).isNone then some reNoJob
  else none

/-- The fault reply reason of a memory fault (07 Table 7-5). -/
def MFault.reply : MFault → Nat
  | .xlate => reXlate | .perm => rePerm | .poison => rePoison

/-- The way of another device's request (05 R211, R212). -/
def viaRemote (c : Nat) : Via := { cache := devCache, ctx := c, remote := true }

def takeArrival (i : Nat) (s : State) : State := s.modFab (fun f => { f with arrived := listDrop f.arrived i })

/-- Arrival i, when it is a packet of this type for this device. -/
def arrivalFor (s : State) (i : Nat) (ty : PType) : Option Packet :=
  match s.fab.arrived[i]? with
  | some a => if a.pkt.ptype = ty ∧ a.pkt.dest = s.devNo then some a.pkt else none
  | none => none

/-- The data replies of a READ: at most 256 bytes each, with the address of their first byte (07 R297). Fuel counts
replies. -/
def dataReplies (q : Packet) : Nat → Nat → List Byte → State → State
  | 0, _, _, s => s
  | n + 1, loc, bs, s =>
    if bs.isEmpty then s
    else dataReplies q n (loc + 256) (bs.drop 256)
      (routerPut (replyTo s q .replyData 0 (bs.take 256) (BitVec.ofNat 42 loc)) s)

/-- PACKET_READ: read through the job's context and answered with data or a fault (07 R297, R302). -/
def packetRead (i : Nat) (s : State) : State :=
  match arrivalFor s i .read with
  | none => s
  | some q =>
    match turnedAway s q with
    | some r => faultReply q r (takeArrival i s)
    | none =>
      let c := (ctxOfJob s q.jobid).getD 0
      if rangeShut s c q.loc.toNat q.len.toNat then s
      else
        match readLocal (viaRemote c) q.loc.toNat q.len.toNat (takeArrival i s) with
        | (.err f _, s) => faultReply q f.reply s
        | (.ok bs, s) => dataReplies q 256 q.loc.toNat bs s

/-- PACKET_WRITE: acknowledged once the stack has accepted it (07 R298, R302). -/
def packetWrite (i : Nat) (s : State) : State :=
  match arrivalFor s i .write with
  | none => s
  | some q =>
    match turnedAway s q with
    | some r => faultReply q r (takeArrival i s)
    | none =>
      let c := (ctxOfJob s q.jobid).getD 0
      if rangeShut s c q.loc.toNat q.data.length then s
      else
        match writeLocal (viaRemote c) q.loc.toNat q.data (takeArrival i s) with
        | (.err f _, s) => faultReply q f.reply s
        | (.ok _, s) => routerPut (replyTo s q .replyAck 0 [] q.loc) s

/-- PACKET_ATOMADD: for this device, the add waits at its stack (05 R223); else the combiner or the router takes
it (07 R304). -/
def packetAtomadd (i : Nat) (s : State) : State :=
  match s.fab.arrived[i]? with
  | none => s
  | some a =>
    if a.pkt.ptype ≠ .atomAdd then s
    else if a.pkt.dest ≠ s.devNo then combine a (takeArrival i s)
    else
      match turnedAway s a.pkt with
      | some r => faultReply a.pkt r (takeArrival i s)
      | none =>
        { takeArrival i s with atoms := s.atoms ++ [{
            ctx := (ctxOfJob s a.pkt.jobid).getD 0, loc := a.pkt.loc.toNat, val := a.pkt.value
            tile := none, pkt := some a.pkt, rgen := 0, acked := false }] }

/-! ### Replies to this device's tiles -/

/-- The tile that a reply's handle names (log 14). -/
def handleTile (q : Packet) : Nat := q.handle.toNat / 16 % 2 ^ 13

/-- The tile still runs the launch whose request this reply answers. -/
def repliesTo (s : State) (q : Packet) : Bool :=
  let x := s.tile (handleTile q)
  liveFor s (handleTile q) x.launchId && decide (x.launchId.toNat % 2 ^ 12 = q.handle.toNat / 2 ^ 17 % 2 ^ 12)

/-- The reply crosses the edge of its tile's partition: a stale generation is dropped there (11 R458). -/
def atEdge (i : Nat) (q : Packet) (act : Nat → State → State) (s : State) : State :=
  let t := handleTile q
  let p := tilePart t
  if 2 ^ 31 ≤ q.handle.toNat then s
  else
    let s := takeArrival i s
    if (s.part p).rgen ≠ q.rgen then staleReply p s
    else if repliesTo s q then act t s
    else s

/-- The stream request that a reply answers. A fault reply may come from a router on the way (07 R301). -/
def replyReq (s : State) (q : Packet) : Option (Nat × StreamReq) :=
  match tagOf (s.tile (handleTile q)) (q.handle.toNat % 16) with
  | some r => if (q.ptype = .replyFault ∨ reqDevice r = q.src.toNat) ∧ r.waiting = false then some (q.handle.toNat % 16, r) else none
  | none => none

/-- REPLY_DATA: the bytes are written to data SRAM at their place (02 R82, 07 R297). -/
def replyData (i : Nat) (s : State) : State :=
  match arrivalFor s i .replyData with
  | none => s
  | some q =>
    atEdge i q (fun t s =>
      match replyReq s q with
      | none => s
      | some (tag, r) =>
        let base := reqLocal r 0
        if r.inbound && decide (base ≤ q.loc.toNat) && decide (q.loc.toNat + q.data.length ≤ base + r.len)
        then resume t (streamData t tag (q.loc.toNat - base) q.data s) else s) s

/-- REPLY_ACK: a write's packet or an atomic add is acknowledged (07 R298, 03 R139). -/
def replyAck (i : Nat) (s : State) : State :=
  match arrivalFor s i .replyAck with
  | none => s
  | some q =>
    atEdge i q (fun t s =>
      let x := s.tile t
      if isEddy q then
        match eddyReq x q.src.toNat q.loc.toNat with
        | none => s
        | some k => resume t (s.setTile t { x with eddyRem := listDrop x.eddyRem k, eddyOut := x.eddyOut - 1 })
      else
        match replyReq s q with
        | none => s
        | some (tag, r) =>
          if r.inbound then s
          else if (packetCuts r).length ≤ r.doneLen + 1 then
            match beyond r with
            | some off => streamTrap t tag tcXlate off r s
            | none => resume t (completeTag t tag s)
          else s.setTile t (setTag tag (some { r with doneLen := r.doneLen + 1 }) x)) s

/-- The trap that a fault reply raises at the source (07 Table 7-5). -/
def replyCause (reason : Nat) : Nat :=
  match reason with
  | 2 => tcXlate
  | 3 => tcPerm
  | 4 => tcPoison
  | _ => tcRemote

/-- Offset of the transfer that holds a LOCAL address of a request (02 R601). -/
def transferOf (r : StreamReq) (loc : Nat) : Nat :=
  (((transfersOf r).find? (fun k => decide (reqLocal r k.1 ≤ loc) && decide (loc < reqLocal r k.1 + k.2))).map (·.1)).getD 0

/-- REPLY_FAULT: the whole request faults at its source (07 R297, R302). -/
def replyFault (i : Nat) (s : State) : State :=
  match arrivalFor s i .replyFault with
  | none => s
  | some q =>
    let cause := replyCause q.reason.toNat
    atEdge i q (fun t s =>
      let x := s.tile t
      if isEddy q then
        match eddyReq x q.src.toNat q.loc.toNat with
        | none => s
        | some k =>
          match x.eddyRem[k]? with
          | none => s
          | some e => eddyTrap t x.launchId e.pc cause (e.dev * 2 ^ 42 + e.loc) s
      else
        match replyReq s q with
        | none => s
        | some (tag, r) => streamTrap t tag cause (transferOf r q.loc.toNat) r s) s

/-! ### Meanings -/

/-- ROUTE_PACKET: the router forwards a packet on a productive port or into escape (R299). -/
def execRoutePacket (i : Nat) (credits : List Credits) (s : State) : Host.Outcome State Fault Refusal :=
  .next (routePacket i credits s)

/-- UNROUTABLE: a packet is discarded with a fault reply (R301). -/
def execUnroutable (i : Nat) (s : State) : Host.Outcome State Fault Refusal := .next (unroutable i s)

/-- PACKET_READ: a READ packet is answered with data or a fault (R297). -/
def execPacketRead (i : Nat) (s : State) : Host.Outcome State Fault Refusal := .next (packetRead i s)

/-- PACKET_WRITE: a WRITE packet is acknowledged once accepted (R298). -/
def execPacketWrite (i : Nat) (s : State) : Host.Outcome State Fault Refusal := .next (packetWrite i s)

/-- PACKET_ATOMADD: an ATOMADD packet is served, absorbed or routed (R304). -/
def execPacketAtomadd (i : Nat) (s : State) : Host.Outcome State Fault Refusal := .next (packetAtomadd i s)

/-- REPLY_DATA: a data reply arrives (R297). -/
def execReplyData (i : Nat) (s : State) : Host.Outcome State Fault Refusal := .next (replyData i s)

/-- REPLY_ACK: an acknowledgement arrives (R298). -/
def execReplyAck (i : Nat) (s : State) : Host.Outcome State Fault Refusal := .next (replyAck i s)

/-- REPLY_FAULT: a fault reply faults the request at the source (R302). -/
def execReplyFault (i : Nat) (s : State) : Host.Outcome State Fault Refusal := .next (replyFault i s)

/-- COMBINER_HOLD_EXPIRE: an entry's hold time ends (R306). -/
def execCombinerHoldExpire (i : Nat) (s : State) : Host.Outcome State Fault Refusal := .next (combExpire i s)

/-- PENDING_SLOT_REPLY: a reply fans out to every absorbed record (R305). -/
def execPendingSlotReply (i : Nat) (s : State) : Host.Outcome State Fault Refusal := .next (slotReply i s)

/-- PENDING_SLOT_TIMEOUT: a slot with no reply after 2 ms is freed (R305). -/
def execPendingSlotTimeout (slot : Fin 512) (s : State) : Host.Outcome State Fault Refusal :=
  .next (slotTimeout slot.val s)

end Sys2Proof.Machine
end

