-- ==== Sys2Proof/Machine/EasyAll.lean ====
section
/-!
DEFINITION. Easy-all as this device sends and receives it (07 R308 to R317).
-/

namespace Sys2Proof.Machine

/-- EASYALL_SEND: a non-zero job originates easy-all with cause HOST_ABORT (07 R308). -/
def easyallSend (job : BitVec 32) (s : State) : State :=
  if s.alive && decide (job ≠ 0) then easyAllOriginate job stHostAbort s.now s else s

/-- The context of the job is aborted: its executing launch, its fetched catch launches, or an idle RUNNING
context stops (07 R311, R316, R317). -/
def easyAllAct (c : Nat) (s : State) : State :=
  if (s.ctx c).st ≠ .running then s
  else
    let busy := (s.ctx c).exec.isSome
    let s := decideEnd c stEasyAll 0 s.now s
    let s := if busy then s.modCtx c (fun k => { k with st := .aborting }) else s
    let l := (s.ctx c).fetched
    let s := s.modCtx c (fun k => { k with fetched := l.filter (fun x => !x.desc.isCatch) })
    let s := forList (fun x s => refuseLaunch c stEasyAll x s) (l.filter (fun x => x.desc.isCatch)) s
    if busy then s else enterStopped c s

/-- EASY_ALL: discarded where its triple is kept; else entered, forwarded and acted on (07 R310, R311). -/
def easyAllReceive (i : Nat) (s : State) : State :=
  match s.fab.arrived[i]? with
  | none => s
  | some a =>
    let q := a.pkt
    if q.ptype ≠ .easyAll then s
    else
      let s := takeArrival i s
      let kept := (keptTriples s).any (fun t =>
        !t.boot && decide (t.job = q.jobid) && decide (t.origin = q.src) && decide (t.stroke = q.stroke))
      if kept then s
      else
        let s := keepTriple { job := q.jobid, origin := q.src, stroke := q.stroke, boot := false, kept := s.now } s
        let s := flood (fun n => decide (a.port.map (·.val) ≠ some n)) q s
        let s := easyAllLog q.jobid q.src q.stroke q.reason.toNat s
        let s := raise 0x3009 noUnit q.jobid.toNat s
        match ctxOfJob s q.jobid with
        | none => s
        | some c => if notAfter (s.ctx c).jobAt q.stroke then easyAllAct c s else s

/-- EASYALL_TRIPLE_EXPIRE: triples of 1 ms and more are no longer kept (07 R310). -/
def tripleExpire (s : State) : State := s.modFab (fun f => { f with triples := keptTriples s })

/-- EASYALL_SEND: the host originates easy-all for a job (R308). -/
def execEasyallSend (job : BitVec 32) (s : State) : Host.Outcome State Fault Refusal := .next (easyallSend job s)

/-- EASY_ALL: a message arrives, is forwarded if new, and aborts the job's context (R311). -/
def execEasyAll (i : Nat) (s : State) : Host.Outcome State Fault Refusal := .next (thenPass (easyAllReceive i) s)

/-- EASYALL_TRIPLE_EXPIRE: a kept triple expires after 1 ms (R310). -/
def execEasyallTripleExpire (s : State) : Host.Outcome State Fault Refusal := .next (tripleExpire s)

end Sys2Proof.Machine
end

