-- ==== Sys2Proof/Machine/Lamps.lean ====
section
/-!
DEFINITION. The indicator lamps: their drive, their status, and the commands to them (14 R565 to R569, R580).
-/

namespace Sys2Proof.Machine

def lampIx : Lamp → Nat
  | .green => 0 | .amber => 1 | .blue => 2

def lampAt (s : State) (i : Nat) : LampS := Tbl.look { } i s.card.lamps
def setLamp (i : Nat) (x : LampS) (s : State) : State := s.modCard (fun c => { c with lamps := Tbl.put { } i x c.lamps })

/-- A lamp test is in force (14 R569). -/
def testing (s : State) : Bool :=
  match s.card.testUntil with
  | some t => decide (s.card.time < t)
  | none => false

/-- On-time of a lamp's pulses in µs: DUTY of a 1,000 µs period; 0 when unlit (14 R566, R569). -/
def onTime (s : State) (i : Nat) : Nat :=
  if testing s then 1000 else if (lampAt s i).drive = 0 then 0 else s.card.duty

/-- A lit lamp is too dim for a measurement in its ordinary pulses (14 R567). -/
def dim (s : State) (i : Nat) : Bool := decide (0 < onTime s i) && decide (onTime s i < 40)

/-- ns since the latest lengthened pulse of lamp i began, while it lasts: 60 µs (14 R568). -/
def pulsePhase (s : State) (i : Nat) : Option Nat :=
  match (lampAt s i).pulseAt with
  | some a => if s.card.time - a < 60000 then some (s.card.time - a) else none
  | none => none

/-- A lengthened pulse is in progress (14 R580). -/
def pulsing (s : State) : Bool := [0, 1, 2].any (fun i => (pulsePhase s i).isSome)

/-- A status changes, and is reported (14 R569). -/
def lampTo (i : Nat) (st : LampSt) (s : State) : State :=
  let x := lampAt s i
  if x.st = st then s else { (setLamp i { x with st := st } s) with cardOut := s.cardOut ++ [.lamp i st] }

/-- UNVERIFIED: the latest measurement is older than 4 s, or the lamp is lit too shortly to be measured and may not be
lengthened (14 R567, R568). -/
def lampStale (i : Nat) (s : State) : State :=
  let x := lampAt s i
  let old := match x.measured with
    | some a => decide (4 * secs < s.card.time - a)
    | none => true
  if old || (x.flickerFree && dim s i) then lampTo i .unverified s else s

/-- One pulse every 2 s of a lamp too dim to be measured is lengthened, unless it is FLICKER_FREE (14 R568). -/
def lampPulse (i : Nat) (s : State) : State :=
  let x := lampAt s i
  let due := match x.pulseAt with
    | some a => decide (2 * secs ≤ s.card.time - a)
    | none => true
  if dim s i && !x.flickerFree && due then setLamp i { x with pulseAt := some s.card.time } s else s

/-- A command to the lamps takes effect: LOCATE drives the blue lamp, DUTY and FLICKER_FREE apply to all, LAMP_TEST
lasts 2 s (14 Table 14-5, R566, R568, R569). -/
def lampAct (m : LampCmd) (s : State) : State :=
  let s := match m with
    | .locate on =>
      let s := s.modCard (fun c => { c with locate := on })
      setLamp 2 { lampAt s 2 with drive := if on then 2 else 0 } s
    | .duty d ff =>
      let s := s.modCard (fun c => { c with duty := Nat.min 1000 d })
      forUp (fun i s => setLamp i { lampAt s i with flickerFree := bit ff.toNat i } s) 0 3 s
    | .test => s.modCard (fun c => { c with testUntil := some (c.time + 2 * secs) })
  forUp lampStale 0 3 s

/-- A command to the lamps arrives: during a lengthened pulse it waits for the pulse's end (14 R580). -/
def lampCmd (m : LampCmd) (s : State) : State :=
  if !s.card.input then s
  else if pulsing s then s.modCard (fun c => { c with waiting := c.waiting ++ [m] })
  else lampAct m s

/-- What waited takes effect once no lengthened pulse is in progress (14 R580). -/
def lampsGoOn (s : State) : State :=
  if s.card.waiting.isEmpty || pulsing s then s
  else forList lampAct s.card.waiting (s.modCard (fun c => { c with waiting := [] }))

end Sys2Proof.Machine
end

