-- ==== Sys2Proof/Machine/StrokeUnit.lean ====
section
/-!
DEFINITION. The Stroke counter and its synchronisation: ticks (08 R324), markers (R327, R328), the choice of
master and parent (R329) and the states of Table 8-1.
-/

namespace Sys2Proof.Machine

/-- A marker interval, in Stroke counts (08 R327). -/
def markInterval : Nat := 8192

/-- An advertisement's announcement number has advanced within the last 64 intervals (08 R329). -/
def Advert.live (s : State) (a : Advert) : Bool :=
  match a.fresh with
  | some f => decide (s.since f < 64 * markInterval)
  | none => false

/-- The live advertisements: master, hop count, port, announcement number. -/
def adverts (s : State) : List (Nat × Nat × PortIx × BitVec 32) :=
  (List.finRange 12).filterMap (fun n => match (s.port n.val).advert with
    | some a => if a.live s then some (a.master.toNat, a.hops, n, a.ann) else none
    | none => none)

/-- The order of R329: master number, hop count, port. -/
def advertBefore (a b : Nat × Nat × PortIx × BitVec 32) : Bool :=
  if a.1 ≠ b.1 then decide (a.1 < b.1)
  else if a.2.1 ≠ b.2.1 then decide (a.2.1 < b.2.1) else decide (a.2.2.1.val < b.2.2.1.val)

/-- R329 names another master (08 Table 8-1). -/
def masterChange (s : State) : State :=
  strokeEvent 0x3012 (s.modStroke (fun k => { k with cntMaster := satAdd 32 k.cntMaster 1, masterAt := some k.now }))

/-- Takes port p as parent under a master, and acquires its count. -/
def takeParent (e : Nat × Nat × PortIx × BitVec 32) (st : SState) (s : State) : State :=
  let new := decide (s.stroke.parent ≠ some e.2.2.1)
  s.modStroke (fun k => { k with
    st := st, parent := some e.2.2.1, master := BitVec.ofNat 14 e.1, hops := e.2.1 + 1, ann := e.2.2.2
    run := if new || decide (k.st ≠ st) then 0 else k.run
    stepped := if new then false else k.stepped })

/-- The device names itself master: through ACQUIRE, with a master change where it had another (08 Table 8-1). A
device that is not PLACED waits until it has heard its neighbours (log 20). -/
def nameSelf (s : State) : State :=
  match s.stroke.st with
  | .locked | .holdover =>
    becomeMaster (masterChange (s.modStroke (fun k => { k with st := .acquire, parent := none, master := s.devNo })))
  | .acquire =>
    if s.fab.placed then becomeMaster s
    else s.modStroke (fun k => { k with parent := none, master := s.devNo, hops := 0 })
  | _ => s

/-- The choice of master and parent (08 R329, Table 8-1). The parent's port must be UP. -/
def chooseMaster (s : State) : State :=
  if s.stroke.st = .init then s
  else
    let l := (adverts s).filter (fun e => decide (e.1 < s.devNo.toNat))
    match listMin advertBefore l with
    | none => nameSelf s
    | some best =>
      let here := l.filter (fun e => decide (e.1 = best.1) && decide ((s.port e.2.2.1.val).st = .up))
      match listMin advertBefore here with
      | none => s
      | some e =>
        let other := decide (s.stroke.master.toNat ≠ e.1)
        match s.stroke.st with
        | .init => s
        | .master => masterChange (takeParent e .acquire s)
        | .acquire => takeParent e .acquire s
        | .locked => if other then masterChange (takeParent e .acquire s) else takeParent e .locked s
        | .holdover => let s := takeParent e .acquire s
                       if other then masterChange s else s

/-- What a marker that arrives now says of the offset to its sender, in 1/16 ns: own count less the sender's, the
link delay removed (08 R328). None before a round trip is known: the sender has received no marker, or its marker
crossed this device's last one (log 23). -/
def markerOffset (s : State) (x : Port) (m : Marker) : Option Int :=
  match x.markTx, m.echo with
  | some t1, some e =>
    let trip := (s.now - t1).toInt - (m.sent - e).toInt
    if 0 ≤ trip ∧ trip ≤ markInterval then some (16 * (s.now - m.sent).toInt - 8 * trip) else none
  | _, _ => none

/-- What the always-on block times on its own clock, and the resets under way, do not see a step of the Stroke counter
by v (11 R460, R464, Table 11-3, Table 11-7). -/
def keepAclk (v : BitVec 64) (s : State) : State :=
  let s := s.modHost (fun h => { h with recDue := h.recDue + v })
  let s := s.modRst (fun r => { r with
    cox := r.cox.map (· + v), coxTimes := r.coxTimes.map (· + v), escEvents := r.escEvents.map (· + v)
    beats := forUp (fun k b => Tbl.put 0 k (Tbl.look 0 k b + v) b) 0 4 r.beats })
  forUp (fun p s => s.modPart p (fun x => { x with
    lostAt := x.lostAt.map (· + v), reset := x.reset.map (fun r => { r with start := r.start + v }) })) 0 8 s

/-- Moves the counter by d; what the unit and the ports have timed moves with it (08 Table 8-1, log 23). -/
def stepCounter (d : Int) (s : State) : State :=
  let v := BitVec.ofInt 64 d
  let s := keepAclk v s
  let s := s.modStroke (fun k => { k with now := k.now + v, stepped := true, run := 0 })
  forUp (fun n s => s.modPort n (fun x => { x with
    markTx := x.markTx.map (· + v), markRx := x.markRx.map (· + v)
    since := x.since + v, retrains := x.retrains.map (· + v), reeq := x.reeq.map (· + v)
    resends := x.resends.map (fun e => (e.1 + v, e.2))
    advert := x.advert.map (fun a => { a with fresh := a.fresh.map (· + v) }) }))
    0 12 (s.modFab (fun f => { f with start := f.start.map (· + v), unroutableAt := f.unroutableAt.map (· + v) }))

/-- A rate correction within ±50 ppm; the law of the correction is free (08 R326, log 1). -/
def newRate (s : State) : State :=
  let (k, s) := s.freeBelow 10001
  s.modStroke (fun x => { x with rate := (k : Int) - 5000 })

/-- An offset to the parent has been measured (08 Table 8-1). -/
def measured (off : Int) (s : State) : State :=
  match s.stroke.st with
  | .locked => newRate (s.modStroke (fun k => { k with offset := off }))
  | .acquire =>
    if !s.stroke.ever && !s.stroke.stepped then
      stepCounter (-((off + 8) / 16)) (s.modStroke (fun k => { k with offset := off }))
    else
      let near := decide (-32 ≤ off) && decide (off ≤ 32)
      let s := newRate (s.modStroke (fun k => { k with offset := off, run := if near then k.run + 1 else 0 }))
      if 16 ≤ s.stroke.run then
        strokeEvent 0x3010 (s.modStroke (fun k => { k with st := .locked, ever := true, run := 0 }))
      else s
  | _ => s

/-- The advertisement of a marker; one of more than 1,024 hops is ignored (08 R329). -/
def hearAdvert (s : State) (x : Port) (m : Marker) : Option Advert :=
  if 1024 < m.hops then x.advert
  else
    match x.advert with
    | some a =>
      let fresh := if a.master = m.master then (if 0 < (m.ann - a.ann).toInt then some s.now else a.fresh) else none
      some { master := m.master, hops := m.hops, ann := m.ann, fresh := fresh }
    | none => some { master := m.master, hops := m.hops, ann := m.ann, fresh := none }

/-- STROKE_MARKER_SEND: an UP port sends a marker every 8,192 counts (08 R327). -/
def markerSend (n : Nat) (s : State) : State :=
  let x := s.port n
  let due := match x.markTx with
    | none => true
    | some a => decide (markInterval ≤ s.since a)
  if decide (x.st = .up) && due then
    let m : Marker := { sent := s.now, echo := x.markRx, master := s.stroke.master, hops := s.stroke.hops,
                        ann := s.stroke.ann }
    { (s.setPort n { x with markTx := some s.now }) with markers := s.markers ++ [(n, m)] }
  else s

/-- STROKE_MARKER_RECEIVE: delay, offset, parent and rate (08 R328 to R330). -/
def markerReceive (n : PortIx) (m : Marker) (s : State) : State :=
  let x := s.port n.val
  if x.st ≠ .up then s
  else
    let off := markerOffset s x m
    let s := s.setPort n.val { x with markRx := some s.now, advert := hearAdvert s x m }
    let s := chooseMaster s
    if s.stroke.parent = some n then
      match off with
      | some o => measured o s
      | none => s
    else s

/-- STROKE_HOLDOVER: the parent port left UP, or 4 markers were missed on it (08 Table 8-1, log 23). -/
def holdover (s : State) : State :=
  match s.stroke.parent with
  | none => s
  | some p =>
    let x := s.port p.val
    let missed := match x.markRx with
      | some a => decide (4 * markInterval ≤ s.since a)
      | none => false
    if s.stroke.st = .locked ∧ (x.st ≠ .up ∨ missed = true) then
      (strokeEvent 0x3011 (s.modStroke (fun k => { k with st := .holdover }))).modStroke (fun k => { k with parent := none })
    else s

/-- Tiles that wait in WAITS go on when the count has come (03 R140). -/
def wakeWaits (s : State) : State :=
  forList (fun e s => match e.2.held with
    | some w => if classify w = some .waits then resume e.1 s else s
    | none => s) s.tiles s

/-- STROKE_TICK: one SCLK cycle. The counter advances by 1 and wraps; a master's announcement number advances at
every marker interval; the card controller's time advances with it (08 R324, R329, log 24). -/
def strokeTick (s : State) : State :=
  let s := lampsGoOn (s.modCard (fun c => if c.input then { c with time := c.time + 1 } else c))
  if !s.alive then s
  else
    let s := s.modStroke (fun k => { k with now := k.now + 1 })
    let s := if s.stroke.st = .master ∧ s.now.toNat % markInterval = 0
      then s.modStroke (fun k => { k with ann := k.ann + 1 }) else s
    wakeWaits s

/-- STROKE_MARKER_SEND: an UP port sends a Stroke marker (R327). -/
def execStrokeMarkerSend (n : PortIx) (s : State) : Host.Outcome State Fault Refusal := .next (markerSend n.val s)

/-- STROKE_MARKER_RECEIVE: a marker arrives; offset, parent and rate are updated (R328). -/
def execStrokeMarkerReceive (n : PortIx) (m : Marker) (s : State) : Host.Outcome State Fault Refusal :=
  .next (markerReceive n m s)

/-- STROKE_HOLDOVER: the rate freezes (R330). -/
def execStrokeHoldover (s : State) : Host.Outcome State Fault Refusal := .next (holdover s)

/-- STROKE_MASTER_CHANGE: an advertisement has expired and the master is chosen anew (R329). -/
def execStrokeMasterChange (s : State) : Host.Outcome State Fault Refusal := .next (chooseMaster s)

/-- STROKE_TICK: the counter advances by 1 (R324). -/
def execStrokeTick (s : State) : Host.Outcome State Fault Refusal := .next (strokeTick s)

end Sys2Proof.Machine
end

