-- ==== Sys2Proof/Machine/DeviceCore.lean ====
section
/-!
DEFINITION. What a full device reset clears (11 R451, 05 R208, 07 R323), and the removal of device power (14 R564).
-/

namespace Sys2Proof.Machine

/-- The device with everything but the card flash cleared (11 Table 11-4). What lies outside the device stands: the
card and rack, host memory, and what has been sent; and the contents of HBM, whose frames are POISONED until
scrubbed (05 R206, log 25). -/
def cleared (s : State) : State :=
  { pending := s.pending, freeIx := s.freeIx, fuses := s.fuses, hbm := s.hbm, lineErr := s.lineErr
    card := s.card, rack := s.rack, flash := s.flash, evLogNext := s.evLogNext, hostMem := s.hostMem
    hostData := s.hostData, msix := s.msix, sent := s.sent, naks := s.naks, markers := s.markers
    mgmt := s.mgmt, cardOut := s.cardOut, rackLimits := s.rackLimits, platform := s.platform, snoops := s.snoops }

/-! ### Card faults -/

/-- Card fault codes (14 Table 14-4). -/
def cfTrip : Nat := 1
def cfUv : Nat := 2
def cfOv : Nat := 3
def cfOverpower : Nat := 4
def cfSeq : Nat := 5
def cfAclk : Nat := 6
def cfPhase : Nat := 7
def cfLamp : Nat := 8

/-- The entry that the log ends with when it was made at this card time: a fault was found together with another. -/
def logNow (c : Card) : Option CardEntry := if c.logAt = some c.time then c.log.getLast? else none

/-- An entry of the card controller's log of 1,024, which is reported to the rack; the oldest leaves. Of faults found
together the lowest code alone is recorded (14 R564, Table 14-4). -/
def cardLog (code mv watts : Nat) (s : State) : State :=
  let c := s.card
  let e : CardEntry := { code := code, secs := c.time / 1000000000, mv := mv, watts := watts }
  match logNow c with
  | some o =>
    if o.code ≤ code then s
    else { s with card := { c with log := c.log.dropLast ++ [e] }
                  cardOut := (s.cardOut.filter (fun m => decide (m ≠ .entry o))) ++ [.entry e] }
  | none =>
    let l := c.log ++ [e]
    { s with card := { c with log := if 1024 < l.length then l.drop 1 else l, logAt := some c.time }
             cardOut := s.cardOut ++ [.entry e] }

/-- The device is without power: it loses everything but the flash, HBM among it (12 R505, 05 R235). -/
def deviceOff (s : State) : State :=
  cleared { s.modCard (fun c => { c with power := false }) with hbm := [], lineErr := [] }

/-- A card fault: all supplies but STBY fall together (14 R556, R564). -/
def supplyOff (s : State) : State := deviceOff (s.modCard (fun c => { c with supplies := [.stby] }))

/-- A fault found together with the one that has removed power: the lower code is recorded, and its return rule governs
(14 R564, Table 14-4). -/
def sameFault (code mv watts : Nat) (s : State) : State :=
  let c := s.card
  if c.power || !c.input || decide (c.offAt ≠ c.time) || decide (c.offCode ≤ code) then s
  else (cardLog code mv watts s).modCard (fun c => { c with offCode := code })

/-- The card controller removes device power for a fault of Table 14-4 (14 R564). -/
def removePower (code mv watts : Nat) (s : State) : State :=
  if !s.card.power || !s.card.input then sameFault code mv watts s
  else supplyOff ((cardLog code mv watts s).modCard (fun c => { c with offCode := code, offAt := c.time }))

/-- Stretch level in force on partition p (09 R388). -/
def stretchOf (s : State) (p : Nat) : Nat := Nat.max s.pwr.clamp (s.part p).govStretch

/-- Crews of partition p that are clocked: a launch's, a pair check's or the Umpire's (09 R360). -/
def clockedCrews (s : State) (p : Nat) : Nat :=
  ((List.range 64).filter (fun i =>
    let k := s.crew (64 * p + i)
    k.heldBy.isSome || k.partnerOf.isSome || (crewWork s (64 * p + i)).isSome)).length

end Sys2Proof.Machine
end

