-- ==== Sys2Proof/Machine/Umpire.lean ====
section
/-!
DEFINITION. The Umpire at work (10): sweeps and trials (R404 to R414), pair checks and triage (R415 to R420, R602),
evictions (R430), swaps (R424 to R427), the retired map's writes (R431), UMP_CMD (R440) and the log (R436).
-/

namespace Sys2Proof.Machine

/-! ### Evictions -/

/-- The launch that an eviction names: the one that holds the crew, else the last that executed on it (10 R430). -/
def namedLaunch (s : State) (t : Nat) : Option (BitVec 32 × Nat) :=
  let u := s.utile t
  match (s.crew u.gcrew).heldBy with
  | some c => (s.ctx c).exec.map (fun x => (x.launch.id, c))
  | none => (s.crew u.gcrew).lastLaunch

/-- A corrupting fault evicts its tile at once, whatever pins are held (10 R423, R430, Table 10-5). `l` names the
launch when the verdict does. -/
def corrupt (t cause : Nat) (l : Option (BitVec 32 × Nat)) (s : State) : State :=
  let u := s.utile t
  if u.st = .fused ∨ u.st = .quarantined ∨ u.st = .retired then s
  else
    let s := (s.modUtile t (fun u => { u with pending := none, pendLaunch := none })).umpCount 6
    if u.role ≠ .enabled then quarantine t cause evUmpEvict l s
    else
      let held := (s.crew u.gcrew).heldBy
      let who := match l with
        | some x => some x
        | none => namedLaunch s t
      let s := quarantine t cause evUmpEvict who s
      let s := s.modUmp (fun x => { x with evicting := x.evicting ++ [t] })
      let s := match held with
        | some c => decideEnd c stUmpEvict 0 s.now s
        | none => s
      voidCrewWork u.gcrew s

/-! ### Which sweep is due -/

/-- Trials of a sweep: a single-tile sweep omits the CREW class (10 R404, Table 10-1). -/
def Subject.trials : Subject → Nat
  | .crew _ => 22
  | .tile _ => 21

/-- Tiles of a subject. -/
def subjTiles (s : State) : Subject → List Nat
  | .crew g => (s.crew g).tiles
  | .tile t => [t]

/-- A QUARANTINED tile that is not still bound to its crew undergoes isolation sweeps (10 R426, R430). -/
def isolates (s : State) (t : Nat) : Bool :=
  decide ((s.utile t).st = .quarantined) && !s.ump.evicting.contains t

/-- The first spare to sweep for the swap of tile t: no spare of the pool qualifies (10 R425). -/
def sparePool (s : State) (p : Nat) : List Nat :=
  let l := ((List.range 576).map (tileOf p)).filter (fun t => decide ((s.utile t).role = .spare))
  let act := l.filter (fun t => decide ((s.utile t).st = .active))
  if act.isEmpty then l.filter (fun t => decide ((s.utile t).st = .cleared)) else act

/-- The aborts have stopped the crew's tiles (10 R430). -/
def crewStopped (s : State) (g : Nat) : Bool :=
  match (s.crew g).heldBy with
  | none => true
  | some c => match (s.ctx c).abort with
    | some a => decide (1000 ≤ s.since a.start)
    | none => false

/-- Tile t is at its swap point, or its eviction may go on (10 R412, R424, R430; 01 R50). -/
def swapReady (s : State) (t : Nat) : Bool :=
  let u := s.utile t
  !stackShut s (tilePart t) &&
    ((s.ump.evicting.contains t && crewStopped s u.gcrew) ||
     (match u.pending with
      | none => false
      | some a => decide (u.role = .enabled) && !pinHeldSince s a && (s.crew u.gcrew).heldBy.isNone && !timedRuns s))

/-- A spare that has passed both sweeps since power-on (10 R425). -/
def sweptBoth (s : State) (t : Nat) : Bool := (s.utile t).sweptNom && (s.utile t).sweptMar

/-- Spares that a swap waits for: the first of the pool in the order of R425 when none qualifies. -/
def swapCandidates (s : State) : List Nat :=
  s.ump.tiles.filterMap (fun e =>
    if swapReady s e.1 then
      let pool := sparePool s (tilePart e.1)
      if pool.any (sweptBoth s) then none else nearest (s.crew e.2.gcrew).tiles e.2.ltile pool
    else none)

/-- A sweep that is due: subject, margin, overdue counts, and whether it is isolation or wanted by a swap. -/
structure Due where
  subject : Subject
  margin  : Bool
  overdue : Nat
  iso     : Bool
  wanted  : Bool

/-- The sweeps that a subject is due for (10 R409). -/
def dueOf (sub : Subject) (iso wanted nom mar : Bool) (lateN lateM : Nat) : List Due :=
  (if nom then [{ subject := sub, margin := false, overdue := lateN, iso := iso, wanted := wanted }] else []) ++
    (if mar then [{ subject := sub, margin := true, overdue := lateM, iso := iso, wanted := wanted }] else [])

/-- Sweeps due on crews (10 Table 10-3). -/
def dueCrew (s : State) (g : Nat) : List Due :=
  let k := s.crew g
  if k.tiles.isEmpty then []
  else
    let n := s.since k.lastNom
    let m := s.since k.lastMar
    let pn := crewPeriod s g false
    let pm := crewPeriod s g true
    dueOf (.crew g) false false (k.dueNom || decide (pn ≤ n)) (k.dueMar || decide (pm ≤ m)) (n - pn) (m - pm)

/-- Sweeps due on spares and QUARANTINED tiles (10 Table 10-3, R425, R426). -/
def dueTile (s : State) (cand : List Nat) (t : Nat) : List Due :=
  let u := s.utile t
  if isolates s t then dueOf (.tile t) true false (!u.nomOk) u.nomOk 0 0
  else if u.role = .spare then
    let want := cand.contains t
    let n := s.since u.lastNom
    let m := s.since u.lastMar
    let pn := s.ump.trialS * secs
    let pm := s.ump.marginS * secs
    dueOf (.tile t) false want (u.dueNom || decide (pn ≤ n) || (want && !u.sweptNom))
      (u.dueMar || decide (pm ≤ m) || (want && !u.sweptMar)) (n - pn) (m - pm)
  else []

/-- Place of a subject among subjects equally overdue: crews before tiles, the lower number first (10 R410). -/
def Subject.place : Subject → Nat
  | .crew g => g
  | .tile t => 512 + t

/-- Sweep a precedes sweep b: isolation first, then what a swap waits for, then the most overdue, crews before spares,
the lower number, nominal before margin (10 R410, R425, R426, log 28). -/
def Due.before (a b : Due) : Bool :=
  let cls := fun (d : Due) => if d.iso then 0 else if d.wanted then 1 else 2
  if cls a ≠ cls b then decide (cls a < cls b)
  else if a.overdue ≠ b.overdue then decide (b.overdue < a.overdue)
  else if a.subject ≠ b.subject then decide (a.subject.place < b.subject.place)
  else !a.margin && b.margin

/-- Power of one trial (10 R411). -/
def trialPower (s : State) (sub : Subject) (margin : Bool) : Nat :=
  let w := match sub with
    | .crew _ => defCrewPw s
    | .tile _ => defCrewPw s / 8
  if margin then w * 106 / 100 else w

/-- A scheduler pass would dispatch no candidate now, so what remains of the budget is for margin trials (06 R263,
10 R411). -/
def noCandidate (s : State) : Bool :=
  (List.range 64).all (fun c => match headOf (s.ctx c) with
    | none => true
    | some l =>
      let crews := crewsFor s c l.desc
      !(mayDispatch s c l && eligible s l.desc crews (duration s l.desc crews)))

/-- The qualification before READY is under way (12 R484). -/
def qualifies (s : State) : Bool := decide (s.boot.stage = .qualify)

/-- Crews of partition p that sweep now. -/
def sweeping (s : State) (p : Nat) : Nat :=
  (s.ump.work.filter (fun w => match w.subject with
    | .crew g => decide (g / 64 = p)
    | .tile _ => false)).length

/-- Crew g's nominal sweep is overdue by more than TRIAL_S and its claim unused: it is claimed (10 R414). -/
def claimOf (s : State) (d : Due) : Bool :=
  match d.subject with
  | .crew g => !d.margin && !qualifies s && claims s g
  | .tile _ => false

/-- The subject is free for a trial (10 R408, R424). -/
def subjFree (s : State) : Subject → Bool
  | .crew g => crewIdle s g && !swapHolds s g
  | .tile t => !stackShut s (tilePart t) && !s.ump.work.any (fun w => decide (w.subject = .tile t))

/-- The trial's power fits: a nominal trial under 06 R262 unless it is claimed, a margin trial only in what a scheduler
pass has left over, `held` of it being the trial's own (10 R411, R414, R441). -/
def powerFits (s : State) (d : Due) (held : Nat) : Bool :=
  let p := d.subject.part
  let n := trialPower s d.subject d.margin - held
  if d.margin then noCandidate s && decide (committed s p + n ≤ (s.part p).budget) && decide (stretchOf s p = 0)
  else claimOf s d || room s p n

/-- The Umpire may begin trials: a swap's spares are swept in any case (10 R412, R425, R439). -/
def trialsRun (s : State) (wanted : Bool) : Bool := wanted || (s.ump.trials && !timedRuns s)

/-- At most half of a partition's crews sweep at once in the qualification (12 R484). -/
def halfSweep (s : State) (d : Due) : Bool :=
  match d.subject with
  | .crew g => !qualifies s || decide (sweeping s (g / 64) < Nat.max 1 (Tbl.look 0 (g / 64) s.ump.nCrews / 2))
  | .tile _ => true

/-- The Umpire may start this sweep now (10 R408, R411, R412, R414, R425, 12 R484). -/
def mayStart (s : State) (d : Due) : Bool :=
  subjFree s d.subject && trialsRun s d.wanted && halfSweep s d && powerFits s d 0

/-- Every sweep that is due. -/
def allDue (s : State) : List Due :=
  let cand := swapCandidates s
  (s.ump.crews.flatMap (fun e => dueCrew s e.1)) ++ (s.ump.tiles.flatMap (fun e => dueTile s cand e.1))

/-- In the qualification, crews go in ascending logical number (12 R484). -/
def startBefore (s : State) (a b : Due) : Bool :=
  match qualifies s, a.subject, b.subject with
  | true, .crew g, .crew h =>
    decide (g % 64 < h % 64) || (decide (g % 64 = h % 64) && (decide (g < h) || (decide (g = h) && !a.margin && b.margin)))
  | _, _, _ => a.before b

/-- Where an interrupted sweep of the subject goes on (10 R410). -/
def setResume (sub : Subject) (n : Nat) (margin : Bool) (s : State) : State :=
  match sub, margin with
  | .crew g, false => s.modCrew g (fun k => { k with resumeNom := n })
  | .crew g, true => s.modCrew g (fun k => { k with resumeMar := n })
  | .tile t, false => s.modUtile t (fun u => { u with resumeNom := n })
  | .tile t, true => s.modUtile t (fun u => { u with resumeMar := n })

def resumeOf (s : State) (sub : Subject) (margin : Bool) : Nat :=
  match sub, margin with
  | .crew g, false => (s.crew g).resumeNom
  | .crew g, true => (s.crew g).resumeMar
  | .tile t, false => (s.utile t).resumeNom
  | .tile t, true => (s.utile t).resumeMar

/-- Begins a sweep, or goes on with an interrupted one at its next trial (10 R407, R410, R411). -/
def beginSweep (d : Due) (s : State) : State :=
  let n := trialPower s d.subject d.margin
  let w : Work := { subject := d.subject, margin := d.margin, trial := resumeOf s d.subject d.margin, retry := none
                    isolation := d.iso, power := n, claimed := claimOf s d, qsweeps := s.ump.qsweeps, clean := s.ump.clean }
  commitPower d.subject.part n (s.modUmp (fun u => { u with work := u.work ++ [w] }))

/-- The third crew of a triage: the first to be idle that is not the partner, crews in no berth first, in rotation
(10 R420, log 28). -/
def pickThird (s : State) (p : Pair) : Option Nat :=
  let l := (rotation s.ump.rotate).filter (fun g =>
    crewIdle s g && !swapHolds s g && !(s.crew g).tiles.any (fun t => p.pTiles.contains t))
  match l.find? (fun g => (s.crew g).berth.isNone) with
  | some g => some g
  | none => l.head?

/-- Starts the triage of context c's launch on a third crew, once one is idle (10 R420). -/
def startTriage (c : Nat) (s : State) : State :=
  match (s.ctx c).exec with
  | none => s
  | some x =>
    match x.pair with
    | none => s
    | some p =>
      if p.mism.isEmpty || p.gThird.isSome then s
      else
        match pickThird s p with
        | none => s
        | some g =>
          let d := x.launch.desc
          let s := commitPower (g / 64) p.power (s.modCrew g (fun k => { k with partnerOf := some c }))
          let s := forList (fun t s => s.setTile t.1 {
            run := .waitCode, job := .triage, crew := p.crew, tid := t.2, partNo := p.gChk / 64
            ncrew := d.ncrew, ctx := c, launchId := x.launch.id, jobid := (s.ctx c).jobid
            argp := BitVec.ofNat 42 d.argp.toNat, entry := BitVec.ofNat 12 d.entry }) (s.crew g).tiles.zipIdx s
          s.modExec c (fun x => { x with pair := x.pair.map (fun q => { q with gThird := some g }) })

/-- SWEEP_START: waiting triages first, then the first sweep that may start (10 R409 to R414, R420). -/
def sweepStart (s : State) : State :=
  if !umpWorks s then s
  else
    let s := forList (fun e s => startTriage e.1 s) (execs s) s
    if s.boot.stage ≠ .qualify ∧ s.boot.stage ≠ .ready then s
    else
      match listMin (startBefore s) ((allDue s).filter (mayStart s)) with
      | none => s
      | some d => beginSweep d s

/-! ### The end of a trial -/

/-- Ends work i: its power is released. -/
def dropWork (i : Nat) (w : Work) (s : State) : State :=
  let s := releasePower w.subject.part w.power (s.modUmp (fun u => { u with work := listDrop u.work i }))
  match w.subject with
  | .crew g => if w.claimed then s.modCrew g (fun k => { k with claimUsed := true }) else s
  | .tile _ => s

/-- A tile that fails a trial: counted, with its event (10 R407, Table 10-2). -/
def noteFail (margin : Bool) (t : Nat) (s : State) : State :=
  let s := s.umpCount (if margin then 2 else 1)
  let s := raise (if margin then evUmpMarginFail else evUmpTrialFail) (tilePart t) t s
  s.modUtile t (fun u => { u with sweepBad := true, clean := 0, nomOk := false })

/-- The class of a tile that failed the first run (10 Table 10-2, R421). -/
def classFail (margin : Bool) (again : List Nat) (t : Nat) (s : State) : State :=
  match margin, again.contains t with
  | false, true => corrupt t cNominalConfirmed none s
  | false, false => umpTrigger t cNominalTransient none s
  | true, true => umpTrigger t cMarginConfirmed none s
  | true, false => s

/-- A sweep has passed on tile t: swept since power-on, clean rounds, isolation (10 R422, R425, R426). -/
def tileSwept (w : Work) (t : Nat) (s : State) : State :=
  let margin := w.margin
  let u := s.utile t
  let s := s.setUtile t { u with sweepBad := false }
  if u.sweepBad then s
  else
    let s := s.modUtile t (fun u => if margin then { u with sweptMar := true } else { u with sweptNom := true })
    let round := margin && u.nomOk
    let s := s.modUtile t (fun u => { u with nomOk := !margin })
    if w.isolation then
      if !round then s
      else
        let s := s.modUtile t (fun u => { u with isoPass := u.isoPass + 1 })
        if (s.utile t).isoPass < w.qsweeps then s
        else
          let s := s.modUtile t (fun u => { u with isoPass := 0 })
          if u.wasCleared then changeTile t .retired cIsolationPass evUmpRetired none s
          else changeTile t .cleared cIsolationPass evUmpCleared none s
    else if u.st = .suspect ∧ round = true then
      let n := u.clean + 1
      if w.clean ≤ n then
        changeTile t .active cClean 0 none
          (s.modUtile t (fun u => { u with clean := 0, pending := none, pendLaunch := none }))
      else s.modUtile t (fun u => { u with clean := n })
    else s

/-- A sweep has ended (10 R409, CNT_SWEEP). -/
def endSweep (w : Work) (s : State) : State :=
  let now := s.now
  let s := setResume w.subject 0 w.margin (s.umpCount 0)
  let s := match w.subject, w.margin with
    | .crew g, false => s.modCrew g (fun k => { k with lastNom := now, dueNom := false })
    | .crew g, true => s.modCrew g (fun k => { k with lastMar := now, dueMar := false })
    | .tile t, false => s.modUtile t (fun u => { u with lastNom := now, dueNom := false })
    | .tile t, true => s.modUtile t (fun u => { u with lastMar := now, dueMar := false })
  forList (tileSwept w) (subjTiles s w.subject) s

/-- The Umpire may go on with the sweep's next trial (10 R410 to R412, R414, R425, R435). -/
def mayGoOn (s : State) (w : Work) : Bool :=
  let wanted := match w.subject with
    | .crew _ => false
    | .tile t => (swapCandidates s).contains t
  let d : Due := { subject := w.subject, margin := w.margin, overdue := 0, iso := w.isolation, wanted := wanted }
  !w.claimed && umpWorks s && trialsRun s wanted && powerFits s d w.power

/-- The tile of single-tile work has taken another role since the work began: the work is void. -/
def stale (s : State) (w : Work) : Bool :=
  match w.subject with
  | .crew _ => false
  | .tile t => if w.isolation then !isolates s t else decide ((s.utile t).role ≠ .spare)

/-- The trial of work i is over: the next one, or the end of the sweep. -/
def nextTrial (i : Nat) (w : Work) (s : State) : State :=
  match s.ump.work[i]? with
  | none => s
  | some v =>
    if v.subject ≠ w.subject then s
    else if stale s w then dropWork i w s
    else
      let k := w.trial + 1
      if w.subject.trials ≤ k then endSweep w (dropWork i w s)
      else
        let s := setResume w.subject k w.margin s
        if mayGoOn s w then
          s.modUmp (fun u => { u with work := listSet u.work i { w with trial := k, retry := none } })
        else dropWork i w s

/-- Tile cycles of each trial, in the order of the library (10 Table 10-1). -/
def trialCycles : List Nat :=
  List.replicate 8 40000 ++ List.replicate 3 30000 ++ List.replicate 2 60000 ++ [20000] ++ List.replicate 3 40000 ++
    List.replicate 4 30000 ++ [20000]

/-- A tile passes a trial: HALT within twice the trial's cycles, no trap, and the library's SIG (10 R405). -/
def trialPass (k : Nat) (r : TrialRun) : Bool :=
  (match r.halted with
   | some n => decide (n ≤ 2 * trialCycles.getD k 0)
   | none => false) && r.trap.isNone && decide (r.sig = r.want)

/-- What a tile's run reports besides its outcome: corrected errors, and a trap that is an Umpire input (10 R602, 02 R75,
R98). -/
def trialReport (r : TrialRun) (s : State) : State :=
  let t := r.tile.val
  let s := forUp (fun _ s => countCe t s) 0 r.ces s
  match r.trap with
  | some c => if c = tcSramUe ∨ c = tcImemUe ∨ c = tcEddyUe then countUe t none s else s
  | none => s

/-- The runs of the trial's own tiles, and the tiles that failed. A tile whose run is not given has passed (log 28). -/
def trialRuns (s : State) (w : Work) (l : List TrialRun) : List TrialRun :=
  l.filter (fun r => (subjTiles s w.subject).contains r.tile.val)
def trialFails (s : State) (w : Work) (l : List TrialRun) : List Nat :=
  ((trialRuns s w l).filter (fun r => !trialPass w.trial r)).map (·.tile.val)

/-- TRIAL_COMPLETE: the trial of work i has ended on its tiles (10 R405, R407, R422, R438, R602). -/
def trialComplete (i : Nat) (runs : List TrialRun) (s : State) : State :=
  match s.ump.work[i]? with
  | none => s
  | some w =>
    if !umpWorks s then s
    else if stale s w then dropWork i w s
    else
      let f := trialFails s w runs
      let s := forList trialReport (trialRuns s w runs) s
      match w.retry with
      | none =>
        if f.isEmpty then nextTrial i w s
        else
          let s := forList (noteFail w.margin) (sortBy (fun a b => decide (a < b)) f) s
          if w.isolation then
            forList (fun t s => changeTile t .retired cIsolationFail evUmpRetired none
              (s.modUtile t (fun u => { u with isoPass := 0 }))) f (setResume w.subject 0 w.margin (dropWork i w s))
          else s.modUmp (fun u => { u with work := listSet u.work i { w with retry := some f } })
      | some first =>
        nextTrial i w (forList (classFail w.margin f) (sortBy (fun a b => decide (a < b)) first) s)

/-! ### Pair checks -/

/-- The physical tile of logical tile t of the checked crew (10 R417). -/
def chkTile (x : Exec) (p : Pair) (t : Nat) : Nat :=
  ((x.tiles.find? (fun e => decide (e.1 = p.crew) && decide (e.2.1 = t))).map (·.2.2)).getD 0

/-- A partner's or third crew's tile: its SIG, or none where it trapped (10 R419, R602). -/
def replaySig (s : State) (t : Nat) : Option (BitVec 64) :=
  if (s.tile t).trapped then none else some (s.tile t).sig

/-- A tile of a pair check has finished: HALT has retired, or it stopped on a trap. -/
def replayOver (s : State) (t : Nat) : Bool := decide ((s.tile t).run = .halted) || (s.tile t).trapped

/-- The partner is gated and its power released, its SIGs compared (10 R419). -/
def freePartner (c : Nat) (p : Pair) (s : State) : State :=
  let s := forList (fun g s => releasePower (g / 64) p.power
    ((gateCrew g s).modCrew g (fun k => { k with partnerOf := none }))) p.gPart.toList s
  s.modExec c (fun x => { x with pair := x.pair.map (fun q => { q with gPart := none }) })

/-- PAIR_CHECK_COMPARE: SIG of each logical tile is compared once both crews have finished (10 R419). -/
def pairCompare (c : Nat) (s : State) : State :=
  match (s.ctx c).exec with
  | none => s
  | some x =>
    match x.pair with
    | none => s
    | some p =>
      let chk := (List.range 8).map (chkTile x p)
      if !umpWorks s || p.gPart.isNone || x.ranAt.isNone ||
          !chk.all (fun t => decide ((s.tile t).run = .halted)) || !p.pTiles.all (replayOver s) then s
      else
        let mism := ((List.range 8).map (fun k => (k, replaySig s (p.pTiles.getD k 0)))).filter
          (fun e => decide (e.2 ≠ some (s.tile (chk.getD e.1 0)).sig))
        if mism.isEmpty then endPair c p s
        else
          let s := (freePartner c p s).umpCount 4
          let s := raise evUmpPairMismatch (p.gChk / 64) x.launch.id.toNat s
          startTriage c (s.modExec c (fun x => { x with pair := x.pair.map (fun q => { q with mism := mism }) }))

/-- The verdict on logical tile t (10 Table 10-4). -/
def triageTile (x : Exec) (c : Nat) (p : Pair) (third : List Nat) (sigs : Nat → Option (BitVec 64))
    (own : Nat → BitVec 64) (e : Nat × Option (BitVec 64)) (s : State) : State :=
  let who := some (x.launch.id, c)
  let a := chkTile x p e.1
  let b := p.pTiles.getD e.1 0
  match sigs e.1 with
  | some v =>
    if v = own e.1 then umpTrigger b cPairPartner who s
    else if e.2 = some v then corrupt a cPairOriginal who s
    else forList (fun t s => umpTrigger t cPairInconclusive who s) [a, b, third.getD e.1 0] s
  | none => forList (fun t s => umpTrigger t cPairInconclusive who s) [a, b, third.getD e.1 0] s

/-- The verdict on logical tile t is PAIR_INCONCLUSIVE (10 Table 10-4). -/
def inconclusive (sigs : Nat → Option (BitVec 64)) (own : Nat → BitVec 64) (e : Nat × Option (BitVec 64)) : Bool :=
  match sigs e.1 with
  | some v => decide (v ≠ own e.1) && decide (e.2 ≠ some v)
  | none => true

/-- TRIAGE_VERDICT: the third crew has finished, and each mismatched tile gets its verdict (10 R420, Table 10-4). -/
def triageVerdict (c : Nat) (s : State) : State :=
  match (s.ctx c).exec with
  | none => s
  | some x =>
    match x.pair with
    | none => s
    | some p =>
      match p.gThird with
      | none => s
      | some g =>
        let third := (s.crew g).tiles
        if !umpWorks s || !third.all (replayOver s) then s
        else
          let sigs := fun (k : Nat) => replaySig s (third.getD k 0)
          let own := fun (k : Nat) => (s.tile (chkTile x p k)).sig
          let s1 := endPair c p s
          let s2 := forList (triageTile x c p third sigs own) p.mism s1
          if p.mism.any (inconclusive sigs own)
          then raise evUmpPairInconclusive (p.gChk / 64) x.launch.id.toNat s2 else s2

/-! ### Swaps, flash, commands -/

/-- SWAP: at its swap point a tile is replaced by a spare, or its crew is withdrawn; a swap with spares that have
not passed both sweeps waits for them (10 R424, R425, R427). -/
def swap (t : Nat) (s : State) : State :=
  let u := s.utile t
  let first := s.ump.tiles.all (fun e => decide (t ≤ e.1) || e.2.pending.isNone || !swapReady s e.1)
  if !umpWorks s || !swapReady s t || !(first || u.pending.isNone) then s
  else
    let pool := sparePool s (tilePart t)
    if pool.isEmpty then withdraw u.gcrew s
    else
      match nearest (s.crew u.gcrew).tiles u.ltile (pool.filter (sweptBoth s)) with
      | some x => rebind u.gcrew u.ltile t x s
      | none => s

/-- RETIRED_MAP_WRITE: the oldest entry goes to flash, or its write fails and is tried again after 1 s (10 R431). -/
def mapWrite (ok : Bool) (s : State) : State :=
  match s.ump.toFlash with
  | [] => s
  | e :: r =>
    let waits := match s.ump.flashFail with
      | some a => decide (s.since a < secs)
      | none => false
    if !s.alive || !s.coxRuns || waits then s
    else if ok then
      setRmapHash (appendEntry e (s.modUmp (fun u => { u with toFlash := r, flashFail := none })))
    else raise evUmpFlashFail noUnit 0 (s.modUmp (fun u => { u with flashFail := some s.now }))

/-- UMP_CMD_STAT.RESULT (10 Table 10-8). -/
def urDone : Nat := 0
def urBadTile : Nat := 1
def urBadState : Nat := 2
def urBadOp : Nat := 3

/-- A nominal and a margin sweep of the tile's subject become due at once (10 Table 10-8, log 28). -/
def sweepNow (t : Nat) (s : State) : State :=
  let u := s.utile t
  if u.role = .enabled then s.modCrew u.gcrew (fun k => { k with dueNom := true, dueMar := true })
  else if u.role = .spare then s.setUtile t { u with dueNom := true, dueMar := true }
  else s

/-- A write of UMP_CMD (10 R440). OP is checked first, then the tile number, then its state (log 28). -/
def umpCmd (op t : Nat) (s : State) : State :=
  let r := if op ≠ 1 ∧ op ≠ 2 then urBadOp
    else if 4607 < t then urBadTile
    else if (s.utile t).st = .fused ∨ (s.utile t).st = .retired then urBadState
    else urDone
  let s := s.modUmp (fun u => { u with result := r })
  if r ≠ urDone then s else if op = 1 then sweepNow t s else umpTrigger t cHost none s

/-- SWEEP_START: the Umpire starts a due sweep (R410). -/
def execSweepStart (s : State) : Host.Outcome State Fault Refusal := .next (sweepStart s)

/-- TRIAL_COMPLETE: a trial ends and is passed, retried or classed (R407). -/
def execTrialComplete (i : Nat) (runs : List TrialRun) (s : State) : Host.Outcome State Fault Refusal :=
  .next (trialComplete i runs s)

/-- PAIR_CHECK_COMPARE: the tile signatures of both crews are compared (R419). -/
def execPairCheckCompare (c : CtxIx) (s : State) : Host.Outcome State Fault Refusal := .next (pairCompare c.val s)

/-- TRIAGE_VERDICT: each mismatched tile gets a verdict (R420). -/
def execTriageVerdict (c : CtxIx) (s : State) : Host.Outcome State Fault Refusal := .next (triageVerdict c.val s)

/-- SWAP: at the swap point a spare replaces the tile (R424). -/
def execSwap (t : TileIx) (s : State) : Host.Outcome State Fault Refusal := .next (swap t.val s)

/-- RETIRED_MAP_WRITE: a retired map entry is written to flash (R431). -/
def execRetiredMapWrite (ok : Bool) (s : State) : Host.Outcome State Fault Refusal := .next (mapWrite ok s)

/-- SWEEP: UMP_CMD SWEEP makes a sweep due at once (R435, R440). -/
def execUmpSweep (ptile : BitVec 13) (s : State) : Host.Outcome State Fault Refusal :=
  .next (if s.alive then umpCmd 1 ptile.toNat s else s)

/-- QUARANTINE: UMP_CMD QUARANTINE is a trigger (R421, R440). -/
def execUmpQuarantine (ptile : BitVec 13) (s : State) : Host.Outcome State Fault Refusal :=
  .next (if s.alive then umpCmd 2 ptile.toNat s else s)

/-- UMP_LOG_POP: discards the head of the Umpire's log (R436). -/
def execUmpLogPop (s : State) : Host.Outcome State Fault Refusal :=
  .next (if s.alive then s.modUmp (fun u => { u with log := u.log.pop }) else s)

/-- FAULT_POP: discards the head of a partition's fault ring (02 R102). -/
def execFaultPop (p : PartIx) (s : State) : Host.Outcome State Fault Refusal :=
  .next (if s.alive then s.modPart p.val (fun x => { x with faults := x.faults.pop }) else s)

/-- RESET_LOG_POP: discards the head of the reset log (11 R468). -/
def execResetLogPop (s : State) : Host.Outcome State Fault Refusal :=
  .next (if s.alive then s.modRst (fun r => { r with log := r.log.pop }) else s)

end Sys2Proof.Machine
end

