-- ==== Sys2Proof/Machine/Boot.lean ====
section
/-!
DEFINITION. The start of a device (12 Table 12-1): slot selection (R502), loading, maps, microcode (R482, R483),
training (R479), readiness (R484), and the full device reset (R476, 11 R468, 13 R521).
-/

namespace Sys2Proof.Machine

/-! ### The boot ROM -/

/-- The 0.5 ms step: every PLL is locked, and the Stroke counter starts (12 Table 12-1). -/
def lockPlls (s : State) : State :=
  let s := forUp (fun p s => (s.modPart p (fun x => { x with tclk := true })).modStk p (fun k => { k with hclk := true })) 0 8 s
  s.modRst (fun r => { r with mclk := true, sclk := true, pclk := true })

/-- check(s, v) of R502. -/
def checkSlot (s : State) (b : Bool) (v : BitVec 32) : Bool :=
  decide (verifySlot s b = 0) && decide (slotVersion s b = v)

/-- A fallback is committed, with its event and the REASON of the slot that was active (12 R500, R502). -/
def commitFallback (reason code : Nat) (s : State) : State :=
  let b := s.boot.record.active
  slotEvent code b (setReason b reason (commitRecord fallback s))

/-- A trial past its limits falls back; any other trial boot is counted before the image is loaded (12 R502). -/
def countTrialBoot (s : State) : State :=
  let r := s.boot.record
  if !r.trial then s
  else if 3 ≤ r.trialBoots then commitFallback frTrialBoots 0x7006 s
  else if 30 ≤ r.trialMin then commitFallback frTrialExpired 0x7006 s
  else commitRecord (fun r => { r with trialBoots := r.trialBoots + 1 }) s

/-- Loads the sections of slot b: the running version, the digest of COX, the microcode (12 R482, R496). -/
def loadSlot (b : Bool) (s : State) : State :=
  let h := slotHeader s b
  s.modBoot (fun x => { x with
    stage := .load, slot := b, trial := x.record.trial, version := hdrVersion h, minStep := hdrMinStep h
    coxMem := sectionBytes s b 0, coxSha := sha384 (sectionBytes s b 0), mcode := sectionBytes s b 1 })

/-- RECOVERY: only the boot ROM's responder runs (12 R504). -/
def enterRecovery (s : State) : State := s.modBoot (fun x => { x with stage := .recovery })

/-- Selects and loads a slot; the Bool says that one was loaded (12 R502). -/
def selectSlot (s : State) : State × Bool :=
  let s := countTrialBoot s
  let r := s.boot.record
  if checkSlot s r.active r.activeVer then (loadSlot r.active s, true)
  else if r.standbyVer ≠ 0 && checkSlot s (!r.active) r.standbyVer then
    (loadSlot (!r.active) (commitFallback frBootCheck (if r.trial then 0x7006 else 0x7009) s), true)
  else (enterRecovery s, false)

/-! ### The Cox firmware's first steps -/

/-- The Cox firmware runs on all four cores, and the watchdog is armed; held events are delivered (12 Table 12-1,
15 R593). -/
def coxStart (s : State) : State :=
  let s := forUp (fun k s => s.modRst (fun r => { r with beats := Tbl.put 0 k s.now r.beats })) 0 4 s
  deliverHeld ((s.modBoot (fun b => { b with cox := true })).modRst (fun r => { r with armed := true }))

/-- The retired map is read, BOOTS incremented in flash, and the dispatch map built (12 R476, R481, 10 R428, R432,
14 R581). -/
def buildMaps (s : State) : State :=
  let boots := (flashBoots s + 1) % 2 ^ 32
  let blank := (governing s).isNone
  let s := s.modUmp (fun u => { u with boots := boots, epoch := BitVec.ofNat 32 (boots % 2 ^ 16 * 2 ^ 16) })
  let s := if blank then raise evUmpFlashFail noUnit 0 s else s
  let s := appendStamp s
  setRmapHash (buildMap (s.modBoot (fun b => { b with stage := .maps })))

/-- The steps of Table 12-1 from the 0.5 ms step up to the dispatch map, on a device that is cleared (12 R476). -/
def startDevice (s : State) : State :=
  let s := lockPlls s
  let s := s.modBoot (fun b => { b with afterTrip := decide (s.card.offCode = cfTrip) })
  let (s, found) := resolveRecord s
  if !found then enterRecovery s
  else
    let (s, loaded) := selectSlot s
    if loaded then buildMaps (coxStart s) else s

/-- A full device reset: everything but the card flash is cleared, and the start runs again (11 Table 11-4,
12 R476). -/
def fullReset (s : State) : State := startDevice (cleared s)

/-- The boot ROM starts again from RECOVERY: what it has logged in the always-on block stays there until the Cox
firmware runs (12 R504, R507). -/
def startAgain (s : State) : State :=
  startDevice ((cleared s).modHost (fun h => { h with heldEvents := s.host.heldEvents, heldLost := s.host.heldLost }))

/-- POWER_GOOD: a powered device that has not started begins its start (12 Table 12-1). -/
def powerGood (s : State) : State := if s.alive && !s.up then fullReset s else s

/-! ### Microcode, training, readiness -/

/-- Every tile that is not FUSED. -/
def liveTiles (s : State) : List Nat := (List.range 4608).filter (fun t => decide ((s.utile t).st ≠ .fused))

/-- MCODE_BROADCAST: every tile receives the microcode and checks it; a tile that fails twice is evicted
(12 R483). The check against the digest in the image fails in every tile when MCODE does not match it. -/
def mcodeBroadcast (bad bad2 : List Nat) (s : State) : State :=
  if !(s.alive && s.coxRuns && decide (s.boot.stage = .maps)) then s
  else
    let ok := decide (sha384 s.boot.mcode = hdrMcodeSha (slotHeader s s.boot.slot))
    let fails := (liveTiles s).filter (fun t => !ok || (bad.contains t && bad2.contains t))
    let s := s.modBoot (fun b => { b with stage := .train, mcodeDone := true, mcodeErr := [] })
    forList (fun t s => corrupt t cNominalConfirmed none s) fails s

/-- Stack k has trained: its settings for both presets are stored (12 R479). -/
def trainStack (k : Nat) (s : State) : State :=
  s.modStk k (fun x => { x with trained := true, settings := true, hclk := true })

/-- A stack that fails is recorded; the first one in BOOT_HBM_FAIL (12 R479). -/
def trainFail (f : HbmFail) (s : State) : State :=
  let s := s.modBoot (fun b => { b with hbmFail := some (b.hbmFail.getD f) })
  raise 0x2006 f.stack.val f.channel.val s

/-- HBM_TRAIN_DONE: the stacks have trained, and the scrubber and the governor start; or the device goes out of
service, with STAGE FAILED (12 R479, R480). -/
def hbmTrainDone (fails : List HbmFail) (s : State) : State :=
  if !(s.alive && s.coxRuns && decide (s.boot.stage = .train)) then s
  else
    let s := forUp (fun k s => if fails.any (fun f => decide (f.stack.val = k)) then s else trainStack k s) 0 8 s
    if fails.isEmpty then
      s.modBoot (fun b => { b with trained := true, stage := if s.rst.oos then .failed else .qualify })
    else
      let s := forList trainFail (sortBy (fun a b => decide (a.stack.val < b.stack.val)) fails) s
      enterOos oosTrain (s.modBoot (fun b => { b with stage := .failed }))

/-- The qualification has ended: no sweep of an enabled crew or a spare is due or runs, and no swap or eviction
waits (12 R484). -/
def qualified (s : State) : Bool :=
  s.ump.crews.all (fun e => e.2.tiles.isEmpty || !(e.2.dueNom || e.2.dueMar)) &&
    s.ump.tiles.all (fun e => e.2.pending.isNone && (decide (e.2.role ≠ .spare) || !(e.2.dueNom || e.2.dueMar))) &&
    s.ump.evicting.isEmpty && s.ump.work.all (fun w => w.isolation)

/-- BOOT_READY: admission begins (12 R476, R477, R484). -/
def bootReady (s : State) : State :=
  if !(s.alive && s.coxRuns && decide (s.boot.stage = .qualify) && s.pwr.governed && qualified s) then s
  else if s.rst.oos then s.modBoot (fun b => { b with stage := .failed })
  else
    let now := s.now
    let s := s.modBoot (fun b => { b with stage := .ready, ready := true, readyAt := now, minuteAt := now })
    slotEvent 0x7001 s.boot.slot (s.modUmp (fun u => { u with readyAt := now }))

/-! ### Fabric bring-up -/

/-- What the card controller delivers for FAB_CFG: coordinates from the straps, RACK and RACKS from the rack; all 0
while RACK_PRESENT is inactive (14 R563, 07 R286). -/
def fabDelivery (s : State) : Nat :=
  let c := s.card
  if !c.rackPresent then 0
  else c.slot.toNat + 4 * (c.tray.toNat % 4) + 16 * (c.tray.toNat / 4) + c.rack.toNat * 2 ^ 8 + c.racks.toNat * 2 ^ 16

/-- The Cox firmware has built the dispatch map (12 Table 12-1). -/
def pastMaps (s : State) : Bool :=
  s.coxRuns && decide (s.boot.stage ∈ [.train, .qualify, .ready, .failed])

/-- What the Cox firmware writes to FAB_CFG once the card controller has delivered: the delivery, with START (07 R286,
12 R478). -/
def bringUp (s : State) : BitVec 64 := BitVec.ofNat 64 (2 ^ 63 + fabDelivery s)

/-- START: the Cox firmware's write of FAB_CFG, past the dispatch map; another value is not its write and does nothing
(a host's writes come by REG_WRITE). The delivery says whether the last removal of power was a thermal trip (07 R286,
12 Table 12-1, R478, 14 R563). -/
def bringFabric (v : BitVec 64) (s : State) : State :=
  if !(s.alive && pastMaps s) || s.fab.start.isSome || (s.card.rackPresent && !s.card.delivered) ||
      decide (v ≠ bringUp s) then s
  else fabCfgWrite v (s.modBoot (fun b => { b with afterTrip := decide (s.card.offCode = cfTrip) }))

/-- START: FAB_CFG START begins placement and port training (R286, R287). -/
def execFabStart (v : BitVec 64) (s : State) : Host.Outcome State Fault Refusal := .next (bringFabric v s)

/-- POWER_GOOD: the device start begins (R476). -/
def execPowerGood (s : State) : Host.Outcome State Fault Refusal := .next (powerGood s)

/-- DEVICE: RST_CMD OP DEVICE with its confirmation, in every state (11 R468, Table 11-12). -/
def execDeviceReset (confirm : BitVec 16) (s : State) : Host.Outcome State Fault Refusal :=
  .next (if s.up && decide (confirm = 0x00D5#16) then fullReset s else s)

/-- PERST: PERST# runs a full device reset (13 R521). -/
def execPerst (s : State) : Host.Outcome State Fault Refusal := .next (if s.alive then fullReset s else s)

/-- MCODE_BROADCAST: tile microcode is broadcast and checked in every tile (R483). -/
def execMcodeBroadcast (bad : List TileIx) (bad2 : List TileIx) (s : State) : Host.Outcome State Fault Refusal :=
  .next (mcodeBroadcast (bad.map (·.val)) (bad2.map (·.val)) s)

/-- HBM_TRAIN_DONE: the stacks finish training (R479). -/
def execHbmTrainDone (fails : List HbmFail) (s : State) : Host.Outcome State Fault Refusal := .next (hbmTrainDone fails s)

/-- BOOT_READY: the qualification ends and admission begins (R484). -/
def execBootReady (s : State) : Host.Outcome State Fault Refusal := .next (bootReady s)

end Sys2Proof.Machine
end

