-- ==== Sys2Proof/Machine/Branch.lean ====
section
/-!
DEFINITION. Branches (03 R121, R122, Table 3-6).
-/

namespace Sys2Proof.Machine

/-- cond = p[P] xor N (03 R121). -/
def branchCond (x : Tile) (w : Word) : Bool := x.preg (wG w) ^^ wN w

/-- Goes to a target, or raises PC_OVERRUN with it (03 R122). -/
def goTo (t cost : Nat) (target : Int) (dest : List Nat) (f : Tile → Tile) (s : State) : Did :=
  if 0 ≤ target ∧ target ≤ 0xFFF then .jump cost (BitVec.ofInt 12 target) dest (s.modTile t f)
  else .trap (trapAt s t tcPcOverrun (intBits 32 target) 0) s

/-- PC + sext(off13), without wrapping (03 R121). -/
def relTarget (x : Tile) (w : Word) : Int := x.pc.toNat + sext (wImm13 w) 13

/-- The instruction after this one. -/
def nextTarget (x : Tile) : Int := x.pc.toNat + 1

def bodyBr : Body := fun t w _ s =>
  let x := s.tile t
  if branchCond x w then goTo t 2 (relTarget x w) [] id s else goTo t 1 (nextTarget x) [] id s

def bodyCall : Body := fun t w _ s =>
  let x := s.tile t
  if branchCond x w then
    goTo t 2 (relTarget x w) [rcS (wRs1 w)] (fun x => x.setS (wRs1 w) (BitVec.ofNat 32 (x.pc.toNat + 1))) s
  else goTo t 1 (nextTarget x) [] id s

def bodyJr : Body := fun t w _ s =>
  let x := s.tile t
  if branchCond x w then goTo t 2 ((x.sreg (wRs1 w)).toNat : Int) [] id s else goTo t 1 (nextTarget x) [] id s

def bodyLoop : Body := fun t w _ s =>
  let x := s.tile t
  let v := x.sreg (wRs1 w) - 1#32
  let dec := fun (x : Tile) => x.setS (wRs1 w) v
  if v ≠ 0#32 then goTo t 2 (relTarget x w) [rcS (wRs1 w)] dec s
  else goTo t 1 (nextTarget x) [rcS (wRs1 w)] dec s

/-- BR: branches relative when its predicate condition holds (R121). -/
def execBr (t : TileIx) (s : State) : Host.Outcome State Fault Refusal :=
  .next (issue t.val .br bodyBr s)

/-- CALL: writes the return address to s[rs] and branches when the condition holds (R121). -/
def execCall (t : TileIx) (s : State) : Host.Outcome State Fault Refusal :=
  .next (issue t.val .call bodyCall s)

/-- JR: jumps to s[rs] when the condition holds (R121). -/
def execJr (t : TileIx) (s : State) : Host.Outcome State Fault Refusal :=
  .next (issue t.val .jr bodyJr s)

/-- LOOP: decrements s[rs] and branches while it is non-zero (R121). -/
def execLoop (t : TileIx) (s : State) : Host.Outcome State Fault Refusal :=
  .next (issue t.val .loop bodyLoop s)

end Sys2Proof.Machine
end

