-- ==== Sys2Proof/Machine/HostCore.lean ====
section
/-!
DEFINITION. The PCI Express and CXL link as the device sees it: its training (13 R516, R517, R524), and the host
detach (13 R521, R522).
-/

namespace Sys2Proof.Machine

/-- What the device presents in its configuration space (15 R588, Table 15-4). -/
structure PciIds where
  vendor       : BitVec 16 := 0x1F3C
  device       : BitVec 16 := 0x4B31
  revision     : BitVec 8
  subVendor    : BitVec 16 := 0x1F3C
  subsystem    : BitVec 16 := 0x0001
  classCode    : BitVec 24 := 0x120000
deriving DecidableEq, Repr

/-- The identifiers of this device, by its stepping (15 R588). -/
def pciIds (s : State) : PciIds := { revision := if s.fuses.b0 then 0xB0#8 else 0xA0#8 }

/-- Codes of HOST_IF_STAT.SPEED (13 Table 13-11). -/
def speed16 : Nat := 4
def speed32 : Nat := 5
def speed64 : Nat := 6

/-- What Table 13-1 offers, and the lower rates and widths that a link may settle at: Flit Mode at 64 GT/s and at no
other rate (13 R516, R517). -/
def linkOption (speed width : Nat) (flit : Bool) : Bool :=
  decide (speed ≠ 0) && decide (speed ≤ speed64) && [1, 2, 4, 8, 16].contains width && (flit == decide (speed = speed64))

/-- The CXL mode that Table 13-3 admits at a speed and width; otherwise the device runs as PCI Express only
(13 R524). -/
def cxlAt (speed width : Nat) (m : CxlMode) : CxlMode :=
  if width ≠ 16 ∧ width ≠ 8 then .none
  else match m with
    | .cxl31 => if speed = speed64 then .cxl31 else .none
    | .cxl20 => if speed = speed32 then .cxl20 else .none
    | .none => .none

/-- The link has settled (13 R517). -/
def linkUp (speed width : Nat) (flit : Bool) (cxl : CxlMode) (s : State) : State :=
  if !s.up || !linkOption speed width flit then s
  else
    let bad := decide (speed < speed16) || decide (width < 8)
    let s := s.modRst (fun r => { r with pclk := true })
    let s := s.modHost (fun h => { h with
      speed := speed, width := width, flit := flit, cxl := cxlAt speed width cxl, degraded := bad, attached := true })
    if bad then raise 0x7031 noUnit 0 s else s

/-- The link is down after this detach: a function level reset and a CXL reset leave it up (13 R521). -/
def linkFalls : Detach → Bool
  | .flr => false
  | .cxlReset => false
  | _ => true

/-- Context c at a detach: EN is 0; its executing launch aborts, its fetched launches are FLUSHED, and no record of
them is written (13 R522). -/
def detachCtx (c : Nat) (s : State) : State :=
  let x := s.ctx c
  let s := s.setCtx c { x with en := false, done := [], cqHold := false, stopAfter := false }
  let s := refuseFetched c stFlushed (decideEnd c stHostAbort 0 s.now s)
  let busy := (s.ctx c).exec.isSome || (s.ctx c).abort.isSome
  s.modCtx c (fun k => { k with st := if k.st = .disabled || !busy then .disabled else .aborting })

/-- A host detach (13 R522). PCIE_LINK_DOWN comes before HOST_DETACH, and neither reaches the event ring (15 R590,
R596). -/
def hostDetach (why : Detach) (s : State) : State :=
  let s := if s.alive && decide (why = .pclkLoss) then s.modRst (fun r => { r with pclk := false }) else s
  if !s.alive || !s.host.attached then s
  else
    let s := s.modHost (fun h => { h with attached := false, evtEn := false })
    let s := if why = .dlDown then raise 0x7030 noUnit 0 s else s
    let s := if linkFalls why then s.modHost (fun h => { h with
        speed := 0, width := 0, flit := false, cxl := .none, degraded := false }) else s
    let s := forUp detachCtx 0 64 s
    let s := raise 0x7032 noUnit 0 s
    if linkFalls why then s else s.modHost (fun h => { h with attached := true })

/-- PCIE_LINK_UP: the link settles at a rate, width and mode (R517, R524). -/
def execPcieLinkUp (speed : Nat) (width : Nat) (flit : Bool) (cxl : CxlMode) (s : State) :
    Host.Outcome State Fault Refusal := .next (linkUp speed width flit cxl s)

/-- HOST_DETACH: a reset or a loss of the link detaches the host (R522). -/
def execHostDetach (why : Detach) (s : State) : Host.Outcome State Fault Refusal :=
  .next (thenPass (hostDetach why) s)

end Sys2Proof.Machine
end

