-- ==== Sys2Proof/Machine/Shadow.lean ====
section
/-!
DEFINITION. The shadow state table (13 R540, Table 13-8), and what it shows of the live map.
-/

namespace Sys2Proof.Machine

/-! ### Readings of the live state -/

/-- Enabled crews of partition p (10 UMP_PART.CREWS). -/
def crewsOf (s : State) (p : Nat) : Nat := Tbl.look 0 p s.ump.nCrews

/-- Enabled crews of the device: enabled tiles ÷ 8. -/
def enabledCrews (s : State) : Nat := ((List.range 8).map (crewsOf s)).foldl (· + ·) 0

/-- PART_SHORT: partitions below the grade's count (01 Table 1-2, 10 R434). Before the map build all read 0. -/
def partShort (s : State) : Nat :=
  if s.ump.crews.isEmpty && s.ump.nCrews.isEmpty && s.ump.subRaised.isEmpty then 0
  else ((List.range 8).map (fun p => if crewsOf s p < gradeCrews s then 2 ^ p else 0)).foldl (· + ·) 0

/-- Tiles of partition p in a state. -/
def tilesIn (s : State) (p : Nat) (st : UState) : Nat :=
  (s.ump.tiles.filter (fun e => decide (tilePart e.1 = p) && decide (e.2.st = st))).length

/-- STATE, PENDING and ROLE of tile t, as UMP_TILE codes them (10 Table 10-8). -/
def tileCode (s : State) (t : Nat) : Nat :=
  let u := s.utile t
  u.st.code + 8 * boolNat u.pending.isSome + 16 * u.role.code

/-- The tile section of the table, from hardware. -/
def tileSection (s : State) : List Byte := (List.range 4608).map (fun t => BitVec.ofNat 8 (tileCode s t))

/-- The 16 bytes of partition p (13 Table 13-8). -/
def partBytes (s : State) (p : Nat) : List Byte :=
  let x := s.part p
  leBytes 1 x.point ++ leBytes 1 x.maxpt ++ leBytes 1 x.band ++ leBytes 1 (stretchOf s p) ++ leBytes 1 (crewsOf s p) ++
    leBytes 1 (spareCount s p) ++ leBytes 1 (tilesIn s p .suspect) ++
    leBytes 1 (boolNat x.crack + 2 * boolNat x.blind) ++ leBytes 2 (intBits 16 x.temp) ++
    leBytes 2 (x.budget / 100000000000) ++ leBytes 4 0

/-- Bytes 0 to 63 of a publication with sequence count seq. -/
def shadowHead (s : State) (seq : Nat) : List Byte :=
  leBytes 4 s.ump.epoch.toNat ++ leBytes 4 seq ++ leBytes 8 s.now.toNat ++ leBytes 4 s.boot.version.toNat ++
    leBytes 1 (boolNat s.boot.ready + 2 * boolNat (decide (partShort s ≠ 0)) + 4 * boolNat s.rst.oos) ++
    leBytes 1 (partShort s) ++ leBytes 2 (enabledCrews s) ++ List.replicate 40 0#8

/-- SEQ after a publication: it is odd while the publication is written, and even when it is complete. -/
def nextSeq (s : State) : Nat := (s.host.shSeq + 2) % 2 ^ 32

/-- The published table; before the first publication it reads 0. -/
def shadowBytes (s : State) : List Byte := if s.host.shadow.isEmpty then List.replicate 4800 0#8 else s.host.shadow

/-- The whole table is published (13 R540). -/
def publishWhole (s : State) : State :=
  let q := nextSeq s
  s.modHost (fun h => { h with
    shadow := shadowHead s q ++ (List.range 8).flatMap (partBytes s) ++ tileSection s, shSeq := q })

/-- Its map part is published: the head and the tile section (13 R540, log 29). -/
def publishMap (s : State) : State :=
  let q := nextSeq s
  s.modHost (fun h => { h with
    shadow := shadowHead s q ++ ((shadowBytes s).drop 64).take 128 ++ tileSection s, shSeq := q })

end Sys2Proof.Machine
end

