-- ==== Sys2Proof/Machine/Resets.lean ====
section
/-!
DEFINITION. Clock loss (11 R450), partition resets and their end (R455, R456, R468), the watchdog and the Cox restart
(R460 to R463), and escalation (R464, R473).
-/

namespace Sys2Proof.Machine

/-- CLK_STAT (11 Table 11-12). -/
def clkStat (s : State) : Nat :=
  ((List.range 8).map (fun p => boolNat (s.part p).tclk * 2 ^ p + boolNat (s.stk p).hclk * 2 ^ (8 + p))).foldl (· + ·) 0 +
    boolNat s.rst.mclk * 2 ^ 16 + boolNat s.rst.sclk * 2 ^ 17 + boolNat s.rst.pclk * 2 ^ 18

/-- CLK_LOSS: a PLL reads unlocked in two samples (11 R450, Table 11-3). -/
def clkLoss (k : ClkSel) (s : State) : State :=
  if !s.up then s
  else match k with
    | .tclk p =>
      if !(s.part p.val).tclk then s
      else
        let s := (toP15 p.val s).modPart p.val (fun x => { x with tclk := false, lostAt := some s.now })
        let s := reEstimate (settleVoltage s)
        startReset p.val prClk true none stCollateral (raise 0x6008 p.val (clkStat s) s)
    | .hclk p =>
      if !(s.stk p.val).hclk then s
      else
        let s := s.modStk p.val (fun x => { x with hclk := false })
        startReset p.val prHclk true none stCollateral (raise 0x6008 p.val (clkStat s) s)
    | .mclk =>
      if !s.rst.mclk then s
      else
        let s := s.modRst (fun r => { r with mclk := false })
        enterOos oosClk (raise 0x6008 noUnit (clkStat s) s)
    | .sclk =>
      if !s.rst.sclk then s
      else
        let s := s.modRst (fun r => { r with sclk := false })
        enterOos oosClk (raise 0x6008 noUnit (clkStat s) s)
    | .rclk n => linkRetrain n.val true s
    | .pclk => thenPass (hostDetach .pclkLoss) s

/-- The reset of partition p no longer holds context c; a launch whose quiesce check waited for it ends (11 R453,
R456). -/
def freeCtx (p c : Nat) (s : State) : State :=
  let drop := fun (l : List Nat) => l.filter (fun q => decide (q ≠ p))
  match (s.ctx c).abort with
  | none => s
  | some a =>
    let s := s.modCtx c (fun x => { x with abort := some { a with parts := drop a.parts, stuck := drop a.stuck } })
    if a.quiesced && (drop a.stuck).isEmpty then settleAbort c (launchDone c s) else s

/-- The contexts that p's reset holds are free of it. -/
def freeCtxs (p : Nat) (s : State) : State := forUp (freeCtx p) 0 64 s

/-- The PLL of partition p has not relocked 100 µs after its loss (11 Table 11-3). -/
def relockFailed (s : State) (p : Nat) : Bool :=
  match (s.part p).lostAt with
  | some a => decide (100000 ≤ s.since a)
  | none => false

/-- PART_RESET_DONE: 35 µs after its start the reset of p ends. One with TCLK lost goes on until it has relocked, and
after 100 µs, or where the channels of a lost HCLK fail to retrain, the device goes out of service (11 Table 11-3,
Table 11-7, R464, R473). -/
def partResetDone (p : Nat) (clockOk : Bool) (s : State) : State :=
  match (s.part p).reset with
  | none => s
  | some r =>
    if !s.up || decide (s.since r.start < 35000) then s
    else if !clockOk && !(s.part p).tclk then
      if relockFailed s p then enterOos oosClk (freeCtxs p s) else s
    else if !clockOk && !(s.stk p).hclk then enterOos oosTrain (freeCtxs p s)
    else
      let s := (s.modPart p (fun x => { x with reset := none, tclk := true, lostAt := none })).modStk p
        (fun x => { x with hclk := true })
      let s := raise 0x6002 p (s.part p).rgen.toNat s
      let s := freeCtxs p s
      if s.rst.escDue = some p then enterOos oosEscalation s else s

/-- RST_CMD OP PARTITION (11 R468). -/
def hostPartReset (p : Nat) (s : State) : State :=
  if s.up && !s.rst.oos && s.rst.cox.isNone then startReset p prHost false none stCollateral s else s

/-! ### The watchdog and the Cox restart -/

/-- Core k has beaten within 500 µs; before the watchdog is armed every core counts as alive (11 Table 11-12). -/
def beats (s : State) (k : Nat) : Bool := !s.rst.armed || decide (s.since (Tbl.look 0 k s.rst.beats) ≤ 500000)

/-- WDOG_STAT.ALIVE. -/
def aliveMask (s : State) : Nat := ((List.range 4).map (fun k => boolNat (beats s k) * 2 ^ k)).foldl (· + ·) 0

/-- The steps at W of a Cox restart (11 Table 11-8, R464, R470). What the firmware held of its own is gone: a
download, a broadcast received or sent, and the SPDM negotiation (log 30). -/
def coxBegin (s : State) : State :=
  let mask := aliveMask s
  let s := s.modRst (fun r => { r with
    cox := some s.now, restarts := satAdd 32 r.restarts 1
    coxTimes := s.now :: r.coxTimes.filter (fun a => decide (s.since a ≤ 60 * secs)) })
  let s := s.modBoot (fun b => { b with ready := false, download := none, rx := none, seeding := none })
  let s := s.modHost (fun h => { h with spdm := false })
  let s := escalateCox (raise 0x6003 noUnit mask s)
  let s := forList (fun e s => decideEnd e.1 stCoxRestart 0 s.now s) (execs s) s
  let s := forUp (fun c s => refuseFetched c stCoxRestart s) 0 64 s
  let s := forUp (fun p s =>
    if (s.part p).reset.isSome then s else startReset p prCox false none stCoxRestart s) 0 8 s
  voidWork (fun _ => true) ((allToP15 s).modPwr (fun w => { w with governed := false }))

/-- RST_CMD OP COX_RESTART (11 R460, R468). -/
def hostCoxRestart (s : State) : State :=
  if s.up && s.boot.cox && !s.rst.oos && s.rst.cox.isNone then coxBegin s else s

/-- COX_HEARTBEAT: core k beats (11 R460). -/
def heartbeat (k : Nat) (s : State) : State :=
  if s.up && s.boot.cox then s.modRst (fun r => { r with beats := Tbl.put 0 k s.now r.beats }) else s

/-- The watchdog is armed: not during the first 2,500 µs of a Cox restart (11 R474). -/
def watching (s : State) : Bool :=
  s.rst.armed && s.rst.cox.isNone && (match s.rst.coxTimes with
    | [] => true
    | a :: _ => decide (2500000 ≤ s.since a))

/-- COX_HANG: a core silent for 500 µs fires the watchdog (11 R460). -/
def coxHang (s : State) : State :=
  if s.up && s.boot.cox && watching s && decide (aliveMask s ≠ 15) then coxBegin s else s

/-- A Cox restart fails: the device goes out of service, whose management path goes on (11 R463, R466, 13 R549). -/
def coxFail (s : State) : State := enterOos oosCox (deliverHeld (s.modRst (fun r => { r with cox := none })))

/-- A Cox restart succeeds: every enabled context is STOPPED (11 Table 11-8, 12 R503, R509, 13 R550). -/
def coxDone (s : State) : State :=
  let now := s.now
  let s := s.modRst (fun r => { r with cox := none })
  let s := forUp (fun k s => s.modRst (fun r => { r with beats := Tbl.put 0 k s.now r.beats })) 0 4 s
  let s := s.modBoot (fun b => { b with
    ready := decide (b.stage = .ready) && !s.rst.oos && b.expireAt.isNone, minuteAt := now })
  let s := publishWhole ((deliverHeld s).modHost (fun h => { h with misRun := 0 }))
  let s := (resolveRecord s).1
  let s := forUp (fun c s => if (s.ctx c).st = .running then enterStopped c s else ctxStopped c s) 0 64 s
  let s := raise 0x6004 noUnit 0 s
  if s.rst.escDue.isSome then enterOos oosEscalation s else s

/-- The restarted firmware is ready: no partition is in reset, no abort goes on, and the governor has made its first
pass (11 Table 11-8). -/
def coxReady (s : State) : Bool :=
  (s.rst.oos || (List.range 8).all (fun p => (s.part p).reset.isNone)) &&
    s.ctxs.all (fun e => abortOver e.2) && s.pwr.governed

/-- The copy of COX in management memory has the digest that the boot ROM kept (12 R496). -/
def coxIntact (s : State) : Bool := decide (sha384 s.boot.coxMem = s.boot.coxSha)

/-- COX_RESTARTED: the restart completes, or fails (11 R461, R463). `shaOk` says that management memory reads the copy
without error. It waits until the firmware is ready, and for heartbeats until W + 2,500 µs. -/
def coxRestarted (shaOk : Bool) (mask : Nat) (s : State) : State :=
  match s.rst.cox with
  | none => s
  | some w =>
    let third := decide (3 ≤ (s.rst.coxTimes.filter (fun a => decide (span a w ≤ 60 * secs))).length)
    if !s.up && !s.rst.oos then s
    else if !(shaOk && coxIntact s) || third || (decide (mask ≠ 15) && decide (2500000 ≤ s.since w)) then coxFail s
    else if decide (mask ≠ 15) then s
    else if !coxReady s then s
    else coxDone s

/-- CLK_LOSS: a PLL is lost (R450). -/
def execClkLoss (k : ClkSel) (s : State) : Host.Outcome State Fault Refusal := .next (clkLoss k s)

/-- EDGE_PROTOCOL: an error on a crossing at a partition edge resets the partition (R455). -/
def execEdgeProtocol (p : PartIx) (s : State) : Host.Outcome State Fault Refusal :=
  .next (if s.up then startReset p.val prEdge true none stCollateral s else s)

/-- PARTITION: RST_CMD OP PARTITION (R468). -/
def execPartitionReset (p : PartIx) (s : State) : Host.Outcome State Fault Refusal := .next (hostPartReset p.val s)

/-- PART_RESET_DONE: the partition edge reopens (R456). -/
def execPartResetDone (p : PartIx) (clockOk : Bool) (s : State) : Host.Outcome State Fault Refusal :=
  .next (thenPass (partResetDone p.val clockOk) s)

/-- COX_RESTART: RST_CMD OP COX_RESTART (R461, R468). -/
def execCoxRestart (s : State) : Host.Outcome State Fault Refusal := .next (hostCoxRestart s)

/-- COX_HEARTBEAT: a Cox core writes its heartbeat (R460). -/
def execCoxHeartbeat (core : Fin 4) (s : State) : Host.Outcome State Fault Refusal := .next (heartbeat core.val s)

/-- COX_HANG: the watchdog fires (R460). -/
def execCoxHang (s : State) : Host.Outcome State Fault Refusal := .next (coxHang s)

/-- COX_RESTARTED: the restart completes or fails (R461, R463). -/
def execCoxRestarted (shaOk : Bool) (beats : BitVec 4) (s : State) : Host.Outcome State Fault Refusal :=
  .next (coxRestarted shaOk beats.toNat s)

end Sys2Proof.Machine
end

