-- ==== Sys2Proof/Machine/Firmware.lean ====
section
/-!
DEFINITION. Firmware updates: FW_CMD (12 R500, R501, R509, R513), the rack boot broadcast (R488 to R491, R511), PLDM
Type 5 (13 R536), recovery (12 R504), and a trial's minutes (R503).
-/

namespace Sys2Proof.Machine

def setResult (r : Nat) (s : State) : State := s.modBoot (fun b => { b with result := r })

/-- FW_CMD is accepted: STAGE reads READY or FAILED, no Cox restart runs, and no command is under way (12 R509,
R510). A broadcast being sent counts as under way (log 31). -/
def fwAccepts (s : State) : Bool :=
  s.up && (decide (s.boot.stage = .ready) || decide (s.boot.stage = .failed)) && s.rst.cox.isNone && s.boot.seeding.isNone

/-- The flash takes the writes of a command. -/
def flashTakes (flashOk : Bool) (s : State) : Bool := flashOk && !s.card.flashFails

/-- One update of the record by a command; a write that fails three times ends it with FLASH_FAIL (12 R498). -/
def tryUpdate (flashOk : Bool) (f : BootRec → BootRec) (s : State) : State :=
  if flashOk then commitRecord f s else setResult fwFlashFail (failRecord f s)

/-- ACTIVATE: the inactive slot is checked and becomes TRIAL, or REJECTED (12 Table 12-6). -/
def activate (flashOk : Bool) (s : State) : State :=
  let b := inactiveSlot s
  let st := slotState s b
  if s.boot.record.trial then setResult fwTrialHeld s
  else if st = ssUnsealed then setResult fwBadState s
  else
    let reason := verifySlot s b
    let ver := slotVersion s b
    if reason ≠ 0 then
      let s := tryUpdate flashOk (fun r => r.setRej b true) (setResult fwVerifyFail s)
      slotEvent 0x7003 b (setReason b reason s)
    else
      let s := tryUpdate flashOk (fun r => { (r.setRej b false) with
        active := b, activeVer := ver, standbyVer := r.activeVer, trial := true, trialBoots := 0, trialMin := 0
        fellBack := false }) (setResult fwDone s)
      if flashTakes flashOk s then slotEvent 0x7004 b s else s

/-- CONFIRM: the trial of the running slot ends (12 R501, Table 12-6). -/
def confirm (flashOk : Bool) (s : State) : State :=
  let r := s.boot.record
  if !(s.boot.trial && r.trial && decide (r.active = s.boot.slot)) then setResult fwBadState s
  else
    let s := tryUpdate flashOk (fun r => { r with trial := false, trialBoots := 0, trialMin := 0 }) (setResult fwDone s)
    if flashTakes flashOk s then slotEvent 0x7005 s.boot.slot (s.modBoot (fun b => { b with trial := false })) else s

/-- The time-out of an update agent, in ns: FD_T1 of DSP0267, at least 60 s (13 R536, log 32). -/
def agentTimeout : Nat := 60 * secs

/-- The download in progress; one whose agent has stopped for the time-out has ended (13 R536). -/
def State.download (s : State) : Option Download :=
  s.boot.download.filter (fun d => decide (s.since d.lastAt < agentTimeout))

/-- The download as it now stands, at this command of its agent. -/
def setDownload (d : Download) (s : State) : State :=
  s.modBoot (fun b => { b with download := some { d with lastAt := s.now } })

/-- ABORT_DOWNLOAD: a PLDM download ends, its slot UNSEALED (12 R513, Table 12-6). -/
def abortDownload (s : State) : State :=
  match s.download with
  | none => setResult fwBadState s
  | some _ => setResult fwDone (s.modBoot (fun b => { b with download := none }))

/-- BROADCAST: the seed begins to send its STAGED slot (12 R488, R489). A SESSION of 0 is refused (log 31). -/
def broadcast (session : BitVec 32) (s : State) : State :=
  let b := inactiveSlot s
  if s.boot.record.trial then setResult fwTrialHeld s
  else if session = 0 then setResult fwBadOp s
  else if slotState s b ≠ ssStaged then setResult fwBadState s
  else setResult fwDone (s.modBoot (fun x => { x with seeding := some {
    session := session, n := (4096 + hdrImageLen (slotHeader s b)) / 256, sent := 0, lastAt := s.now } }))

/-- FW_CMD (12 Table 12-9). -/
def fwCmd (op : Nat) (session : BitVec 32) (flashOk : Bool) (s : State) : State :=
  if !fwAccepts s then s
  else match op with
    | 1 => activate flashOk s
    | 2 => confirm flashOk s
    | 3 => abortDownload s
    | 4 => broadcast session s
    | _ => setResult fwBadOp s

/-! ### The broadcast -/

/-- The k-th chunk that the seed sends: 16 to N - 1, then 0 to 15 (12 R489). -/
def chunkAt (n k : Nat) : Nat := if k < n - 16 then 16 + k else k - (n - 16)

/-- The bytes of chunk i, its SEAL bytes as 0xFF (12 R489). -/
def chunkBytes (s : State) (b : Bool) (i : Nat) : List Byte :=
  let bs := slotRead s b (256 * i) 256
  if i = 15 then bs.take 248 ++ List.replicate 8 0xFF#8 else bs

/-- A BOOT packet goes only to UP ports whose partner named the same rack (12 R490). -/
def floodRack (from_ : Option PortIx) (q : Packet) (s : State) : State :=
  flood (fun n => decide (from_.map (·.val) ≠ some n) && sameRack s n) q s

/-- BOOT_CHUNK_SEND: the next chunk is flooded, one every 20 µs; after the last, BOOT_BCAST_DONE (12 R489). -/
def chunkSend (s : State) : State :=
  match s.boot.seeding with
  | none => s
  | some sd =>
    if !(s.up && s.coxRuns) || (decide (sd.sent ≠ 0) && decide (s.since sd.lastAt < 20000)) then s
    else
      let b := inactiveSlot s
      let i := chunkAt sd.n sd.sent
      let at48 := BitVec.ofNat 64 (bits s.now.toNat 0 48)
      let q := { blankPacket .boot with
        dest := s.devNo, src := s.devNo, handle := BitVec.ofNat 32 i, value := BitVec.ofNat 32 sd.n
        jobid := sd.session, len := 256, stroke := at48, data := chunkBytes s b i }
      let s := keepTriple { job := sd.session, origin := s.devNo, stroke := at48, boot := true, kept := s.now } s
      let s := floodRack none q s
      if sd.sent + 1 < sd.n then
        s.modBoot (fun x => { x with seeding := some { sd with sent := sd.sent + 1, lastAt := s.now } })
      else slotEvent 0x700A b (s.modBoot (fun x => { x with seeding := none }))

/-- The session is complete: header, SEAL, FW_DOWNLOAD_DONE (12 R491). -/
def sessionDone (rx : Session) (s : State) : State :=
  let h := (sortBy (fun a b => decide (a.1 < b.1)) rx.head).flatMap (·.2)
  sealSlot (inactiveSlot s) h (s.modBoot (fun x => { x with rx := none }))

/-- A chunk of a session reaches this device (12 R491, R511). -/
def takeChunk (q : Packet) (s : State) : State :=
  let i := q.handle.toNat
  let n := q.value.toNat
  if !s.coxRuns || s.boot.record.trial || s.download.isSome then s
  else
    let fresh := decide (q.jobid ≠ s.boot.session)
    let s := if fresh then
        (eraseHeader (inactiveSlot s) s).modBoot (fun x => { x with
          session := q.jobid, rx := some { id := q.jobid, n := n, chunks := [], head := [], lastAt := s.now } })
      else s
    match s.boot.rx with
    | none => s
    | some rx =>
      if rx.n ≤ i || decide (slotBytes < 256 * rx.n) then s
      else
        let known := rx.chunks.contains i
        let rx := { rx with
          lastAt := s.now
          chunks := if known then rx.chunks else insertBy (fun a b => decide (a < b)) i rx.chunks
          head := if i < 16 && !known then rx.head ++ [(i, q.data)] else rx.head }
        let s := if 16 ≤ i then slotWrite (inactiveSlot s) (256 * i) q.data s else s
        let s := s.modBoot (fun x => { x with rx := some rx })
        if rx.chunks.length = rx.n then sessionDone rx s else s

/-- BOOT_PACKET: arrival i is a chunk; it is forwarded in the rack and taken (12 R490, R491). -/
def bootPacket (i : Nat) (s : State) : State :=
  match s.fab.arrived[i]? with
  | none => s
  | some a =>
    let q := a.pkt
    if q.ptype ≠ .boot then s
    else
      let s := takeArrival i s
      let kept := (keptTriples s).any (fun t =>
        t.boot && decide (t.job = q.jobid) && decide (t.origin = q.src) && decide (t.stroke = q.stroke))
      if kept || decide (q.src.toNat / 64 ≠ s.fab.rack.toNat) then s
      else
        let s := keepTriple { job := q.jobid, origin := q.src, stroke := q.stroke, boot := true, kept := s.now } s
        takeChunk q (floodRack a.port q s)

/-- BOOT_BCAST_INCOMPLETE: 100 ms without a chunk (12 R491). -/
def bcastIncomplete (s : State) : State :=
  match s.boot.rx with
  | none => s
  | some rx =>
    if !s.coxRuns || decide (s.since rx.lastAt < 100000000) then s
    else slotEvent 0x700B (inactiveSlot s) (s.modBoot (fun x => { x with rx := none }))

/-! ### PLDM Type 5 -/

/-- PLDM completion codes of DSP0267 1.1 (log 32). -/
def pldmOk : Nat := 0x00
def pldmNotInUpdate : Nat := 0x80
def pldmInUpdate : Nat := 0x81
def pldmRange : Nat := 0x82
def pldmState : Nat := 0x84
def pldmUnable : Nat := 0x8A
def pldmRetry : Nat := 0x8E
def pldmSelfContained : Nat := 0x8C

def pldmOut (code : Nat) (s : State) : State := { s with mgmt := s.mgmt ++ [.pldm code] }

/-- The management endpoint answers: the Cox firmware runs (13 R532). -/
def mgmtUp (s : State) : Bool := s.up && s.coxRuns

/-- The boot ROM's recovery responder runs (12 R504). -/
def inRecovery (s : State) : Bool := s.up && decide (s.boot.stage = .recovery)

/-- A PLDM Type 5 command is answered. -/
def updateUp (s : State) : Bool := mgmtUp s || inRecovery s

/-- The slot of a download: the inactive one, or slot A in RECOVERY (13 R536, 12 R504). -/
def targetSlot (s : State) : Bool := if inRecovery s then false else inactiveSlot s

/-- RequestUpdate (13 R536). -/
def requestUpdate (maxXfer : Nat) (s : State) : State :=
  if !updateUp s then s
  else if s.boot.record.trial && !inRecovery s then pldmOut pldmUnable s
  else if s.download.isSome then pldmOut pldmInUpdate s
  else if s.boot.rx.isSome then pldmOut pldmRetry s
  else pldmOut pldmOk (setDownload {
    maxXfer := clampNat 1 4096 maxXfer, began := false, header := [], nextOff := 0, total := 0, sealed := false } s)

/-- Bytes that the device asks for at an offset (13 R536). -/
def wantLen (d : Download) : Nat := Nat.min d.maxXfer ((if d.nextOff < 4096 then 4096 else d.total) - d.nextOff)

/-- RequestFirmwareData is sent for the next offset. -/
def ask (d : Download) (s : State) : State := { s with mgmt := s.mgmt ++ [.want d.nextOff (wantLen d)] }

/-- UpdateComponent: the slot header is erased, and the first data are asked for (13 R536). -/
def updateComponent (size : Nat) (s : State) : State :=
  if !updateUp s then s
  else match s.download with
    | none => pldmOut pldmNotInUpdate s
    | some d =>
      if d.began then pldmOut pldmState s
      else if size ≤ 4096 ∨ slotBytes < size then pldmOut pldmRange s
      else
        let d := { d with began := true, nextOff := 4096, total := size }
        ask d (pldmOut pldmOk (setDownload d (eraseHeader (targetSlot s) s)))

/-- The last byte has been written: header and SEAL follow; in RECOVERY a slot that passes is recorded as slot A,
confirmed, and the device starts again (13 R536, 12 R504). -/
def downloadDone (d : Download) (s : State) : State :=
  let s := setDownload { d with sealed := true } s
  if !inRecovery s then sealSlot (inactiveSlot s) d.header s
  else
    let s := slotEvent 0x7002 false (slotWrite false 0 (sealHeader d.header) s)
    if verifySlot s false ≠ 0 then s
    else
      let c0 := recCopy s 0
      let c1 := recCopy s 1
      let top := Nat.max (if recValid c0 then recSeq c0 else 0) (if recValid c1 then recSeq c1 else 0)
      startAgain (if s.card.flashFails then s
        else writeRecord { seq := (top + 1) % 2 ^ 32, activeVer := slotVersion s false } s.boot.record.fields s)

/-- Firmware data for the offset that the device asked for; the image first, then the header (13 R536). Other data
are dropped. -/
def firmwareData (off : Nat) (data : List Byte) (s : State) : State :=
  match s.download with
  | none => s
  | some d =>
    if !updateUp s || !d.began || d.sealed || decide (off ≠ d.nextOff) || decide (data.length ≠ wantLen d) then s
    else if 4096 ≤ off then
      let nxt := off + data.length
      let d := { d with nextOff := if d.total ≤ nxt then 0 else nxt }
      ask d (setDownload d (slotWrite (targetSlot s) off data s))
    else
      let d := { d with nextOff := off + data.length, header := d.header ++ data }
      let s := setDownload d s
      if 4096 ≤ d.nextOff then downloadDone d s else ask d s

/-- TransferComplete and ApplyComplete report success once SEAL is written (13 R536). -/
def reportSealed (s : State) : State :=
  match s.download with
  | none => s
  | some d => if updateUp s && d.sealed then pldmOut pldmOk (setDownload d s) else s

/-- VerifyComplete: the checks of Table 12-4 are run and reported, and nothing is recorded (13 R536). The result is
the REASON of Table 12-9 (log 32). -/
def reportVerify (s : State) : State :=
  match s.download with
  | none => s
  | some d => if updateUp s && d.sealed then pldmOut (verifySlot s (targetSlot s)) (setDownload d s) else s

/-- The response to ActivateFirmware: its code, and that a reset is needed (13 R536). -/
def activatedOut (code : Nat) (s : State) : State := { s with mgmt := s.mgmt ++ [.activated code true] }

/-- ActivateFirmware acts as FW_CMD ACTIVATE and reports its RESULT and that a reset is needed; the update mode ends.
Self-contained activation is refused (13 R536). -/
def activateFirmware (how : Activate) (s : State) : State :=
  if !(mgmtUp s && fwAccepts s) then s
  else match s.download, how with
    | none, _ => pldmOut pldmNotInUpdate s
    | some d, .selfContained => pldmOut pldmSelfContained (setDownload d s)
    | some _, .pending flashOk =>
      let s := fwCmd 1 0 flashOk (s.modBoot (fun b => { b with download := none }))
      activatedOut s.boot.result s

/-- CancelUpdate acts as ABORT_DOWNLOAD (13 R536). -/
def cancelUpdate (s : State) : State :=
  if !updateUp s then s
  else match s.download with
    | none => pldmOut pldmNotInUpdate s
    | some _ => pldmOut pldmOk (abortDownload s)

/-! ### A trial's minutes -/

/-- TRIAL_MIN has reached 30: a fallback is committed, and admission stops (12 R503). Where its write fails, the boot
ROM falls back at the next start (R502, Table 12-7). -/
def trialExpired (flashOk : Bool) (s : State) : State :=
  let b := s.boot.record.active
  let s := tryUpdate flashOk fallback s
  let s := if flashOk then slotEvent 0x7006 b (setReason b frTrialExpired s) else s
  slotEvent 0x7007 b (s.modBoot (fun x => { x with trial := false, ready := false, expireAt := some s.now }))

/-- TRIAL_MINUTE: each 60 s in trial count; at 30 the trial expires, and a full device reset follows once no launch
executes, or after 100 ms (12 R503). A failed write is that of TRIAL_MIN or, at 30, that of the fallback (log 1). -/
def trialMinute (flashOk : Bool) (s : State) : State :=
  if !mgmtUp s then s
  else match s.boot.expireAt with
    | some a => if (execs s).isEmpty || decide (100000000 ≤ s.since a) then fullReset s else s
    | none =>
      if !(s.boot.trial && s.boot.ready) || decide (s.since s.boot.minuteAt < 60 * secs) then s
      else
        let s := s.modBoot (fun b => { b with minuteAt := s.now })
        let more := fun (r : BootRec) => { r with trialMin := r.trialMin + 1 }
        let last := decide (30 ≤ s.boot.record.trialMin + 1)
        let (second, s) := if last && !flashTakes flashOk s then s.freeBelow 2 else (0, s)
        if second = 1 then trialExpired false (updateRecord more s)
        else if !flashTakes flashOk s then tryUpdate false more s
        else
          let s := updateRecord more s
          if last then trialExpired true s else s

/-- ACTIVATE: FW_CMD ACTIVATE (R500). -/
def execFwActivate (flashOk : Bool) (s : State) : Host.Outcome State Fault Refusal := .next (fwCmd 1 0 flashOk s)

/-- CONFIRM: FW_CMD CONFIRM (R500). -/
def execFwConfirm (flashOk : Bool) (s : State) : Host.Outcome State Fault Refusal := .next (fwCmd 2 0 flashOk s)

/-- ABORT_DOWNLOAD: FW_CMD ABORT_DOWNLOAD (R513). -/
def execAbortDownload (s : State) : Host.Outcome State Fault Refusal := .next (fwCmd 3 0 true s)

/-- BROADCAST: FW_CMD BROADCAST (R488). -/
def execFwBroadcast (session : BitVec 32) (s : State) : Host.Outcome State Fault Refusal := .next (fwCmd 4 session true s)

/-- BOOT_CHUNK_SEND: the seed floods the next chunk (R489). -/
def execBootChunkSend (s : State) : Host.Outcome State Fault Refusal := .next (chunkSend s)

/-- BOOT_PACKET: a BOOT packet arrives (R490, R491). -/
def execBootPacket (i : Nat) (s : State) : Host.Outcome State Fault Refusal := .next (bootPacket i s)

/-- BOOT_BCAST_INCOMPLETE: 100 ms pass with chunks missing (R491). -/
def execBootBcastIncomplete (s : State) : Host.Outcome State Fault Refusal := .next (bcastIncomplete s)

/-- TRIAL_MINUTE: a minute in trial (R503). -/
def execTrialMinute (flashOk : Bool) (s : State) : Host.Outcome State Fault Refusal := .next (trialMinute flashOk s)

/-- REQUEST_UPDATE: PLDM RequestUpdate (R536). -/
def execRequestUpdate (maxTransfer : Nat) (s : State) : Host.Outcome State Fault Refusal :=
  .next (requestUpdate maxTransfer s)

/-- UPDATE_COMPONENT: PLDM UpdateComponent (R536). -/
def execUpdateComponent (size : Nat) (s : State) : Host.Outcome State Fault Refusal := .next (updateComponent size s)

/-- FIRMWARE_DATA: a firmware data transfer arrives (R536). -/
def execFirmwareData (off : Nat) (data : List Byte) (s : State) : Host.Outcome State Fault Refusal :=
  .next (firmwareData off data s)

/-- TRANSFER_COMPLETE: success once SEAL is written (R536). -/
def execTransferComplete (s : State) : Host.Outcome State Fault Refusal := .next (reportSealed s)

/-- VERIFY_COMPLETE: the slot checks are run and reported (R536). -/
def execVerifyComplete (s : State) : Host.Outcome State Fault Refusal := .next (reportVerify s)

/-- APPLY_COMPLETE: success (R536). -/
def execApplyComplete (s : State) : Host.Outcome State Fault Refusal := .next (reportSealed s)

/-- ACTIVATE_FIRMWARE: acts as FW_CMD ACTIVATE (R536). -/
def execActivateFirmware (how : Activate) (s : State) : Host.Outcome State Fault Refusal :=
  .next (activateFirmware how s)

/-- CANCEL_UPDATE: acts as ABORT_DOWNLOAD (R536). -/
def execCancelUpdate (s : State) : Host.Outcome State Fault Refusal := .next (cancelUpdate s)

end Sys2Proof.Machine
end

