-- ==== Sys2Proof/Machine/PowerMon.lean ====
section
/-!
DEFINITION. The power monitor and the current clamp: samples (09 R362, R363), open phases (R368), failed senses (R370),
short domains (R373), the clamp (R374), published means (R362) and the crack model (R372).
-/

namespace Sys2Proof.Machine

/-- First phase and number of phases of a domain, and its rated current in mA (09 Table 9-1). -/
def domPhases (d : Nat) : Nat × Nat × Nat :=
  match d with
  | 0 => (0, 24, 1150000)
  | 1 => (24, 5, 180000)
  | 2 => (29, 4, 120000)
  | _ => (33, 4, 140000)

/-- Setpoint of a domain, in mV (09 Table 9-1); VDD_LOGIC's follows the clock points (R364). -/
def domSetpoint (s : State) (d : Nat) : Nat :=
  match d with
  | 0 => s.pwr.setpoint
  | 1 => 750
  | 2 => 800
  | _ => 750

def phasesOf (d : Nat) : List Nat := (List.range (domPhases d).2.1).map (· + (domPhases d).1)

def phase (s : State) (i : Nat) : Phase := Tbl.look { } i s.pwr.phases
def setPhase (i : Nat) (x : Phase) (s : State) : State := s.modPwr (fun w => { w with phases := Tbl.put { } i x w.phases })
def dom (s : State) (d : Nat) : Domain := Tbl.look { } d s.pwr.doms
def setDom (d : Nat) (x : Domain) (s : State) : State := s.modPwr (fun w => { w with doms := Tbl.put { } d x w.doms })

/-- Phases of a domain that are not open. -/
def notOpen (s : State) (d : Nat) : List Nat := (phasesOf d).filter (fun i => !(phase s i).isOpen)

/-- Good phases: neither open nor excluded (09 R363). -/
def goodPhases (s : State) (d : Nat) : List Nat := (notOpen s d).filter (fun i => !(phase s i).excl)

/-- I_lim of a domain, in mA (09 R369). -/
def iLim (s : State) (d : Nat) : Nat := Nat.min (domPhases d).2.2 (54000 * (notOpen s d).length)

def sumOf (f : Nat → Int) (l : List Nat) : Int := (l.map f).foldl (· + ·) 0

/-- A domain's current from its phase readings, and EST (09 R363). -/
def domCurrent (s : State) (d : Nat) (cur : Nat → Int) : Int × Bool :=
  let n := (notOpen s d).length
  let g := goodPhases s d
  if g.isEmpty then ((domPhases d).2.2, true)
  else if g.length = n then (sumOf cur g, false)
  else (sumOf cur g * n / g.length, true)

/-- A current as every comparison and budget uses it: 1.10 times an estimate (09 R371). -/
def guarded (i : Int) (est : Bool) : Int := if est then i * 11 / 10 else i

/-- Some domain has EST = 1 (09 Table 9-6 PWR_LIMIT.EST). -/
def anyEst (s : State) : Bool := (List.range 4).any (fun d => (dom s d).est)

/-- Domain d is short with n phases that are not open (09 R373). -/
def shortWith (d n : Nat) : Bool :=
  if d = 0 then decide (n < 12) else decide (Nat.min (domPhases d).2.2 (54000 * n) < (domPhases d).2.2)

/-- Phase i of domain d has opened. A domain that becomes short with it puts every partition at P15 with stretch
level 3 and takes the device out of service (09 R373, R391). -/
def checkShort (d i : Nat) (s : State) : State :=
  let n := (notOpen s d).length
  if !shortWith d n || shortWith d (n + 1) then s
  else
    let s := raise 0x5004 d i (s.modPwr (fun w => { w with short := true }))
    let s := forUp (fun p s => s.modPart p (fun x => { x with govStretch := 3 })) 0 8 (forUp disturb 0 8 (allToP15 s))
    enterOos oosShort s

/-- The clamp engages, or rises by one level, on every partition (09 R374, R367, 10 R411). -/
def clampUp (s : State) : State :=
  if 3 ≤ s.pwr.clamp then s
  else
    let first := decide (s.pwr.clamp = 0)
    let s := s.modPwr (fun w => { w with
      clamp := w.clamp + 1, cntClamp := if first then satAdd 32 w.cntClamp 1 else w.cntClamp, clampFree := none })
    let s := if first then raise 0x5005 noUnit 1 s else s
    voidWork (fun w => w.margin) (forUp disturb 0 8 s)

/-- What one sample says of phase i of domain d: its counts, and whether its sense fails (1) or it is open (2)
(09 R368, R370). `hist` holds the domain's current at this sample and the 99 before it. -/
def judgePhase (i : Nat) (cur : Nat → Int) (good : List Nat) (hist : List Int) (x : Phase) : Phase × Nat :=
  let r := cur i
  let n : Int := good.length
  let total := sumOf cur good
  let same := if r = x.last ∧ x.same ≠ 0 then x.same + 1 else 1
  let w := hist.take same
  let x := { x with
    last := r, same := same, refI := w.getLast?.getD 0
    minI := w.foldl min (w.head?.getD 0), maxI := w.foldl max (w.head?.getD 0) }
  let x := { x with high := if decide (1 < n) && decide (2 * (total - r) < r * (n - 1)) then x.high + 1 else 0 }
  let stuck := decide (100 ≤ x.same) && decide ((x.refI.natAbs : Int) < 20 * (x.maxI - x.minI))
  if r < -2000 ∨ stuck = true ∨ 3 ≤ x.high then (x, 1)
  else
    let x := { x with low := if decide (r < 1000) && decide (10000 * n < total) then x.low + 1 else 0 }
    if 3 ≤ x.low then (x, 2) else (x, 0)

/-- Judges the good phases of a domain; answers those newly failed and newly open. -/
def judgeDomain (d : Nat) (cur : Nat → Int) (s : State) : State × List (Nat × Nat × Nat) :=
  let good := goodPhases s d
  good.foldl (fun (r : State × List (Nat × Nat × Nat)) i =>
    let (x, k) := judgePhase i cur good (dom s d).hist (phase r.1 i)
    (setPhase i x r.1, if k = 0 then r.2 else r.2 ++ [(k, d, i)])) (s, [])

/-- Declares a failed sense or an open phase (09 R368 to R370, R373). -/
def declare (e : Nat × Nat × Nat) (s : State) : State :=
  let (k, d, i) := e
  if k = 1 then raise 0x5002 d i (setPhase i { phase s i with excl := true } s)
  else
    let s := raise 0x5001 d i (setPhase i { phase s i with isOpen := true } s)
    checkShort d i (s.modPwr (fun w => { w with passDue := true }))

/-- PWR_SAMPLE: phase currents in mA and domain voltages in mV. The clamp compares before this sample's
declarations count, and what is published and budgeted after them (09 R362, R371, R374, Table 9-8). -/
def pwrSample (currents : List Int) (volts : List Nat) (s : State) : State :=
  if !s.alive then s
  else
    let cur := fun i => currents.getD i 0
    let dc := (List.range 4).map (fun d => domCurrent s d cur)
    let above := match dc[0]? with
      | some (i, est) => decide ((iLim s 0 : Int) < guarded i est)
      | none => false
    let s := forUp (fun d s =>
      let x := dom s d
      setDom d { x with hist := ((dc.getD d (0, false)).1 :: x.hist).take 100 } s) 0 4 s
    let (s, found) := (List.range 4).foldl (fun (r : State × List (Nat × Nat × Nat)) d =>
      let (s, l) := judgeDomain d cur r.1
      (s, r.2 ++ l)) (s, [])
    let s := forList declare (found.filter (fun e => decide (e.1 = 1)) ++ found.filter (fun e => decide (e.1 = 2))) s
    let s := forUp (fun d s =>
      let (i, est) := domCurrent s d cur
      let x := dom s d
      let v := volts.getD d 0
      setDom d { x with sumI := x.sumI + i, sumV := x.sumV + v, n := x.n + 1, nowI := i, nowV := v, est := est } s) 0 4 s
    if above then clampUp s else s

/-- Current attributed to partition p, in nA: P_p ÷ V, at the point and setpoint in force (09 R385). -/
def partCurrent (s : State) (p : Nat) : Nat := (s.part p).estW / s.pwr.setpoint

/-- One sample of the crack monitor of partition p: the sense drop in µV (09 R372). -/
def crackSample (p : Nat) (drop : Int) (s : State) : State :=
  let x := s.part p
  let dev := drop - (Tbl.look 0 p s.fuses.resist * partCurrent s p / 1000000000 : Nat)
  let n : Int := x.drops.length
  let off := decide (x.drops ≠ []) && decide (12000 * n < ((dev * n - x.drops.foldl (· + ·) 0).natAbs : Int))
  let i := (dom s 0).nowI
  let steady := decide (20 * ((i - x.dropRef).natAbs : Int) ≤ (x.dropRef.natAbs : Int))
  let run := if !off then 0 else if decide (x.dropRun ≠ 0) && steady then x.dropRun + 1 else 1
  let hit := decide (101 ≤ run) && !x.crack
  let s := s.setPart p { x with
    drops := (dev :: x.drops).take 1000, dropRun := run, dropRef := if run = 1 then i else x.dropRef
    crack := x.crack || hit }
  if hit then raise 0x5003 p (intBits 32 (dev.tdiv 1000)) s else s

/-- PWR_PUBLISH: the means of the interval just ended, and the crack model (09 R362, R372). -/
def pwrPublish (drops : List Int) (s : State) : State :=
  if !s.alive then s
  else
    let s := forUp (fun d s =>
      let x := dom s d
      if x.n = 0 then s
      else setDom d { x with current := x.sumI / x.n, voltage := x.sumV / x.n, sumI := 0, sumV := 0, n := 0 } s) 0 4 s
    forUp (fun p s => crackSample p (drops.getD p 0) s) 0 8 s

/-- PWR_SAMPLE: the power monitor samples phase currents and domain voltages (R362). -/
def execPwrSample (currents : List Int) (volts : List Nat) (s : State) : Host.Outcome State Fault Refusal :=
  .next (pwrSample currents volts s)

/-- PWR_PUBLISH: domain means are published and the crack model is checked (R362). -/
def execPwrPublish (drops : List Int) (s : State) : Host.Outcome State Fault Refusal := .next (pwrPublish drops s)

end Sys2Proof.Machine
end

