-- ==== Sys2Proof/Machine/Thermal.lean ====
section
/-!
DEFINITION. The thermal monitor: diodes and suspects (09 R377 to R379), blind partitions (R380), bands (R381, R608),
the trip (R383); and what bands do to the stacks: refresh and PHY presets (05 R217, R218).
-/

namespace Sys2Proof.Machine

def diode (s : State) (d : Nat) : Diode := Tbl.look { } d s.pwr.diodes
def setDiode (d : Nat) (x : Diode) (s : State) : State := s.modPwr (fun w => { w with diodes := Tbl.put { } d x w.diodes })

/-- The diodes of a group: a partition's eight, 64 to 67, or 68 to 71 (09 R378). -/
def groupOf (g : Nat) : List Nat :=
  if g < 8 then (List.range 8).map (· + 8 * g) else (List.range 4).map (· + 64 + 4 * (g - 8))

/-- Neighbours of a diode (09 R377). -/
def neighboursOf (d : Nat) : List Nat :=
  if d < 64 then
    let p := d / 8
    let k := d % 8
    (if k ≠ 0 then [d - 1] else []) ++ (if k ≠ 7 then [d + 1] else []) ++
      (if p ≠ 0 then [d - 8] else []) ++ (if p ≠ 7 then [d + 8] else [])
  else (groupOf (8 + (d - 64) / 4)).filter (· ≠ d)

/-- UNIT of a thermal event (15 Table 15-7). -/
def thermUnit (g : Nat) : Nat := g

/-- Judges one diode against its model: the mean of its neighbours that are not suspect, plus its calibration offset
(09 R379). -/
def judgeDiode (g d : Nat) (s : State) : State :=
  let x := diode s d
  let l := (neighboursOf d).filter (fun n => !(diode s n).suspect)
  if l.isEmpty then s
  else
    let n : Int := l.length
    let diff := (x.raw * n - sumOf (fun k => (diode s k).raw) l - Tbl.look 0 d s.fuses.calib * n).natAbs
    let bad := if n * 48 < diff then x.bad + 1 else 0
    let good := if (diff : Int) ≤ n * 24 then x.good + 1 else 0
    if !x.suspect && decide (50 ≤ bad) then
      raise 0x5011 (thermUnit g) d (setDiode d { x with suspect := true, bad := 0, good := 0 } s)
    else if x.suspect && decide (1000 ≤ good) then
      raise 0x5012 (thermUnit g) d (setDiode d { x with suspect := false, bad := 0, good := 0 } s)
    else setDiode d { x with bad := bad, good := good } s

def maxInt (l : List Int) : Option Int := listMin (fun a b => decide (b < a)) l

/-- The effective reading of a diode: its own, or when it is suspect the highest of its neighbours' plus 3 °C. Where
every neighbour is suspect too it keeps the one it had (09 R379, log 27). -/
def setEff (d : Nat) (s : State) : State :=
  let x := diode s d
  if !x.suspect then setDiode d { x with eff := x.raw } s
  else
    match maxInt (((neighboursOf d).filter (fun n => !(diode s n).suspect)).map (fun n => (diode s n).eff)) with
    | some e => setDiode d { x with eff := e + 24 } s
    | none => s

/-- Lower bounds of the bands, in 0.125 °C (09 Table 9-9). -/
def bandLow (b : Nat) : Int :=
  match b with
  | 0 => -1000000
  | 1 => 360
  | 2 => 560
  | 3 => 680
  | _ => 760

/-- The band whose range holds a temperature (09 Table 9-9). -/
def bandOf (t : Int) : Nat := if 760 ≤ t then 4 else if 680 ≤ t then 3 else if 560 ≤ t then 2 else if 360 ≤ t then 1 else 0

/-- The next band: up at once, down only 3 °C below the band's lower bound (09 R381, R608). -/
def nextBand (now : Nat) (t : Int) : Nat :=
  if now ≤ bandOf t then bandOf t else if t ≤ bandLow now - 24 then bandOf t else now

/-- A stack's band is the higher of its partition's and its own report's (05 R217). -/
def setStackBand (k : Nat) (s : State) : State :=
  s.modStk k (fun x => { x with band := Nat.max (s.part k).band x.ownBand })

/-- A partition takes a band (09 R608). -/
def toBand (p b : Nat) (s : State) : State :=
  if (s.part p).band = b then s
  else setStackBand p (raise 0x5010 p b (s.modPart p (fun x => { x with band := b })))

/-- A blind partition's temperature follows that of the adjacent ones which are not blind; with none it stays
(09 R380, log 27). -/
def followBlind (p : Nat) (s : State) : State :=
  let near := ((if p = 0 then [] else [p - 1]) ++ (if p = 7 then [] else [p + 1])).filter (fun q => !(s.part q).blind)
  match maxInt (near.map (fun q => (s.part q).temp)) with
  | some t => if (s.part p).blind then s.modPart p (fun x => { x with temp := t + 24 }) else s
  | none => s

/-- The partition's temperature, blindness and band after its diodes were sampled, and the temperatures of the blind
ones (09 R380, R381). -/
def partitionHeat (p : Nat) (s : State) : State :=
  let ds := groupOf p
  let blind := ds.all (fun d => (diode s d).suspect)
  let was := (s.part p).blind
  let t := if blind then (s.part p).temp else (maxInt (ds.map (fun d => (diode s d).eff))).getD 0
  let s := forUp followBlind 0 8 (s.modPart p (fun x => { x with blind := blind, temp := t }))
  let s := if blind && !was then raise 0x5013 p 4 s else s
  toBand p (if blind then 4 else nextBand (s.part p).band t) s

/-- The sampling interval of a group from its highest effective reading, with 2 °C of hysteresis (09 R378). -/
def nextIval (now : Nat) (hi : Int) : Nat :=
  if 896 ≤ hi then 2
  else if 840 ≤ hi then (if now = 2 && decide (880 < hi) then 2 else 1)
  else if now ≠ 0 && decide (824 < hi) then 1 else 0

/-- THERM_SAMPLE: a group's diodes in order, in units of 0.125 °C (09 R378). -/
def thermSample (g : Nat) (raws : List Int) (s : State) : State :=
  if !s.alive then s
  else
    let ds := groupOf g
    let s := forList (fun e s => setDiode e.1 { diode s e.1 with raw := e.2 } s) (ds.zip raws) s
    let s := forList (judgeDiode g) ds s
    let s := forList setEff (ds.filter (fun d => !(diode s d).suspect)) s
    let s := forList setEff (ds.filter (fun d => (diode s d).suspect)) s
    let hi := (maxInt (ds.map (fun d => (diode s d).eff))).getD 0
    let now := Tbl.look 0 g s.pwr.ivals
    let iv := nextIval now hi
    let s := s.modPwr (fun w => { w with ivals := Tbl.put 0 g iv w.ivals })
    let s := if iv = 2 && decide (now ≠ 2) then
        raise 0x5014 (thermUnit g) ((ds.find? (fun d => decide ((diode s d).eff = hi))).getD 0) s else s
    if g < 8 then partitionHeat g s else s

/-- THERMTRIP: every clock stops, and the card controller records the trip and removes power; the device records
nothing (09 R383, 14 Table 14-4). The input voltage and power of the log entry are free (log 1). -/
def thermtrip (s : State) : State :=
  if !s.card.input then s
  else
    let (mv, s) := s.free
    let (w, s) := s.free
    removePower cfTrip mv w s

/-! ### Stacks -/

/-- REFMULT of a band: 0 ×1, 1 ×2, 2 ×4 (05 Table 5-5, Table 5-8). -/
def refmultOf (band : Nat) : Nat := if band < 2 then 0 else if band = 2 then 1 else 2

/-- A request of this device's memory has a line on a channel of a stack (05 Table 5-2). -/
def touches (s : State) (c st ch : Nat) (r : StreamReq) : Bool :=
  (transfersOf r).any (fun t =>
    match translate (viaDev c) false (reqLocal r t.1) s with
    | (.ok pa, _) => (List.range (linesOf pa t.2)).any (fun i =>
        let a := (pa / 64 + i) * 64
        decide (frameStack (a / frameBytes) = st) && decide (paChannel a = ch))
    | _ => false)

/-- A request of a wake window may have waited on this refresh or not (log 1); it is counted once. -/
def waitedOnRefresh (c w : Nat) (s : State) : Bool × State :=
  let (b, s) := s.freeBelow 2
  if b = 0 then (false, s)
  else (true, s.modWake c w (fun k => { k with refreshHits := satAdd 32 k.refreshHits 1 }))

/-- An outstanding stream request that the refresh of a channel may delay (08 Table 8-8). -/
def refreshReq (st ch t tag : Nat) (r : StreamReq) (s : State) : State :=
  let x := s.tile t
  match r.wake with
  | none => s
  | some w =>
    if x.job ≠ .launch || r.waiting || r.refHit || decide (reqDevice r ≠ s.fab.devNum.toNat) || !touches s x.ctx st ch r
    then s
    else
      let (b, s) := waitedOnRefresh x.ctx w s
      s.modTile t (setTag tag (some { r with refHit := b }))

/-- A LOCAL address of context c lies on a channel of a stack (05 Table 5-2). -/
def onChannel (s : State) (c st ch loc : Nat) : Bool :=
  match translate (viaDev c) true loc s with
  | (.ok pa, _) => decide (frameStack (pa / frameBytes) = st) && decide (paChannel pa = ch)
  | _ => false

/-- An atomic add of an EMERGE that the refresh of a channel may delay. -/
def refreshAtom (st ch : Nat) (a : AtomReq) (s : State) : AtomReq × State :=
  match a.wake with
  | none => (a, s)
  | some w =>
    if a.acked || a.refHit || !onChannel s a.ctx st ch a.loc then (a, s)
    else
      let (b, s) := waitedOnRefresh a.ctx w s
      ({ a with refHit := b }, s)

/-- A spill line that the refresh of a channel may delay: its slot is the allocator's to choose. -/
def refreshSpill (f : SpillFly) (s : State) : SpillFly × State :=
  match f.wake with
  | none => (f, s)
  | some w =>
    if f.acked || f.refHit then (f, s)
    else
      let (b, s) := waitedOnRefresh f.ctx w s
      ({ f with refHit := b }, s)

/-- Applies a change to each element of a list, the state threaded through. -/
def mapState {α : Type} (f : α → State → α × State) : List α → State → List α × State
  | [], s => ([], s)
  | a :: l, s =>
    let (a, s) := f a s
    let (l, s) := mapState f l s
    (a :: l, s)

/-- Outstanding requests issued with a wake window open that a refresh of the channel may delay (08 Table 8-8). -/
def refreshHits (st ch : Nat) (s : State) : State :=
  let s := forList (fun e s => forList (fun tg s => match tg.2 with
      | none => s
      | some r => refreshReq st ch e.1 tg.1 r s) e.2.tags s) s.tiles s
  let (atoms, s) := mapState (refreshAtom st ch) s.atoms s
  let (spills, s) := mapState refreshSpill s.spills s
  { s with atoms := atoms, spills := spills }

/-- HBM_REFRESH: the channel refreshes and takes the multiplier of its stack's band (05 R218). -/
def hbmRefresh (st ch : Nat) (s : State) : State :=
  if !(s.alive && (s.stk st).trained) || stackShut s st then s
  else refreshHits st ch (s.modStk st (fun x => { x with refmult := Tbl.put 0 ch (refmultOf x.band) x.refmult }))

/-- MEM_PRESET_CHANGE: the stack takes the preset of its band (05 R218, Table 5-5). -/
def memPresetChange (st : Nat) (s : State) : State :=
  let x := s.stk st
  let want := decide (x.band = 4)
  if !(s.alive && x.trained) || stackShut s st || decide (x.conserv = want) then s
  else raise 0x2005 st x.band (s.setStk st { x with conserv := want })

/-- STACK_TEMPERATURE_REPORT: the stack's own band, by the ranges of Table 9-9 (05 R217, 09 R381). -/
def stackReport (st : Nat) (t : Int) (s : State) : State :=
  if !s.alive then s
  else
    let x := s.stk st
    let own := bandOf t
    s.setStk st { x with temp := t, ownBand := own, band := Nat.max (s.part st).band own }

/-- THERM_SAMPLE: a diode group is sampled (R378). -/
def execThermSample (group : Fin 10) (raws : List Int) (s : State) : Host.Outcome State Fault Refusal :=
  .next (thermSample group.val raws s)

/-- THERMTRIP: an analogue trip pair senses 115 °C and all clocks stop (R383). -/
def execThermtrip (_p : PartIx) (s : State) : Host.Outcome State Fault Refusal := .next (thermtrip s)

/-- HBM_REFRESH: a channel refreshes, applying a changed multiplier (R218). -/
def execHbmRefresh (st : PartIx) (ch : ChanIx) (s : State) : Host.Outcome State Fault Refusal :=
  .next (hbmRefresh st.val ch.val s)

/-- MEM_PRESET_CHANGE: a new PHY preset is applied to a stack (R218). -/
def execMemPresetChange (st : PartIx) (s : State) : Host.Outcome State Fault Refusal := .next (memPresetChange st.val s)

/-- STACK_TEMPERATURE_REPORT: a stack's own report can raise its band (R217). -/
def execStackTemperatureReport (st : PartIx) (temp : Int) (s : State) : Host.Outcome State Fault Refusal :=
  .next (stackReport st.val temp s)

end Sys2Proof.Machine
end

