-- ==== Sys2Proof/Machine/RegRead.lean ====
section
/-!
DEFINITION. What a host read of each register returns (15 Table 15-2, with the field tables of the owning chapters),
and what a full read clears (00 R19).
-/

namespace Sys2Proof.Machine

/-! ### Fields -/

/-- Value v in the n bits from bit lo; a value too large reads as the largest. -/
def fld (lo n v : Nat) : Nat := Nat.min v (2 ^ n - 1) * 2 ^ lo

/-- A flag in bit lo. -/
def flg (lo : Nat) (b : Bool) : Nat := fld lo 1 (boolNat b)

/-- A word whose bit i, for i below n, is f i. -/
def bitMask (f : Nat → Bool) : Nat → Nat
  | 0 => 0
  | n + 1 => bitMask f n + flg n (f n)

/-- STATE of a context (06 Table 6-12). -/
def CState.code : CState → Nat
  | .disabled => 0 | .running => 1 | .stopped => 2 | .aborting => 3

/-- PLACE (07 Table 7-9). -/
def Place.code : Place → Nat
  | .idle => 0 | .training => 1 | .placed => 2 | .refusedSize => 3 | .refusedCfg => 4

/-- STROKE_STAT.STATE (08 Table 8-3). -/
def SState.code : SState → Nat
  | .init => 0 | .master => 1 | .acquire => 2 | .locked => 3 | .holdover => 4

/-- BOOT_STAT.STAGE (12 Table 12-9). -/
def Stage.code : Stage → Nat
  | .rom => 0 | .load => 1 | .maps => 2 | .train => 3 | .qualify => 4 | .ready => 5 | .recovery => 6 | .failed => 7

/-- HOST_IF_STAT.CXL (13 Table 13-11). -/
def cxlCode : CxlMode → Nat
  | .none => 0 | .cxl20 => 1 | .cxl31 => 2

/-- A log's status register: COUNT, OVERFLOW and LOST. -/
def ringStat {α : Type} (n : Nat) (r : Ring α) : Nat := fld 0 n r.items.length + flg 8 r.overflow + fld 16 32 r.lost

/-- Powers read in units of 0.1 W. -/
def deciWatts (pw : Int) : Nat := pw.toNat / 100000000000

/-! ### Device, reset and clock registers (01 Tables 1-2, 1-3, 11 Table 11-12) -/

/-- Enabled tiles: the grade's count until the map build (01 Table 1-2). -/
def enabledTiles (s : State) : Nat :=
  if s.ump.nCrews.isEmpty && s.ump.crews.isEmpty && s.ump.subRaised.isEmpty then 64 * gradeCrews s else 8 * enabledCrews s

def readDevInfo (s : State) : Nat :=
  fld 0 4 (boolNat s.fuses.b0) + fld 4 4 s.fuses.grade + flg 8 (decide (partShort s ≠ 0)) + fld 16 13 (enabledTiles s) +
    fld 32 8 (partShort s)

def readDevPlace (s : State) : Nat :=
  fld 0 14 s.fab.devNum.toNat + flg 16 s.fab.placed + flg 17 (decide (1 < s.fab.machine)) + fld 32 15 s.fab.machine

def readRstStat (s : State) : Nat :=
  flg 0 s.rst.oos + fld 4 4 s.rst.oosCause + bitMask (fun p => (s.part p).reset.isSome) 8 * 2 ^ 8 + flg 16 s.rst.cox.isSome

/-- Word k of the reset log's head entry. -/
def resetWord (s : State) (k : Nat) : Nat :=
  match s.rst.log.items with
  | [] => 0
  | e :: _ => ([e.w0, e.w1, e.w2, e.w3].getD k 0).toNat

/-- The device block at 0x00_0000. -/
def readDevice (s : State) (o : Nat) : Nat :=
  match o with
  | 0x000 => readDevInfo s
  | 0x008 => readDevPlace s
  | 0x208 => readRstStat s
  | 0x210 => aliveMask s + fld 16 32 s.rst.restarts
  | 0x218 => fld 0 5 s.rst.escCount + fld 16 12 s.rst.escWindow
  | 0x220 => fld 0 5 (inWindow s) + fld 16 32 s.rst.escTotal
  | 0x228 => ringStat 5 s.rst.log
  | 0x238 => resetWord s 0
  | 0x240 => resetWord s 1
  | 0x248 => resetWord s 2
  | 0x250 => resetWord s 3
  | 0x280 => clkStat s
  | _ => 0

/-! ### Command engine (06 Table 6-12, 04 Table 4-13) -/

/-- A ring register CTX_SQ or CTX_CQ. -/
def ringReg (size : Nat) (loc : Bool) (base : Nat) : Nat := fld 0 4 size + flg 11 loc + base / 4096 * 4096

/-- The seven registers of context c. -/
def readCtx (s : State) (c o : Nat) : Nat :=
  let x := s.ctx c
  match o with
  | 0x00 => flg 0 x.en + flg 1 x.contOnFault + flg 2 x.irqEn + fld 16 16 x.limitMs + fld 32 32 x.jobid.toNat
  | 0x08 => ringReg x.sqSize x.sqLoc x.sqBase
  | 0x10 => ringReg x.cqSize x.cqLoc x.cqBase
  | 0x18 => fld 0 3 x.st.code + flg 3 x.exec.isSome + fld 4 6 x.fetched.length + fld 16 12 x.sqHead + fld 32 12 x.cqTail +
      flg 44 x.cqPhase
  | 0x28 => fld 0 10 (berthOf s c).length
  | 0x30 => fld 0 32 x.lastLaunch.toNat + flg 32 x.exec.isSome
  | _ => 0

/-- The berth that owns the queried crew (06 Table 6-12). -/
def readBerthOwner (s : State) : Nat :=
  let g := s.berthQuery
  fld 0 6 ((s.crew g).berth.getD 0) + flg 6 (s.crew g).berth.isSome + flg 7 (crewEnabled s g)

def readCeStat (s : State) : Nat :=
  flg 0 (admitting s) + fld 8 7 (execs s).length + fld 16 12 ((s.ctxs.map (fun e => e.2.fetched.length)).foldl (· + ·) 0)

/-- The command engine block at 0x01_0000. -/
def readEngine (s : State) (o : Nat) : Nat :=
  if 0x1000 ≤ o ∧ o < 0x2000 then readCtx s ((o - 0x1000) / 0x40) (o % 0x40)
  else if 0x100 ≤ o ∧ o < 0x140 then
    let p := (o - 0x100) / 8
    fld 0 16 (deciWatts (s.part p).budget) + fld 16 16 (deciWatts (committed s p))
  else if 0x800 ≤ o ∧ o < 0xA00 then fld 0 48 (s.ctx ((o - 0x800) / 8)).oor
  else if 0xA00 ≤ o ∧ o < 0xC00 then (s.ctx ((o - 0xA00) / 8)).spillBase
  else if 0xC00 ≤ o ∧ o < 0xE00 then fld 0 15 (s.ctx ((o - 0xC00) / 8)).spillPages
  else if 0xE00 ≤ o ∧ o < 0x1000 then fld 6 31 (s.ctx ((o - 0xE00) / 8)).spillLines
  else match o with
    | 0x000 => readCeStat s
    | 0x010 => fld 1 3 s.berthResult
    | 0x018 => fld 0 9 s.berthQuery
    | 0x020 => readBerthOwner s
    | 0x028 => fld 0 16 s.defCrewMw + fld 16 16 s.passUs
    | 0x030 => fld 0 32 s.cntInfeasible
    | 0x038 => fld 0 48 s.cntAdmitted
    | 0x040 => fld 0 32 s.cntOverrun
    | _ => 0

/-! ### Partitions (02 Table 2-8, 11 Table 11-12) -/

/-- Word k of partition p's head fault record; zero while the ring is empty. -/
def faultWord (s : State) (p k : Nat) : Nat :=
  match (s.part p).faults.items with
  | [] => 0
  | e :: _ => ([e.w0, e.w1, e.w2, e.w3].getD k 0).toNat

/-- The tile that TILE_ECC shows. -/
def eccTile (s : State) (p : Nat) : Nat := tileOf p (s.part p).tileSel

/-- Partition p's registers. -/
def readPart (s : State) (p o : Nat) : Nat :=
  let x := s.part p
  match o with
  | 0x000 => fld 0 10 x.tileSel
  | 0x008 => fld 0 32 (Tbl.look 0 (eccTile s p) s.tileCe) + fld 32 16 (Tbl.look 0 (eccTile s p) s.tileUe)
  | 0x020 => ringStat 5 x.faults
  | 0x030 => faultWord s p 0
  | 0x038 => faultWord s p 1
  | 0x040 => faultWord s p 2
  | 0x048 => faultWord s p 3
  | 0x100 => x.rgen.toNat + fld 16 16 x.cntReset
  | 0x108 => fld 0 48 x.cntStale
  | _ => 0

/-! ### Umpire (10 Table 10-8) -/

/-- Tiles of the device in a state. -/
def tilesAll (s : State) (st : UState) : Nat := (s.ump.tiles.filter (fun e => decide (e.2.st = st))).length

/-- UMP_TILE of the selected tile. -/
def readUmpTile (s : State) : Nat :=
  let u := s.utile s.ump.tileSel
  tileCode s s.ump.tileSel + fld 8 8 u.cause + fld 16 16 (ceHour s u).length +
    (if u.role = .enabled then fld 32 9 u.gcrew + fld 41 3 u.ltile else 0)

/-- Seconds since the oldest margin sweep of partition p's enabled crews. -/
def marginAge (s : State) (p : Nat) : Nat :=
  listMax0 ((List.range (crewsOf s p)).map (fun i => s.since (s.crew (64 * p + i)).lastMar)) / secs

def readUmpPart (s : State) (p : Nat) : Nat :=
  fld 0 8 (spareCount s p) + fld 8 7 (crewsOf s p) + flg 16 (s.part p).crack + fld 24 8 (tilesIn s p .suspect) +
    fld 32 16 (marginAge s p)

/-- Word k of the Umpire log's head entry. -/
def umpLogWord (s : State) (k : Nat) : Nat :=
  match s.ump.log.items with
  | [] => 0
  | e :: _ => ([e.w0, e.w1, e.w2].getD k 0).toNat

/-- The Umpire block at 0x04_0000. Register k of the hash holds its bytes 8k to 8k + 7 (00 R16). -/
def readUmpire (s : State) (o : Nat) : Nat :=
  if 0x50 ≤ o ∧ o < 0x80 then leNat ((s.ump.rmapHash.drop (o - 0x50)).take 8)
  else if 0x80 ≤ o ∧ o < 0xC0 then fld 0 48 (Tbl.look 0 ((o - 0x80) / 8) s.ump.cnt)
  else if 0x100 ≤ o ∧ o < 0x140 then readUmpPart s ((o - 0x100) / 8)
  else match o with
    | 0x000 => flg 0 s.ump.trials + flg 1 s.ump.pair + fld 8 8 s.ump.spareWarn
    | 0x008 => fld 0 16 s.ump.trialS + fld 16 16 s.ump.marginS + fld 32 16 s.ump.suspectS
    | 0x010 => fld 0 16 s.ump.interval + fld 16 9 s.ump.pinLimitS + fld 32 16 s.ump.ceLimit + fld 48 8 s.ump.clean +
        fld 56 8 s.ump.qsweeps
    | 0x018 => s.ump.checkCtx.toNat
    | 0x020 => s.ump.epoch.toNat + s.ump.boots % 2 ^ 16 * 2 ^ 32
    | 0x028 => fld 0 13 (tilesAll s .suspect) + fld 16 13 (tilesAll s .quarantined) + fld 32 13 (tilesAll s .cleared) +
        fld 48 13 (tilesAll s .retired)
    | 0x038 => fld 1 3 s.ump.result
    | 0x040 => fld 0 13 s.ump.tileSel
    | 0x048 => readUmpTile s
    | 0x200 => ringStat 7 s.ump.log
    | 0x210 => umpLogWord s 0
    | 0x218 => umpLogWord s 1
    | 0x220 => umpLogWord s 2
    | _ => 0

/-! ### Power and heat (09 Table 9-6) -/

def readDom (s : State) (d : Nat) : Nat :=
  let x := dom s d
  fld 0 16 (x.current.toNat / 100) + fld 16 16 x.voltage + fld 32 5 (notOpen s d).length + flg 37 x.est

def readPartClk (s : State) (p : Nat) : Nat :=
  let x := s.part p
  fld 0 4 x.point + fld 4 4 x.maxpt + fld 8 4 x.cap + fld 12 2 (stretchOf s p) + fld 16 3 x.band + flg 19 x.blind +
    flg 20 x.crack + intBits 12 x.temp * 2 ^ 32

/-- The power and thermal block at 0x05_0000. -/
def readPower (s : State) (o : Nat) : Nat :=
  let w := s.pwr
  if 0x100 ≤ o ∧ o < 0x180 then
    let p := (o - 0x100) / 0x10
    if o % 0x10 = 0 then readPartClk s p
    else fld 0 16 (deciWatts (s.part p).estW) + fld 16 16 (deciWatts (s.part p).thermW) +
      fld 32 32 ((s.part p).energy / 1000000)
  else if 0x10 ≤ o ∧ o < 0x30 then readDom s ((o - 0x10) / 8)
  else match o with
    | 0x000 => fld 0 11 w.limitW + fld 16 8 w.tTarget + fld 24 8 w.g + fld 32 11 w.mgmtW
    | 0x008 => fld 0 11 (w.wLogic / 1000000000000) + fld 16 11 (iLim s 0 / 1000) + flg 32 (decide (w.clamp ≠ 0)) +
        flg 33 (anyEst s) + flg 34 w.short
    | 0x030 => bitMask (fun i => (phase s i).isOpen) 37
    | 0x038 => bitMask (fun i => (phase s i).excl) 37
    | 0x040 => fld 0 32 w.cntClamp
    | 0x048 => fld 0 7 w.thermSel
    | 0x050 =>
      let x := diode s w.thermSel
      intBits 12 x.raw + intBits 12 x.eff * 2 ^ 16 + flg 32 x.suspect
    | 0x058 => bitMask (fun i => (diode s i).suspect) 64
    | 0x060 => bitMask (fun i => (diode s (64 + i)).suspect) 8
    | _ => 0

/-! ### Memory and Weir (05 Table 5-8) -/

/-- The scrubber, which runs once training has ended, has a frame of stack k pending (05 R206, 12 R480). -/
def scrubbing (s : State) (k : Nat) : Bool := s.boot.trained && (nextScrub s k).isSome

/-- The four registers of stack k. -/
def readStack (s : State) (k o : Nat) : Nat :=
  let x := s.stk k
  match o with
  | 0x00 => flg 0 x.trained + fld 1 3 x.band + fld 4 2 (refmultOf x.band) + flg 6 x.conserv + flg 7 (scrubbing s k)
  | 0x08 => fld 0 48 x.ce
  | 0x10 => fld 0 32 x.ue
  | 0x18 => x.ueAddr
  | _ => 0

/-- The memory and Weir block at 0x06_0000. -/
def readMemory (s : State) (o : Nat) : Nat :=
  if o < 0x200 then readStack s (o / 0x40) (o % 0x40)
  else if 0x800 ≤ o ∧ o < 0xA00 then
    let x := s.ctx ((o - 0x800) / 8)
    x.bttRoot + flg 0 x.bttEn
  else match o with
    | 0x408 => fld 1 3 s.fcResult + fld 8 2 s.fcState + flg 10 s.fcScrub + fld 16 6 s.fcOwner
    | 0x410 => bitMask s.sweeping 64
    | 0x418 => fld 0 6 s.btiCtx + fld 6 21 s.btiPage + flg 62 s.btiAll + flg 63 s.btiGo
    | 0x420 => fld 0 6 s.wfCtx + fld 8 3 s.wfCode
    | 0x428 => s.wfAddr
    | _ => 0

/-! ### Reach (07 Table 7-9) -/

/-- The Reach block at 0x07_0000. -/
def readFabric (s : State) (o : Nat) : Nat :=
  let f := s.fab
  if 0x100 ≤ o ∧ o < 0x280 then
    let n := (o - 0x100) / 0x20
    match o % 0x20 with
    | 0x00 => portStat s n
    | 0x08 => fld 0 48 (s.port n).retry
    | 0x10 => fld 0 48 (s.port n).crc
    | _ => 0
  else match o with
    | 0x000 => f.x.toNat + f.y.toNat * 4 + f.z.toNat * 16 + f.rack.toNat * 2 ^ 8 + f.racks.toNat * 2 ^ 16 + flg 63 f.start.isSome
    | 0x008 => f.place.code + bitMask (fun n => decide ((s.port n).st = .up)) 12 * 2 ^ 16
    | 0x010 => flg 0 f.combEn + fld 16 11 f.holdNs
    | 0x020 => f.logJob.toNat + f.logOrigin.toNat * 2 ^ 32 + f.logCause.toNat * 2 ^ 48 + flg 63 f.logValid
    | 0x028 => f.logStroke.toNat
    | 0x030 => fld 0 4 f.ffReason + f.ffDest.toNat * 2 ^ 16 + f.ffJob.toNat * 2 ^ 32
    | 0x038 => fld 0 32 f.cntUnroutable
    | 0x040 => fld 0 48 f.cntCombined
    | _ => 0

/-! ### Stroke, boot, host (08 Table 8-3, 12 Table 12-9, 13 Table 13-11) -/

/-- The Stroke block at 0x08_0000. -/
def readStroke (s : State) (o : Nat) : Nat :=
  let k := s.stroke
  if 0x100 ≤ o ∧ o < 0x300 then
    let x := s.ctx ((o - 0x100) / 8)
    flg 0 x.wakeEn + x.wakeBase
  else match o with
    | 0x000 => k.now.toNat
    | 0x008 => k.st.code + fld 4 4 ((k.parent.map (·.val)).getD 15) + k.master.toNat * 2 ^ 16 + fld 32 10 k.hops + flg 63 k.ever
    | 0x010 => intBits 32 k.offset
    | 0x018 => intBits 24 k.rate
    | 0x020 => fld 0 32 k.cntMaster
    | 0x028 => fld 0 32 k.cntSlip
    | _ => 0

/-- FW_SLOTn. -/
def readSlot (s : State) (b : Bool) : Nat :=
  fld 0 3 (slotState s b) + fld 4 4 (if b then s.boot.reasonB else s.boot.reasonA) + (slotVersion s b).toNat * 2 ^ 32

/-- The boot and firmware block at 0x09_0000. -/
def readBoot (s : State) (o : Nat) : Nat :=
  let b := s.boot
  match o with
  | 0x000 => b.stage.code + flg 4 b.slot + flg 5 b.trial + fld 6 2 b.record.trialBoots + fld 8 6 b.record.trialMin +
      flg 16 b.record.fellBack + flg 17 b.repaired + flg 18 b.afterTrip + flg 19 b.rx.isSome + b.session.toNat * 2 ^ 32
  | 0x008 => b.version.toNat + fld 32 4 b.minStep
  | 0x010 => if s.up then readSlot s false else 0
  | 0x018 => if s.up then readSlot s true else 0
  | 0x028 => flg 0 b.seeding.isSome + fld 1 3 b.result
  | 0x030 =>
    match b.hbmFail with
    | none => 0
    | some f => f.stack.val + f.channel.val * 2 ^ 8 + f.reason.toNat * 2 ^ 16 + flg 63 true
  | 0x038 => b.readyAt.toNat
  | _ => 0

/-- The address in use towards the baseboard controller (13 R531). -/
def mgmtAddr (s : State) : Nat := (s.host.i3c.map (·.toNat)).getD (0x60 + s.card.slot.toNat)

/-- The management mailbox block at 0x0A_0000. -/
def readHost (s : State) (o : Nat) : Nat :=
  let h := s.host
  match o with
  | 0x000 => fld 0 3 h.speed + fld 4 5 h.width + flg 9 h.flit + fld 10 2 (cxlCode h.cxl) + flg 12 h.degraded
  | 0x008 => fld 30 9 h.bar2
  | 0x010 => fld 0 4 h.evtSize + flg 4 h.evtEn + flg 5 h.evtIrq + h.evtBase
  | 0x018 => fld 0 12 h.evtHead
  | 0x020 => fld 0 12 h.evtTail + flg 12 h.evtPhase + fld 16 32 h.evtLost
  | 0x028 => fld 0 32 h.hostDrop
  | 0x030 => fld 0 6 h.dmaCtx + fld 8 3 h.dmaKind
  | 0x038 => h.dmaAddr.toNat
  | 0x040 => h.shEpoch.toNat + fld 32 2 h.misRun + fld 48 16 h.diverge
  | 0x048 => flg 0 h.i3c.isSome + fld 1 7 (mgmtAddr s)
  | 0x050 => fld 0 32 h.refused
  | _ => 0

/-! ### BAR0 and BAR4 -/

/-- The register at an aligned BAR0 offset; an unassigned offset reads zero (15 R584, Table 15-1, 00 R20). -/
def readReg (s : State) (a : Nat) : Nat :=
  let o := a % 0x10000
  if a % 8 ≠ 0 then 0
  else match a / 0x10000 with
    | 0 => readDevice s o
    | 1 => readEngine s o
    | 2 => if o < 0x8000 then readPart s (o / 0x1000) (o % 0x1000) else 0
    | 4 => readUmpire s o
    | 5 => readPower s o
    | 6 => readMemory s o
    | 7 => readFabric s o
    | 8 => readStroke s o
    | 9 => readBoot s o
    | 10 => readHost s o
    | _ => 0

/-- The doorbell page registers: a read returns the index last written (06 R237). -/
def readBell (s : State) (a : Nat) : Nat :=
  let c := a / 4096
  if 64 ≤ c then 0
  else match a % 4096 with
    | 0x000 => fld 0 12 (s.ctx c).sqTail
    | 0x008 => fld 0 12 (s.ctx c).cqHead
    | _ => 0

/-- Byte a of a BAR. -/
def barByte (s : State) (bar : Bar) (a : Nat) : Byte :=
  let w := match bar with
    | .bar0 => readReg s (a / 8 * 8)
    | .bar4 => readBell s (a / 8 * 8)
  BitVec.ofNat 8 (w / 2 ^ (8 * (a % 8)))

/-! ### What a read clears -/

/-- The RC field that a full read of the register at BAR0 offset a clears (00 R19). Of PART_PWR.ENERGY the part
below 1 mJ, which the register does not show, stays (log 26). -/
def clearReg (a : Nat) (s : State) : State :=
  let o := a % 0x10000
  match a / 0x10000 with
  | 1 =>
    if 0x800 ≤ o ∧ o < 0xA00 then s.modCtx ((o - 0x800) / 8) (fun x => { x with oor := 0 })
    else match o with
      | 0x030 => { s with cntInfeasible := 0 }
      | 0x038 => { s with cntAdmitted := 0 }
      | 0x040 => { s with cntOverrun := 0 }
      | _ => s
  | 2 =>
    if 0x8000 ≤ o then s
    else match o % 0x1000 with
      | 0x008 =>
        let t := eccTile s (o / 0x1000)
        { s with tileCe := Tbl.put 0 t 0 s.tileCe, tileUe := Tbl.put 0 t 0 s.tileUe }
      | 0x108 => s.modPart (o / 0x1000) (fun x => { x with cntStale := 0 })
      | _ => s
  | 4 => if 0x80 ≤ o ∧ o < 0xC0 then s.modUmp (fun u => { u with cnt := Tbl.put 0 ((o - 0x80) / 8) 0 u.cnt }) else s
  | 5 =>
    if 0x100 ≤ o ∧ o < 0x180 then
      if o % 0x10 = 8 then s.modPart ((o - 0x100) / 0x10) (fun x => { x with energy := x.energy % 1000000 }) else s
    else if o = 0x040 then s.modPwr (fun w => { w with cntClamp := 0 }) else s
  | 6 =>
    if 0x200 ≤ o then s
    else match o % 0x40 with
      | 0x08 => s.modStk (o / 0x40) (fun x => { x with ce := 0 })
      | 0x10 => s.modStk (o / 0x40) (fun x => { x with ue := 0 })
      | _ => s
  | 7 =>
    if 0x100 ≤ o ∧ o < 0x280 then
      match o % 0x20 with
      | 0x08 => s.modPort ((o - 0x100) / 0x20) (fun x => { x with retry := 0 })
      | 0x10 => s.modPort ((o - 0x100) / 0x20) (fun x => { x with crc := 0 })
      | _ => s
    else match o with
      | 0x038 => s.modFab (fun f => { f with cntUnroutable := 0 })
      | 0x040 => s.modFab (fun f => { f with cntCombined := 0 })
      | _ => s
  | 8 =>
    match o with
    | 0x020 => s.modStroke (fun k => { k with cntMaster := 0 })
    | 0x028 => s.modStroke (fun k => { k with cntSlip := 0 })
    | _ => s
  | 10 =>
    match o with
    | 0x020 => s.modHost (fun h => { h with evtLost := 0 })
    | 0x028 => s.modHost (fun h => { h with hostDrop := 0 })
    | 0x050 => s.modHost (fun h => { h with refused := 0 })
    | _ => s
  | _ => s

/-- A host read of `width` bytes at an offset: only an aligned 64-bit read of BAR0 clears (00 R19, R21). -/
def regRead (bar : Bar) (off width : Nat) (s : State) : State :=
  if !s.alive then s
  else if s.host.d3hot then
    { (s.modHost (fun h => { h with aerUr := true })) with
      hostData := some { data := [], poisoned := false, unsupported := true } }
  else
    let d := (List.range width).map (fun i => barByte s bar (off + i))
    let s := if bar = .bar0 ∧ width = 8 ∧ off % 8 = 0 then clearReg off s else s
    { s with hostData := some { data := d, poisoned := false, unsupported := false } }

/-- RC_READ: a host read of a register (00 R19, R21). -/
def execRcRead (bar : Bar) (off : Nat) (width : Nat) (s : State) : Host.Outcome State Fault Refusal :=
  .next (regRead bar off width s)

end Sys2Proof.Machine
end

