-- ==== Sys2Proof/Machine/Mgmt.lean ====
section
/-!
DEFINITION. The management path: vendor commands (13 R541, R542), the shadow table and the reconciler (R540, R543,
R544), PLDM Type 2 (R533 to R535), MCTP addresses (R531), and SPDM (R538, R539).
-/

namespace Sys2Proof.Machine

/-! ### Vendor commands -/

/-- Statuses (13 Table 13-10). -/
def vsOk : Nat := 0
def vsStaleEpoch : Nat := 1
def vsUnitConflict : Nat := 2
def vsNotReady : Nat := 3
def vsBadRequest : Nat := 4
def vsOos : Nat := 5

/-- A response to a vendor command (13 R541). -/
def vendorOut (status : Nat) (data : List Byte) (s : State) : State := { s with mgmt := s.mgmt ++ [.vendor status data] }

/-- A refused command changes nothing but MGMT_REFUSED, and raises its event (13 R542). -/
def refuseMgmt (status : Nat) (s : State) : State :=
  let s := s.modHost (fun h => { h with refused := satAdd 32 h.refused 1 })
  vendorOut status [] (raise 0x7037 noUnit status s)

/-- GET_SHADOW (13 Table 13-9). A range outside the table is a wrong length (log 32). -/
def getShadow (off len : Nat) (s : State) : State :=
  if !mgmtUp s then s
  else if len = 0 ∨ 1024 < len ∨ 4800 < off + len then refuseMgmt vsBadRequest s
  else vendorOut vsOk (((shadowBytes s).drop off).take len) s

/-- Stores the management limit, at the nearer bound (13 R534). -/
def setMgmtLimit (watts : Nat) (s : State) : State := s.modPwr (fun w => { w with mgmtW := clampNat 100 1050 watts })

/-- Checks 2 to 5 of TILE_QUARANTINE and TILE_SWEEP, in order (13 Table 13-10). -/
def tileCheck (s : State) (epoch : BitVec 32) (t : Nat) : Nat :=
  if s.rst.oos then vsOos
  else if !s.boot.ready then vsNotReady
  else if epoch ≠ s.ump.epoch then vsStaleEpoch
  else if 4607 < t ∨ (s.utile t).st = .fused ∨ (s.utile t).st = .retired then vsUnitConflict
  else vsOk

/-- A command on a tile: checked and carried out in one step (13 R542). Without a tile it is an unknown code, has a wrong
length or a reserved byte that is not 0. UMP_CMD_STAT does not show it (log 32). -/
def tileCmd (act : Nat → State → State) (epoch : BitVec 32) (t : Option Nat) (s : State) : State :=
  if !mgmtUp s then s
  else match t with
    | none => refuseMgmt vsBadRequest s
    | some t =>
      let r := tileCheck s epoch t
      if r = vsOk then vendorOut vsOk [] (act t s) else refuseMgmt r s

/-- SET_POWER_LIMIT; without watts its request fails check 1 (13 R534, R542). -/
def powerCmd (watts : Option Nat) (s : State) : State :=
  if !mgmtUp s then s
  else match watts with
    | none => refuseMgmt vsBadRequest s
    | some w => vendorOut vsOk [] (setMgmtLimit w s)

/-! ### Reconciliation -/

/-- Tiles whose byte of the shadow differs from hardware. -/
def divergent (s : State) : Nat :=
  ((List.zip ((shadowBytes s).drop 192) (tileSection s)).filter (fun e => decide (e.1 ≠ e.2))).length

/-- EPOCH of the shadow. -/
def shadowEpoch (s : State) : Nat := leNat ((shadowBytes s).take 4)

/-- SEQ of the shadow. -/
def shadowSeq (s : State) : Nat := leNat (((shadowBytes s).drop 4).take 4)

/-- EPOCH and the tile section are rewritten from hardware, and SEQ rises by 2 (13 R544). -/
def repairShadow (s : State) : State :=
  let q := nextSeq s
  s.modHost (fun h => { h with
    shadow := leBytes 4 s.ump.epoch.toNat ++ leBytes 4 q ++ ((shadowBytes s).drop 8).take 184 ++ tileSection s, shSeq := q })

/-- The reconciler next tries d counts from now (13 R543). -/
def recAfter (d : Nat) (s : State) : State := s.modHost (fun h => { h with recDue := s.now + BitVec.ofNat 64 d })

/-- A comparison by the reconciler, once its time has come: it is made with the firmware running and the live map
unchanged for 2 ms, and is tried again 2 ms later otherwise (13 R543, R544, R550). -/
def reconcile (s : State) : State :=
  if !s.up || decide (s.now.toNat < s.host.recDue.toNat) then s
  else if !mgmtUp s || decide (shadowSeq s % 2 = 1) || decide (s.since s.host.mapAt < 2000000) then recAfter 2000000 s
  else
    let ep := shadowEpoch s
    let n := divergent s
    let s := recAfter secs (s.modHost (fun h => { h with shEpoch := BitVec.ofNat 32 ep }))
    if ep = s.ump.epoch.toNat ∧ n = 0 then s.modHost (fun h => { h with misRun := 0 })
    else
      let s := raise 0x7035 noUnit n (repairShadow s)
      let s := s.modHost (fun h => { h with misRun := h.misRun + 1, diverge := satAdd 16 h.diverge 1 })
      if s.host.misRun < 3 then s
      else coxBegin (raise 0x7036 noUnit 0 (s.modHost (fun h => { h with misRun := 0 })))

/-! ### PLDM Type 2 -/

/-- Device power in mW: the sum over PWR_DOM (13 Table 13-6). -/
def devicePower (s : State) : Int := sumOf (fun d => (dom s d).current * (dom s d).voltage) (List.range 4) / 1000

/-- Reading of a sensor in units of 0.001; a state sensor's reading is its state's number (13 Table 13-6, log 32). -/
def sensorReading (s : State) (id : Nat) : Option Int :=
  if 1 ≤ id ∧ id ≤ 4 then some (dom s (id - 1)).current
  else if 5 ≤ id ∧ id ≤ 8 then some (dom s (id - 5)).voltage
  else if id = 9 then some (devicePower s)
  else if 10 ≤ id ∧ id ≤ 17 then some ((s.part (id - 10)).temp * 125)
  else if id = 18 then some (1000 * (listMax0 ((List.range 8).map (fun p => (s.part p).band)) : Nat))
  else if id = 19 then some (1000 * (enabledTiles s : Nat))
  else if id = 20 then some (1000 * (((List.range 8).map (spareCount s)).foldl (· + ·) 0 : Nat))
  else if id = 21 then some (if s.rst.oos then 2000 else if partShort s ≠ 0 then 1000 else 0)
  else none

/-- Identifier under which PLDM_SENSOR_READ asks for the reading of effecter 1, which shares its number with a sensor
(log 32). -/
def effecterRead : Nat := 257

/-- What a sensor or the effecter reports; the effecter's reading is MGMT_LIMIT_W (13 Table 13-6). -/
def reading (s : State) (id : Nat) : Option Int :=
  if id = effecterRead then some (1000 * (s.pwr.mgmtW : Nat)) else sensorReading s id

/-- A PLDM Type 2 record describes an identifier: sensors 1 to 21 and effecter 1 (13 R533, Table 13-6). -/
structure Pdr where
  id       : Nat
  effecter : Bool
  state    : Bool
deriving DecidableEq, Repr

/-- The PDR repository: every sensor and the effecter of Table 13-6 (13 R533). -/
def pdrs : List Pdr :=
  (List.range 21).map (fun i => { id := i + 1, effecter := false, state := i = 17 || i = 20 }) ++
    [{ id := 1, effecter := true, state := false }]

/-- Completion code of an identifier that the device does not report (DSP0248, log 32). -/
def pldmBadId : Nat := 0x80

def sensorRead (id : Nat) (s : State) : State :=
  if !mgmtUp s then s
  else match reading s id with
    | some v => { s with mgmt := s.mgmt ++ [.sensor id v] }
    | none => pldmOut pldmBadId s

def effecterSet (id watts : Nat) (s : State) : State :=
  if !mgmtUp s then s else if id = 1 then pldmOut pldmOk (setMgmtLimit watts s) else pldmOut pldmBadId s

/-- SetEventReceiver: the messages held are sent (13 R535). -/
def setReceiver (eid : BitVec 8) (s : State) : State :=
  if !mgmtUp s then s
  else
    let l := s.host.unsent
    pldmOut pldmOk { (s.modHost (fun h => { h with receiver := some eid, unsent := [] })) with platform := s.platform ++ l }

/-- Bytes 0 to 15 of a PlatformEventMessage: an event entry with FLAGS.PHASE 0 (13 R535, Table 13-4). -/
def pldmBytes (m : PldmMsg) : List Byte := eventBytes m.ev (boolNat m.lost)

/-! ### Addresses -/

/-- Number of a binding. -/
def bindingIx : Binding → Nat
  | .i3c => 0 | .smbus => 1 | .pcieVdm => 2

/-- The binding is in use: SMBus only while no dynamic I3C address is assigned (13 Table 13-5). -/
def bindingUp (s : State) : Binding → Bool
  | .i3c => s.host.i3c.isSome
  | .smbus => s.host.i3c.isNone
  | .pcieVdm => decide (s.host.speed ≠ 0)

def setEid (b : Binding) (eid : BitVec 8) (s : State) : State :=
  if mgmtUp s && bindingUp s b then s.modHost (fun h => { h with eids := Tbl.put 0 (bindingIx b) eid h.eids }) else s

/-- SETDASA or ENTDAA give an address to a device that has none (13 R531, log 32). -/
def assignAddr (a : BitVec 7) (s : State) : State :=
  if s.up && s.host.i3c.isNone then s.modHost (fun h => { h with i3c := some a }) else s

def rstdaa (s : State) : State := if s.up then s.modHost (fun h => { h with i3c := none }) else s

/-! ### SPDM (13 R538, R539; message layouts of DSP0274, log 32) -/

/-- An SPDM 1.3 response: version, code, two parameters, payload. -/
def spdmMsg (code p1 p2 : Nat) (l : List Byte) : List Byte := [0x13#8, BitVec.ofNat 8 code, BitVec.ofNat 8 p1, BitVec.ofNat 8 p2] ++ l

def spdmOut (l : List Byte) (s : State) : State := { s with mgmt := s.mgmt ++ [.spdm l] }
def spdmErr (s : State) : State := { s with mgmt := s.mgmt ++ [.spdmError] }

/-- A request that needs the algorithms negotiated. -/
def spdmAfter (s : State) (k : State → State) : State := if !mgmtUp s then s else if s.host.spdm then k s else spdmErr s

/-- GET_VERSION begins a negotiation: version 1.3. -/
def spdmVersion (s : State) : State :=
  if !mgmtUp s then s
  else spdmOut [0x10#8, 0x04#8, 0#8, 0#8, 0#8, 1#8, 0#8, 0x13#8] (s.modHost (fun h => { h with spdm := false }))

/-- GET_CAPABILITIES: certificates, challenge, and measurements with signature. The timing exponent and the sizes are
free (log 1). -/
def spdmCaps (s : State) : State :=
  if !mgmtUp s then s
  else
    let (f, s) := s.freeBytes 9
    spdmOut (spdmMsg 0x61 0 0 ([0#8] ++ f.take 1 ++ [0#8, 0#8] ++ leBytes 4 0x16 ++ f.drop 1)) s

/-- NEGOTIATE_ALGORITHMS: ECDSA P-384 with SHA-384, or an error. -/
def spdmAlgs (offered : Bool) (s : State) : State :=
  if !mgmtUp s then s
  else if !offered then spdmErr s
  else
    spdmOut (spdmMsg 0x63 0 0 (leBytes 2 36 ++ [1#8, 0#8] ++ leBytes 4 4 ++ leBytes 4 0x80 ++ leBytes 4 2 ++
      List.replicate 16 0#8)) (s.modHost (fun h => { h with spdm := true }))

/-- The certificate chain in card flash: it begins with its length (14 Table 14-2, log 32). -/
def certChain (s : State) : List Byte := flashRead s 0x20000 (leNat (flashRead s 0x20000 2))

def spdmDigests (s : State) : State := spdmAfter s (fun s => spdmOut (spdmMsg 0x01 0 1 (sha384 (certChain s))) s)

/-- GET_CERTIFICATE: slot 0 only. -/
def spdmCert (slot off len : Nat) (s : State) : State :=
  spdmAfter s (fun s =>
    let c := certChain s
    if slot ≠ 0 ∨ c.length ≤ off then spdmErr s
    else
      let a := (c.drop off).take len
      spdmOut (spdmMsg 0x02 0 0 (leBytes 2 a.length ++ leBytes 2 (c.length - off - a.length) ++ a)) s)

/-- A signed response: its own nonce is free; the signature covers the requester's nonce and the response (log 32). -/
def spdmSigned (code p1 p2 : Nat) (body nonce : List Byte) (s : State) : State :=
  let (own, s) := s.freeBytes 32
  let m := spdmMsg code p1 p2 (body ++ own ++ leBytes 2 0)
  spdmOut (m ++ Config.identitySign (nonce ++ m)) s

def spdmChallenge (slot : Nat) (nonce : List Byte) (s : State) : State :=
  spdmAfter s (fun s => if slot ≠ 0 then spdmErr s else spdmSigned 0x03 0 1 (sha384 (certChain s)) nonce s)

/-- The fused disabled map as a bitmap (13 Table 13-7). -/
def disabledBitmap (s : State) : List Byte := tileBitmap s.fuses.disabled

/-- Type and value of a measurement block; bit 7 of the type marks a raw value (13 Table 13-7). -/
def measurement (s : State) (ix : Nat) : Option (Nat × List Byte) :=
  match ix with
  | 1 => some (0x00, sha384 Config.bootRom)
  | 2 => some (0x01, hdrImageSha (slotHeader s s.boot.slot))
  | 3 => some (0x01, s.boot.coxSha)
  | 4 => some (0x01, sha384 s.boot.mcode)
  | 5 => some (0x83, leBytes 4 s.boot.version.toNat)
  | 6 => some (0x83, s.boot.record.fields)
  | 7 => some (0x82, leBytes 4 s.ump.epoch.toNat)
  | 8 => some (0x02, s.ump.rmapHash)
  | 9 => some (0x02, sha384 (leBytes 1 (readDevInfo s) ++ disabledBitmap s))
  | _ => none

/-- A block in DMTF measurement form. -/
def measBlock (s : State) (ix : Nat) : List Byte :=
  match measurement s ix with
  | none => []
  | some (ty, v) => leBytes 1 ix ++ [1#8] ++ leBytes 2 (v.length + 3) ++ leBytes 1 ty ++ leBytes 2 v.length ++ v

/-- GET_MEASUREMENTS: index 0 asks for the number of blocks, 0xFF for every block from one snapshot (13 R539). -/
def spdmMeas (ix : Nat) (nonce : List Byte) (s : State) : State :=
  spdmAfter s (fun s =>
    let l := if ix = 0xFF then (List.range 9).map (· + 1) else if ix = 0 then [] else [ix]
    if l.any (fun i => (measurement s i).isNone) then spdmErr s
    else
      let rec_ := l.flatMap (measBlock s)
      spdmSigned 0x60 (if ix = 0 then 9 else 0) 0 (leBytes 1 l.length ++ leBytes 3 rec_.length ++ rec_) nonce s)

/-! ### Meanings -/

/-- GET_SHADOW: returns bytes of the shadow state table (R541). -/
def execGetShadow (off : Nat) (len : Nat) (s : State) : Host.Outcome State Fault Refusal := .next (getShadow off len s)

/-- SET_POWER_LIMIT: sets MGMT_LIMIT_W (R534). -/
def execSetPowerLimit (watts : Option Nat) (s : State) : Host.Outcome State Fault Refusal :=
  .next (powerCmd watts s)

/-- TILE_QUARANTINE: a quarantine trigger at a given epoch (R542). -/
def execTileQuarantine (epoch : BitVec 32) (ptile : Option Nat) (s : State) : Host.Outcome State Fault Refusal :=
  .next (tileCmd (fun t s => umpTrigger t cHost none s) epoch ptile s)

/-- TILE_SWEEP: a sweep due at once, at a given epoch (R542). -/
def execTileSweep (epoch : BitVec 32) (ptile : Option Nat) (s : State) : Host.Outcome State Fault Refusal :=
  .next (tileCmd sweepNow epoch ptile s)

/-- SHADOW_PUBLISH: the Cox firmware republishes the table, or its map part (R540). -/
def execShadowPublish (whole : Bool) (s : State) : Host.Outcome State Fault Refusal :=
  .next (if !mgmtUp s then s else if whole then publishWhole s else publishMap s)

/-- RECONCILE: the reconciler compares the shadow with the live map (R543). -/
def execReconcile (s : State) : Host.Outcome State Fault Refusal := .next (reconcile s)

/-- PLDM_SENSOR_READ: returns the latest reading (R533). -/
def execPldmSensorRead (id : Nat) (s : State) : Host.Outcome State Fault Refusal := .next (sensorRead id s)

/-- PLDM_EFFECTER_SET: effecter 1 sets MGMT_LIMIT_W (R534). -/
def execPldmEffecterSet (id : Nat) (watts : Nat) (s : State) : Host.Outcome State Fault Refusal :=
  .next (effecterSet id watts s)

/-- GET_VERSION (R538). -/
def execGetVersion (s : State) : Host.Outcome State Fault Refusal := .next (spdmVersion s)

/-- GET_CAPABILITIES (R538). -/
def execGetCapabilities (s : State) : Host.Outcome State Fault Refusal := .next (spdmCaps s)

/-- NEGOTIATE_ALGORITHMS (R538). -/
def execNegotiateAlgorithms (p384Sha384 : Bool) (s : State) : Host.Outcome State Fault Refusal :=
  .next (spdmAlgs p384Sha384 s)

/-- GET_DIGESTS (R538). -/
def execGetDigests (s : State) : Host.Outcome State Fault Refusal := .next (spdmDigests s)

/-- GET_CERTIFICATE (R538). -/
def execGetCertificate (slot : Nat) (off : Nat) (len : Nat) (s : State) : Host.Outcome State Fault Refusal :=
  .next (spdmCert slot off len s)

/-- CHALLENGE (R538). -/
def execChallenge (slot : Nat) (nonce : List Byte) (s : State) : Host.Outcome State Fault Refusal :=
  .next (spdmChallenge slot nonce s)

/-- GET_MEASUREMENTS (R539). -/
def execGetMeasurements (index : BitVec 8) (nonce : List Byte) (s : State) : Host.Outcome State Fault Refusal :=
  .next (spdmMeas index.toNat nonce s)

/-- SET_ENDPOINT_ID: the bus owner of a binding assigns the endpoint ID (R531). -/
def execSetEndpointId (binding : Binding) (eid : BitVec 8) (s : State) : Host.Outcome State Fault Refusal :=
  .next (setEid binding eid s)

/-- DYNAMIC_ADDRESS_ASSIGN: the device becomes an I3C target (R531). -/
def execDynamicAddressAssign (addr : BitVec 7) (s : State) : Host.Outcome State Fault Refusal := .next (assignAddr addr s)

/-- RSTDAA: the device answers at its static address again (R531). -/
def execRstdaa (s : State) : Host.Outcome State Fault Refusal := .next (rstdaa s)

/-- SET_EVENT_RECEIVER: names the receiver of PlatformEventMessages (R535). -/
def execSetEventReceiver (eid : BitVec 8) (s : State) : Host.Outcome State Fault Refusal := .next (setReceiver eid s)

end Sys2Proof.Machine
end

