-- ==== Sys2Proof/Machine/CardRack.lean ====
section
/-!
DEFINITION. The Kerlor card and the Istum rack as this card meets them: power and its return (14 R556, R564), the
lamps (R565 to R569), trays (12 R486, 14 R576), shelves and coolant (R572, R574).
-/

namespace Sys2Proof.Machine

/-! ### Power -/

/-- The supplies are brought up in their order, those that are on staying on, and POWER_GOOD follows when all are
(14 R556). -/
def supplyOn (s : State) : State :=
  s.modCard (fun c =>
    let up := forList (fun x l => if l.contains x then l else l ++ [x]) supplyOrder c.supplies
    { c with supplies := up, power := decide (up = supplyOrder) })

/-- POWER_ON returns power after code 0x01, no sooner than 10 s after the trip, and after codes 0x03 to 0x06
(14 Table 14-4). -/
def powerOn (s : State) : State :=
  let c := s.card
  if c.power || !c.input || decide (c.offCode = cfUv) ||
      (decide (c.offCode = cfTrip) && decide (c.time - c.offAt < 10 * secs)) then s
  else supplyOn s

/-- The 54 V input has returned: power returns after code 0x02, and after code 0x01 without a rack
(14 Table 14-4). -/
def inputRestored (rackPresent : Bool) (s : State) : State :=
  let s := s.modCard (fun c => { c with rackPresent := rackPresent })
  let c := s.card
  if c.power || !c.input then s
  else if c.offCode = cfUv ∨ (c.offCode = cfTrip ∧ rackPresent = false) then supplyOn s
  else s

/-- An open phase is recorded; power stays (14 Table 14-4). -/
def cardPhaseOpen (mv watts : Nat) (s : State) : State :=
  if !s.card.input then s
  else (cardLog cfPhase mv watts s).modCard (fun c => { c with phaseOpen := true })

/-! ### Trays, shelves, coolant -/

/-- TRAY_ENABLE: RACK and RACKS have been delivered, and a tray that was off powers its cards (12 R486, 14 R577). -/
def trayEnable (rack : BitVec 8) (racks : BitVec 9) (s : State) : State :=
  let s := s.modCard (fun c => { c with rack := rack, racks := racks, delivered := true, rackPresent := true })
  if s.rack.trayOn then s
  else supplyOn { (s.modCard (fun c => { c with input := true })) with rack := { s.rack with trayOn := true } }

/-- The supplies are removed one by one, the last first (14 R556). -/
def supplyDown (s : State) : State :=
  forList (fun _ s => s.modCard (fun c => { c with supplies := c.supplies.dropLast })) s.card.supplies s

/-- TRAY_OFF: the tray's power is removed, that of the card controller too, which keeps its log, its straps and what
the last removal was (14 R576, log 33). -/
def trayOff (s : State) : State :=
  if !s.rack.trayOn then s
  else
    let on := s.card.power
    let s := supplyDown s
    let s := if on then deviceOff (s.modCard (fun c => { c with offCode := 0, offAt := c.time })) else s
    { s with
      rack := { s.rack with trayOn := false, lowFlow := none }
      card := { s.card with
        input := false, rackPresent := false, rack := 0, racks := 0, delivered := false, lamps := [], locate := false, testUntil := none,
        waiting := []
        phaseOpen := false, duty := 1000 } }

/-- The limit that the rack's working shelves allow every device, in W (14 R572). -/
def shelfLimit (shelves : Nat) : Nat := Nat.min 1050 ((16000 * shelves - 3200) / 64 - 150)

/-- The limit in force for the rack: that of the shelves, and 700 W while the coolant is out of bounds (14 R572, R574,
log 33). -/
def rackLimit (r : Rack) : Nat := if r.coolant then Nat.min 700 (shelfLimit r.shelves) else shelfLimit r.shelves

/-- SET_POWER_LIMIT to every device, this one among them (14 R572, 13 R534). -/
def sendLimit (s : State) : State :=
  let w := rackLimit s.rack
  let s := { s with rackLimits := s.rackLimits ++ [w] }
  powerCmd (some w) s

def shelfLoss (s : State) : State := sendLimit { s with rack := { s.rack with shelves := s.rack.shelves - 1 } }

/-- The lost capacity has returned: all six shelves work (14 R572, log 33). -/
def shelfRestored (s : State) : State := sendLimit { s with rack := { s.rack with shelves := 6 } }

/-- COOLANT_MONITOR: inlet temperature in 0.001 °C, flow in mL/min (14 R574). -/
def coolantMonitor (inlet : Int) (flow : Nat) (s : State) : State :=
  let hot := decide (40000 < inlet) || decide (flow < 96000)
  let low := if flow < 48000 then some (s.rack.lowFlow.getD s.card.time) else none
  let s := { s with rack := { s.rack with coolant := hot, lowFlow := low } }
  let s := if hot then sendLimit s else s
  match low with
  | none => s
  | some a => if 10 * secs ≤ s.card.time - a then trayOff s else s

/-! ### Lamps -/

/-- FLAGS of the shadow table, which the card controller polls (14 R565, 13 Table 13-8). -/
def shadowFlags (s : State) : Nat := leNat (((shadowBytes s).drop 20).take 1)

/-- Power is held off under codes 0x01 and 0x03 to 0x06 (14 Table 14-5). -/
def heldOff (s : State) : Bool := !s.card.power && decide (s.card.offCode ∈ [cfTrip, cfOv, cfOverpower, cfSeq, cfAclk])

/-- A lamp's status is OPEN or SHORT. -/
def lampBad (s : State) : Bool :=
  [0, 1, 2].any (fun i => decide ((lampAt s i).st = .openCircuit) || decide ((lampAt s i).st = .short))

/-- Drive of the three lamps: 0 off, 1 blinking, 2 solid (14 Table 14-5). A device that gives no MCTP response counts
as starting. -/
def lampDrive (s : State) (i : Nat) : Nat :=
  let oos := s.card.power && mgmtUp s && s.rst.oos
  let rdy := mgmtUp s && bit (shadowFlags s) 0
  match i with
  | 0 => if !s.card.power || oos then 0 else if rdy then 2 else 1
  | 1 =>
    if oos || heldOff s then 2
    else if (mgmtUp s && bit (shadowFlags s) 1) || s.card.phaseOpen || lampBad s || inRecovery s then 1
    else 0
  | _ => if s.card.locate then 2 else 0

/-- LAMP_POLL: the lamps are driven, statuses age, and lengthened pulses begin (14 R565, R567, R568, log 33). -/
def lampPoll (s : State) : State :=
  if !s.card.input then s
  else
    let s := if testing s then s else s.modCard (fun c => { c with testUntil := none })
    let s := forUp (fun i s => setLamp i { lampAt s i with drive := lampDrive s i } s) 0 3 s
    forUp lampPulse 0 3 (forUp lampStale 0 3 s)

/-- A lamp may be measured now: in an ordinary pulse when its on-time is at least 40 µs, else 20 µs to 40 µs into a
lengthened pulse, which an unlit or a FLICKER_FREE lamp never has (14 R567, R568). -/
def measurable (s : State) (i : Nat) : Bool :=
  decide (40 ≤ onTime s i) || (dim s i && !(lampAt s i).flickerFree &&
    (match pulsePhase s i with
     | some d => decide (20000 ≤ d) && decide (d ≤ 40000)
     | none => false))

/-- A measurement in a pulse (14 R567, R568). Current in µA, voltage in mV. -/
def lampMeasure (i ua mv : Nat) (s : State) : State :=
  let x := lampAt s i
  if !s.card.input || !measurable s i then s
  else
    let now := s.card.time
    let bad := ua < 2000 ∨ mv < 1200
    if ¬bad then lampTo i .ok (setLamp i { x with fails := 0, measured := some now } s)
    else
      let s := setLamp i { x with fails := x.fails + 1, measured := some now } s
      let st := if ua < 2000 then LampSt.openCircuit else .short
      if x.fails = 0 ∨ x.st = st then s
      else
        let (v, s) := s.free
        let (w, s) := s.free
        cardLog cfLamp v w (lampTo i st s)

/-! ### Meanings -/

/-- INPUT_UV: the input is below 46 V (R564). -/
def execInputUv (mv : Nat) (watts : Nat) (s : State) : Host.Outcome State Fault Refusal :=
  .next (if mv < 46000 then removePower cfUv mv watts s else s)

/-- INPUT_OV: the input is above 60 V (R564). -/
def execInputOv (mv : Nat) (watts : Nat) (s : State) : Host.Outcome State Fault Refusal :=
  .next (if 60000 < mv then removePower cfOv mv watts s else s)

/-- OVERPOWER: the input power is above 1,320 W (R564). -/
def execOverpower (mv : Nat) (watts : Nat) (s : State) : Host.Outcome State Fault Refusal :=
  .next (if 1320 < watts then removePower cfOverpower mv watts s else s)

/-- SEQ_FAIL: a supply is out of tolerance (R564). -/
def execSeqFail (mv : Nat) (watts : Nat) (s : State) : Host.Outcome State Fault Refusal :=
  .next (removePower cfSeq mv watts s)

/-- ACLK_FAIL: ACLK deviates or stops (R564). -/
def execAclkFail (mv : Nat) (watts : Nat) (s : State) : Host.Outcome State Fault Refusal :=
  .next (removePower cfAclk mv watts s)

/-- PHASE_OPEN: the multiphase controller reports an open phase (R564). -/
def execPhaseOpen (mv : Nat) (watts : Nat) (s : State) : Host.Outcome State Fault Refusal :=
  .next (cardPhaseOpen mv watts s)

/-- POWER_ON: the supplies come up (R556, R564). -/
def execPowerOn (s : State) : Host.Outcome State Fault Refusal := .next (powerOn s)

/-- INPUT_RESTORED: the 54 V input has returned (R564). -/
def execInputRestored (rackPresent : Bool) (s : State) : Host.Outcome State Fault Refusal :=
  .next (inputRestored rackPresent s)

/-- LOCATE: lights or ends the blue lamp (R565). -/
def execLocate (on : Bool) (s : State) : Host.Outcome State Fault Refusal :=
  .next (lampCmd (.locate on) s)

/-- LAMP_TEST (R569). -/
def execLampTest (s : State) : Host.Outcome State Fault Refusal := .next (lampCmd .test s)

/-- LAMP_POLL (R565). -/
def execLampPoll (s : State) : Host.Outcome State Fault Refusal := .next (lampPoll s)

/-- LAMP_MEASURE (R567). -/
def execLampMeasure (lamp : Lamp) (ua : Nat) (mv : Nat) (s : State) : Host.Outcome State Fault Refusal :=
  .next (lampMeasure (lampIx lamp) ua mv s)

/-- TRAY_ENABLE (R486). -/
def execTrayEnable (rack : BitVec 8) (racks : BitVec 9) (s : State) : Host.Outcome State Fault Refusal :=
  .next (trayEnable rack racks s)

/-- TRAY_OFF (R576). -/
def execTrayOff (s : State) : Host.Outcome State Fault Refusal := .next (trayOff s)

/-- SHELF_LOSS (R572). -/
def execShelfLoss (s : State) : Host.Outcome State Fault Refusal := .next (shelfLoss s)

/-- SHELF_RESTORED (R572). -/
def execShelfRestored (s : State) : Host.Outcome State Fault Refusal := .next (shelfRestored s)

/-- COOLANT_MONITOR (R574). -/
def execCoolantMonitor (inlet : Int) (flow : Nat) (s : State) : Host.Outcome State Fault Refusal :=
  .next (coolantMonitor inlet flow s)

/-- DUTY (R566, R568). -/
def execDuty (duty : Nat) (flickerFree : BitVec 3) (s : State) : Host.Outcome State Fault Refusal :=
  .next (lampCmd (.duty duty flickerFree) s)

end Sys2Proof.Machine
end

