-- ==== Sys2Proof/Machine/Governor.lean ====
section
/-!
DEFINITION. The governor: budgets and clock points of a pass (09 R384 to R390), the clamp's release (R376), and the
change of clock point (R365).
-/

namespace Sys2Proof.Machine

/-! ### The plan of a full pass (09 R387) -/

/-- What a pass works from: per partition the scaled capacitance, leakage, Θ and MAXPT, the held point, and the
limits. -/
structure PlanIn where
  sw    : Nat → Nat → Nat → Int
  leak  : Nat → Nat → Int
  theta : Nat → Int
  maxpt : Nat → Nat
  held  : Nat → Option Nat
  /-- the governor may step held partitions down: the clamp is engaged (09 R367) -/
  step  : Bool
  limit : Int
  rest  : Int
  ilim  : Int

/-- P_p(n, V) of a plan. -/
def PlanIn.pw (k : PlanIn) (p n v : Nat) : Int := k.sw p n v + k.leak p v

/-- Shares `left` among the open partitions until each need is met or none fits (09 R387). Fuel counts rounds. -/
def shareOut (need : Nat → Int) : Nat → List Nat → Int → (Nat → Int) → Nat → Int
  | 0, _, _, b => b
  | n + 1, opn, left, b =>
    if opn.isEmpty then fun p => b p + left / 8
    else
      let sh := left / opn.length
      let fit := opn.filter (fun p => decide (need p ≤ sh))
      if fit.isEmpty then fun p => if opn.contains p then sh else b p
      else shareOut need n (opn.filter (fun p => decide (sh < need p))) (left - sumOf need fit)
        (fun p => if fit.contains p then need p else b p)

/-- Shares of a pass whose fastest point is t, before their thermal bound, in pW (09 R387). -/
def sharesAt (k : PlanIn) (t : Nat) : Nat → Int :=
  let v := pointMv t
  let w := min (k.limit - k.rest) (k.ilim * v * 1000000)
  let need := fun p => min (k.pw p (Nat.max t (k.maxpt p)) v) (k.theta p)
  shareOut need 9 (List.range 8) w (fun _ => 0)

/-- Budgets of a pass whose fastest point is t, in pW (09 R387). -/
def budgetsAt (k : PlanIn) (t : Nat) : List Int :=
  let b := sharesAt k t
  (List.range 8).map (fun p => min (b p) (k.theta p))

/-- The fastest point not faster than `from_` that fits a budget; 15 if none (09 R387). -/
def fastest (k : PlanIn) (p from_ v : Nat) (b : Int) : Nat :=
  ((List.range 16).find? (fun n => decide (from_ ≤ n) && decide (k.pw p n v ≤ b))).getD 15

/-- Points of a pass whose fastest point is t. A held partition keeps its point, but for a step-down while the clamp
is engaged (09 R367, R387, log 26). -/
def pointsAt (k : PlanIn) (t : Nat) (b : List Int) : List Nat :=
  (List.range 8).map (fun p =>
    let n := fastest k p (Nat.max t (k.maxpt p)) (pointMv t) (b.getD p 0)
    match k.held p with
    | some h => if k.step then Nat.max h n else h
    | none => n)

/-- The pass: t from the start until some point is t, or 15. Fuel counts points. -/
def planFrom (k : PlanIn) : Nat → Nat → Nat × List Int × List Nat
  | 0, t => let b := budgetsAt k t; (t, b, pointsAt k t b)
  | n + 1, t =>
    let b := budgetsAt k t
    let l := pointsAt k t b
    if t = 15 ∨ l.contains t = true then (t, b, l) else planFrom k n (t + 1)

/-! ### A pass -/

/-- Energy of the interval goes to the partition, and to the launches that hold crews there (09 R390). -/
def addEnergy (dt p : Nat) (s : State) : State :=
  let x := s.part p
  let pw := (stretched (stretchOf s p) (switchPw x.actCap x.point s.pwr.setpoint) + leakPw s p s.pwr.setpoint).toNat
  let e := pw * dt / 1000000000000
  let n := clockedCrews s p
  let s := s.modPart p (fun x => { x with energy := x.energy + e })
  forList (fun c s =>
    let k := (c.2.crews.filter (fun g => decide (g / 64 = p))).length
    if k = 0 ∨ n = 0 then s else s.modExec c.1 (fun y => { y with energy := y.energy + e * k / n })) (execs s) s

/-- Held point of partition p: a change already begun completes first (09 R367). -/
def heldPoint (s : State) (p : Nat) : Option Nat :=
  if timedIn s p then some ((s.part p).nextPoint.getD (s.part p).point) else none

/-- The policy limit in W (09 R361). -/
def effLimit (s : State) : Nat := Nat.min 1050 (Nat.min s.pwr.limitW s.pwr.mgmtW)

/-- Measured power of a domain in pW, with the guard of an estimate; its setpoint stands for its voltage before the
first sample (09 R371, R387). -/
def domPw (s : State) (d : Nat) : Int :=
  let x := dom s d
  guarded x.nowI x.est * (if x.nowV = 0 then domSetpoint s d else x.nowV) * 1000000

/-- The activity's capacitances scaled by one factor, so that the model meets the measured VDD_LOGIC power with the
points, setpoint and stretch in force (09 R385, log 26). -/
def scaledCap (s : State) (act : List Nat) (other : Int) : List Nat :=
  let v := s.pwr.setpoint
  let sw := sumOf (fun p => stretched (stretchOf s p) (switchPw (act.getD p 0) (s.part p).point v)) (List.range 8)
  let want := domPw s 0 - other - sumOf (fun p => leakPw s p v) (List.range 8)
  if sw ≤ 0 then act else (List.range 8).map (fun p => ((act.getD p 0 : Int) * max 0 want / sw).toNat)

/-- Θ_p in pW (09 R386). -/
def theta (s : State) (p : Nat) : Int :=
  let x := s.part p
  partPw s p x.point s.pwr.setpoint + (s.pwr.g : Int) * (8 * s.pwr.tTarget - x.temp) * 125000000000

/-- Budgets are kept in units of 0.1 W, rounded down (09 R387). -/
def toBudget (b : Int) : Nat := b.toNat / 100000000000 * 100000000000

/-- The lowest stretch level at which partition p at P15 fits its budget (09 R388). -/
def stretchFor (s : State) (p v : Nat) (b : Int) : Nat :=
  if partPw s p 15 v ≤ b then 0
  else ([1, 2].find? (fun l => decide (stretched l (switchPw (s.part p).actCap 15 v) + leakPw s p v ≤ b))).getD 3

/-- A pass is due: the first; one a millisecond; on request; or every 100 µs while the clamp is engaged and for 1 ms
after (09 R369, R376, R384). -/
def passFast (s : State) : Bool :=
  decide (s.pwr.clamp ≠ 0) || (match s.pwr.clampFree with
    | some a => decide (s.since a < 1000000)
    | none => false)

def passIsDue (s : State) : Bool :=
  !s.pwr.governed || s.pwr.passDue || decide (1000000 ≤ s.since s.pwr.passAt) ||
    (passFast s && decide (100000 ≤ s.since s.pwr.passAt))

/-- The clamp's level falls by one when the chosen points are in force and the model allows the next lower level
(09 R376, log 26). -/
def releaseClamp (ilim other : Int) (s : State) : State :=
  let v := s.pwr.setpoint
  let l := s.pwr.clamp
  let settled := decide (s.pwr.setpoint = s.pwr.wantSet) && (List.range 8).all (fun p => (s.part p).nextPoint.isNone)
  let pred := sumOf (fun p => stretched (Nat.max (l - 1) (s.part p).govStretch)
    (switchPw (s.part p).actCap (s.part p).point v) + leakPw s p v) (List.range 8) + other
  if decide (l ≠ 0) && settled && decide (100 * pred ≤ 97 * ilim * v * 1000000) then
    let s := s.modPwr (fun w => { w with clamp := l - 1 })
    let s := forUp disturb 0 8 s
    if l = 1 then raise 0x5006 noUnit 0 (s.modPwr (fun w => { w with clampFree := some s.now })) else s
  else s

/-- Applies what a pass decided for partition p: its share, budget, point, thermal term. -/
def applyPlan (t : Nat) (share : Nat → Int) (b : List Int) (l : List Nat) (th : List Int) (p : Nat) (s : State) : State :=
  let x := s.part p
  let n := l.getD p 15
  let now := x.nextPoint.getD x.point
  let s := if n ≠ now && timedIn s p then disturb p s else s
  let bp := b.getD p 0
  let g := if s.pwr.short then 3 else if n = 15 then stretchFor s p (pointMv t) bp else 0
  s.modPart p (fun x => { x with
    nextPoint := if n = x.point then none else some n, budget := toBudget bp, thermW := th.getD p 0
    shareW := share p, thermAt := s.now, govStretch := g })

/-- MAXPT and the CAP in force at a pass; out of service every partition stays at P15 (09 R366, R393, 11 R466). -/
def setMaxpt (p : Nat) (s : State) : State :=
  let cap := if timedIn s p then (s.part p).capEff else (s.part p).cap
  let m := Nat.min 15 (cap + boolNat (s.part p).crack)
  s.modPart p (fun x => { x with capEff := cap, maxpt := m })

/-- A full pass: `act` holds each partition's capacitance by its activity monitor in pF, `other` the power of
VDD_LOGIC outside the partitions in pW (09 R385, R387). -/
def fullPass (act : List Nat) (other : Nat) (s : State) : State :=
  let dt := if s.pwr.governed then s.since s.pwr.passAt else 0
  let other : Int := guarded other (dom s 0).est
  let caps := scaledCap s act other
  let s := forUp (fun p s => setMaxpt p (s.modPart p (fun x => { x with actCap := caps.getD p 0 }))) 0 8 s
  let s := forUp (addEnergy dt) 0 8 s
  let low := s.pwr.short || s.rst.oos
  let k : PlanIn := {
    sw := fun p n v => switchPw (s.part p).actCap n v, leak := leakPw s, theta := theta s
    maxpt := fun p => if low then 15 else (s.part p).maxpt, held := heldPoint s, step := decide (s.pwr.clamp ≠ 0)
    limit := (effLimit s : Int) * 1000000000000, rest := other + domPw s 1 + domPw s 2 + domPw s 3, ilim := iLim s 0 }
  let start := ((List.range 8).map (fun p => Nat.min (k.maxpt p) ((k.held p).getD 15))).foldl Nat.min 15
  let (t, b, l) := planFrom k 16 start
  let th := (List.range 8).map (theta s)
  let w := min (k.limit - k.rest) (k.ilim * pointMv t * 1000000)
  let s := forUp (applyPlan t (sharesAt k t) b l th) 0 8 s
  let s := s.modPwr (fun x => { x with wLogic := w.toNat, governed := true, passAt := s.now, passDue := false })
  releaseClamp (iLim s 0) other (reEstimate (settleVoltage s))

/-- A pass limited to the thermal term of partition p: its share of the last full pass meets the new Θ_p (09 R384,
log 26). -/
def thermalPass (p : Nat) (s : State) : State :=
  let th := theta s p
  let b := min (s.part p).shareW th
  let t := (850 - s.pwr.wantSet) / 15
  let n := if timedIn s p then (s.part p).nextPoint.getD (s.part p).point
    else ((List.range 16).find? (fun n => decide (Nat.max t (s.part p).maxpt ≤ n) &&
      decide (partPw s p n s.pwr.wantSet ≤ b))).getD 15
  let g := if s.pwr.short then 3 else if n = 15 then stretchFor s p s.pwr.wantSet b else 0
  settleVoltage (s.modPart p (fun x => { x with
    thermW := th, thermAt := s.now, budget := toBudget b
    nextPoint := if n = x.point then none else some n, govStretch := g }))

/-- The thermal term of partition p is due: its diodes are sampled every 125 µs or 15.6 µs, and so is it (09 R378,
R384). -/
def thermalDue (s : State) (p : Nat) : Bool :=
  match Tbl.look 0 p s.pwr.ivals with
  | 0 => false
  | 1 => decide (125000 ≤ s.since (s.part p).thermAt)
  | _ => decide (15600 ≤ s.since (s.part p).thermAt)

/-- GOVERNOR_PASS: a full pass where one is due, else the thermal terms that are; then a scheduler pass (09 R384). The
governor runs as firmware, once every stack is trained (12 R480); during a Cox restart it makes its first pass (11
Table 11-8). -/
def governorPass (act : List Nat) (other : Nat) (s : State) : State :=
  if !(s.alive && s.boot.cox && s.boot.trained) || (s.rst.cox.isSome && s.pwr.governed) then s
  else if passIsDue s then thenPass (fun s => schedulerPass (fullPass act other s)) s
  else
    let l := (List.range 8).filter (thermalDue s)
    if l.isEmpty then s else thenPass (fun s => schedulerPass (forList thermalPass l s)) s

/-- CLOCK_POINT_APPLY: partition p takes its chosen point, and the setpoint follows: raised before a faster point, and
lowered after a slower one (09 R364, R365). A margin trial there is void (01 R50). -/
def clockPointApply (p : Nat) (s : State) : State :=
  match (s.part p).nextPoint with
  | none => s
  | some n =>
    let s := reEstimate (settleVoltage (s.modPart p (fun x => { x with point := n, nextPoint := none })))
    voidWork (fun w => w.margin && decide (w.subject.part = p)) s

/-- GOVERNOR_PASS: budgets, clock points and stretch, and a scheduler pass (R387). -/
def execGovernorPass (act : List Nat) (other : Nat) (s : State) : Host.Outcome State Fault Refusal :=
  .next (governorPass act other s)

/-- CLOCK_POINT_APPLY: a chosen clock point takes effect (R365). -/
def execClockPointApply (p : PartIx) (s : State) : Host.Outcome State Fault Refusal := .next (clockPointApply p.val s)

end Sys2Proof.Machine
end

