-- ==== Sys2Proof/Machine/HostMem.lean ====
section
/-!
DEFINITION. Host accesses to HBM through BAR2 and CXL.mem (13 R518 to R520, R526, R552).
-/

namespace Sys2Proof.Machine

/-- Physical address of a host access (13 R518, Table 13-3). -/
def hostPa (s : State) (path : HostPath) (addr : Nat) : Nat :=
  match path with
  | .bar2 => s.host.bar2 * 2 ^ 30 + addr
  | .cxlMem => addr

/-- The path exists: CXL.mem only where a CXL mode was negotiated (13 R524). -/
def pathOpen (s : State) (path : HostPath) : Bool :=
  s.alive && (decide (path = .bar2) || decide (s.host.cxl ≠ .none))

/-- The bytes lie in the aperture that BAR2 decodes (13 Table 13-1); another address does not reach the device. -/
def inBar (s : State) (path : HostPath) (addr len : Nat) : Bool :=
  decide (path = .cxlMem) || decide (addr + len ≤ s.host.aperture * 2 ^ 30)

/-- The function is in D3hot, where it answers memory requests as unsupported (13 Table 13-1, log 42). -/
def asleep (s : State) (path : HostPath) : Bool := s.host.d3hot && decide (path = .bar2)

/-- A stack that the access touches is in reset, so that the access waits (05 R231). -/
def hostWaits (s : State) (pa len : Nat) : Bool :=
  stackShut s (frameStack (pa / frameBytes)) || stackShut s (frameStack ((pa + (len - 1)) / frameBytes))

/-- A host access to a stack marks every executing TIMED launch DISTURBED (13 R520). -/
def disturbTimed (s : State) : State :=
  forList (fun e s => if e.2.launch.desc.timed then s.modExec e.1 (fun x => { x with disturbed := true }) else s)
    (execs s) s

/-! ### The snoop filter (13 R526) -/

/-- Lines that the snoop filter of a base die holds. -/
def snoopMax : Nat := 32768

/-- Enters a line that a CXL 3.1 host caches; a full filter first invalidates its oldest (13 R526). -/
def snoopEnter (line : Nat) (s : State) : State :=
  let k := frameStack (64 * line / frameBytes)
  let st := s.stk k
  if st.snoop.contains line then s
  else match st.snoop with
    | [] => s.setStk k { st with snoop := [line] }
    | old :: rest =>
      if snoopMax ≤ st.snoop.length then
        { (s.setStk k { st with snoop := rest ++ [line] }) with snoops := s.snoops ++ [old] }
      else s.setStk k { st with snoop := st.snoop ++ [line] }

/-- Enters the lines of a read that the host may cache. -/
def snoopRead (path : HostPath) (pa len : Nat) (s : State) : State :=
  if path = .cxlMem ∧ s.host.cxl = .cxl31 then forUp snoopEnter (pa / 64) (linesOf pa len) s else s

/-! ### Reads -/

/-- An Unsupported Request, which AER records (13 R518, Table 13-1). -/
def unsupported (s : State) : State :=
  { (s.modHost (fun h => { h with aerUr := true })) with
    hostData := some { data := [], poisoned := false, unsupported := true } }

/-- A read within one frame, by the frame's state (13 Table 13-2, R552): the bytes, and whether they are poisoned. -/
def hostReadFrame (path : HostPath) (pa len : Nat) (s : State) : (List Byte × Bool) × State :=
  match s.frameNow (pa / frameBytes) with
  | .free => ((List.replicate len 0, false), snoopRead path pa len s)
  | .poisoned => (([], true), s)
  | _ =>
    match hbmRead pa len s with
    | (.ok bs, s) => ((bs, false), snoopRead path pa len s)
    | (.err _ _, s) => (([], true), s)

/-- A read frame by frame. Fuel counts frames. -/
def hostReadFrames (path : HostPath) : Nat → Nat → Nat → State → (List Byte × Bool) × State
  | 0, _, _, s => (([], false), s)
  | k + 1, pa, len, s =>
    let n := Nat.min len (frameBytes - pa % frameBytes)
    let (a, s) := hostReadFrame path pa n s
    if n = len then (a, s)
    else
      let (b, s) := hostReadFrames path k (pa + n) (len - n) s
      ((a.1 ++ b.1, a.2 || b.2), s)

/-- A host read (13 R518, R519). Poisoned data are given no value. -/
def hostRead (path : HostPath) (addr len : Nat) (s : State) : State :=
  let pa := hostPa s path addr
  if !pathOpen s path || !inBar s path addr len || decide (len = 0) then s
  else if paEnd < pa + len ∨ asleep s path = true then unsupported s
  else if hostWaits s pa len then s
  else
    let (r, s) := hostReadFrames path (len / frameBytes + 2) pa len (disturbTimed s)
    { s with hostData := some { data := if r.2 then [] else r.1, poisoned := r.2, unsupported := false } }

/-! ### Writes -/

/-- A discarded write is counted; HOST_WRITE_DROPPED is raised at most once per millisecond (13 R519, 15 R595). -/
def dropWrite (s : State) : State :=
  let s := s.modHost (fun h => { h with hostDrop := satAdd 32 h.hostDrop 1 })
  let quiet := match s.host.dropAt with
    | some a => decide (s.since a < 1000000)
    | none => false
  if quiet then s else raise 0x7034 noUnit 0 (s.modHost (fun h => { h with dropAt := some s.now }))

/-- The uncorrectable line that a write covers only in part: its first or its last (05 R216, 13 R552). -/
def partUe (s : State) (pa len : Nat) : Option Nat :=
  let ue := fun l => decide (Tbl.look LineErr.none l s.lineErr = .uncorrectable)
  let a := pa / 64
  let b := (pa + len - 1) / 64
  if (decide (pa % 64 ≠ 0) || decide (pa + len < 64 * (a + 1))) && ue a then some a
  else if decide ((pa + len) % 64 ≠ 0) && ue b then some b
  else none

/-- A write within one frame (13 Table 13-2, R552). -/
def hostWriteFrame (pa : Nat) (bs : List Byte) (s : State) : State :=
  match s.frameNow (pa / frameBytes) with
  | .free => dropWrite s
  | .poisoned => dropWrite s
  | _ =>
    match partUe s pa bs.length with
    | some l => dropWrite (memUe l s)
    | none => (writeLines true (linesOf pa bs.length) pa bs s).2

/-- A write frame by frame. Fuel counts frames. -/
def hostWriteFrames : Nat → Nat → List Byte → State → State
  | 0, _, _, s => s
  | k + 1, pa, bs, s =>
    let n := frameBytes - pa % frameBytes
    let s := hostWriteFrame pa (bs.take n) s
    if bs.length ≤ n then s else hostWriteFrames k (pa + n) (bs.drop n) s

/-- A host write (13 R518, R519). -/
def hostWrite (path : HostPath) (addr : Nat) (bs : List Byte) (s : State) : State :=
  let pa := hostPa s path addr
  if !pathOpen s path || !inBar s path addr bs.length || bs.isEmpty || hostWaits s pa bs.length then s
  else if paEnd < pa + bs.length ∨ asleep s path = true then s.modHost (fun h => { h with aerUr := true })
  else hostWriteFrames (bs.length / frameBytes + 2) pa bs (disturbTimed s)

/-- HOST_MEM_READ: a BAR2 or CXL.mem read (R519). -/
def execHostMemRead (path : HostPath) (addr : Nat) (len : Nat) (s : State) : Host.Outcome State Fault Refusal :=
  .next (hostRead path addr len s)

/-- HOST_MEM_WRITE: a BAR2 or CXL.mem write (R519). -/
def execHostMemWrite (path : HostPath) (addr : Nat) (data : List Byte) (s : State) : Host.Outcome State Fault Refusal :=
  .next (hostWrite path addr data s)

end Sys2Proof.Machine
end

