-- ==== Sys2Proof/Machine/Imm.lean ====
section
/-!
DEFINITION. The immediate instructions (03 R118, Table 3-4).
-/

namespace Sys2Proof.Machine

/-- imm13 sign-extended (03 R118). -/
def imm13s (w : Word) : Word := BitVec.ofInt 32 (sext (wImm13 w) 13)

/-- imm13 zero-extended. -/
def imm13z (w : Word) : Word := BitVec.ofNat 32 (wImm13 w)

/-- SHI: imm13[4:0] is the count, imm13[6:5] selects SLL, SRL or SRA (03 Table 3-4). -/
def shiftImm (a w : Word) : Word :=
  let n := wImm13 w % 32
  match bits (wImm13 w) 5 2 with
  | 0 => a <<< n
  | 1 => a >>> n
  | _ => a.sshiftRight n

/-- A result in s[rd] from the word and the tile. -/
def ldOp (f : Word → Tile → Word) : Body :=
  regOp 1 1 (fun w => [rcS (wRd w)]) (fun w x => x.setS (wRd w) (f w x))

/-- ADDI: adds a sign-extended 13-bit immediate to s[rs1] (R118). -/
def execAddi (t : TileIx) (s : State) : Host.Outcome State Fault Refusal :=
  .next (issue t.val .addi (iOp (fun a w => a + imm13s w)) s)

/-- ANDI: ANDs s[rs1] with a zero-extended immediate (R118). -/
def execAndi (t : TileIx) (s : State) : Host.Outcome State Fault Refusal :=
  .next (issue t.val .andi (iOp (fun a w => a &&& imm13z w)) s)

/-- ORI: ORs s[rs1] with a zero-extended immediate (R118). -/
def execOri (t : TileIx) (s : State) : Host.Outcome State Fault Refusal :=
  .next (issue t.val .ori (iOp (fun a w => a ||| imm13z w)) s)

/-- XORI: XORs s[rs1] with a zero-extended immediate (R118). -/
def execXori (t : TileIx) (s : State) : Host.Outcome State Fault Refusal :=
  .next (issue t.val .xori (iOp (fun a w => a ^^^ imm13z w)) s)

/-- SHI: shifts s[rs1] by an immediate count, logical left, logical right or arithmetic right (R118). -/
def execShi (t : TileIx) (s : State) : Host.Outcome State Fault Refusal :=
  .next (issue t.val .shi (iOp shiftImm) s)

/-- LUI: loads imm18 × 2^14 into s[rd] (R118). -/
def execLui (t : TileIx) (s : State) : Host.Outcome State Fault Refusal :=
  .next (issue t.val .lui (ldOp (fun w _ => BitVec.ofNat 32 (wImm18 w * 2 ^ 14))) s)

/-- LLO: replaces bits [13:0] of s[rd] with an immediate (R118). -/
def execLlo (t : TileIx) (s : State) : Host.Outcome State Fault Refusal :=
  .next (issue t.val .llo (ldOp (fun w x => (x.sreg (wRd w) &&& 0xFFFFC000#32) ||| BitVec.ofNat 32 (wImm18 w % 2 ^ 14))) s)

end Sys2Proof.Machine
end

