-- ==== Sys2Proof/Machine/LoadStore.lean ====
section
/-!
DEFINITION. Loads and stores (03 R119, R120, Table 3-5).
-/

namespace Sys2Proof.Machine

/-- ea = (s[rs1] + sext(off10) × size) mod 2^32 (03 R119). -/
def effAddr (x : Tile) (w : Word) (size : Nat) : Nat :=
  intBits 32 ((x.sreg (wRs1 w)).toNat + sext (wOff10 w) 10 * size)

/-- The address check of a load or store: alignment before range (03 R115, 02 R72, R73). -/
def memCheck (s : State) (t ea size : Nat) : Option Trap :=
  if ea % size ≠ 0 then some (trapAt s t tcAlign ea 0)
  else if sramBytes < ea + size then some (trapAt s t tcSramRange ea 0)
  else none

/-- A load of `size` bytes into a register (03 Table 3-5). -/
def loadOp (size : Nat) (dest : Word → List Nat) (f : Word → List Byte → Tile → Tile) : Body :=
  fun t w _ s =>
    let ea := effAddr (s.tile t) w size
    match memCheck s t ea size with
    | some tr => .trap tr s
    | none =>
      match sramRead t ea size s with
      | (.ue a y, s) => .trap (trapAt s t tcSramUe a y) s
      | (.ok bs, s) => .retire 1 (dest w) 3 (s.modTile t (f w bs))

/-- A load into s[rt] of the bytes' number under f. -/
def loadS (size : Nat) (f : Nat → Word) : Body :=
  loadOp size (fun w => [rcS (wRd w)]) (fun w bs x => x.setS (wRd w) (f (leNat bs)))

/-- A load into v[rt]; bytes not loaded are 0. -/
def loadV (size : Nat) : Body :=
  loadOp size (fun w => [rcV (wRd w)]) (fun w bs x => x.setV (wRd w) (ofBytes128 bs))

/-- A store of `size` bytes (03 Table 3-5). -/
def storeOp (size : Nat) (f : Word → Tile → Nat) : Body :=
  fun t w _ s =>
    let x := s.tile t
    let ea := effAddr x w size
    match memCheck s t ea size with
    | some tr => .trap tr s
    | none =>
      match sramStore t ea (leBytes size (f w x)) s with
      | (some (a, y), s) => .trap (trapAt s t tcSramUe a y) s
      | (none, s) => .retire 1 [] 0 s

/-- LB: loads a sign-extended byte from data SRAM (R119). -/
def execLb (t : TileIx) (s : State) : Host.Outcome State Fault Refusal :=
  .next (issue t.val .lb (loadS 1 (fun v => BitVec.ofInt 32 (sext v 8))) s)

/-- LBU: loads a zero-extended byte from data SRAM (R119). -/
def execLbu (t : TileIx) (s : State) : Host.Outcome State Fault Refusal :=
  .next (issue t.val .lbu (loadS 1 (fun v => BitVec.ofNat 32 v)) s)

/-- LH: loads a sign-extended halfword from data SRAM (R119). -/
def execLh (t : TileIx) (s : State) : Host.Outcome State Fault Refusal :=
  .next (issue t.val .lh (loadS 2 (fun v => BitVec.ofInt 32 (sext v 16))) s)

/-- LHU: loads a zero-extended halfword from data SRAM (R119). -/
def execLhu (t : TileIx) (s : State) : Host.Outcome State Fault Refusal :=
  .next (issue t.val .lhu (loadS 2 (fun v => BitVec.ofNat 32 v)) s)

/-- LW: loads a 32-bit word from data SRAM (R119). -/
def execLw (t : TileIx) (s : State) : Host.Outcome State Fault Refusal :=
  .next (issue t.val .lw (loadS 4 (fun v => BitVec.ofNat 32 v)) s)

/-- VLD8: loads 8 bytes into lanes 0-1 of a v register and clears lanes 2-3 (R119). -/
def execVld8 (t : TileIx) (s : State) : Host.Outcome State Fault Refusal :=
  .next (issue t.val .vld8 (loadV 8) s)

/-- VLD: loads 16 bytes into a v register (R119). -/
def execVld (t : TileIx) (s : State) : Host.Outcome State Fault Refusal :=
  .next (issue t.val .vld (loadV 16) s)

/-- SB: stores a byte, by read-modify-write of its 64-bit word (R119). -/
def execSb (t : TileIx) (s : State) : Host.Outcome State Fault Refusal :=
  .next (issue t.val .sb (storeOp 1 (fun w x => (x.sreg (wRd w)).toNat)) s)

/-- SH: stores a halfword to data SRAM (R119). -/
def execSh (t : TileIx) (s : State) : Host.Outcome State Fault Refusal :=
  .next (issue t.val .sh (storeOp 2 (fun w x => (x.sreg (wRd w)).toNat)) s)

/-- SW: stores a word to data SRAM (R119). -/
def execSw (t : TileIx) (s : State) : Host.Outcome State Fault Refusal :=
  .next (issue t.val .sw (storeOp 4 (fun w x => (x.sreg (wRd w)).toNat)) s)

/-- VST8: stores lanes 0-1 of a v register (R119). -/
def execVst8 (t : TileIx) (s : State) : Host.Outcome State Fault Refusal :=
  .next (issue t.val .vst8 (storeOp 8 (fun w x => (x.vreg (wRd w)).toNat)) s)

/-- VST: stores all 16 bytes of a v register (R119). -/
def execVst (t : TileIx) (s : State) : Host.Outcome State Fault Refusal :=
  .next (issue t.val .vst (storeOp 16 (fun w x => (x.vreg (wRd w)).toNat)) s)

end Sys2Proof.Machine
end

