-- ==== Sys2Proof/Machine/RegWrite.lean ====
section
/-!
DEFINITION. What a host write of each register does (00 R18 to R21, 15 R584, R585), with the event ring's enable
(13 R529). A register whose write has a row of its own acts as that row does.
-/

namespace Sys2Proof.Machine

/-- A log's status register: writing 1 clears OVERFLOW. -/
def ringW1c {α : Type} (n : Nat) (r : Ring α) : Ring α := if bit n 8 then { r with overflow := false } else r

/-! ### Event ring (13 R529) -/

/-- A write of EVT_CFG: BASE and SIZE are kept while EN is 1, and EN from 0 to 1 begins the ring anew. Losses of the
held buffer are counted once the ring is enabled (15 R593). -/
def evtCfgWrite (n : Nat) (s : State) : State :=
  let h := s.host
  let h1 := if h.evtEn then h else
    { h with evtSize := Nat.min 8 (bits n 0 4), evtBase := bits n 12 52 * 4096 }
  let h2 := { h1 with evtEn := bit n 4, evtIrq := bit n 5 }
  let h3 := if bit n 4 && !h.evtEn then { h2 with evtTail := 0, evtHead := 0, evtPhase := true } else h2
  let s := { s with host := h3 }
  if s.coxRuns then settleHeldLost s else s

/-- A write of EVT_HEAD: a value at or above the ring size is ignored (13 Table 13-11). -/
def evtHeadWrite (n : Nat) (s : State) : State :=
  if evtRingSize s.host ≤ bits n 0 12 then s else s.modHost (fun h => { h with evtHead := bits n 0 12 })

/-! ### Contexts -/

/-- CTX_CMD (06 R244, R245). -/
def ctxCmd (c op : Nat) (s : State) : State :=
  match op with
  | 1 => resumeCtx c s
  | 2 => flushCtx c s
  | 3 => abortCtx c s
  | _ => s

/-- Applies a change to context c that the command engine ignores while the context holds an executing launch
(04 R182, 05 R213, 08 R334). -/
def unlessExec (c : Nat) (f : Ctx → Ctx) (s : State) : State := if (s.ctx c).exec.isSome then s else s.modCtx c f

/-- A ring register, ignored unless the context is DISABLED (06 R274). -/
def whileDisabled (c : Nat) (f : Ctx → Ctx) (s : State) : State :=
  if (s.ctx c).st = .disabled then s.modCtx c f else s

/-- A write of one of the registers of context c at 0x1000 + 0x40c. -/
def writeCtx (c o n : Nat) (s : State) : State :=
  match o with
  | 0x00 => ctxCfgWrite c (BitVec.ofNat 64 n) s
  | 0x08 => whileDisabled c (fun x => { x with
      sqSize := Nat.min 8 (bits n 0 4), sqLoc := bit n 11, sqBase := bits n 12 52 * 4096 }) s
  | 0x10 => whileDisabled c (fun x => { x with
      cqSize := Nat.min 8 (bits n 0 4), cqLoc := bit n 11, cqBase := bits n 12 52 * 4096 }) s
  | 0x20 => ctxCmd c (bits n 0 2) s
  | _ => s

/-- SPILL_USED: a smaller LINES lets SPILLWAY_HIGH be raised again (04 R186). -/
def spillUsedWrite (lines : Nat) (x : Ctx) : Ctx :=
  { x with spillLines := lines, spillHigh := x.spillHigh && !decide (lines < x.spillLines) }

/-! ### Blocks -/

/-- RST_CMD (11 Table 11-12). -/
def rstCmd (n : Nat) (s : State) : State :=
  match bits n 0 2 with
  | 1 => hostPartReset (bits n 8 3) s
  | 2 => hostCoxRestart s
  | 3 => if s.up ∧ bits n 16 16 = 0x00D5 then fullReset s else s
  | _ => s

def writeDevice (o n : Nat) (s : State) : State :=
  match o with
  | 0x200 => rstCmd n s
  | 0x218 => s.modRst (fun r => { r with
      escCount := clampNat 2 16 (bits n 0 5), escWindow := clampNat 60 3600 (bits n 16 12) })
  | 0x228 => s.modRst (fun r => { r with log := ringW1c n r.log })
  | 0x230 => if bit n 0 then s.modRst (fun r => { r with log := r.log.pop }) else s
  | _ => s

def writeEngine (o n : Nat) (s : State) : State :=
  if 0x1000 ≤ o ∧ o < 0x2000 then writeCtx ((o - 0x1000) / 0x40) (o % 0x40) n s
  else if 0xA00 ≤ o ∧ o < 0xC00 then
    unlessExec ((o - 0xA00) / 8) (fun x => { x with spillBase := bits n 21 21 * 2 ^ 21 }) s
  else if 0xC00 ≤ o ∧ o < 0xE00 then unlessExec ((o - 0xC00) / 8) (fun x => { x with spillPages := bits n 0 15 }) s
  else if 0xE00 ≤ o ∧ o < 0x1000 then unlessExec ((o - 0xE00) / 8) (spillUsedWrite (bits n 6 31)) s
  else match o with
    | 0x008 => berthCmd (bits n 28 2) (bits n 10 6) (bits n 0 9) (bits n 16 10) s
    | 0x018 => { s with berthQuery := bits n 0 9 }
    | 0x028 => { s with defCrewMw := bits n 0 16, passUs := clampNat 1 1000 (bits n 16 16) }
    | _ => s

/-- A write of partition p's registers (02 R101, R102). -/
def writePart (p o n : Nat) (s : State) : State :=
  match o with
  | 0x000 => s.modPart p (fun x => { x with tileSel := Nat.min 575 (bits n 0 10) })
  | 0x020 => s.modPart p (fun x => { x with faults := ringW1c n x.faults })
  | 0x028 => if bit n 0 then s.modPart p (fun x => { x with faults := x.faults.pop }) else s
  | _ => s

/-- The Umpire's registers: a value outside its range stores the nearer bound (10 R435). -/
def writeUmpire (o n : Nat) (s : State) : State :=
  match o with
  | 0x000 => s.modUmp (fun u => { u with trials := bit n 0, pair := bit n 1, spareWarn := Nat.min 128 (bits n 8 8) })
  | 0x008 => s.modUmp (fun u => { u with
      trialS := clampNat 10 3600 (bits n 0 16), marginS := clampNat 60 65535 (bits n 16 16)
      suspectS := clampNat 1 300 (bits n 32 16) })
  | 0x010 => s.modUmp (fun u => { u with
      interval := bits n 0 16, pinLimitS := Nat.min 300 (bits n 16 9), ceLimit := clampNat 1 65535 (bits n 32 16)
      clean := clampNat 1 255 (bits n 48 8), qsweeps := clampNat 1 255 (bits n 56 8) })
  | 0x018 => s.modUmp (fun u => { u with checkCtx := BitVec.ofNat 64 n })
  | 0x030 => umpCmd (bits n 16 2) (bits n 0 13) s
  | 0x040 => s.modUmp (fun u => { u with tileSel := Nat.min 4607 (bits n 0 13) })
  | 0x200 => s.modUmp (fun u => { u with log := ringW1c n u.log })
  | 0x208 => if bit n 0 then s.modUmp (fun u => { u with log := u.log.pop }) else s
  | _ => s

/-- The power and thermal registers (09 Table 9-6). -/
def writePower (o n : Nat) (s : State) : State :=
  if 0x100 ≤ o ∧ o < 0x180 then
    if o % 0x10 = 0 then s.modPart ((o - 0x100) / 0x10) (fun x => { x with cap := bits n 8 4 }) else s
  else match o with
    | 0x000 => s.modPwr (fun w => { w with
        limitW := clampNat 100 1050 (bits n 0 11), tTarget := clampNat 60 110 (bits n 16 8)
        g := Nat.max 1 (bits n 24 8) })
    | 0x048 => s.modPwr (fun w => { w with thermSel := Nat.min 71 (bits n 0 7) })
    | _ => s

def writeMemory (o n : Nat) (s : State) : State :=
  if 0x800 ≤ o ∧ o < 0xA00 then
    unlessExec ((o - 0x800) / 8) (fun x => { x with bttRoot := bits n 14 25 * 2 ^ 14, bttEn := bit n 0 }) s
  else match o with
    | 0x400 => frameCmd (bits n 24 3) (bits n 0 18) (bits n 32 6) s
    | 0x418 => bttWrite (BitVec.ofNat 64 n) s
    | _ => s

/-- PORT_CMD (07 Table 7-9). -/
def portCmd (n op : Nat) (s : State) : State :=
  match op with
  | 1 => portTrain n s
  | 2 => portDown n s
  | _ => s

def writeFabric (o n : Nat) (s : State) : State :=
  if 0x100 ≤ o ∧ o < 0x280 then
    if o % 0x20 = 0x18 then portCmd ((o - 0x100) / 0x20) (bits n 0 2) s else s
  else match o with
    | 0x000 => fabCfgWrite (BitVec.ofNat 64 n) s
    | 0x010 => s.modFab (fun f => { f with combEn := bit n 0, holdNs := Nat.min 2000 (bits n 16 11) })
    | 0x018 => easyallSend (BitVec.ofNat 32 n) s
    | _ => s

def writeStroke (o n : Nat) (s : State) : State :=
  if 0x100 ≤ o ∧ o < 0x300 then
    unlessExec ((o - 0x100) / 8) (fun x => { x with wakeEn := bit n 0, wakeBase := bits n 16 26 * 2 ^ 16 }) s
  else s

/-- FW_CMD. Whether the flash write of a command taken here fails three times is free (12 R498, log 34). -/
def writeBoot (o n : Nat) (s : State) : State :=
  if o = 0x020 then
    let (f, s) := s.freeBelow 2
    fwCmd (bits n 0 3) (BitVec.ofNat 32 (n / 2 ^ 32)) (decide (f = 0)) s
  else s

def writeHost (o n : Nat) (s : State) : State :=
  match o with
  | 0x008 => s.modHost (fun h => { h with bar2 := bits n 30 9 })
  | 0x010 => evtCfgWrite n s
  | 0x018 => evtHeadWrite n s
  | _ => s

/-! ### BAR0 and BAR4 -/

/-- An aligned 64-bit write at BAR0 offset a; an unassigned offset has no effect (00 R20, 15 R584). -/
def writeReg (a n : Nat) (s : State) : State :=
  let o := a % 0x10000
  match a / 0x10000 with
  | 0 => writeDevice o n s
  | 1 => writeEngine o n s
  | 2 => if o < 0x8000 then writePart (o / 0x1000) (o % 0x1000) n s else s
  | 4 => writeUmpire o n s
  | 5 => writePower o n s
  | 6 => writeMemory o n s
  | 7 => writeFabric o n s
  | 8 => writeStroke o n s
  | 9 => writeBoot o n s
  | 10 => writeHost o n s
  | _ => s

/-- A write in a doorbell page (06 R237). -/
def writeBell (a width n : Nat) (s : State) : State :=
  if 64 ≤ a / 4096 then s
  else match a % 4096 with
    | 0x000 => doorbell (a / 4096) true width (BitVec.ofNat 64 n) s
    | 0x008 => doorbell (a / 4096) false width (BitVec.ofNat 64 n) s
    | _ => s

/-- A host write of `width` bytes at an offset: BAR0 takes only aligned 64-bit writes (00 R21). -/
def hostRegWrite (bar : Bar) (off width : Nat) (v : BitVec 64) (s : State) : State :=
  if !s.alive then s
  else if s.host.d3hot then s.modHost (fun h => { h with aerUr := true })
  else match bar with
    | .bar0 => if width = 8 ∧ off % 8 = 0 then writeReg off v.toNat s else s
    | .bar4 => writeBell off width v.toNat s

/-- REG_WRITE: a host write of a register stores its fields (00 R18). -/
def execRegWrite (bar : Bar) (off : Nat) (width : Nat) (v : BitVec 64) (s : State) : Host.Outcome State Fault Refusal :=
  .next (hostRegWrite bar off width v s)

/-- EVT_RING_ENABLE: a write of EVT_CFG, whose EN from 0 to 1 resets the ring's indices (13 R529). -/
def execEvtRingEnable (v : BitVec 64) (s : State) : Host.Outcome State Fault Refusal :=
  .next (if s.alive then evtCfgWrite v.toNat s else s)

end Sys2Proof.Machine
end

