-- ==== Sys2Proof/Machine/Scalar.lean ====
section
/-!
DEFINITION. The S-format instructions: scalar operations, compares and predicate logic (03 R117, Table 3-3).
-/

namespace Sys2Proof.Machine

/-- High 32 bits of the signed 64-bit product (03 Table 3-3). -/
def mulHigh (a b : Word) : Word := BitVec.ofInt 32 (a.toInt * b.toInt / 2 ^ 32)

/-- High 32 bits of the unsigned 64-bit product. -/
def mulHighU (a b : Word) : Word := BitVec.ofNat 32 (a.toNat * b.toNat / 2 ^ 32)

/-- Leading zeros of a word, 0 to 32. -/
def leadingZeros (a : Word) : Word := if a = 0#32 then 32#32 else BitVec.ofNat 32 (31 - a.toNat.log2)

/-- Set bits of a word. -/
def setBits (a : Word) : Word :=
  BitVec.ofNat 32 ((List.range 32).filter (fun i => a.getLsbD i)).length

/-- s[rd] from one s register. -/
def uOp (f : Word → Word) : Body :=
  regOp 1 1 (fun w => [rcS (wRd w)]) (fun w x => x.setS (wRd w) (f (x.sreg (wRs1 w))))

/-- Shift amount s[rs2][4:0] (03 Table 3-3). -/
def amount (b : Word) : Nat := b.toNat % 32

/-- ADD: scalar add of s[rs1] and s[rs2] into s[rd], wrapping modulo 2^32 (R117). -/
def execAdd (t : TileIx) (s : State) : Host.Outcome State Fault Refusal :=
  .next (issue t.val .add (sOp 1 (fun a b => a + b)) s)

/-- SUB: scalar subtract of s[rs2] from s[rs1] into s[rd] (R117). -/
def execSub (t : TileIx) (s : State) : Host.Outcome State Fault Refusal :=
  .next (issue t.val .sub (sOp 1 (fun a b => a - b)) s)

/-- AND: bitwise AND of two s registers (R117). -/
def execAnd (t : TileIx) (s : State) : Host.Outcome State Fault Refusal :=
  .next (issue t.val .and (sOp 1 (fun a b => a &&& b)) s)

/-- OR: bitwise OR of two s registers (R117). -/
def execOr (t : TileIx) (s : State) : Host.Outcome State Fault Refusal :=
  .next (issue t.val .or (sOp 1 (fun a b => a ||| b)) s)

/-- XOR: bitwise XOR of two s registers (R117). -/
def execXor (t : TileIx) (s : State) : Host.Outcome State Fault Refusal :=
  .next (issue t.val .xor (sOp 1 (fun a b => a ^^^ b)) s)

/-- SLL: logical left shift of s[rs1] by s[rs2][4:0] (R117). -/
def execSll (t : TileIx) (s : State) : Host.Outcome State Fault Refusal :=
  .next (issue t.val .sll (sOp 1 (fun a b => a <<< amount b)) s)

/-- SRL: logical right shift of s[rs1] by s[rs2][4:0] (R117). -/
def execSrl (t : TileIx) (s : State) : Host.Outcome State Fault Refusal :=
  .next (issue t.val .srl (sOp 1 (fun a b => a >>> amount b)) s)

/-- SRA: arithmetic right shift of s[rs1] by s[rs2][4:0], copying the sign bit (R117). -/
def execSra (t : TileIx) (s : State) : Host.Outcome State Fault Refusal :=
  .next (issue t.val .sra (sOp 1 (fun a b => a.sshiftRight (amount b))) s)

/-- MUL: low 32 bits of the product of two s registers (R117). -/
def execMul (t : TileIx) (s : State) : Host.Outcome State Fault Refusal :=
  .next (issue t.val .mul (sOp 3 (fun a b => a * b)) s)

/-- MULH: high 32 bits of the signed 64-bit product (R117). -/
def execMulh (t : TileIx) (s : State) : Host.Outcome State Fault Refusal :=
  .next (issue t.val .mulh (sOp 3 mulHigh) s)

/-- MULHU: high 32 bits of the unsigned 64-bit product (R117). -/
def execMulhu (t : TileIx) (s : State) : Host.Outcome State Fault Refusal :=
  .next (issue t.val .mulhu (sOp 3 mulHighU) s)

/-- MIN: signed minimum of two s registers (R117). -/
def execMin (t : TileIx) (s : State) : Host.Outcome State Fault Refusal :=
  .next (issue t.val .min (sOp 1 (fun a b => if a.slt b then a else b)) s)

/-- MAX: signed maximum of two s registers (R117). -/
def execMax (t : TileIx) (s : State) : Host.Outcome State Fault Refusal :=
  .next (issue t.val .max (sOp 1 (fun a b => if a.slt b then b else a)) s)

/-- MINU: unsigned minimum of two s registers (R117). -/
def execMinu (t : TileIx) (s : State) : Host.Outcome State Fault Refusal :=
  .next (issue t.val .minu (sOp 1 (fun a b => if a.ult b then a else b)) s)

/-- MAXU: unsigned maximum of two s registers (R117). -/
def execMaxu (t : TileIx) (s : State) : Host.Outcome State Fault Refusal :=
  .next (issue t.val .maxu (sOp 1 (fun a b => if a.ult b then b else a)) s)

/-- CLZ: count of leading zeros of s[rs1] (R117). -/
def execClz (t : TileIx) (s : State) : Host.Outcome State Fault Refusal :=
  .next (issue t.val .clz (uOp leadingZeros) s)

/-- POPC: count of set bits of s[rs1] (R117). -/
def execPopc (t : TileIx) (s : State) : Host.Outcome State Fault Refusal :=
  .next (issue t.val .popc (uOp setBits) s)

/-- CEQ: sets p[rd] when two s registers are equal (R117). -/
def execCeq (t : TileIx) (s : State) : Host.Outcome State Fault Refusal :=
  .next (issue t.val .ceq (cmpOp (fun a b => a == b)) s)

/-- CNE: sets p[rd] when two s registers differ (R117). -/
def execCne (t : TileIx) (s : State) : Host.Outcome State Fault Refusal :=
  .next (issue t.val .cne (cmpOp (fun a b => a != b)) s)

/-- CLT: sets p[rd] on signed less-than (R117). -/
def execClt (t : TileIx) (s : State) : Host.Outcome State Fault Refusal :=
  .next (issue t.val .clt (cmpOp (fun a b => a.slt b)) s)

/-- CLTU: sets p[rd] on unsigned less-than (R117). -/
def execCltu (t : TileIx) (s : State) : Host.Outcome State Fault Refusal :=
  .next (issue t.val .cltu (cmpOp (fun a b => a.ult b)) s)

/-- CGE: sets p[rd] on signed greater-or-equal (R117). -/
def execCge (t : TileIx) (s : State) : Host.Outcome State Fault Refusal :=
  .next (issue t.val .cge (cmpOp (fun a b => !a.slt b)) s)

/-- CGEU: sets p[rd] on unsigned greater-or-equal (R117). -/
def execCgeu (t : TileIx) (s : State) : Host.Outcome State Fault Refusal :=
  .next (issue t.val .cgeu (cmpOp (fun a b => !a.ult b)) s)

/-- FLT: FP32 less-than compare into p[rd]; a NaN gives false and sets INV (R117). -/
def execFlt (t : TileIx) (s : State) : Host.Outcome State Fault Refusal :=
  .next (issue t.val .flt (fcmpOp fpLt) s)

/-- FEQ: FP32 equality compare into p[rd]; only a signalling NaN sets INV (R117). -/
def execFeq (t : TileIx) (s : State) : Host.Outcome State Fault Refusal :=
  .next (issue t.val .feq (fcmpOp fpEq) s)

/-- PAND: predicate AND (R117). -/
def execPand (t : TileIx) (s : State) : Host.Outcome State Fault Refusal :=
  .next (issue t.val .pand (pOp (fun a b => a && b)) s)

/-- POR: predicate OR (R117). -/
def execPor (t : TileIx) (s : State) : Host.Outcome State Fault Refusal :=
  .next (issue t.val .por (pOp (fun a b => a || b)) s)

/-- PXOR: predicate XOR (R117). -/
def execPxor (t : TileIx) (s : State) : Host.Outcome State Fault Refusal :=
  .next (issue t.val .pxor (pOp (fun a b => a ^^ b)) s)

/-- PANDN: predicate AND-NOT (R117). -/
def execPandn (t : TileIx) (s : State) : Host.Outcome State Fault Refusal :=
  .next (issue t.val .pandn (pOp (fun a b => a && !b)) s)

end Sys2Proof.Machine
end

