-- ==== Sys2Proof/Machine/Dispatch.lean ====
section
/-!
DEFINITION. exec: one arm per command, each a direct call of the command's meaning (block form: the effect on
everything but the queue).
-/

namespace Sys2Proof.Machine

def exec (i : Instr) (s : State) : Host.Outcome State Fault Refusal :=
  match i with
  | .add t => Sys2Proof.Machine.execAdd t s
  | .sub t => Sys2Proof.Machine.execSub t s
  | .and t => Sys2Proof.Machine.execAnd t s
  | .or t => Sys2Proof.Machine.execOr t s
  | .xor t => Sys2Proof.Machine.execXor t s
  | .sll t => Sys2Proof.Machine.execSll t s
  | .srl t => Sys2Proof.Machine.execSrl t s
  | .sra t => Sys2Proof.Machine.execSra t s
  | .mul t => Sys2Proof.Machine.execMul t s
  | .mulh t => Sys2Proof.Machine.execMulh t s
  | .mulhu t => Sys2Proof.Machine.execMulhu t s
  | .min t => Sys2Proof.Machine.execMin t s
  | .max t => Sys2Proof.Machine.execMax t s
  | .minu t => Sys2Proof.Machine.execMinu t s
  | .maxu t => Sys2Proof.Machine.execMaxu t s
  | .clz t => Sys2Proof.Machine.execClz t s
  | .popc t => Sys2Proof.Machine.execPopc t s
  | .ceq t => Sys2Proof.Machine.execCeq t s
  | .cne t => Sys2Proof.Machine.execCne t s
  | .clt t => Sys2Proof.Machine.execClt t s
  | .cltu t => Sys2Proof.Machine.execCltu t s
  | .cge t => Sys2Proof.Machine.execCge t s
  | .cgeu t => Sys2Proof.Machine.execCgeu t s
  | .flt t => Sys2Proof.Machine.execFlt t s
  | .feq t => Sys2Proof.Machine.execFeq t s
  | .pand t => Sys2Proof.Machine.execPand t s
  | .por t => Sys2Proof.Machine.execPor t s
  | .pxor t => Sys2Proof.Machine.execPxor t s
  | .pandn t => Sys2Proof.Machine.execPandn t s
  | .addi t => Sys2Proof.Machine.execAddi t s
  | .andi t => Sys2Proof.Machine.execAndi t s
  | .ori t => Sys2Proof.Machine.execOri t s
  | .xori t => Sys2Proof.Machine.execXori t s
  | .shi t => Sys2Proof.Machine.execShi t s
  | .lui t => Sys2Proof.Machine.execLui t s
  | .llo t => Sys2Proof.Machine.execLlo t s
  | .lb t => Sys2Proof.Machine.execLb t s
  | .lbu t => Sys2Proof.Machine.execLbu t s
  | .lh t => Sys2Proof.Machine.execLh t s
  | .lhu t => Sys2Proof.Machine.execLhu t s
  | .lw t => Sys2Proof.Machine.execLw t s
  | .vld8 t => Sys2Proof.Machine.execVld8 t s
  | .vld t => Sys2Proof.Machine.execVld t s
  | .sb t => Sys2Proof.Machine.execSb t s
  | .sh t => Sys2Proof.Machine.execSh t s
  | .sw t => Sys2Proof.Machine.execSw t s
  | .vst8 t => Sys2Proof.Machine.execVst8 t s
  | .vst t => Sys2Proof.Machine.execVst t s
  | .br t => Sys2Proof.Machine.execBr t s
  | .call t => Sys2Proof.Machine.execCall t s
  | .jr t => Sys2Proof.Machine.execJr t s
  | .loop t => Sys2Proof.Machine.execLoop t s
  | .vadd t => Sys2Proof.Machine.execVadd t s
  | .vsub t => Sys2Proof.Machine.execVsub t s
  | .vmul t => Sys2Proof.Machine.execVmul t s
  | .vfma t => Sys2Proof.Machine.execVfma t s
  | .vmin t => Sys2Proof.Machine.execVmin t s
  | .vmax t => Sys2Proof.Machine.execVmax t s
  | .vdiv t => Sys2Proof.Machine.execVdiv t s
  | .vsqrt t => Sys2Proof.Machine.execVsqrt t s
  | .vexp2 t => Sys2Proof.Machine.execVexp2 t s
  | .vlog2 t => Sys2Proof.Machine.execVlog2 t s
  | .vabs t => Sys2Proof.Machine.execVabs t s
  | .vneg t => Sys2Proof.Machine.execVneg t s
  | .vsum t => Sys2Proof.Machine.execVsum t s
  | .vmaxh t => Sys2Proof.Machine.execVmaxh t s
  | .vsplat t => Sys2Proof.Machine.execVsplat t s
  | .vget t => Sys2Proof.Machine.execVget t s
  | .vset t => Sys2Proof.Machine.execVset t s
  | .vcvtif t => Sys2Proof.Machine.execVcvtif t s
  | .vcvtfi t => Sys2Proof.Machine.execVcvtfi t s
  | .vpk8 t => Sys2Proof.Machine.execVpk8 t s
  | .vunpk8 t => Sys2Proof.Machine.execVunpk8 t s
  | .vpkbf t => Sys2Proof.Machine.execVpkbf t s
  | .aget t => Sys2Proof.Machine.execAget t s
  | .aput t => Sys2Proof.Machine.execAput t s
  | .vmov t => Sys2Proof.Machine.execVmov t s
  | .vunpkbf t => Sys2Proof.Machine.execVunpkbf t s
  | .mma t => Sys2Proof.Machine.execMma t s
  | .mmaz t => Sys2Proof.Machine.execMmaz t s
  | .aclr t => Sys2Proof.Machine.execAclr t s
  | .mmaComplete t => Sys2Proof.Machine.execMmaComplete t s
  | .swalk t => Sys2Proof.Machine.execSwalk t s
  | .nzmap t => Sys2Proof.Machine.execNzmap t s
  | .ecfg t => Sys2Proof.Machine.execEcfg t s
  | .eadd t => Sys2Proof.Machine.execEadd t s
  | .eaddv t => Sys2Proof.Machine.execEaddv t s
  | .espill t => Sys2Proof.Machine.execEspill t s
  | .emerge t => Sys2Proof.Machine.execEmerge t s
  | .ecount t => Sys2Proof.Machine.execEcount t s
  | .stream t => Sys2Proof.Machine.execStream t s
  | .swaitt t => Sys2Proof.Machine.execSwaitt t s
  | .crRead t => Sys2Proof.Machine.execCrRead t s
  | .crWrite t => Sys2Proof.Machine.execCrWrite t s
  | .cbar t => Sys2Proof.Machine.execCbar t s
  | .lbar t => Sys2Proof.Machine.execLbar t s
  | .fence t => Sys2Proof.Machine.execFence t s
  | .barrierComplete t => Sys2Proof.Machine.execBarrierComplete t s
  | .waits t => Sys2Proof.Machine.execWaits t s
  | .nop t => Sys2Proof.Machine.execNop t s
  | .halt t => Sys2Proof.Machine.execHalt t s
  | .haltRetire t => Sys2Proof.Machine.execHaltRetire t s
  | .sig t => Sys2Proof.Machine.execSig t s
  | .wake t => Sys2Proof.Machine.execWake t s
  | .rbinit t => Sys2Proof.Machine.execRbinit t s
  | .rbnext t => Sys2Proof.Machine.execRbnext t s
  | .trap t => Sys2Proof.Machine.execTrap t s
  | .streamReply t tag => Sys2Proof.Machine.execStreamReply t tag s
  | .streamTimeout t tag => Sys2Proof.Machine.execStreamTimeout t tag s
  | .syncTimeout t => Sys2Proof.Machine.execSyncTimeout t s
  | .writeAck t what => Sys2Proof.Machine.execWriteAck t what s
  | .spillLineSend t => Sys2Proof.Machine.execSpillLineSend t s
  | .spillLineWrite ix => Sys2Proof.Machine.execSpillLineWrite ix s
  | .codeImageArrive t => Sys2Proof.Machine.execCodeImageArrive t s
  | .tileExecBegin t => Sys2Proof.Machine.execTileExecBegin t s
  | .sqTail c width v => Sys2Proof.Machine.execSqTail c width v s
  | .cqHead c width v => Sys2Proof.Machine.execCqHead c width v s
  | .descriptorFetch c => Sys2Proof.Machine.execDescriptorFetch c s
  | .hostDmaFault c kind => Sys2Proof.Machine.execHostDmaFault c kind s
  | .admissionCheck c => Sys2Proof.Machine.execAdmissionCheck c s
  | .schedulerPass => Sys2Proof.Machine.execSchedulerPass s
  | .weirCmd c => Sys2Proof.Machine.execWeirCmd c s
  | .waitw c => Sys2Proof.Machine.execWaitw c s
  | .runCmd c => Sys2Proof.Machine.execRunCmd c s
  | .waitt c => Sys2Proof.Machine.execWaitt c s
  | .writeCmd c => Sys2Proof.Machine.execWriteCmd c s
  | .stampCmd c => Sys2Proof.Machine.execStampCmd c s
  | .endStream c => Sys2Proof.Machine.execEndStream c s
  | .timeLimit c => Sys2Proof.Machine.execTimeLimit c s
  | .pinExpired c => Sys2Proof.Machine.execPinExpired c s
  | .completionRecordWrite c => Sys2Proof.Machine.execCompletionRecordWrite c s
  | .ctxEnable c v => Sys2Proof.Machine.execCtxEnable c v s
  | .ctxDisable c v => Sys2Proof.Machine.execCtxDisable c v s
  | .resumeCtx c => Sys2Proof.Machine.execResumeCtx c s
  | .flushCtx c => Sys2Proof.Machine.execFlushCtx c s
  | .abortCmd c => Sys2Proof.Machine.execAbortCmd c s
  | .quiesceCheck c stuck => Sys2Proof.Machine.execQuiesceCheck c stuck s
  | .ctxStopped c => Sys2Proof.Machine.execCtxStopped c s
  | .addCrews c g count => Sys2Proof.Machine.execAddCrews c g count s
  | .removeCrews c g count => Sys2Proof.Machine.execRemoveCrews c g count s
  | .clearBerth c => Sys2Proof.Machine.execClearBerth c s
  | .assignOwned frame c => Sys2Proof.Machine.execAssignOwned frame c s
  | .assignSystem frame => Sys2Proof.Machine.execAssignSystem frame s
  | .releaseFrame frame => Sys2Proof.Machine.execReleaseFrame frame s
  | .queryFrame frame => Sys2Proof.Machine.execQueryFrame frame s
  | .bttInval v => Sys2Proof.Machine.execBttInval v s
  | .bttInvalDone => Sys2Proof.Machine.execBttInvalDone s
  | .frameSweepDone c => Sys2Proof.Machine.execFrameSweepDone c s
  | .scrubFrameDone st => Sys2Proof.Machine.execScrubFrameDone st s
  | .weirGather ix => Sys2Proof.Machine.execWeirGather ix s
  | .weirSegsum ix => Sys2Proof.Machine.execWeirSegsum ix s
  | .weirAtomadd ix => Sys2Proof.Machine.execWeirAtomadd ix s
  | .weirFill ix => Sys2Proof.Machine.execWeirFill ix s
  | .weirDescComplete ix => Sys2Proof.Machine.execWeirDescComplete ix s
  | .singleAtomadd ix => Sys2Proof.Machine.execSingleAtomadd ix s
  | .memPresetChange st => Sys2Proof.Machine.execMemPresetChange st s
  | .fabStart v => Sys2Proof.Machine.execFabStart v s
  | .fabPlaced => Sys2Proof.Machine.execFabPlaced s
  | .detectSignal n => Sys2Proof.Machine.execDetectSignal n s
  | .detectTimeout n => Sys2Proof.Machine.execDetectTimeout n s
  | .rateExchange n reach2 => Sys2Proof.Machine.execRateExchange n reach2 s
  | .eqDone n ok => Sys2Proof.Machine.execEqDone n ok s
  | .lanesCheck n mask => Sys2Proof.Machine.execLanesCheck n mask s
  | .ident n who => Sys2Proof.Machine.execIdent n who s
  | .linkRetrain n lockLost => Sys2Proof.Machine.execLinkRetrain n lockLost s
  | .portTrain n => Sys2Proof.Machine.execPortTrain n s
  | .portDown n => Sys2Proof.Machine.execPortDown n s
  | .flitReceive n seq crcOk pkt ack esc => Sys2Proof.Machine.execFlitReceive n seq crcOk pkt ack esc s
  | .nakReceive n seq => Sys2Proof.Machine.execNakReceive n seq s
  | .portReequalise n => Sys2Proof.Machine.execPortReequalise n s
  | .portReeqDone n => Sys2Proof.Machine.execPortReeqDone n s
  | .packetRead ix => Sys2Proof.Machine.execPacketRead ix s
  | .packetWrite ix => Sys2Proof.Machine.execPacketWrite ix s
  | .packetAtomadd ix => Sys2Proof.Machine.execPacketAtomadd ix s
  | .replyData ix => Sys2Proof.Machine.execReplyData ix s
  | .replyAck ix => Sys2Proof.Machine.execReplyAck ix s
  | .replyFault ix => Sys2Proof.Machine.execReplyFault ix s
  | .routePacket ix credits => Sys2Proof.Machine.execRoutePacket ix credits s
  | .unroutable ix => Sys2Proof.Machine.execUnroutable ix s
  | .combinerHoldExpire ix => Sys2Proof.Machine.execCombinerHoldExpire ix s
  | .pendingSlotReply ix => Sys2Proof.Machine.execPendingSlotReply ix s
  | .pendingSlotTimeout slot => Sys2Proof.Machine.execPendingSlotTimeout slot s
  | .easyallSend job => Sys2Proof.Machine.execEasyallSend job s
  | .easyAll ix => Sys2Proof.Machine.execEasyAll ix s
  | .easyallTripleExpire => Sys2Proof.Machine.execEasyallTripleExpire s
  | .strokeMarkerSend n => Sys2Proof.Machine.execStrokeMarkerSend n s
  | .strokeMarkerReceive n m => Sys2Proof.Machine.execStrokeMarkerReceive n m s
  | .strokeHoldover => Sys2Proof.Machine.execStrokeHoldover s
  | .strokeMasterChange => Sys2Proof.Machine.execStrokeMasterChange s
  | .pwrSample currents volts => Sys2Proof.Machine.execPwrSample currents volts s
  | .pwrPublish drops => Sys2Proof.Machine.execPwrPublish drops s
  | .governorPass act other => Sys2Proof.Machine.execGovernorPass act other s
  | .clockPointApply p => Sys2Proof.Machine.execClockPointApply p s
  | .thermSample group raws => Sys2Proof.Machine.execThermSample group raws s
  | .thermtrip p => Sys2Proof.Machine.execThermtrip p s
  | .sweepStart => Sys2Proof.Machine.execSweepStart s
  | .trialComplete ix runs => Sys2Proof.Machine.execTrialComplete ix runs s
  | .pairCheckCompare c => Sys2Proof.Machine.execPairCheckCompare c s
  | .triageVerdict c => Sys2Proof.Machine.execTriageVerdict c s
  | .swap t => Sys2Proof.Machine.execSwap t s
  | .retiredMapWrite ok => Sys2Proof.Machine.execRetiredMapWrite ok s
  | .umpSweep ptile => Sys2Proof.Machine.execUmpSweep ptile s
  | .umpQuarantine ptile => Sys2Proof.Machine.execUmpQuarantine ptile s
  | .umpLogPop => Sys2Proof.Machine.execUmpLogPop s
  | .faultPop p => Sys2Proof.Machine.execFaultPop p s
  | .resetLogPop => Sys2Proof.Machine.execResetLogPop s
  | .clkLoss k => Sys2Proof.Machine.execClkLoss k s
  | .edgeProtocol p => Sys2Proof.Machine.execEdgeProtocol p s
  | .partitionReset p => Sys2Proof.Machine.execPartitionReset p s
  | .partResetDone p clockOk => Sys2Proof.Machine.execPartResetDone p clockOk s
  | .coxRestart => Sys2Proof.Machine.execCoxRestart s
  | .coxHeartbeat core => Sys2Proof.Machine.execCoxHeartbeat core s
  | .coxHang => Sys2Proof.Machine.execCoxHang s
  | .coxRestarted shaOk beats => Sys2Proof.Machine.execCoxRestarted shaOk beats s
  | .deviceReset confirm => Sys2Proof.Machine.execDeviceReset confirm s
  | .powerGood => Sys2Proof.Machine.execPowerGood s
  | .mcodeBroadcast bad bad2 => Sys2Proof.Machine.execMcodeBroadcast bad bad2 s
  | .hbmTrainDone fails => Sys2Proof.Machine.execHbmTrainDone fails s
  | .bootReady => Sys2Proof.Machine.execBootReady s
  | .fwActivate flashOk => Sys2Proof.Machine.execFwActivate flashOk s
  | .fwConfirm flashOk => Sys2Proof.Machine.execFwConfirm flashOk s
  | .abortDownload => Sys2Proof.Machine.execAbortDownload s
  | .fwBroadcast session => Sys2Proof.Machine.execFwBroadcast session s
  | .bootChunkSend => Sys2Proof.Machine.execBootChunkSend s
  | .bootPacket ix => Sys2Proof.Machine.execBootPacket ix s
  | .bootBcastIncomplete => Sys2Proof.Machine.execBootBcastIncomplete s
  | .trialMinute flashOk => Sys2Proof.Machine.execTrialMinute flashOk s
  | .perst => Sys2Proof.Machine.execPerst s
  | .hostDetach why => Sys2Proof.Machine.execHostDetach why s
  | .hostMemRead path addr len => Sys2Proof.Machine.execHostMemRead path addr len s
  | .hostMemWrite path addr data => Sys2Proof.Machine.execHostMemWrite path addr data s
  | .evtRingEnable v => Sys2Proof.Machine.execEvtRingEnable v s
  | .regWrite bar off width v => Sys2Proof.Machine.execRegWrite bar off width v s
  | .getShadow off len => Sys2Proof.Machine.execGetShadow off len s
  | .setPowerLimit watts => Sys2Proof.Machine.execSetPowerLimit watts s
  | .tileQuarantine epoch ptile => Sys2Proof.Machine.execTileQuarantine epoch ptile s
  | .tileSweep epoch ptile => Sys2Proof.Machine.execTileSweep epoch ptile s
  | .shadowPublish whole => Sys2Proof.Machine.execShadowPublish whole s
  | .reconcile => Sys2Proof.Machine.execReconcile s
  | .pldmSensorRead id => Sys2Proof.Machine.execPldmSensorRead id s
  | .pldmEffecterSet id watts => Sys2Proof.Machine.execPldmEffecterSet id watts s
  | .requestUpdate maxTransfer => Sys2Proof.Machine.execRequestUpdate maxTransfer s
  | .updateComponent size => Sys2Proof.Machine.execUpdateComponent size s
  | .firmwareData off data => Sys2Proof.Machine.execFirmwareData off data s
  | .transferComplete => Sys2Proof.Machine.execTransferComplete s
  | .verifyComplete => Sys2Proof.Machine.execVerifyComplete s
  | .applyComplete => Sys2Proof.Machine.execApplyComplete s
  | .activateFirmware flashOk => Sys2Proof.Machine.execActivateFirmware flashOk s
  | .cancelUpdate => Sys2Proof.Machine.execCancelUpdate s
  | .getVersion => Sys2Proof.Machine.execGetVersion s
  | .getCapabilities => Sys2Proof.Machine.execGetCapabilities s
  | .negotiateAlgorithms p384Sha384 => Sys2Proof.Machine.execNegotiateAlgorithms p384Sha384 s
  | .getDigests => Sys2Proof.Machine.execGetDigests s
  | .getCertificate slot off len => Sys2Proof.Machine.execGetCertificate slot off len s
  | .challenge slot nonce => Sys2Proof.Machine.execChallenge slot nonce s
  | .getMeasurements index nonce => Sys2Proof.Machine.execGetMeasurements index nonce s
  | .setEndpointId binding eid => Sys2Proof.Machine.execSetEndpointId binding eid s
  | .dynamicAddressAssign addr => Sys2Proof.Machine.execDynamicAddressAssign addr s
  | .rstdaa => Sys2Proof.Machine.execRstdaa s
  | .inputUv mv watts => Sys2Proof.Machine.execInputUv mv watts s
  | .inputOv mv watts => Sys2Proof.Machine.execInputOv mv watts s
  | .overpower mv watts => Sys2Proof.Machine.execOverpower mv watts s
  | .seqFail mv watts => Sys2Proof.Machine.execSeqFail mv watts s
  | .aclkFail mv watts => Sys2Proof.Machine.execAclkFail mv watts s
  | .phaseOpen mv watts => Sys2Proof.Machine.execPhaseOpen mv watts s
  | .powerOn => Sys2Proof.Machine.execPowerOn s
  | .locate on => Sys2Proof.Machine.execLocate on s
  | .lampTest => Sys2Proof.Machine.execLampTest s
  | .lampPoll => Sys2Proof.Machine.execLampPoll s
  | .lampMeasure lamp ua mv => Sys2Proof.Machine.execLampMeasure lamp ua mv s
  | .trayEnable rack racks => Sys2Proof.Machine.execTrayEnable rack racks s
  | .trayOff => Sys2Proof.Machine.execTrayOff s
  | .shelfLoss => Sys2Proof.Machine.execShelfLoss s
  | .coolantMonitor inlet flow => Sys2Proof.Machine.execCoolantMonitor inlet flow s
  | .rcRead bar off width => Sys2Proof.Machine.execRcRead bar off width s
  | .eddyDrainDone t => Sys2Proof.Machine.execEddyDrainDone t s
  | .strokeTick => Sys2Proof.Machine.execStrokeTick s
  | .hbmRefresh st ch => Sys2Proof.Machine.execHbmRefresh st ch s
  | .stackTemperatureReport st temp => Sys2Proof.Machine.execStackTemperatureReport st temp s
  | .inputRestored rackPresent => Sys2Proof.Machine.execInputRestored rackPresent s
  | .pcieLinkUp speed width flit cxl => Sys2Proof.Machine.execPcieLinkUp speed width flit cxl s
  | .shelfRestored => Sys2Proof.Machine.execShelfRestored s
  | .duty duty flickerFree => Sys2Proof.Machine.execDuty duty flickerFree s
  | .setEventReceiver eid => Sys2Proof.Machine.execSetEventReceiver eid s

end Sys2Proof.Machine
end

