-- ==== Sys2Proof/Safety.lean ====
section
/-!
DEFINITION. The terms in which statements are made: a tile that issues an instruction, a tile's own change, a
memory in canonical form, and the invariants of the machine.
-/

namespace Sys2Proof.Machine

/-! ### Invariants -/

/-- Every byte memory of the machine is in canonical form: HBM, card flash and host memory (log 8, log 9). -/
abbrev MemWf (s : State) : Prop :=
  Tbl.wf 0#8 s.hbm = true ∧ Tbl.wf 0xFF#8 s.flash = true ∧ Tbl.wf 0#8 s.hostMem = true

/-! ### Tiles -/

/-- Tile t issues instruction op, which is the word w at its PC: it runs and waits for nothing, the word reads
without an error, its guard is true, and the microcode that it needs has no error (02 R61, 03 R110 to R113, R122,
R138, 12 R482). -/
abbrev Issues (s : State) (t : Nat) (op : Op) (w : Word) : Prop :=
  mayIssue s (s.tile t) = true ∧
  Tbl.look 0#32 (s.tile t).pc.toNat (s.tile t).imem = w ∧
  Tbl.look EccErr.none (s.tile t).pc.toNat (s.tile t).imemErr = .none ∧
  classify w = some op ∧
  (isB op = true ∨ (s.tile t).preg (wG w) = true) ∧
  raisesCreg op w = false ∧
  (fallsThrough op = true → (s.tile t).pc ≠ 0xFFF#12) ∧
  (usesMicrocode op = true → mcodeErrs s t = [])

/-- Only tile t has changed, and it is y now: no other tile and no other part of the machine. -/
abbrev OnlyTile (s s' : State) (t : Nat) (y : Tile) : Prop :=
  s' = { s with tiles := s'.tiles } ∧ s'.tile t = y ∧ ∀ u, u ≠ t → s'.tile u = s.tile u

/-- Tile y after instruction (op, w) of tile x has retired `cost` cycles after the cycle it issued in, going on at
pc: its cycle count, its PC and the first cycle at which the registers `dest` are usable (02 R61, R70, 03 R145). -/
def retireAt (x : Tile) (op : Op) (w : Word) (cost : Nat) (pc : BitVec 12) (dest : List Nat) (lat : Nat) (y : Tile) :
    Tile :=
  { y with
    cycle := issueAt x op w + cost
    pc := pc
    ready := readyFrom (issueAt x op w + cost - 1 + lat) dest y.ready }

/-- The command c of tile t, issuing op, completes: it retires after `cost` cycles, PC advances by 1, and the tile's
registers become what f makes of the word and the tile before. Nothing else changes. -/
def Completes (c : TileIx → Instr) (op : Op) (cost lat : Nat) (dest : Word → List Nat) (f : Word → Tile → Tile) :
    Prop :=
  ∀ (s : State) (t : TileIx) (w : Word), Issues s t.val op w →
    ∃ s', exec (c t) s = .next s' ∧
      OnlyTile s s' t.val (retireAt (s.tile t.val) op w cost ((s.tile t.val).pc + 1) (dest w) lat (f w (s.tile t.val)))

/-- The number of a finite code is (−1)^neg × m × 2^e. -/
def signed (neg : Bool) (m : Nat) (e : Int) : Rat := (if neg then -1 else 1) * m * (2 : Rat) ^ e

/-- The order of the numbers that codes stand for; a NaN is below nothing, the two zeros are equal (02 R89). -/
def FV.less : FV → FV → Bool
  | .fin n m e, .fin k l f => decide (signed n m e < signed k l f)
  | .inf n, .inf k => n && !k
  | .inf n, .fin _ _ _ => n
  | .fin _ _ _, .inf k => !k
  | _, _ => false

/-- s[rd] := f (s[rs1], s[rs2]). -/
def ScalarResult (c : TileIx → Instr) (op : Op) (lat : Nat) (f : Word → Word → Word) : Prop :=
  Completes c op 1 lat (fun w => [rcS (wRd w)]) (fun w x => x.setS (wRd w) (f (x.sreg (wRs1 w)) (x.sreg (wRs2 w))))

/-- p[rd] := f (s[rs1], s[rs2]). -/
def CompareResult (c : TileIx → Instr) (op : Op) (f : Word → Word → Bool) : Prop :=
  Completes c op 1 1 (fun w => [rcP (wRd w), rcFp])
    (fun w x => x.setP (wRd w) (f (x.sreg (wRs1 w)) (x.sreg (wRs2 w))))

/-- p[rd] := f (p[rs1], p[rs2]). -/
def PredicateResult (c : TileIx → Instr) (op : Op) (f : Bool → Bool → Bool) : Prop :=
  Completes c op 1 1 (fun w => [rcP (wRd w)])
    (fun w x => x.setP (wRd w) (f (x.preg (wRs1 w)) (x.preg (wRs2 w))))

/-- s[rd] := f (word, tile). -/
def WordResult (c : TileIx → Instr) (op : Op) (f : Word → Tile → Word) : Prop :=
  Completes c op 1 1 (fun w => [rcS (wRd w)]) (fun w x => x.setS (wRd w) (f w x))

/-- Lanes 0 to 3 of v[vd] := the four results of f, whose flags are added to FPSTAT (02 R89). -/
def LaneResult (c : TileIx → Instr) (op : Op) (lat : Nat) (f : Word → Tile → Nat → Word × Fl) : Prop :=
  Completes c op 1 lat (fun w => [rcV (wVd w), rcFp])
    (fun w x =>
      { x.setV (wVd w) ((f w x 3).1 ++ (f w x 2).1 ++ (f w x 1).1 ++ (f w x 0).1) with
        fpstat := x.fpstat ||| ((f w x 0).2 ||| (f w x 1).2 ||| (f w x 2).2 ||| (f w x 3).2) })

/-- v[vd] := f (word, tile). -/
def VectorMove (c : TileIx → Instr) (op : Op) (f : Word → Tile → VWord) : Prop :=
  Completes c op 1 1 (fun w => [rcV (wVd w), rcFp]) (fun w x => x.setV (wVd w) (f w x))

/-- The bytes [a, a + n) of data SRAM read without an error and no inbound request writes them (02 R75, R78). -/
abbrev SramClean (x : Tile) (a n : Nat) : Prop :=
  (∀ i, a / 8 ≤ i → i ≤ (a + n - 1) / 8 → Tbl.look EccErr.none i x.sramErr = .none) ∧
  (∀ u, a / 64 ≤ u → u ≤ (a + n - 1) / 64 → unitBusy x u = false)

/-- The bytes [a, a + n) lie in data SRAM, a is a multiple of k, and they read cleanly (02 R72, R73). -/
abbrev SramReads (x : Tile) (k a n : Nat) : Prop := a % k = 0 ∧ a + n ≤ 0x18000 ∧ SramClean x a n

/-- A load of `size` bytes at the effective address: the registers become what f makes of the bytes. -/
def LoadResult (c : TileIx → Instr) (op : Op) (size : Nat) (dest : Word → List Nat)
    (f : Word → List Byte → Tile → Tile) : Prop :=
  ∀ (s : State) (t : TileIx) (w : Word), Issues s t.val op w →
    SramReads (s.tile t.val) size (effAddr (s.tile t.val) w size) size →
    ∃ s', exec (c t) s = .next s' ∧
      OnlyTile s s' t.val (retireAt (s.tile t.val) op w 1 ((s.tile t.val).pc + 1) (dest w) 3
        (f w (bytesAt 0 (s.tile t.val).sram (effAddr (s.tile t.val) w size) size) (s.tile t.val)))

/-- A store of the low `size` bytes of f at the effective address: every byte of data SRAM outside reads as before,
and no register but PC changes. Below 64 bits it first reads its 64-bit word (02 R74). -/
def StoreResult (c : TileIx → Instr) (op : Op) (size : Nat) (f : Word → Tile → Nat) : Prop :=
  ∀ (s : State) (t : TileIx) (w : Word), Issues s t.val op w →
    effAddr (s.tile t.val) w size % size = 0 → effAddr (s.tile t.val) w size + size ≤ 0x18000 →
    (size < 8 → SramClean (s.tile t.val) (effAddr (s.tile t.val) w size / 8 * 8) 8) →
    ∃ s' y, exec (c t) s = .next s' ∧ OnlyTile s s' t.val y ∧
      (∀ a, Tbl.look 0#8 a y.sram =
        if effAddr (s.tile t.val) w size ≤ a ∧ a < effAddr (s.tile t.val) w size + size then
          BitVec.ofNat 8 (f w (s.tile t.val) / 2 ^ (8 * (a - effAddr (s.tile t.val) w size)))
        else Tbl.look 0#8 a (s.tile t.val).sram) ∧
      (∀ i, Tbl.look EccErr.none i y.sramErr =
        if effAddr (s.tile t.val) w size / 8 ≤ i ∧ 8 * i < effAddr (s.tile t.val) w size + size then .none
        else Tbl.look EccErr.none i (s.tile t.val).sramErr) ∧
      y = { retireAt (s.tile t.val) op w 1 ((s.tile t.val).pc + 1) [] 0 (s.tile t.val) with
        sram := y.sram, sramErr := y.sramErr }

/-- A branch: where `cond` holds it goes to `target`, in 2 cycles, and the registers become `yes`; elsewhere it falls
through in 1 cycle and they become `no`. Targets are 0x000 to 0xFFF. -/
def BranchResult (c : TileIx → Instr) (op : Op) (cond : Word → Tile → Bool) (target : Word → Tile → Int)
    (yesDest noDest : Word → List Nat) (yes no : Word → Tile → Tile) : Prop :=
  ∀ (s : State) (t : TileIx) (w : Word), Issues s t.val op w →
    (cond w (s.tile t.val) = true → 0 ≤ target w (s.tile t.val) → target w (s.tile t.val) ≤ 0xFFF →
      ∃ s', exec (c t) s = .next s' ∧ OnlyTile s s' t.val (retireAt (s.tile t.val) op w 2
        (BitVec.ofInt 12 (target w (s.tile t.val))) (yesDest w) 1 (yes w (s.tile t.val)))) ∧
    (cond w (s.tile t.val) = false → (s.tile t.val).pc ≠ 0xFFF#12 →
      ∃ s', exec (c t) s = .next s' ∧ OnlyTile s s' t.val (retireAt (s.tile t.val) op w 1
        ((s.tile t.val).pc + 1) (noDest w) 1 (no w (s.tile t.val))))

/-- A precise trap: its cause (02 Table 2-6), PC, ADDR and DETAIL. -/
def precise (cause : Nat) (pc : BitVec 12) (addr detail : Nat) : Trap :=
  { cause := cause, imprecise := false, pc := pc, addr := addr, detail := detail }

/-- The state in which a precise trap of an instruction that issues is taken: its wait has passed. -/
def waited (s : State) (t : Nat) (op : Op) (w : Word) : State :=
  s.modTile t (fun y => { y with cycle := issueAt (s.tile t) op w })

/-- The commands by which a tile issues an instruction, with the instruction each names; RBNEXT, whose issue can also
let another tile go on, is not among them. -/
def tileCommands : List ((TileIx → Instr) × Op) :=
  ([(.add, .add), (.sub, .sub), (.and, .and), (.or, .or), (.xor, .xor), (.sll, .sll), (.srl, .srl),
    (.sra, .sra), (.mul, .mul), (.mulh, .mulh), (.mulhu, .mulhu), (.min, .min), (.max, .max), (.minu, .minu),
    (.maxu, .maxu), (.clz, .clz), (.popc, .popc), (.ceq, .ceq), (.cne, .cne), (.clt, .clt), (.cltu, .cltu),
    (.cge, .cge), (.cgeu, .cgeu), (.flt, .flt), (.feq, .feq), (.pand, .pand), (.por, .por), (.pxor, .pxor),
    (.pandn, .pandn), (.addi, .addi), (.andi, .andi), (.ori, .ori), (.xori, .xori), (.shi, .shi), (.lui, .lui)] :
    List ((TileIx → Instr) × Op)) ++
  ([(.llo, .llo), (.lb, .lb), (.lbu, .lbu), (.lh, .lh), (.lhu, .lhu), (.lw, .lw), (.vld8, .vld8),
    (.vld, .vld), (.sb, .sb), (.sh, .sh), (.sw, .sw), (.vst8, .vst8), (.vst, .vst), (.br, .br),
    (.call, .call), (.jr, .jr), (.loop, .loop), (.vadd, .vadd), (.vsub, .vsub), (.vmul, .vmul), (.vfma, .vfma),
    (.vmin, .vmin), (.vmax, .vmax), (.vdiv, .vdiv), (.vsqrt, .vsqrt), (.vexp2, .vexp2), (.vlog2, .vlog2), (.vabs, .vabs),
    (.vneg, .vneg), (.vsum, .vsum), (.vmaxh, .vmaxh), (.vsplat, .vsplat), (.vget, .vget), (.vset, .vset), (.vcvtif, .vcvtif)] :
    List ((TileIx → Instr) × Op)) ++
  ([(.vcvtfi, .vcvtfi), (.vpk8, .vpk8), (.vunpk8, .vunpk8), (.vpkbf, .vpkbf), (.aget, .aget), (.aput, .aput), (.vmov, .vmov),
    (.vunpkbf, .vunpkbf), (.mma, .mma), (.mmaz, .mmaz), (.aclr, .aclr), (.swalk, .swalk), (.nzmap, .nzmap), (.ecfg, .ecfg),
    (.eadd, .eadd), (.eaddv, .eaddv), (.espill, .espill), (.emerge, .emerge), (.ecount, .ecount), (.stream, .stream), (.swaitt, .swaitt),
    (.crRead, .crRead), (.crWrite, .crWrite), (.cbar, .cbar), (.lbar, .lbar), (.fence, .fence), (.waits, .waits), (.nop, .nop),
    (.halt, .halt), (.sig, .sig), (.wake, .wake), (.rbinit, .rbinit), (.trap, .trap)] :
    List ((TileIx → Instr) × Op))

/-! ### Scheduler passes -/

/-- State s1, to which a command leads from s, after the scheduler passes that follow where it admitted, refused or
completed launches (06 R261); s1 itself where it did not. -/
def afterPass (s s1 : State) : State := passesFrom (passFuel s1) s.passMark s1

/-! ### Memory and Weir descriptors -/

/-- Physical address of LOCAL address loc in a page that maps to frame f (05 R210). -/
def pageAddr (f loc : Nat) : Nat := f * frameBytes + loc % frameBytes

/-- The page of loc in context c maps to frame f, which the context owns and may read and write, and from another
device too where `remote`: the tables read without a correction and no cache holds a stale entry (05 R205,
R210 to R212). -/
def Mapped (s : State) (c loc f : Nat) (remote : Bool) : Prop :=
  ∃ e : TEntry, loc < 2 ^ 42 ∧ (s.ctx c).bttEn = true ∧ (s.ctx c).bttRoot % 16384 = 0 ∧
    walkTable c (loc / frameBytes) s = (some e, s) ∧ e.frame = f ∧ e.r = true ∧ e.w = true ∧
    (remote = true → e.rmt = true) ∧
    (∀ k, ∀ x ∈ Tbl.look [] k s.tcache, x.ctx = c → x.page = loc / frameBytes → x = e) ∧
    (s.frame f).st = .owned ∧ (s.frame f).owner = c ∧ (s.ctx c).sweep = none

/-- The lines of [pa, pa + n) read without a correction (05 R214). -/
def LinesClean (s : State) (pa n : Nat) : Prop :=
  ∀ l, pa / 64 ≤ l → l ≤ (pa + n - 1) / 64 → Tbl.look LineErr.none l s.lineErr = .none

/-- Weir descriptor i has not been performed, its launch is not being aborted, no stack is in reset, and it reads, in
the page of frame f, as d, which breaks no condition of 05 Table 5-6. -/
def WeirReady (s : State) (i : Nat) (j : WeirJob) (f : Nat) (d : WDesc) : Prop :=
  s.weir[i]? = some j ∧ j.code = none ∧ (s.ctx j.ctx).abort = none ∧ (∀ k, (s.part k).reset = none) ∧
    j.addr % frameBytes + 64 ≤ frameBytes ∧ Mapped s j.ctx j.addr f false ∧ LinesClean s (pageAddr f j.addr) 64 ∧
    parseWeir (bytesAt 0 s.hbm (pageAddr f j.addr) 64) = d ∧ weirOk d = true

/-- A Weir command leaves descriptor i with code OK, memory outside [pa, pa + n) as it was, and every tile and frame
as it was. -/
def WeirWrote (s s' : State) (i : Nat) (j : WeirJob) (pa n : Nat) : Prop :=
  s'.weir = listSet s.weir i { j with code := some 0, fadr := 0 } ∧ s'.tiles = s.tiles ∧ s'.frames = s.frames ∧
    (∀ a, a < pa ∨ pa + n ≤ a → Tbl.look 0#8 a s'.hbm = Tbl.look 0#8 a s.hbm)

/-- The FP32 word at a physical address. -/
def wordAt (s : State) (pa : Nat) : Word := BitVec.ofNat 32 (leNat (bytesAt 0 s.hbm pa 4))

/-! ### Ports -/

/-- Only port n has changed, and it is y now: no other port and no other part of the machine. -/
def OnlyPort (s s' : State) (n : Nat) (y : Port) : Prop :=
  s' = { s with fab := { s.fab with ports := s'.fab.ports } } ∧ s'.port n = y ∧ ∀ m, m ≠ n → s'.port m = s.port m

/-- A training attempt of port n ends with a reason, x being the port: another attempt begins, or after the third the
port goes DOWN (07 Table 7-3). -/
def AttemptEnds (s s' : State) (n reason : Nat) (x : Port) : Prop :=
  (x.attempts < 3 → OnlyPort s s' n { x with
    downReason := reason, attempts := x.attempts + 1, st := .detect, since := s.now, reeq := none }) ∧
  (3 ≤ x.attempts → (s'.port n).st = .down ∧ (s'.port n).downReason = reason ∧ (s'.port n).replay = [] ∧
    ((∀ q ∈ x.replay.filterMap (·.pkt) ++ x.ctlq, q.ptype ≠ .easyAll ∧ q.ptype ≠ .boot) →
      ∀ m, m ≠ n → s'.port m = s.port m))

end Sys2Proof.Machine
end

