-- ==== Sys2Proof/Certificates/Slice0/Obligations.lean ====
section
/-!
DEFINITION. The statements for the provers, from the specification's numbered rules. Each docstring cites the rules it
rests on; a statement of a tile instruction gives the whole next state, so it is also that instruction's frame.
-/

open Sys2Proof Sys2Proof.Machine

/-! ### Tile instructions (02, 03) -/

/-- 03 R117: results of the scalar operations of Table 3-3; s0 stays as Tile.setS has it.

03 R117: the integer compares write p[rd]; the predicate operations of Table 3-3 combine p registers.

03 R117 Table 3-3, FLT and FEQ: false where either operand is a NaN; the order of infinities and signs of zero; FLT
sets INV on any NaN, FEQ on a signalling one only. FV.less is the order of the numbers the codes stand for. -/
def Obligations.ScalarResults : Prop :=
  (
  ScalarResult .add .add 1 (fun a b => a + b) ∧
  ScalarResult .sub .sub 1 (fun a b => a - b) ∧
  ScalarResult .and .and 1 (fun a b => a &&& b) ∧
  ScalarResult .or .or 1 (fun a b => a ||| b) ∧
  ScalarResult .xor .xor 1 (fun a b => a ^^^ b) ∧
  ScalarResult .sll .sll 1 (fun a b => a <<< (b.extractLsb' 0 5).toNat) ∧
  ScalarResult .srl .srl 1 (fun a b => a >>> (b.extractLsb' 0 5).toNat) ∧
  ScalarResult .sra .sra 1 (fun a b => a.sshiftRight (b.extractLsb' 0 5).toNat) ∧
  ScalarResult .mul .mul 3 (fun a b => (a.setWidth 64 * b.setWidth 64).extractLsb' 0 32) ∧
  ScalarResult .mulh .mulh 3 (fun a b => (a.signExtend 64 * b.signExtend 64).extractLsb' 32 32) ∧
  ScalarResult .mulhu .mulhu 3 (fun a b => (a.setWidth 64 * b.setWidth 64).extractLsb' 32 32) ∧
  ScalarResult .min .min 1 (fun a b => if a.toInt ≤ b.toInt then a else b) ∧
  ScalarResult .max .max 1 (fun a b => if a.toInt ≤ b.toInt then b else a) ∧
  ScalarResult .minu .minu 1 (fun a b => if a.toNat ≤ b.toNat then a else b) ∧
  ScalarResult .maxu .maxu 1 (fun a b => if a.toNat ≤ b.toNat then b else a) ∧
  ScalarResult .clz .clz 1 (fun a _ => BitVec.ofNat 32 (32 - bitLen a.toNat)) ∧
  ScalarResult .popc .popc 1 (fun a _ => BitVec.ofNat 32 ((List.range 32).countP (fun i => a.toNat.testBit i)))
  ) ∧
  (
  CompareResult .ceq .ceq (fun a b => decide (a = b)) ∧
  CompareResult .cne .cne (fun a b => decide (a ≠ b)) ∧
  CompareResult .clt .clt (fun a b => decide (a.toInt < b.toInt)) ∧
  CompareResult .cltu .cltu (fun a b => decide (a.toNat < b.toNat)) ∧
  CompareResult .cge .cge (fun a b => decide (b.toInt ≤ a.toInt)) ∧
  CompareResult .cgeu .cgeu (fun a b => decide (b.toNat ≤ a.toNat)) ∧
  PredicateResult .pand .pand (fun a b => a && b) ∧
  PredicateResult .por .por (fun a b => a || b) ∧
  PredicateResult .pxor .pxor (fun a b => decide (a ≠ b)) ∧
  PredicateResult .pandn .pandn (fun a b => a && !b)
  ) ∧
  (
  Completes .flt .flt 1 1 (fun w => [rcP (wRd w), rcFp]) (fun w x =>
    let a := dec32 (x.sreg (wRs1 w))
    let b := dec32 (x.sreg (wRs2 w))
    { x.setP (wRd w) (a.less b) with fpstat := x.fpstat ||| (if a.isNaN || b.isNaN then 1#6 else 0#6) }) ∧
  Completes .feq .feq 1 1 (fun w => [rcP (wRd w), rcFp]) (fun w x =>
    let a := dec32 (x.sreg (wRs1 w))
    let b := dec32 (x.sreg (wRs2 w))
    { x.setP (wRd w) (!a.isNaN && !b.isNaN && !a.less b && !b.less a) with
      fpstat := x.fpstat ||| (if a.isSNaN || b.isSNaN then 1#6 else 0#6) })
  )

/-- 03 R118: results of the immediate operations of Table 3-4. -/
def Obligations.ImmediateResults : Prop :=
  WordResult .addi .addi (fun w x => x.sreg (wRs1 w) + (w.extractLsb' 0 13).signExtend 32) ∧
  WordResult .andi .andi (fun w x => x.sreg (wRs1 w) &&& (w.extractLsb' 0 13).setWidth 32) ∧
  WordResult .ori .ori (fun w x => x.sreg (wRs1 w) ||| (w.extractLsb' 0 13).setWidth 32) ∧
  WordResult .xori .xori (fun w x => x.sreg (wRs1 w) ^^^ (w.extractLsb' 0 13).setWidth 32) ∧
  WordResult .shi .shi (fun w x =>
    if w.extractLsb' 5 2 = 0#2 then x.sreg (wRs1 w) <<< (w.extractLsb' 0 5).toNat
    else if w.extractLsb' 5 2 = 1#2 then x.sreg (wRs1 w) >>> (w.extractLsb' 0 5).toNat
    else (x.sreg (wRs1 w)).sshiftRight (w.extractLsb' 0 5).toNat) ∧
  WordResult .lui .lui (fun w _ => w.extractLsb' 0 18 ++ 0#14) ∧
  WordResult .llo .llo (fun w x => (x.sreg (wRd w)).extractLsb' 14 18 ++ w.extractLsb' 0 14)

/-- 03 R119, R120: results of the loads of Table 3-5, at s[rs1] + sext(off10) × size. -/
def Obligations.LoadResults : Prop :=
  LoadResult .lb .lb 1 (fun w => [rcS (wRd w)])
    (fun w bs x => x.setS (wRd w) ((BitVec.ofNat 8 (leNat bs)).signExtend 32)) ∧
  LoadResult .lbu .lbu 1 (fun w => [rcS (wRd w)])
    (fun w bs x => x.setS (wRd w) ((BitVec.ofNat 8 (leNat bs)).setWidth 32)) ∧
  LoadResult .lh .lh 2 (fun w => [rcS (wRd w)])
    (fun w bs x => x.setS (wRd w) ((BitVec.ofNat 16 (leNat bs)).signExtend 32)) ∧
  LoadResult .lhu .lhu 2 (fun w => [rcS (wRd w)])
    (fun w bs x => x.setS (wRd w) ((BitVec.ofNat 16 (leNat bs)).setWidth 32)) ∧
  LoadResult .lw .lw 4 (fun w => [rcS (wRd w)]) (fun w bs x => x.setS (wRd w) (BitVec.ofNat 32 (leNat bs))) ∧
  LoadResult .vld8 .vld8 8 (fun w => [rcV (wRd w)])
    (fun w bs x => x.setV (wRd w) (0#64 ++ BitVec.ofNat 64 (leNat bs))) ∧
  LoadResult .vld .vld 16 (fun w => [rcV (wRd w)]) (fun w bs x => x.setV (wRd w) (BitVec.ofNat 128 (leNat bs)))

/-- 03 R119, R120: what the stores of Table 3-5 write, and that every other byte of data SRAM and every register but
PC stays. -/
def Obligations.StoreResults : Prop :=
  StoreResult .sb .sb 1 (fun w x => (x.sreg (wRd w)).toNat) ∧
  StoreResult .sh .sh 2 (fun w x => (x.sreg (wRd w)).toNat) ∧
  StoreResult .sw .sw 4 (fun w x => (x.sreg (wRd w)).toNat) ∧
  StoreResult .vst8 .vst8 8 (fun w x => (x.vreg (wRd w)).toNat) ∧
  StoreResult .vst .vst 16 (fun w x => (x.vreg (wRd w)).toNat)

/-- 02 R72, R73, 03 R115: an access that is not a multiple of its size raises ALIGN with its address; one that is, and
reaches beyond 0x1_7FFF, raises SRAM_RANGE. Both are precise: the state is the one before with the tile stopped.

03 R122: a taken branch to a target outside 0x000 to 0xFFF raises PC_OVERRUN; so does an untaken one at 0xFFF, with
target 0x1000. A LOOP has then not decremented its register. -/
def Obligations.AddressAndBranchTraps : Prop :=
  (
  let wide : List ((TileIx → Instr) × Op × Nat) := [(.lh, .lh, 2), (.lhu, .lhu, 2), (.lw, .lw, 4), (.vld8, .vld8, 8),
    (.vld, .vld, 16), (.sh, .sh, 2), (.sw, .sw, 4), (.vst8, .vst8, 8), (.vst, .vst, 16)]
  let byte : List ((TileIx → Instr) × Op × Nat) := [(.lb, .lb, 1), (.lbu, .lbu, 1), (.sb, .sb, 1)]
  (∀ p ∈ wide, ∀ (s : State) (t : TileIx) (w : Word), Issues s t.val p.2.1 w →
    effAddr (s.tile t.val) w p.2.2 % p.2.2 ≠ 0 →
    exec (p.1 t) s = .next (trapTile t.val (precise 0x05 (s.tile t.val).pc (effAddr (s.tile t.val) w p.2.2) 0)
      (waited s t.val p.2.1 w))) ∧
  (∀ p ∈ byte ++ wide, ∀ (s : State) (t : TileIx) (w : Word), Issues s t.val p.2.1 w →
    effAddr (s.tile t.val) w p.2.2 % p.2.2 = 0 → 0x18000 < effAddr (s.tile t.val) w p.2.2 + p.2.2 →
    exec (p.1 t) s = .next (trapTile t.val (precise 0x04 (s.tile t.val).pc (effAddr (s.tile t.val) w p.2.2) 0)
      (waited s t.val p.2.1 w)))
  ) ∧
  (
  ∀ (s : State) (t : TileIx) (w : Word),
    (∀ p ∈ ([(.br, .br), (.call, .call)] : List ((TileIx → Instr) × Op)), Issues s t.val p.2 w →
      ((s.tile t.val).preg (wG w) != w.getLsbD 22) = true →
      ((s.tile t.val).pc.toNat + (w.extractLsb' 0 13).toInt < 0 ∨
        0xFFF < (s.tile t.val).pc.toNat + (w.extractLsb' 0 13).toInt) →
      exec (p.1 t) s = .next (trapTile t.val (precise 0x02 (s.tile t.val).pc ((BitVec.ofInt 32 ((s.tile t.val).pc.toNat + (w.extractLsb' 0 13).toInt)).toNat) 0) (waited s t.val p.2 w))) ∧
    (Issues s t.val .jr w → ((s.tile t.val).preg (wG w) != w.getLsbD 22) = true →
      0xFFF < ((s.tile t.val).sreg (wRs1 w)).toNat →
      exec (.jr t) s = .next (trapTile t.val (precise 0x02 (s.tile t.val).pc (((s.tile t.val).sreg (wRs1 w)).toNat) 0) (waited s t.val .jr w))) ∧
    (∀ p ∈ ([(.br, .br), (.call, .call), (.jr, .jr)] : List ((TileIx → Instr) × Op)), Issues s t.val p.2 w →
      ((s.tile t.val).preg (wG w) != w.getLsbD 22) = false → (s.tile t.val).pc = 0xFFF#12 →
      exec (p.1 t) s = .next (trapTile t.val (precise 0x02 0xFFF#12 0x1000 0) (waited s t.val p.2 w))) ∧
    (Issues s t.val .loop w → (s.tile t.val).sreg (wRs1 w) = 1#32 → (s.tile t.val).pc = 0xFFF#12 →
      exec (.loop t) s = .next (trapTile t.val (precise 0x02 0xFFF#12 0x1000 0) (waited s t.val .loop w)))
  )

/-- 03 R121: the branches of Table 3-6. The condition is p[P] xor N; LOOP's is that the decremented s[rs] is not 0. -/
def Obligations.BranchResults : Prop :=
  BranchResult .br .br (fun w x => x.preg (wG w) != w.getLsbD 22)
    (fun w x => x.pc.toNat + (w.extractLsb' 0 13).toInt) (fun _ => []) (fun _ => []) (fun _ x => x) (fun _ x => x) ∧
  BranchResult .call .call (fun w x => x.preg (wG w) != w.getLsbD 22)
    (fun w x => x.pc.toNat + (w.extractLsb' 0 13).toInt) (fun w => [rcS (wRs1 w)]) (fun _ => [])
    (fun w x => x.setS (wRs1 w) (x.pc.setWidth 32 + 1#32)) (fun _ x => x) ∧
  BranchResult .jr .jr (fun w x => x.preg (wG w) != w.getLsbD 22)
    (fun w x => (x.sreg (wRs1 w)).toNat) (fun _ => []) (fun _ => []) (fun _ x => x) (fun _ x => x) ∧
  BranchResult .loop .loop (fun w x => x.sreg (wRs1 w) != 1#32)
    (fun w x => x.pc.toNat + (w.extractLsb' 0 13).toInt) (fun w => [rcS (wRs1 w)]) (fun w => [rcS (wRs1 w)])
    (fun w x => x.setS (wRs1 w) (x.sreg (wRs1 w) - 1#32)) (fun w x => x.setS (wRs1 w) (x.sreg (wRs1 w) - 1#32))

/-- 03 R113, R111, R122, 02 R75, R76: what the fetch and the guard decide for every tile instruction. A false guard
retires in 1 cycle without effect; an undefined word raises ILLEGAL_OP with the word in ADDR; an uncorrectable word
raises IMEM_UE with the PC and the syndrome; an instruction at 0xFFF that falls through raises PC_OVERRUN. -/
def Obligations.FetchAndGuardRules : Prop :=
  ∀ p ∈ tileCommands, ∀ (s : State) (t : TileIx),
    mayIssue s (s.tile t.val) = true →
    (∀ w, Tbl.look 0#32 (s.tile t.val).pc.toNat (s.tile t.val).imem = w →
      Tbl.look EccErr.none (s.tile t.val).pc.toNat (s.tile t.val).imemErr = .none →
      (classify w = some p.2 → isB p.2 = false → (s.tile t.val).preg (wG w) = false → (s.tile t.val).pc ≠ 0xFFF#12 →
        ∃ s', exec (p.1 t) s = .next s' ∧ OnlyTile s s' t.val { s.tile t.val with
          cycle := max (s.tile t.val).cycle (readyOf (s.tile t.val) (rcP (wG w))) + 1, pc := (s.tile t.val).pc + 1 }) ∧
      (classify w = none →
        exec (p.1 t) s = .next (trapTile t.val (precise 0x01 (s.tile t.val).pc w.toNat 0) s)) ∧
      (classify w = some p.2 → (s.tile t.val).pc = 0xFFF#12 → isB p.2 = false →
        ((s.tile t.val).preg (wG w) = false ∨ (raisesCreg p.2 w = false ∧ fallsThrough p.2 = true)) →
        exec (p.1 t) s = .next (trapTile t.val (precise 0x02 0xFFF#12 0x1000 0) s))) ∧
    (∀ n, Tbl.look EccErr.none (s.tile t.val).pc.toNat (s.tile t.val).imemErr = .double n →
      exec (p.1 t) s = .next (trapTile t.val (precise 0x07 (s.tile t.val).pc ((s.tile t.val).pc.toNat) ((Config.syndrome n).toNat % 128)) s))

/-- 03 R123, Table 3-7: lane-wise FP32 arithmetic and its flags, in the terms of the FP32 operations of Fp.lean; VDIV and
VSQRT occupy their unit for 14 cycles, VEXP2 and VLOG2 theirs for 10 (03 Table 3-14). VABS and VNEG touch bit 31. -/
def Obligations.VectorArithmeticResults : Prop :=
  LaneResult .vadd .vadd 4 (fun w x i => fpAdd (lane (x.vreg (wVa w)) i) (lane (x.vreg (wVb w)) i)) ∧
  LaneResult .vsub .vsub 4 (fun w x i => fpSub (lane (x.vreg (wVa w)) i) (lane (x.vreg (wVb w)) i)) ∧
  LaneResult .vmul .vmul 4 (fun w x i => fpMul (lane (x.vreg (wVa w)) i) (lane (x.vreg (wVb w)) i)) ∧
  LaneResult .vfma .vfma 4 (fun w x i =>
    fpFma (lane (x.vreg (wVd w)) i) (lane (x.vreg (wVa w)) i) (lane (x.vreg (wVb w)) i)) ∧
  LaneResult .vmin .vmin 4 (fun w x i => fpMinMax false (lane (x.vreg (wVa w)) i) (lane (x.vreg (wVb w)) i)) ∧
  LaneResult .vmax .vmax 4 (fun w x i => fpMinMax true (lane (x.vreg (wVa w)) i) (lane (x.vreg (wVb w)) i)) ∧
  LaneResult .vabs .vabs 1 (fun w x i => (0#1 ++ (lane (x.vreg (wVa w)) i).extractLsb' 0 31, 0#6)) ∧
  LaneResult .vneg .vneg 1 (fun w x i => (lane (x.vreg (wVa w)) i ^^^ BitVec.twoPow 32 31, 0#6)) ∧
  Completes .vdiv .vdiv 1 14 (fun w => [rcV (wVd w), rcFp]) (fun w x =>
    let r := fun i => fpDiv (lane (x.vreg (wVa w)) i) (lane (x.vreg (wVb w)) i)
    { x.setV (wVd w) ((r 3).1 ++ (r 2).1 ++ (r 1).1 ++ (r 0).1) with
      fpstat := x.fpstat ||| ((r 0).2 ||| (r 1).2 ||| (r 2).2 ||| (r 3).2), divFree := issueAt x .vdiv w + 14 }) ∧
  Completes .vsqrt .vsqrt 1 14 (fun w => [rcV (wVd w), rcFp]) (fun w x =>
    let r := fun i => fpSqrt (lane (x.vreg (wVa w)) i)
    { x.setV (wVd w) ((r 3).1 ++ (r 2).1 ++ (r 1).1 ++ (r 0).1) with
      fpstat := x.fpstat ||| ((r 0).2 ||| (r 1).2 ||| (r 2).2 ||| (r 3).2), divFree := issueAt x .vsqrt w + 14 }) ∧
  Completes .vexp2 .vexp2 1 10 (fun w => [rcV (wVd w), rcFp]) (fun w x =>
    let r := fun i => fpExp2 (lane (x.vreg (wVa w)) i)
    { x.setV (wVd w) ((r 3).1 ++ (r 2).1 ++ (r 1).1 ++ (r 0).1) with
      fpstat := x.fpstat ||| ((r 0).2 ||| (r 1).2 ||| (r 2).2 ||| (r 3).2), expFree := issueAt x .vexp2 w + 10 }) ∧
  Completes .vlog2 .vlog2 1 10 (fun w => [rcV (wVd w), rcFp]) (fun w x =>
    let r := fun i => fpLog2 (lane (x.vreg (wVa w)) i)
    { x.setV (wVd w) ((r 3).1 ++ (r 2).1 ++ (r 1).1 ++ (r 0).1) with
      fpstat := x.fpstat ||| ((r 0).2 ||| (r 1).2 ||| (r 2).2 ||| (r 3).2), expFree := issueAt x .vlog2 w + 10 })

/-- 03 R123, R124, 02 R603: the moves, the conversions and the reductions of Table 3-7. -/
def Obligations.VectorMoveAndConversionResults : Prop :=
  VectorMove .vsplat .vsplat (fun w x => x.sreg (wSub w) ++ x.sreg (wSub w) ++ x.sreg (wSub w) ++ x.sreg (wSub w)) ∧
  Completes .vget .vget 1 1 (fun w => [rcS (wSub w), rcFp])
    (fun w x => x.setS (wSub w) (lane (x.vreg (wVa w)) (wVb w))) ∧
  VectorMove .vset .vset (fun w x =>
    let l := fun i => if i = wVb w then x.sreg (wSub w) else lane (x.vreg (wVd w)) i
    l 3 ++ l 2 ++ l 1 ++ l 0) ∧
  VectorMove .vmov .vmov (fun w x => x.vreg (wVa w)) ∧
  LaneResult .vcvtif .vcvtif 4 (fun w x i => fpOfInt (lane (x.vreg (wVa w)) i)) ∧
  LaneResult .vcvtfi .vcvtfi 4 (fun w x i => fpToInt (lane (x.vreg (wVa w)) i)) ∧
  LaneResult .vunpk8 .vunpk8 4 (fun w x i =>
    (ofFp8 (w.getLsbD 0) (vbyte (x.vreg (wVa w)) (4 * (w.extractLsb' 1 2).toNat + i)).toNat, 0#6)) ∧
  LaneResult .vunpkbf .vunpkbf 4 (fun w x i =>
    (ofBf ((x.vreg (wVa w)).extractLsb' (16 * (4 * (w.extractLsb' 0 1).toNat + i)) 16).toNat, 0#6)) ∧
  Completes .vsum .vsum 1 4 (fun w => [rcV (wVd w), rcFp]) (fun w x =>
    let l := lane (x.vreg (wVa w))
    let a := fpAdd (l 0) (l 1)
    let b := fpAdd (l 2) (l 3)
    let c := fpAdd a.1 b.1
    { x.setV (wVd w) (0#96 ++ c.1) with fpstat := x.fpstat ||| (a.2 ||| b.2 ||| c.2) }) ∧
  Completes .vmaxh .vmaxh 1 4 (fun w => [rcV (wVd w), rcFp]) (fun w x =>
    let l := lane (x.vreg (wVa w))
    let a := fpMinMax true (l 0) (l 1)
    let b := fpMinMax true a.1 (l 2)
    let c := fpMinMax true b.1 (l 3)
    { x.setV (wVd w) (0#96 ++ c.1) with fpstat := x.fpstat ||| (a.2 ||| b.2 ||| c.2) }) ∧
  Completes .vpk8 .vpk8 1 4 (fun w => [rcV (wVd w), rcFp]) (fun w x =>
    let r := fun i => toFp8 (w.getLsbD 0) (if i < 4 then lane (x.vreg (wVa w)) i else lane (x.vreg (wVb w)) (i - 4))
    { x.setV (wVd w) (0#64 ++ (r 7).1 ++ (r 6).1 ++ (r 5).1 ++ (r 4).1 ++ (r 3).1 ++ (r 2).1 ++ (r 1).1 ++ (r 0).1) with
      fpstat := x.fpstat |||
        ((r 0).2 ||| (r 1).2 ||| (r 2).2 ||| (r 3).2 ||| (r 4).2 ||| (r 5).2 ||| (r 6).2 ||| (r 7).2) }) ∧
  Completes .vpkbf .vpkbf 1 4 (fun w => [rcV (wVd w), rcFp]) (fun w x =>
    let r := fun i => toBf (if i < 4 then lane (x.vreg (wVa w)) i else lane (x.vreg (wVb w)) (i - 4))
    { x.setV (wVd w) ((r 7).1 ++ (r 6).1 ++ (r 5).1 ++ (r 4).1 ++ (r 3).1 ++ (r 2).1 ++ (r 1).1 ++ (r 0).1) with
      fpstat := x.fpstat |||
        ((r 0).2 ||| (r 1).2 ||| (r 2).2 ||| (r 3).2 ||| (r 4).2 ||| (r 5).2 ||| (r 6).2 ||| (r 7).2) })

/-- 03 R125 to R128, R130, R124: AGET, APUT and ACLR where no computation on a[ad] is in flight; MMA and MMAZ read 128
bytes of A and of B and queue a computation of 32 cycles behind those in flight; MMA_COMPLETE writes the 16 elements of
the oldest one; NZMAP's bit i says that element i is not zero. -/
def Obligations.MatrixResults : Prop :=
  (∀ (s : State) (t : TileIx) (w : Word), Issues s t.val .aget w →
    macPending (s.tile t.val) (w.extractLsb' 2 2).toNat = false →
    ∃ s', exec (.aget t) s = .next s' ∧ OnlyTile s s' t.val (retireAt (s.tile t.val) .aget w 1 ((s.tile t.val).pc + 1)
      [rcV (wVd w), rcFp] 1 ((s.tile t.val).setV (wVd w)
        (let a := fun j => (s.tile t.val).aword (w.extractLsb' 2 2).toNat (4 * (w.extractLsb' 0 2).toNat + j)
         a 3 ++ a 2 ++ a 1 ++ a 0)))) ∧
  (∀ (s : State) (t : TileIx) (w : Word), Issues s t.val .aput w →
    macPending (s.tile t.val) (w.extractLsb' 2 2).toNat = false →
    ∃ s' y, exec (.aput t) s = .next s' ∧ OnlyTile s s' t.val y ∧
      y = { retireAt (s.tile t.val) .aput w 1 ((s.tile t.val).pc + 1) [rcA (w.extractLsb' 2 2).toNat, rcFp] 1
        (s.tile t.val) with a := y.a } ∧
      ∀ r k, r < 4 → k < 16 → y.aword r k =
        if r = (w.extractLsb' 2 2).toNat ∧ k / 4 = (w.extractLsb' 0 2).toNat
        then lane ((s.tile t.val).vreg (wVa w)) (k % 4) else (s.tile t.val).aword r k) ∧
  (∀ (s : State) (t : TileIx) (w : Word), Issues s t.val .aclr w → macPending (s.tile t.val) (wAd w) = false →
    ∃ s' y, exec (.aclr t) s = .next s' ∧ OnlyTile s s' t.val y ∧
      y = { retireAt (s.tile t.val) .aclr w 1 ((s.tile t.val).pc + 1) [rcA (wAd w)] 1 (s.tile t.val) with a := y.a } ∧
      ∀ r k, r < 4 → k < 16 → y.aword r k = if r = wAd w then 0#32 else (s.tile t.val).aword r k) ∧
  (∀ p ∈ ([(.mma, .mma, false), (.mmaz, .mmaz, true)] : List ((TileIx → Instr) × Op × Bool)),
    ∀ (s : State) (t : TileIx) (w : Word), Issues s t.val p.2.1 w → (s.tile t.val).mma.length < 2 →
    SramReads (s.tile t.val) 16 ((s.tile t.val).sreg (wXrs1 w)).toNat 128 →
    SramReads (s.tile t.val) 16 ((s.tile t.val).sreg (wXrs2 w)).toNat 128 →
    (6 ≤ wXfmt w → SramReads (s.tile t.val) 8 ((s.tile t.val).sreg (wXrs3 w)).toNat 8) →
    ∃ s', exec (p.1 t) s = .next s' ∧
      (let cost := if 6 ≤ wXfmt w then 5 else 4
       let last := max (issueAt (s.tile t.val) p.2.1 w + cost) (s.tile t.val).macFree + 31
       OnlyTile s s' t.val (retireAt (s.tile t.val) p.2.1 w cost ((s.tile t.val).pc + 1) [] 0 { s.tile t.val with
         macFree := last + 1
         mma := (s.tile t.val).mma ++ [{
           ad := wAd w, fmt := wXfmt w, zero := p.2.2, last := last
           a := bytesAt 0 (s.tile t.val).sram ((s.tile t.val).sreg (wXrs1 w)).toNat 128
           b := bytesAt 0 (s.tile t.val).sram ((s.tile t.val).sreg (wXrs2 w)).toNat 128
           sc := if 6 ≤ wXfmt w then bytesAt 0 (s.tile t.val).sram ((s.tile t.val).sreg (wXrs3 w)).toNat 8 else [] }] }))) ∧
  (∀ (s : State) (t : TileIx) (j : MmaJob) (r : List MmaJob), (s.tile t.val).mma = j :: r →
    (s.tile t.val).held = none →
    ∃ s' y, exec (.mmaComplete t) s = .next s' ∧ OnlyTile s s' t.val y ∧
      y = { s.tile t.val with mma := r, a := y.a, fpstat := y.fpstat, ready := y.ready } ∧
      (∀ q k, q < 4 → k < 16 → y.aword q k =
        if q = j.ad then (mmaElem j (if j.zero then 0#32 else (s.tile t.val).aword q k) (k / 4) (k % 4)).1
        else (s.tile t.val).aword q k)) ∧
  (∀ (s : State) (t : TileIx) (w : Word), Issues s t.val .nzmap w →
    SramReads (s.tile t.val) 16 ((s.tile t.val).sreg (wXrs1 w)).toNat (128 * (wFmt (wWfmt w)).bytes) →
    ∃ s' m, exec (.nzmap t) s = .next s' ∧
      OnlyTile s s' t.val (retireAt (s.tile t.val) .nzmap w (if wWfmt w = 3 then 4 else 2) ((s.tile t.val).pc + 1)
        [rcV (wWv w)] 2 ((s.tile t.val).setV (wWv w) m)) ∧
      ∀ i, i < 128 → m.getLsbD i = elemNonZero (wFmt (wWfmt w))
        (elemAt (wFmt (wWfmt w)) (bytesAt 0 (s.tile t.val).sram ((s.tile t.val).sreg (wXrs1 w)).toNat
          (128 * (wFmt (wWfmt w)).bytes)) i))

/-- 03 R131, R132, 04 R164 to R169: a walk that no check ends writes the columns below NCOL of a[ad] and its flags, leaves
every other register, counts its dropped indices, and takes 4 + F + M + 1 cycles (walkCycles). A walk that a check ends
traps and has written nothing but what the reads themselves corrected. -/
def Obligations.WalkResults : Prop :=
  ∀ (s : State) (t : TileIx) (w : Word), Issues s t.val .swalk w →
    macPending (s.tile t.val) (wAd w) = false →
    (∀ d p cols xs, walk t.val w s = (.ok (d, p, cols, xs), s) → portBBusy (s.tile t.val) = false →
      ∃ s' y, exec (.swalk t) s = .next s' ∧ s'.tile t.val = y ∧
        (∀ u, u ≠ t.val → s'.tile u = s.tile u) ∧
        y = { retireAt (s.tile t.val) .swalk w (walkCycles d p) ((s.tile t.val).pc + 1) [rcA (wAd w), rcFp] 1
          (s.tile t.val) with a := y.a, fpstat := y.fpstat } ∧
        (∀ r k, r < 4 → k < 16 → y.aword r k =
          if r = wAd w ∧ k % 4 < d.ncol then (walkElem d p cols xs ((s.tile t.val).aword r k) (k / 4) (k % 4)).1
          else (s.tile t.val).aword r k) ∧
        (s'.ctx (s.tile t.val).ctx).oor =
          forUp (fun _ n => satAdd 48 n 1) 0 p.drops (s.ctx (s.tile t.val).ctx).oor) ∧
    (∀ tr s1, walk t.val w s = (.error tr, s1) → s1.tile t.val = s.tile t.val → portBBusy (s.tile t.val) = false →
      exec (.swalk t) s = .next (trapTile t.val tr
        (s1.modTile t.val (fun y => { y with cycle := issueAt (s.tile t.val) .swalk w + tr.late }))))

/-- 03 R133, 04 R175, R176: EADD below the extent. A valid entry of the key is added to; else the lowest invalid way of the
key's set, or the victim's way, whose record joins the spill line being gathered, takes the key with +0 + value. A key
at or above the extent is dropped and counted. ECFG sets the extent, ECOUNT counts the valid entries. EADDV makes four
EADDs in lane order. -/
def Obligations.EddyResults : Prop :=
  (∀ (s : State) (t : TileIx) (w : Word), Issues s t.val .eadd w → (s.tile t.val).drain = none →
    (∀ i ∈ waysOf ((s.tile t.val).sreg (wRs1 w)), Tbl.look EccErr.none i (s.tile t.val).eddyErr = .none) →
    (s.tile t.val).spillQ.length ≤ 2 →
    let x := s.tile t.val
    let k := x.sreg (wRs1 w)
    let v := x.sreg (wRs2 w)
    let put := fun (i : Nat) (old : Word) (y : Tile) =>
      { setEddy i (some { key := k, val := (fpAdd old v).1 }) y with fpstat := y.fpstat ||| (fpAdd old v).2 }
    let hit := (waysOf k).find? (fun i => decide ((eddyAt x i).map (·.key) = some k))
    let vacant := (waysOf k).find? (fun i => decide (eddyAt x i = none))
    (x.extent.toNat ≤ k.toNat →
      ∃ s', exec (.eadd t) s = .next s' ∧
        s'.tile t.val = retireAt x .eadd w 1 (x.pc + 1) [rcEddy, rcFp] 2 x ∧
        (s'.ctx x.ctx).oor = satAdd 48 (s.ctx x.ctx).oor 1) ∧
    (k.toNat < x.extent.toNat →
      (∀ i e, hit = some i → eddyAt x i = some e →
        ∃ s', exec (.eadd t) s = .next s' ∧
          OnlyTile s s' t.val (retireAt x .eadd w 1 (x.pc + 1) [rcEddy, rcFp] 2 (put i e.val x))) ∧
      (∀ i, hit = none → vacant = some i →
        ∃ s', exec (.eadd t) s = .next s' ∧
          OnlyTile s s' t.val (retireAt x .eadd w 1 (x.pc + 1) [rcEddy, rcFp] 2 (put i 0#32 x))) ∧
      (∀ e, hit = none → vacant = none → x.gather.length < 7 →
        eddyAt x (4 * eddySet k + Tbl.look 0 (eddySet k) x.victim) = some e →
        ∃ s', exec (.eadd t) s = .next s' ∧
          OnlyTile s s' t.val (retireAt x .eadd w 2 (x.pc + 1) [rcEddy, rcFp] 2
            (put (4 * eddySet k + Tbl.look 0 (eddySet k) x.victim) 0#32 { x with
              victim := Tbl.put 0 (eddySet k) ((Tbl.look 0 (eddySet k) x.victim + 1) % 4) x.victim
              gather := x.gather ++ [(e.key, e.val)] }))))) ∧
  (∀ (s : State) (t : TileIx) (w : Word), Issues s t.val .eaddv w → (s.tile t.val).drain = none →
    (s.tile t.val).eddyErr = [] →
    let x := s.tile t.val
    let k := fun i => lane (x.vreg (wEv w)) i
    let v := fun i => lane (x.vreg (wEv w + 1)) i
    let r := eaddOne x.pc (k 3) (v 3) (eaddOne x.pc (k 2) (v 2) (eaddOne x.pc (k 1) (v 1) (eaddOne x.pc (k 0) (v 0)
      { x := x, oor := 0, spills := 0, fl := 0#6 })))
    r.oor = 0 → r.x.spillQ = x.spillQ → x.spillQ.length ≤ 2 →
    ∃ s', exec (.eaddv t) s = .next s' ∧
      OnlyTile s s' t.val (retireAt x .eaddv w (4 + r.spills) (x.pc + 1) [rcEddy, rcFp] 2 (r.x.flag r.fl))) ∧
  (∀ (s : State) (t : TileIx) (w : Word), Issues s t.val .ecfg w → (s.tile t.val).drain = none →
    ∃ s', exec (.ecfg t) s = .next s' ∧
      OnlyTile s s' t.val (retireAt (s.tile t.val) .ecfg w 1 ((s.tile t.val).pc + 1) [] 0
        { s.tile t.val with extent := (s.tile t.val).sreg (wRs1 w) })) ∧
  (∀ (s : State) (t : TileIx) (w : Word), Issues s t.val .ecount w → (s.tile t.val).drain = none →
    ∃ s', exec (.ecount t) s = .next s' ∧
      OnlyTile s s' t.val (retireAt (s.tile t.val) .ecount w 1 ((s.tile t.val).pc + 1) [rcS (wRd w), rcFp] 1
        ((s.tile t.val).setS (wRd w) (BitVec.ofNat 32 (s.tile t.val).eddy.length))))

/-- 03 R134, R135, 04 R177, R179, R183, R185: ESPILL and EMERGE retire at issue and begin a drain. The end of a drain has
turned every valid entry, in ascending index, into a spill record or into an atomic add at (base[41:2] × 4 + 4 × key)
mod 2^42 of this device, and has invalidated it. A completed line leaves the tile, and the allocator writes it to the
next slot of the spillway, or raises SPILLWAY. -/
def Obligations.EddyDrains : Prop :=
  (∀ (s : State) (t : TileIx) (w : Word), Issues s t.val .espill w → (s.tile t.val).drain = none →
    pairOf s (s.tile t.val) = none →
    ∃ s', exec (.espill t) s = .next s' ∧
      OnlyTile s s' t.val (retireAt (s.tile t.val) .espill w 1 ((s.tile t.val).pc + 1) [] 0
        { s.tile t.val with drain := some {
          emerge := none, pc := (s.tile t.val).pc, start := issueAt (s.tile t.val) .espill w + 1 } })) ∧
  (∀ (s : State) (t : TileIx) (w : Word), Issues s t.val .emerge w → (s.tile t.val).drain = none →
    pairOf s (s.tile t.val) = none →
    let base := (s.tile t.val).spair (wRs1 w)
    (base.extractLsb' 56 8 ≠ 0#8 → exec (.emerge t) s =
      .next (trapTile t.val (precise 0x09 (s.tile t.val).pc base.toNat 0) (waited s t.val .emerge w))) ∧
    (base.extractLsb' 56 8 = 0#8 → s.fab.machine ≤ (base.extractLsb' 42 14).toNat → exec (.emerge t) s =
      .next (trapTile t.val (precise 0x0E (s.tile t.val).pc base.toNat 0) (waited s t.val .emerge w))) ∧
    (base.extractLsb' 56 8 = 0#8 → (base.extractLsb' 42 14).toNat < s.fab.machine →
      ∃ s', exec (.emerge t) s = .next s' ∧
        OnlyTile s s' t.val (retireAt (s.tile t.val) .emerge w 1 ((s.tile t.val).pc + 1) [] 0
          { s.tile t.val with drain := some {
            emerge := some base, pc := (s.tile t.val).pc, start := issueAt (s.tile t.val) .emerge w + 1 } }))) ∧
  (∀ (s : State) (t : TileIx) (d : Drain) (l : List (Nat × EddyEnt)),
    liveFor s t.val (s.tile t.val).launchId = true → (s.tile t.val).held = none → (s.tile t.val).drain = some d →
    (s.tile t.val).eddyErr = [] → (s.tile t.val).eddy = l.map (fun e => (e.1, some e.2)) →
    l.Pairwise (fun a b => a.1 < b.1) → l.length ≤ 512 →
    (s.tile t.val).spillQ.length ≤ 2 → (s.tile t.val).gather.length ≤ 7 →
    ∃ s', exec (.eddyDrainDone t) s = .next s' ∧
      (s'.tile t.val).eddy = [] ∧ (s'.tile t.val).drain = none ∧ (s'.tile t.val).gather = [] ∧
      (s'.tile t.val).spillQ = [] ∧
      (∀ u, u ≠ t.val → s'.tile u = s.tile u) ∧
      (d.emerge ≠ none → (s'.tile t.val).eddyFree = d.start + l.length) ∧
      (d.emerge = none →
        (s'.spills.map (·.line.recs)).flatten = (s.spills.map (·.line.recs)).flatten ++
          ((s.tile t.val).spillQ.map (·.recs)).flatten ++ (s.tile t.val).gather ++ l.map (fun e => (e.2.key, e.2.val))) ∧
      (∀ base, d.emerge = some base → (base.extractLsb' 42 14).toNat = s.fab.devNum.toNat →
        (s'.atoms.drop s.atoms.length).map (fun a => (a.ctx, a.loc, a.val)) =
          l.map (fun e => ((s.tile t.val).ctx,
            ((base.extractLsb' 2 40).toNat * 4 + 4 * e.2.key.toNat) % 2 ^ 42, e.2.val)))) ∧
  (∀ (s : State) (t : TileIx) (l : SpillLine) (r : List SpillLine),
    liveFor s t.val (s.tile t.val).launchId = true → (s.tile t.val).held = none → (s.tile t.val).spillQ = l :: r →
    ∃ s' f, exec (.spillLineSend t) s = .next s' ∧ s'.spills = s.spills ++ [f] ∧ f.line = l ∧ f.tile = t.val ∧
      f.ctx = (s.tile t.val).ctx ∧ f.acked = false ∧
      s'.tile t.val = { s.tile t.val with spillQ := r, eddyOut := (s.tile t.val).eddyOut + 1 }) ∧
  (∀ (s s1 : State) (i : Nat) (f : SpillFly), s.spills[i]? = some f → f.acked = false →
    let k := s.ctx f.ctx
    let adr := k.spillBase + 64 * k.spillLines
    pageShut s f.ctx adr = false →
    (64 * (k.spillLines + 1) ≤ k.spillPages * 0x200000 →
      writePage (viaTile f.tile f.ctx) adr (lineBytes f.line) s = (.ok (), s1) →
      ∃ s', exec (.spillLineWrite i) s = .next s' ∧ s'.spills = listSet s1.spills i { f with acked := true } ∧
        (s'.ctx f.ctx).spillLines = (s1.ctx f.ctx).spillLines + 1 ∧ s'.hbm = s1.hbm) ∧
    (k.spillPages * 0x200000 < 64 * (k.spillLines + 1) → liveFor s f.tile f.launch = true →
      exec (.spillLineWrite i) s = .next (trapTile f.tile
        { cause := 0x14, imprecise := true, pc := f.line.pc, addr := adr } { s with spills := listDrop s.spills i })))

/-- 03 R136, R137, 02 R80 to R85, R91: STREAM checks, copies an outbound source, feeds SIG and takes its tag; a request to
this device sends nothing else. SWAITT holds until (STREAM_BUSY and s[ra][15:0]) is 0. -/
def Obligations.StreamResults : Prop :=
  (∀ (s : State) (t : TileIx) (w : Word), Issues s t.val .stream w →
    let x := s.tile t.val
    let ga := x.spair (wRs1 w)
    let a := (x.sreg (wRd w)).toNat
    let len := (x.sreg (wRs2 w)).toNat
    let tag := (w.extractLsb' 0 4).toNat
    let trap := fun cause addr detail =>
      exec (.stream t) s = .next (trapTile t.val (precise cause x.pc addr detail) (waited s t.val .stream w))
    let legal := ga.extractLsb' 56 8 = 0#8 ∧ (ga.extractLsb' 42 14).toNat < s.fab.machine
    let sized := 64 ≤ len ∧ len ≤ 4096 ∧ len % 64 = 0
    (ga.extractLsb' 56 8 ≠ 0#8 → trap 0x09 ga.toNat tag) ∧
    (ga.extractLsb' 56 8 = 0#8 → s.fab.machine ≤ (ga.extractLsb' 42 14).toNat → trap 0x0E ga.toNat tag) ∧
    (legal → a % 64 ≠ 0 → trap 0x05 a 0) ∧
    (legal → a % 64 = 0 → (¬ sized ∨ ga.toNat % 64 ≠ 0) → trap 0x05 ga.toNat 0) ∧
    (legal → a % 64 = 0 → sized → ga.toNat % 64 = 0 → 0x18000 < a + len → trap 0x04 a 0) ∧
    (legal → a % 64 = 0 → sized → ga.toNat % 64 = 0 → a + len ≤ 0x18000 →
      (tagOf x tag ≠ none →
        ∃ s', exec (.stream t) s = .next s' ∧ OnlyTile s s' t.val { x with held := some w }) ∧
      (tagOf x tag = none → x.tags.any (fun e => match e.2 with
          | some q => clash q { inbound := !w.getLsbD 4, sram := a, ga := ga, len := len, pc := 0, sentAt := 0, waiting := false,
                                order := 0, wake := none, refHit := false, doneLen := 0, data := [], rgen := 0, discard := false }
          | none => false) = false →
        (ga.extractLsb' 42 14).toNat = s.fab.devNum.toNat →
        (w.getLsbD 4 = false →
          ∃ s' y r, exec (.stream t) s = .next s' ∧ OnlyTile s s' t.val y ∧
            y = { retireAt x .stream w 1 (x.pc + 1) [] 0 x with tags := Tbl.put none tag (some r) x.tags } ∧
            r.inbound = true ∧ r.sram = a ∧ r.ga = ga ∧ r.len = len ∧ r.sentAt = s.now ∧ r.waiting = false ∧ r.data = []) ∧
        (w.getLsbD 4 = true → SramClean x a len → x.wake = none →
          ∃ s' y r, exec (.stream t) s = .next s' ∧ OnlyTile s s' t.val y ∧
            y = { retireAt x .stream w (1 + len / 64) (x.pc + 1) [] 0 x with
              tags := Tbl.put none tag (some r) x.tags
              sig := sigBlocks x.sigbase.toNat (ga.toNat % 2 ^ 42) (len / 64) (bytesAt 0 x.sram a len) x.sig } ∧
            r.inbound = false ∧ r.sram = a ∧ r.ga = ga ∧ r.len = len ∧ r.sentAt = s.now ∧ r.waiting = false ∧
            r.data = bytesAt 0 x.sram a len)))) ∧
  (∀ (s : State) (t : TileIx) (w : Word), Issues s t.val .swaitt w →
    (streamBusy (s.tile t.val) &&& ((s.tile t.val).sreg (wRd w)).toNat % 2 ^ 16 = 0 →
      ∃ s', exec (.swaitt t) s = .next s' ∧
        OnlyTile s s' t.val (retireAt (s.tile t.val) .swaitt w 1 ((s.tile t.val).pc + 1) [] 0 (s.tile t.val))) ∧
    (streamBusy (s.tile t.val) &&& ((s.tile t.val).sreg (wRd w)).toNat % 2 ^ 16 ≠ 0 →
      ∃ s', exec (.swaitt t) s = .next s' ∧ OnlyTile s s' t.val { s.tile t.val with held := some w }))

/-- 02 R80, R82, R85, 03 R139, 07 R298: data of an inbound request are written to data SRAM and complete its tag with its
last byte; a write's acknowledgement completes its tag; an Eddy request's acknowledgement is counted off; a request
without a reply for 2,000,000 counts raises STREAM_TIMEOUT as an imprecise trap with the PC of its STREAM. -/
def Obligations.StreamReplies : Prop :=
  (∀ (s s1 : State) (t : TileIx) (tag : Fin 16) (r : StreamReq) (bs : List Byte),
    tagOf (s.tile t.val) tag.val = some r → (s.part (tilePart t.val)).late = [] → (s.tile t.val).held = none →
    liveFor s t.val (s.tile t.val).launchId = true → r.waiting = false → r.inbound = true →
    (r.ga.extractLsb' 42 14).toNat = s.fab.devNum.toNat → pageShut s (s.tile t.val).ctx (reqLocal r r.doneLen) = false →
    readPage (viaTile t.val (s.tile t.val).ctx) (reqLocal r r.doneLen) (transferAt r r.doneLen) s = (.ok bs, s1) →
    s1.tile t.val = s.tile t.val →
    (∀ e ∈ (s.tile t.val).tags, ∀ q, e.2 = some q → q.waiting = false) →
    ∃ s', exec (.streamReply t tag) s = .next s' ∧
      (∀ a, Tbl.look 0#8 a (s'.tile t.val).sram =
        if r.sram + r.doneLen ≤ a ∧ a < r.sram + r.doneLen + bs.length then bs.getD (a - (r.sram + r.doneLen)) 0#8
        else Tbl.look 0#8 a (s.tile t.val).sram) ∧
      tagOf (s'.tile t.val) tag.val =
        (if r.len ≤ r.doneLen + bs.length then none else some { r with
          doneLen := r.doneLen + bs.length, got := r.got ++ [(r.doneLen, bs.length)] })) ∧
  (∀ (s s1 : State) (t : TileIx) (tag : Fin 16) (r : StreamReq),
    tagOf (s.tile t.val) tag.val = some r → (s.part (tilePart t.val)).late = [] → (s.tile t.val).held = none →
    liveFor s t.val (s.tile t.val).launchId = true → r.waiting = false → r.inbound = false → r.discard = false →
    (r.ga.extractLsb' 42 14).toNat = s.fab.devNum.toNat →
    (∀ k ∈ transfersOf r, pageShut s (s.tile t.val).ctx (reqLocal r k.1) = false) →
    writeTransfers t.val (s.tile t.val).ctx r (transfersOf r) s = (none, s1) → s1.tile t.val = s.tile t.val →
    (∀ e ∈ (s.tile t.val).tags, ∀ q, e.2 = some q → q.waiting = false) →
    ∃ s', exec (.writeAck t (.stream tag)) s = .next s' ∧ OnlyTile s1 s' t.val
      { s.tile t.val with tags := Tbl.put none tag.val none (s.tile t.val).tags }) ∧
  (∀ (s : State) (t : TileIx) (i : Nat) (f : SpillFly), (s.tile t.val).held = none → s.spills.findIdx? (fun f => f.acked && decide (f.tile = t.val)) = some i →
    s.spills[i]? = some f → f.rgen = (s.part (tilePart t.val)).rgen → f.launch = (s.tile t.val).launchId →
    ∃ s', exec (.writeAck t .eddy) s = .next s' ∧ s'.spills = listDrop s.spills i ∧
      s'.tile t.val = { s.tile t.val with eddyOut := (s.tile t.val).eddyOut - 1 }) ∧
  (∀ (s : State) (t : TileIx) (tag : Fin 16) (r : StreamReq), tagOf (s.tile t.val) tag.val = some r →
    (r.waiting = false → 2000000 ≤ s.since r.sentAt → exec (.streamTimeout t tag) s = .next (trapTile t.val
      { cause := 0x0F, imprecise := true, pc := r.pc, addr := r.ga.toNat + standsAt s r, detail := tag.val } s)) ∧
    (s.since r.sentAt < 2000000 → exec (.streamTimeout t tag) s = .next s))

/-- 02 R69, R70, Tables 2-2 and 2-3, 03 R138: CR reads and writes. A read of STROKE_LO or CYCLE_LO latches the high half;
CYCLE_LO is the number of the issue cycle; a write of FPSTAT clears the flags whose bits are 1. FPSTAT waits for matrix
work in flight; a number that Table 2-2 does not list, or a write of a read-only one, raises CREG. -/
def Obligations.ControlRegisters : Prop :=
  (∀ (s : State) (t : TileIx) (w : Word), Issues s t.val .crRead w →
    let x := s.tile t.val
    let n := wImm8 w % 64
    let c := issueAt x .crRead w
    let lo := fun (v : Nat) => BitVec.ofNat 32 v
    let value : Word := ([lo x.tid, lo x.crew, lo x.ncrew, lo x.ctx, x.launchId, lo x.partNo, s.fab.devNum.setWidth 32,
      x.jobid, s.now.extractLsb' 0 32, x.strokeHi, lo c, x.cycleHi, x.sig.extractLsb' 0 32, x.sig.extractLsb' 32 32,
      x.sigbase.extractLsb' 0 32, (x.sigbase.extractLsb' 32 10).setWidth 32, x.argp.extractLsb' 0 32,
      (x.argp.extractLsb' 32 10).setWidth 32, x.fpstat.setWidth 32, lo (streamBusy x), lo x.eccCe] : List Word).getD n 0#32
    (n = 0x12 → x.mma = []) →
    ∃ s', exec (.crRead t) s = .next s' ∧ OnlyTile s s' t.val (retireAt x .crRead w 1 (x.pc + 1) [rcS (wRd w)] 2
      ({ x with strokeHi := if n = 0x08 then s.now.extractLsb' 32 32 else x.strokeHi
                cycleHi := if n = 0x0A then lo (c / 2 ^ 32) else x.cycleHi }.setS (wRd w) value))) ∧
  (∀ (s : State) (t : TileIx) (w : Word), Issues s t.val .crWrite w →
    let x := s.tile t.val
    let n := wImm8 w % 64
    let v := x.sreg (wRs1 w)
    (n = 0x12 → x.mma = []) →
    ∃ s', exec (.crWrite t) s = .next s' ∧ OnlyTile s s' t.val (retireAt x .crWrite w 1 (x.pc + 1) [] 0 { x with
      sig := if n = 0x0C then x.sig.extractLsb' 32 32 ++ v else if n = 0x0D then v ++ x.sig.extractLsb' 0 32 else x.sig
      sigbase := if n = 0x0E then x.sigbase.extractLsb' 32 10 ++ v
        else if n = 0x0F then v.extractLsb' 0 10 ++ x.sigbase.extractLsb' 0 32 else x.sigbase
      fpstat := if n = 0x12 then x.fpstat &&& ~~~(v.extractLsb' 0 6) else x.fpstat })) ∧
  (∀ p ∈ ([(.crRead, .crRead, false), (.crWrite, .crWrite, true)] : List ((TileIx → Instr) × Op × Bool)),
    ∀ (s : State) (t : TileIx) (w : Word), mayIssue s (s.tile t.val) = true →
    Tbl.look 0#32 (s.tile t.val).pc.toNat (s.tile t.val).imem = w →
    Tbl.look EccErr.none (s.tile t.val).pc.toNat (s.tile t.val).imemErr = .none →
    classify w = some p.2.1 → (s.tile t.val).preg (wG w) = true →
    (if p.2.2 then ¬ (wImm8 w % 64 ∈ [0x0C, 0x0D, 0x0E, 0x0F, 0x12]) else 0x14 < wImm8 w % 64) →
    exec (p.1 t) s = .next (trapTile t.val (precise 0x03 (s.tile t.val).pc (wImm8 w % 64) 0) s))

/-- 03 R139, R140, 02 R93, R94: FENCE, CBAR and LBAR with nothing left to acknowledge; a barrier completes at its waiting
tiles when every participant has arrived, and not before; WAITS issues at or beyond its target, waits up to 10^9 counts
ahead of it and raises WAIT_RANGE beyond; a barrier not completed after 10,000,000 counts raises SYNC_TIMEOUT. -/
def Obligations.SynchronisationResults : Prop :=
  (∀ (s : State) (t : TileIx) (w : Word), Issues s t.val .fence w → fenceClear (s.tile t.val) = true →
    ∃ s', exec (.fence t) s = .next s' ∧
      OnlyTile s s' t.val (retireAt (s.tile t.val) .fence w 1 ((s.tile t.val).pc + 1) [] 0 (s.tile t.val))) ∧
  (∀ (s : State) (t : TileIx) (w : Word), Issues s t.val .cbar w → fenceClear (s.tile t.val) = true →
    ∃ s', exec (.cbar t) s = .next s' ∧ OnlyTile s s' t.val { s.tile t.val with
      held := none, cbars := (s.tile t.val).cbars + 1
      bar := some { launch := false, id := w.extractLsb' 2 6, at_ := s.now } }) ∧
  (∀ (s : State) (t : TileIx) (w : Word), Issues s t.val .lbar w → fenceClear (s.tile t.val) = true →
    pairOf s (s.tile t.val) = none →
    ∃ s', exec (.lbar t) s = .next s' ∧ OnlyTile s s' t.val { s.tile t.val with
      held := none, lbars := (s.tile t.val).lbars + 1
      bar := some { launch := true, id := w.extractLsb' 2 6, at_ := s.now } }) ∧
  (∀ (s : State) (t : TileIx) (b : BarWait), (s.tile t.val).bar = some b → (s.tile t.val).run = .running →
    let peers := if b.launch then launchPeers s (s.tile t.val) else crewPeers s (s.tile t.val)
    let n := if b.launch then (s.tile t.val).lbars else (s.tile t.val).cbars
    ((∀ e ∈ peers, arrivedAt b.launch n e.2 = true) →
      ∃ s' k, exec (.barrierComplete t) s = .next s' ∧ s'.tile t.val = { s.tile t.val with
        bar := none, pc := (s.tile t.val).pc + 1, cycle := (s.tile t.val).cycle + 1 + k }) ∧
    (∀ e ∈ peers, arrivedAt b.launch n e.2 = false → exec (.barrierComplete t) s = .next s)) ∧
  (∀ (s : State) (t : TileIx) (w : Word), Issues s t.val .waits w →
    let target := ((s.tile t.val).spair (wRd w)).toNat
    (target ≤ s.now.toNat → ∃ s', exec (.waits t) s = .next s' ∧
      OnlyTile s s' t.val (retireAt (s.tile t.val) .waits w 1 ((s.tile t.val).pc + 1) [] 0 (s.tile t.val))) ∧
    (s.now.toNat < target → target ≤ s.now.toNat + 1000000000 → ∃ s', exec (.waits t) s = .next s' ∧
      OnlyTile s s' t.val { s.tile t.val with held := some w }) ∧
    (s.now.toNat + 1000000000 < target → exec (.waits t) s = .next (trapTile t.val
      (precise 0x11 (s.tile t.val).pc (target % 2 ^ 32) 0) (waited s t.val .waits w)))) ∧
  (∀ (s : State) (t : TileIx) (b : BarWait), (s.tile t.val).bar = some b → (s.tile t.val).run = .running →
    (10000000 ≤ s.since b.at_ → exec (.syncTimeout t) s =
      .next (trapTile t.val (precise 0x10 (s.tile t.val).pc 0 b.id.toNat)
        (s.free.2.modTile t.val (fun y => { y with cycle := y.cycle + s.free.1 })))) ∧
    (s.since b.at_ < 10000000 → exec (.syncTimeout t) s = .next s))

/-- 02 R63, R64, 03 R133, 06 R264, 08 R336: a tile that waits for its code starts with every register, flag, signature, tag,
queue and data SRAM byte zero, every Eddy entry invalid under the extent 0xFFFF_FFFF, and the code image from word 0; it
begins at ENTRY with its cycle count 0, a catch launch not before its count.

03 R141 to R143, 02 R65, R92, 04 R172, R198: the MISC instructions, TRAP and the retirement of HALT. SIG adds the crc64
of the 16 bytes of v[ra] and the 8 bytes of s[rb]; RBNEXT takes the head of the tile's own queue, else the tail of the
first queue after it that holds an index, else answers 0xFFFF_FFFF. Partners of a pair check are taken not to wait. -/
def Obligations.TileStartAndMiscellany : Prop :=
  (
  (∀ (s : State) (t : TileIx) (e : Exec), (s.tile t.val).run = .waitCode → launchOf s (s.tile t.val) = some e →
    ∃ s' y, exec (.codeImageArrive t) s = .next s' ∧ OnlyTile s s' t.val y ∧ y.run = .loaded ∧
      y.launchId = (s.tile t.val).launchId ∧ y.ctx = (s.tile t.val).ctx ∧ y.crew = (s.tile t.val).crew ∧
      y.tid = (s.tile t.val).tid ∧ y.argp = (s.tile t.val).argp ∧ y.entry = (s.tile t.val).entry ∧
      (∀ n, y.sreg n = 0#32) ∧ (∀ n, n ≠ 0 → y.preg n = false) ∧ (∀ n, y.vreg n = 0#128) ∧ (∀ r k, y.aword r k = 0#32) ∧
      (∀ a, Tbl.look 0#8 a y.sram = 0#8) ∧ (∀ i, eddyAt y i = none) ∧ y.extent = 0xFFFFFFFF#32 ∧
      y.fpstat = 0#6 ∧ y.sig = 0#64 ∧ y.sigbase = 0#42 ∧ y.tags = [] ∧ y.rbLen = 0 ∧ y.eccCe = 0 ∧
      (∀ i, Tbl.look 0#32 i y.imem = e.image.getD i 0#32)) ∧
  (∀ (s : State) (t : TileIx) (e : Exec), (s.tile t.val).run = .loaded → launchOf s (s.tile t.val) = some e →
    (s.ctx (s.tile t.val).ctx).abort = none →
    ((e.launch.desc.isCatch = false ∨ e.slipped = true ∨ e.launch.desc.catchCnt ≤ s.now.toNat) →
      ∃ s', exec (.tileExecBegin t) s = .next s' ∧ OnlyTile s s' t.val { s.tile t.val with
        run := .running, pc := (s.tile t.val).entry, cycle := 0 }) ∧
    (e.launch.desc.isCatch = true → e.slipped = false → s.now.toNat < e.launch.desc.catchCnt →
      exec (.tileExecBegin t) s = .next s))
  ) ∧
  (
  Completes .nop .nop 1 0 (fun _ => []) (fun _ x => x) ∧
  Completes .sig .sig 2 0 (fun _ => []) (fun w x => { x with
    sig := x.sig + BitVec.ofNat 64
      (crc64 (leBytes 16 (x.vreg (wRd w % 16)).toNat ++ leBytes 8 (x.sreg (wRs1 w)).toNat)) }) ∧
  Completes .rbinit .rbinit 1 0 (fun _ => []) (fun w x => { x with
    rbHead := x.sreg (wRd w), rbLen := ((x.sreg (wRs1 w)).extractLsb' 0 16).toNat }) ∧
  (∀ (s : State) (t : TileIx) (w : Word), Issues s t.val .wake w →
    let n := ((s.tile t.val).sreg (wRd w)).toNat % 1024
    (w.getLsbD 0 = false → ∃ s', exec (.wake t) s = .next s' ∧
      OnlyTile s s' t.val (retireAt (s.tile t.val) .wake w 1 ((s.tile t.val).pc + 1) [] 0
        { s.tile t.val with wake := none })) ∧
    (w.getLsbD 0 = true → ∃ s', exec (.wake t) s = .next s' ∧
      s'.tile t.val = retireAt (s.tile t.val) .wake w 1 ((s.tile t.val).pc + 1) [] 0
        { s.tile t.val with wake := some n } ∧
      (∀ e, (s.tile t.val).job = .launch → (s.ctx (s.tile t.val).ctx).exec = some e →
        ∃ e', (s'.ctx (s.tile t.val).ctx).exec = some e' ∧ (∃ k ∈ e'.wakes, k.num = n)))) ∧
  (∀ (s : State) (t : TileIx) (w : Word), Issues s t.val .trap w →
    exec (.trap t) s = .next (trapTile t.val (precise 0x12 (s.tile t.val).pc 0 (w.extractLsb' 0 8).toNat)
      (waited s t.val .trap w))) ∧
  (∀ (s : State) (t : TileIx) (w : Word), Issues s t.val .halt w → haltClear (s.tile t.val) = true →
    ∃ s', exec (.halt t) s = .next s' ∧ OnlyTile s s' t.val { s.tile t.val with
      run := .halting, held := none, wake := none, cycle := issueAt (s.tile t.val) .halt w + 1 }) ∧
  (∀ (s : State) (t : TileIx), (s.tile t.val).run = .halting →
    (haltClear (s.tile t.val) = true → (∀ e ∈ s.tiles, e.2.job ≠ .partner ∧ e.2.job ≠ .triage) →
      ∃ s', exec (.haltRetire t) s = .next s' ∧
        s'.tile t.val = { s.tile t.val with run := .halted, eddy := [], eddyErr := [] } ∧
        (∀ u, u ≠ t.val → s'.tile u = s.tile u)) ∧
    (haltClear (s.tile t.val) = false → exec (.haltRetire t) s = .next s)) ∧
  (∀ (s : State) (t : TileIx) (w : Word), Issues s t.val .rbnext w → (s.tile t.val).job = .launch →
    pairOf s (s.tile t.val) = none → (∀ e ∈ s.tiles, e.2.job ≠ .partner ∧ e.2.job ≠ .triage) →
    (s.tile t.val).rbLog = [] →
    let x := s.tile t.val
    let q0 := queueWait t.val s
    let others := (crewPeers s x).filter (fun e => decide (e.1 ≠ t.val) && decide (e.2.run = .running))
    q0.1 ≤ others.length ∧
    let done := fun (y : Tile) (v : Word) (cost : Nat) =>
      retireAt x .rbnext w cost (x.pc + 1) [rcS (wRd w)] 1 (y.setS (wRd w) v)
    (peerTid (crewPeers s x) (x.tid % 8) = some (t.val, x) → x.tid < 8 → x.rbLen ≠ 0 →
      ∃ s', exec (.rbnext t) s = .next s' ∧
        OnlyTile q0.2 s' t.val (done { x with rbHead := x.rbHead + 1#32, rbLen := x.rbLen - 1 } x.rbHead (q0.1 + 2))) ∧
    (∀ i q y, 0 < i → i < 8 → q ≠ t.val →
      (∀ j, j < i → ∀ e, peerTid (crewPeers s x) ((x.tid + j) % 8) = some e → e.2.rbLen = 0) →
      peerTid (crewPeers s x) ((x.tid + i) % 8) = some (q, y) → y.rbLen ≠ 0 →
      ∃ s', exec (.rbnext t) s = .next s' ∧ s'.tile t.val = done x (y.rbHead + BitVec.ofNat 32 (y.rbLen - 1)) (q0.1 + (2 + i)) ∧
        s'.tile q = { y with rbLen := y.rbLen - 1 }) ∧
    ((∀ j, j < 8 → ∀ e, peerTid (crewPeers s x) ((x.tid + j) % 8) = some e → e.2.rbLen = 0) →
      ∃ s', exec (.rbnext t) s = .next s' ∧ OnlyTile q0.2 s' t.val (done x 0xFFFFFFFF#32 (q0.1 + 9))))
  )

/-! ### Launches (06) -/

/-- 06 R237, R240: a doorbell write of 32 or 64 bits stores its index [11:0] when that is below the ring size, and a CQ_HEAD
that frees an entry ends the hold; an index at or above the size is ignored and raises DOORBELL_BAD; another width has
no effect.

06 R247, Table 6-2: the result of a berth command, the first failing row deciding it; a refused command changes no
berth, and one that is done changes those of its crews and no other. -/
def Obligations.DoorbellAndBerthResults : Prop :=
  (
  ∀ (s : State) (c : CtxIx) (width : Nat) (v : BitVec 64), s.alive = true → s.rst.oos = false →
    let x := s.ctx c.val
    let i := (v.extractLsb' 0 12).toNat
    (width = 4 ∨ width = 8 →
      (i < 16 * 2 ^ x.sqSize → exec (.sqTail c width v) s = .next (s.setCtx c.val { x with sqTail := i })) ∧
      (16 * 2 ^ x.sqSize ≤ i → exec (.sqTail c width v) s = .next (raise 0x7011 c.val i s)) ∧
      (i < 16 * 2 ^ x.cqSize → exec (.cqHead c width v) s = .next (s.setCtx c.val { x with
        cqHead := i, cqHold := x.cqHold && decide ((x.cqTail + 1) % (16 * 2 ^ x.cqSize) = i) })) ∧
      (16 * 2 ^ x.cqSize ≤ i → exec (.cqHead c width v) s = .next (raise 0x7011 c.val i s))) ∧
    (width ≠ 4 → width ≠ 8 → exec (.sqTail c width v) s = .next s ∧ exec (.cqHead c width v) s = .next s)
  ) ∧
  (
  ∀ (s : State) (c : CtxIx) (g : BitVec 9) (n : BitVec 10), s.alive = true → s.rst.oos = false →
    let crews := (List.range n.toNat).map (g.toNat + ·)
    let bad := n = 0#10 ∨ 512 < g.toNat + n.toNat ∨ ∃ h ∈ crews, crewEnabled s h = false
    let busy := ctxBusy (s.ctx c.val) = true
    ∃ s1 s2 s3, exec (.addCrews c g n) s = .next s1 ∧ exec (.removeCrews c g n) s = .next s2 ∧
      exec (.clearBerth c) s = .next s3 ∧
      s1.berthResult = (if busy then 1 else if bad then 3
        else if ∃ h ∈ crews, (s.crew h).berth ≠ none ∧ (s.crew h).berth ≠ some c.val then 2 else 0) ∧
      s2.berthResult = (if busy then 1 else if bad then 3
        else if ∃ h ∈ crews, (s.crew h).berth ≠ some c.val then 4 else 0) ∧
      s3.berthResult = (if busy then 1 else 0) ∧
      (∀ h, (s1.crew h).berth = if s1.berthResult = 0 ∧ h ∈ crews then some c.val else (s.crew h).berth) ∧
      (∀ h, (s2.crew h).berth = if s2.berthResult = 0 ∧ h ∈ crews then none else (s.crew h).berth) ∧
      (∀ h, (s3.crew h).berth =
        if s3.berthResult = 0 ∧ (s.crew h).berth = some c.val then none else (s.crew h).berth)
  )

/-- 06 R242 to R246, R274, 01 R54, Table 6-1: EN 0 to 1 in DISABLED, EN 1 to 0 without a fetched or executing launch, the
fields that a busy context ignores, RESUME, ABORT and the end of an abort. -/
def Obligations.ContextStates : Prop :=
  (∀ (s : State) (c : CtxIx) (v : BitVec 64), s.alive = true → v.getLsbD 0 = true → (s.ctx c.val).st = .disabled →
    ctxBusy (s.ctx c.val) = false →
    let taken := v.extractLsb' 32 32 ≠ 0#32 ∧ ∃ e ∈ s.ctxs, e.1 ≠ c.val ∧ e.2.jobid = v.extractLsb' 32 32
    ∃ s' y, exec (.ctxEnable c v) s = .next s' ∧ s' = s.setCtx c.val y ∧ y.st = .running ∧ y.en = true ∧
      y.sqHead = 0 ∧ y.sqTail = 0 ∧ y.cqTail = 0 ∧ y.cqHead = 0 ∧ y.cqPhase = true ∧ y.seqNo = 0 ∧
      y.contOnFault = v.getLsbD 1 ∧ y.irqEn = v.getLsbD 2 ∧ y.limitMs = (v.extractLsb' 16 16).toNat ∧
      (taken → y.jobid = (s.ctx c.val).jobid) ∧ (¬ taken → y.jobid = v.extractLsb' 32 32) ∧
      y.sqSize = (s.ctx c.val).sqSize ∧ y.cqSize = (s.ctx c.val).cqSize ∧ y.spillLines = (s.ctx c.val).spillLines) ∧
  (∀ (s : State) (c : CtxIx) (v : BitVec 64), s.alive = true → v.getLsbD 0 = false →
    ∃ s' y, exec (.ctxDisable c v) s = .next s' ∧ s' = s.setCtx c.val y ∧
      (ctxBusy (s.ctx c.val) = true → y = { s.ctx c.val with contOnFault := v.getLsbD 1, irqEn := v.getLsbD 2 }) ∧
      (ctxBusy (s.ctx c.val) = false → ((s.ctx c.val).st = .running ∨ (s.ctx c.val).st = .stopped) →
        y.st = .disabled ∧ y.en = false)) ∧
  (∀ (s : State) (c : CtxIx), s.alive = true →
    ((s.ctx c.val).st = .stopped → exec (.resumeCtx c) s = .next (s.setCtx c.val { s.ctx c.val with st := .running })) ∧
    ((s.ctx c.val).st ≠ .stopped → exec (.resumeCtx c) s = .next s ∧ exec (.flushCtx c) s = .next s)) ∧
  (∀ (s : State) (c : CtxIx) (x : Exec), s.alive = true → (s.ctx c.val).st = .running → (s.ctx c.val).exec = some x →
    x.ending = none → (s.ctx c.val).abort = none →
    ∃ s' x', exec (.abortCmd c) s = .next s' ∧ (s'.ctx c.val).st = .aborting ∧ (s'.ctx c.val).exec = some x' ∧
      x'.ending = some { status := 0x30, csDetail := 0#32, at_ := s.now } ∧ (s'.ctx c.val).sweep = some s.now ∧
      (s'.ctx c.val).abort = some { start := s.now, quiesced := false, parts := [], stuck := [] }) ∧
  (∀ (s : State) (c : CtxIx) (a : Abort), (s.ctx c.val).st = .aborting → (s.ctx c.val).abort = some a →
    (a.quiesced = true ∧ a.parts = [] ∧ a.stuck = [] ∧ (s.ctx c.val).sweep = none ∧ (s.ctx c.val).exec = none →
      (s.ctx c.val).en = true →
      exec (.ctxStopped c) s = .next (raise 0x7012 c.val 0
        (s.setCtx c.val { s.ctx c.val with st := .stopped, abort := none, stopAfter := false }))) ∧
    (a.quiesced = false ∨ (s.ctx c.val).sweep ≠ none → exec (.ctxStopped c) s = .next s))

/-- 06 R245: FLUSH of a stopped context empties its fetched launches and its ring, a ring in host memory: SQ_HEAD becomes
SQ_TAIL, and every launch and descriptor leaves one record more, with status FLUSHED (0x06).

11 R452, R453, Table 11-5: the quiesce check 8,000 counts after an abort begins; with every tile idle the launch is done
and its Weir descriptors are freed, and before that count nothing happens. -/
def Obligations.FlushAndQuiesceResults : Prop :=
  (
  ∀ (s : State) (c : CtxIx), s.alive = true → (s.ctx c.val).st = .stopped → (s.ctx c.val).en = true →
    (s.ctx c.val).sqLoc = false → (s.ctx c.val).sqHead < 16 * 2 ^ (s.ctx c.val).sqSize →
    (s.ctx c.val).sqTail < 16 * 2 ^ (s.ctx c.val).sqSize →
    ∃ s', exec (.flushCtx c) s = .next (afterPass s s') ∧ (s'.ctx c.val).st = .stopped ∧ (s'.ctx c.val).fetched = [] ∧
      (s'.ctx c.val).sqHead = (s.ctx c.val).sqTail ∧
      (s'.ctx c.val).done.length = (s.ctx c.val).done.length + (s.ctx c.val).fetched.length +
        ((s.ctx c.val).sqTail + 16 * 2 ^ (s.ctx c.val).sqSize - (s.ctx c.val).sqHead) % (16 * 2 ^ (s.ctx c.val).sqSize) ∧
      ∀ d ∈ (s'.ctx c.val).done.drop (s.ctx c.val).done.length, d.bytes.getD 4 0#8 = 0x06#8
  ) ∧
  (
  ∀ (s : State) (c : CtxIx) (a : Abort) (x : Exec) (e : Ending), (s.ctx c.val).abort = some a →
    (s.ctx c.val).exec = some x → x.ending = some e → a.quiesced = false →
    (8000 ≤ s.since a.start →
      ∃ s', exec (.quiesceCheck c []) s = .next (afterPass s s') ∧ (s'.ctx c.val).exec = none ∧
        (∀ j ∈ s'.weir, ¬ (j.ctx = c.val ∧ j.launch = x.launch.id)) ∧
        (∀ g ∈ x.crews, (s'.crew g).heldBy = none)) ∧
    (s.since a.start < 8000 → exec (.quiesceCheck c []) s = .next s)
  )

/-- 06 R238, R246, R256, R604, 13 R523: a descriptor in a host ring is fetched at SQ_HEAD and becomes the last fetched
launch, its ID the context number over the sequence number, T_ARRIVE now; a failed host read is logged and raises
HOST_DMA_FAULT, and a running context without a launch stops. -/
def Obligations.FetchResults : Prop :=
  (∀ (s : State) (c : CtxIx), mayFetch s c.val = true → (s.ctx c.val).sqLoc = false →
    exec (.descriptorFetch c) s = .next (s.setCtx c.val { s.ctx c.val with
      fetched := (s.ctx c.val).fetched ++ [{
        id := BitVec.ofNat 32 (c.val * 2 ^ 26 + (s.ctx c.val).seqNo), sqIndex := (s.ctx c.val).sqHead, tArrive := s.now
        desc := parseDesc (bytesAt 0 s.hostMem ((s.ctx c.val).sqBase + 64 * (s.ctx c.val).sqHead) 64), admitted := false }]
      seqNo := ((s.ctx c.val).seqNo + 1) % 2 ^ 26
      sqHead := ((s.ctx c.val).sqHead + 1) % (16 * 2 ^ (s.ctx c.val).sqSize) })) ∧
  (∀ (s : State) (c : CtxIx) (k : DmaFail), mayFetch s c.val = true → (s.ctx c.val).sqLoc = false →
    ∃ s', exec (.hostDmaFault c k) s = .next s' ∧ s'.host.dmaCtx = c.val ∧ s'.host.dmaKind = hostKind k ∧
      s'.host.dmaAddr = BitVec.ofNat 64 ((s.ctx c.val).sqBase + 64 * (s.ctx c.val).sqHead) ∧
      ((s.ctx c.val).exec = none → (s'.ctx c.val).st = .stopped) ∧
      ((s.ctx c.val).exec ≠ none → (s'.ctx c.val).st = .running ∧ (s'.ctx c.val).stopAfter = true) ∧
      (s'.ctx c.val).sqHead = (s.ctx c.val).sqHead)

/-- 06 R249, R256 to R258, Table 6-7: the oldest launch in FETCHED is admitted, and CNT_ADMITTED counts it, when every check
passes; else it is done with the status of the first that fails: malformed or a catch launch without a job, too few
crews in the berth, a catch launch on a device without a place, a catch count less than 50,000 ahead, a predicted
completion after its deadline.

06 R253, R256, R259, R261, R262, R264: a pass over a device on which one context alone is running, with one admitted launch
at the head of its list whose recheck stands and which may dispatch and is eligible. Where its command stream reads (here an
END alone), it becomes the executing launch of its context on the crews of its berth with the lowest global crew
indices; where it cannot be translated, the launch is done with CSTREAM. A device that admits no launch does nothing. -/
def Obligations.AdmissionAndSchedulerResults : Prop :=
  (
  ∀ (s : State) (c : CtxIx) (i : Nat) (l : Launch), admitting s = true → (s.ctx c.val).st = .running →
    (s.ctx c.val).en = true → (s.ctx c.val).sweep = none → (s.ctx c.val).fetched.findIdx? (fun l => !l.admitted) = some i →
    (s.ctx c.val).fetched[i]? = some l →
    let x := s.ctx c.val
    let d := l.desc
    let late := d.deadline ≠ 0 ∧ d.deadline <
      startAt s d (predAhead s c.val x.fetched (execEnd x)) + duration s d (crewsFor s c.val d)
    let status : Option Nat :=
      if malformed d = true ∨ (d.isCatch = true ∧ x.jobid = 0#32) then some 0x03
      else if (berthOf s c.val).length < d.ncrew then some 0x02
      else if d.isCatch = true ∧ s.fab.placed = false then some 0x04
      else if d.isCatch = true ∧ d.catchCnt < s.now.toNat + 50000 then some 0x05
      else if late then some 0x01 else none
    (status = none → exec (.admissionCheck c) s = .next (afterPass s { s.setCtx c.val { x with
        fetched := listSet x.fetched i { l with admitted := true } } with
      cntAdmitted := satAdd 48 s.cntAdmitted 1, passMark := s.passMark + 1 })) ∧
    (∀ st, status = some st → exec (.admissionCheck c) s = .next (afterPass s (refuseLaunch c.val st l
      (s.setCtx c.val { x with fetched := listDrop x.fetched i }))))
  ) ∧
  (
  (∀ (s : State) (c : CtxIx) (l : Launch), admitting s = true →
    (∀ k, k < 64 → k ≠ c.val → headOf (s.ctx k) = none) → (s.ctx c.val).st = .running →
    (s.ctx c.val).fetched = [l] → l.admitted = true → l.desc.timed = false →
    recheckFails s c.val l = none → mayDispatch s c.val l = true →
    eligible s l.desc (crewsFor s c.val l.desc) (duration s l.desc (crewsFor s c.val l.desc)) = true →
    (∀ f, Mapped s c.val l.desc.cstream.toNat f false → l.desc.cstream.toNat % frameBytes + 16 ≤ frameBytes →
      LinesClean s (pageAddr f l.desc.cstream.toNat) 16 →
      leNat (bytesAt 0 s.hbm (pageAddr f l.desc.cstream.toNat) 16) = 0x0F →
      ∃ s' x, exec .schedulerPass s = .next (afterPass s s') ∧ (s'.ctx c.val).exec = some x ∧ (s'.ctx c.val).lastLaunch = l.id ∧
        (s'.ctx c.val).fetched = [] ∧ x.launch = l ∧ x.tDispatch = s.now ∧ x.mapEpoch = s.ump.epoch ∧
        x.crews = (berthOf s c.val).take l.desc.ncrew ∧ x.stream = [{ op := 0x0F, imm := 0#32, addr := 0#64 }] ∧
        x.ending = none ∧ ∀ g ∈ x.crews, (s'.crew g).heldBy = some c.val) ∧
    ((s.ctx c.val).bttEn = false → (s.ctx c.val).en = true → (s.ctx c.val).jobid = 0#32 →
      ∃ s' d, exec .schedulerPass s = .next (afterPass s s') ∧ (s'.ctx c.val).done = (s.ctx c.val).done ++ [d] ∧
        d.bytes.getD 4 0#8 = 0x12#8 ∧ (s'.ctx c.val).exec = none ∧ (s'.ctx c.val).fetched = [] ∧
        (s'.ctx c.val).lastLaunch = l.id)) ∧
  (∀ (s : State), admitting s = false → exec .schedulerPass s = .next s)
  )

/-- 06 R251 to R255, R264 to R269: the commands of a stream at which an executing launch stands. WAITW, WAITT and END wait
for the launch's Weir descriptors and tiles; WRITE and STAMP store through the context's translation; RUN makes every
tile of the launch wait for the code image, a catch launch's not earlier than 6,000 counts before its catch count. -/
def Obligations.CommandStreamResults : Prop :=
  (∀ (s : State) (c : CtxIx) (x : Exec) (k : Cmd), atCmd s c.val 0x01 = some (x, k) →
    (weirNextUp (s.modExec c.val (fun x => { x with weirWait := some (x.weirWait.getD s.now) })) = some c.val →
      ∃ s' x' j, exec (.weirCmd c) s = .next s' ∧ s'.weir = s.weir ++ [j] ∧ j.ctx = c.val ∧ j.launch = x.launch.id ∧
        j.addr = k.addr.toNat ∧ j.code = none ∧ (s'.ctx c.val).exec = some x' ∧ x'.next = x.next + 1 ∧ x'.began = true)) ∧
  (∀ (s : State) (c : CtxIx) (x : Exec) (k : Cmd), atCmd s c.val 0x02 = some (x, k) →
    ((∀ j ∈ s.weir, ¬ (j.ctx = c.val ∧ j.launch = x.launch.id)) → exec (.waitw c) s = .next (advance c.val s)) ∧
    ((∃ j ∈ s.weir, j.ctx = c.val ∧ j.launch = x.launch.id) → exec (.waitw c) s = .next s)) ∧
  (∀ (s : State) (c : CtxIx) (x : Exec) (k : Cmd), atCmd s c.val 0x04 = some (x, k) → x.ranAt.isSome = true →
    ((∀ e ∈ x.tiles, (s.tile e.2.2).run = .halted) → exec (.waitt c) s = .next (advance c.val s)) ∧
    ((∃ e ∈ x.tiles, (s.tile e.2.2).run ≠ .halted) → exec (.waitt c) s = .next s)) ∧
  (∀ (s s1 : State) (c : CtxIx) (x : Exec) (k : Cmd), atCmd s c.val 0x05 = some (x, k) → weirDone s c.val x = true →
    tilesDone s x = true → pageShut s c.val k.addr.toNat = false →
    writeLocal (viaDev c.val) k.addr.toNat (leBytes 4 k.imm.toNat) s = (.ok (), s1) →
    exec (.writeCmd c) s = .next (advance c.val s1)) ∧
  (∀ (s s1 : State) (c : CtxIx) (x : Exec) (k : Cmd), atCmd s c.val 0x06 = some (x, k) →
    pageShut s c.val k.addr.toNat = false →
    writeLocal (viaDev c.val) k.addr.toNat (leBytes 8 s.now.toNat) s = (.ok (), s1) →
    exec (.stampCmd c) s = .next (advance c.val s1)) ∧
  (∀ (s s1 : State) (c : CtxIx) (x : Exec) (k : Cmd) (bs : List Byte), atCmd s c.val 0x03 = some (x, k) →
    x.launch.desc.isCatch = false → rangeShut s c.val x.launch.desc.code.toNat (4 * x.launch.desc.codeWords) = false →
    readLocal (viaDev c.val) x.launch.desc.code.toNat (4 * x.launch.desc.codeWords) s = (.ok bs, s1) →
    (s1.ctx c.val).exec = some x → x.pair = none →
    ∃ s' x', exec (.runCmd c) s = .next s' ∧ (s'.ctx c.val).exec = some x' ∧ x'.next = x.next + 1 ∧
      x'.ranAt = some s1.now ∧ x'.image = (List.range x.launch.desc.codeWords).map (fun i =>
        BitVec.ofNat 32 (leNat ((bs.drop (4 * i)).take 4))) ∧
      (∀ e ∈ x.tiles, (s'.tile e.2.2).run = .waitCode ∧ (s'.tile e.2.2).job = .launch ∧
        (s'.tile e.2.2).launchId = x.launch.id ∧ (s'.tile e.2.2).ctx = c.val)) ∧
  (∀ (s : State) (c : CtxIx) (x : Exec) (k : Cmd), atCmd s c.val 0x03 = some (x, k) → x.launch.desc.isCatch = true →
    s.now.toNat + 6000 < x.launch.desc.catchCnt → exec (.runCmd c) s = .next s) ∧
  (∀ (s : State) (c : CtxIx) (x : Exec) (k : Cmd), atCmd s c.val 0x0F = some (x, k) →
    (weirDone s c.val x = true → tilesDone s x = true → x.pair = none → (s.ctx c.val).wakeEn = false →
      (s.ctx c.val).en = true → easyAllHere s c.val = false →
      ∃ s' d, exec (.endStream c) s = .next (afterPass s s') ∧ (s'.ctx c.val).exec = none ∧
        (s'.ctx c.val).done = (s.ctx c.val).done ++ [d] ∧
        d.bytes.getD 4 0#8 = BitVec.ofNat 8
          (if x.pinLost then 0x21
           else if x.launch.desc.deadline ≠ 0 ∧ x.launch.desc.deadline < s.now.toNat then 0x07 else 0x00) ∧
        d.bytes.length = 128) ∧
    (weirDone s c.val x = false ∨ tilesDone s x = false ∨ easyAllHere s c.val = true →
      exec (.endStream c) s = .next s))

/-- 06 R239, R241, R267, R268: a completion record goes to its entry of a ring in host memory with the PHASE of this pass,
CQ_TAIL moves on and the interrupt is raised where IRQ_EN is 1; a full ring holds the record and raises CQ_FULL once.
TIME_LIMIT ends a launch that has executed longer than LIMIT_MS; a pin ends at its time. -/
def Obligations.LaunchEndResults : Prop :=
  (∀ (s : State) (c : CtxIx) (d : Done), s.alive = true → (s.ctx c.val).done = [d] → (s.ctx c.val).cqLoc = false →
    s.host.attached = true →
    let x := s.ctx c.val
    let a := x.cqBase + 128 * x.cqTail
    let size := 16 * 2 ^ x.cqSize
    ((x.cqTail + 1) % size ≠ x.cqHead →
      ∃ s', exec (.completionRecordWrite c) s = .next s' ∧ (s'.ctx c.val).done = [] ∧
        (s'.ctx c.val).cqTail = (x.cqTail + 1) % size ∧
        (s'.ctx c.val).cqPhase = (if (x.cqTail + 1) % size = 0 then !x.cqPhase else x.cqPhase) ∧
        bytesAt 0 s'.hostMem a d.bytes.length = listSet d.bytes 5
          (d.bytes.getD 5 0#8 ||| (if x.cqPhase then 0x80#8 else 0x00#8)) ∧
        (∀ b, b < a ∨ a + d.bytes.length ≤ b → Tbl.look 0#8 b s'.hostMem = Tbl.look 0#8 b s.hostMem) ∧
        s'.msix = if x.irqEn then s.msix ++ [c.val] else s.msix) ∧
    ((x.cqTail + 1) % size = x.cqHead →
      (x.cqHold = true → exec (.completionRecordWrite c) s = .next s) ∧
      (x.cqHold = false → exec (.completionRecordWrite c) s = .next (raise 0x7010 c.val (leNat (d.bytes.take 4))
        (s.setCtx c.val { x with cqHold := true }))))) ∧
  (∀ (s : State) (c : CtxIx) (x : Exec), (s.ctx c.val).exec = some x → x.ending = none → (s.ctx c.val).abort = none →
    ((s.ctx c.val).limitMs ≠ 0 → (s.ctx c.val).limitMs * 1000000 < s.since x.tDispatch → x.began = true →
      ∃ s' x', exec (.timeLimit c) s = .next (afterPass s s') ∧ (s'.ctx c.val).exec = some x' ∧
        x'.ending = some { status := 0x13, csDetail := 0#32, at_ := s.now } ∧ (s'.ctx c.val).sweep = some s.now) ∧
    ((s.ctx c.val).limitMs = 0 ∨ s.since x.tDispatch ≤ (s.ctx c.val).limitMs * 1000000 →
      exec (.timeLimit c) s = .next s)) ∧
  (∀ (s : State) (c : CtxIx) (x : Exec) (e : Nat), (s.ctx c.val).exec = some x → x.pinEnd = some e →
    e ≤ s.now.toNat →
    ∃ s', exec (.pinExpired c) s = .next s' ∧
      s' = s.setCtx c.val { s.ctx c.val with exec := some { x with pinEnd := none, pinExpired := true } })

/-! ### Memory and Weir (05) -/

/-- 05 R204, R207, R607, Table 5-3: RESULT of each frame command, the first check that fails deciding it, what it makes of
the frame, and the fields that describe it; every other frame is unchanged, and a refused command changes none. -/
def Obligations.FrameCommandResults : Prop :=
  ∀ (s : State) (c : CtxIx) (frame : BitVec 18), s.alive = true → s.rst.oos = false →
    let f := frame.toNat
    let x := s.frame f
    let reports := fun (s' : State) => s'.fcState = (s'.frame f).st.code ∧ s'.fcScrub = (s'.frame f).scrub ∧
      s'.fcOwner = (s'.frame f).owner
    ∃ s1 s2 s3 s4, exec (.assignOwned frame c) s = .next s1 ∧ exec (.assignSystem frame) s = .next s2 ∧
      exec (.releaseFrame frame) s = .next s3 ∧ exec (.queryFrame frame) s = .next s4 ∧
      s1.fcResult = (if 196607 < f then 3 else if (s.ctx c.val).sweep ≠ none then 2 else if x.st = .free then 0 else 1) ∧
      s2.fcResult = (if 196607 < f then 3 else if x.st = .free then 0 else 1) ∧
      s3.fcResult = (if 196607 < f then 3
        else if x.st = .owned ∨ x.st = .system ∨ (x.st = .poisoned ∧ x.scrub = false) then 0 else 1) ∧
      s4.fcResult = (if 196607 < f then 3 else 0) ∧
      (∀ g, s1.frame g = if s1.fcResult = 0 ∧ g = f then { st := .owned, owner := c.val, scrub := false } else s.frame g) ∧
      (∀ g, s2.frame g = if s2.fcResult = 0 ∧ g = f then { s.frame g with st := .system, scrub := false } else s.frame g) ∧
      (∀ g, s3.frame g = if s3.fcResult = 0 ∧ g = f then { s.frame g with st := .poisoned, scrub := true } else s.frame g) ∧
      s4.frames = s.frames ∧
      (∀ s' ∈ [s1, s2, s3, s4], (f ≤ 196607 → reports s') ∧
        (196607 < f → s'.fcState = s.fcState ∧ s'.fcScrub = s.fcScrub ∧ s'.fcOwner = s.fcOwner) ∧
        s'.hbm = s.hbm ∧ s'.ctxs = s.ctxs)

/-- 05 R206, R207: a sweep that has taken 24,576 cycles of MCLK (12,288 counts) makes every frame of the context POISONED
with SCRUB_PENDING 0 and clears its bit; before that nothing happens. The scrubber of a stack ends the lowest frame
whose SCRUB_PENDING is 1: it is FREE and reads as zero; no other frame and no other byte changes.

05 R212: a write of BTT_INVAL with GO starts an invalidation, whose end drops the entries of the page, or of every page of
the context, from every translation cache, keeps every other entry, and reads GO as 0. -/
def Obligations.SweepScrubAndInvalidation : Prop :=
  (
  (∀ (s : State) (c : CtxIx) (a : BitVec 64), (s.ctx c.val).sweep = some a →
    (12288 ≤ s.since a →
      ∃ s', exec (.frameSweepDone c) s = .next s' ∧ (s'.ctx c.val).sweep = none ∧
        (∀ f, s'.frame f = if (s.frame f).st = .owned ∧ (s.frame f).owner = c.val
          then { s.frame f with st := .poisoned, scrub := false } else s.frame f)) ∧
    (s.since a < 12288 → exec (.frameSweepDone c) s = .next s)) ∧
  (∀ (s : State) (k : PartIx) (f : Nat), timedRuns s = false → (s.part k.val).reset = none →
    (s.stk k.val).trained = true → f / 24576 = k.val → (s.frame f).st = .poisoned → (s.frame f).scrub = true →
    (∀ g, g < f → g / 24576 = k.val → ¬ ((s.frame g).st = .poisoned ∧ (s.frame g).scrub = true)) →
    ∃ s', exec (.scrubFrameDone k) s = .next s' ∧ (s'.frame f).st = .free ∧ (∀ g, g ≠ f → s'.frame g = s.frame g) ∧
      (∀ a, Tbl.look 0#8 a s'.hbm = if a / 0x200000 = f then 0 else Tbl.look 0#8 a s.hbm) ∧
      (∀ l, Tbl.look LineErr.none l s'.lineErr = if l / 32768 = f then .none else Tbl.look LineErr.none l s.lineErr)) ∧
  (∀ (s : State) (k : PartIx), timedRuns s = true → exec (.scrubFrameDone k) s = .next s)
  ) ∧
  (
  ∀ (s : State) (v : BitVec 64), s.alive = true → s.btiGo = false → v.getLsbD 63 = true →
    ∃ s1 s2, exec (.bttInval v) s = .next s1 ∧ exec .bttInvalDone s1 = .next s2 ∧
      s1 = { s with btiCtx := (v.extractLsb' 0 6).toNat, btiPage := (v.extractLsb' 6 21).toNat, btiAll := v.getLsbD 62
                    btiGo := true
                    btiNow := ((v.extractLsb' 0 6).toNat, (v.extractLsb' 6 21).toNat, v.getLsbD 62) } ∧
      s2.btiGo = false ∧ exec .bttInvalDone s = .next s ∧
      (∀ v2 : BitVec 64, exec (.bttInval v2) s1 = .next { s1 with
        btiCtx := (v2.extractLsb' 0 6).toNat, btiPage := (v2.extractLsb' 6 21).toNat, btiAll := v2.getLsbD 62 }) ∧
      (∀ k, k < 9 → ∀ e, e ∈ Tbl.look [] k s2.tcache ↔
        e ∈ Tbl.look [] k s.tcache ∧
          ¬ (e.ctx = (v.extractLsb' 0 6).toNat ∧ (v.getLsbD 62 = true ∨ e.page = (v.extractLsb' 6 21).toNat)))
  )

/-- 05 R221, R222: FILL writes PATTERN to every 4 bytes of its range, and GATHER the row of each index, zeros for one at or
above NROWS, which is counted: ranges that lie in one page each, the destination in a frame of its own. A descriptor
that breaks a condition ends with code DESC and writes nothing; it is logged, and its launch ends with WEIR_FAULT (0x11)
in the same step. -/
def Obligations.FillAndGatherResults : Prop :=
  (∀ (s : State) (i : Nat) (j : WeirJob) (f fd : Nat) (d : WDesc), WeirReady s i j f d → d.op = 3 →
    Mapped s j.ctx d.dst fd false → d.dst % frameBytes + 64 * d.count ≤ frameBytes →
    ∃ s', exec (.weirFill i) s = .next s' ∧ WeirWrote s s' i j (pageAddr fd d.dst) (64 * d.count) ∧
      (∀ b, b < 64 * d.count → Tbl.look 0#8 (pageAddr fd d.dst + b) s'.hbm = BitVec.ofNat 8 (d.pattern / 2 ^ (8 * (b % 4))))) ∧
  (∀ (s : State) (i : Nat) (j : WeirJob) (f fd fx ft : Nat) (d : WDesc), WeirReady s i j f d → d.op = 0 →
    Mapped s j.ctx d.dst fd false → d.dst % frameBytes + d.count * d.rowBytes ≤ frameBytes →
    Mapped s j.ctx d.idx fx false → d.idx % frameBytes + 4 * d.count ≤ frameBytes →
    Mapped s j.ctx d.table ft false → d.table % frameBytes + d.nrows * d.rowBytes ≤ frameBytes →
    fd ≠ fx → fd ≠ ft → LinesClean s (pageAddr fx d.idx) (4 * d.count) →
    LinesClean s (pageAddr ft d.table) (d.nrows * d.rowBytes) →
    let x := fun r => (wordAt s (pageAddr fx d.idx + 4 * r)).toNat
    ∃ s', exec (.weirGather i) s = .next s' ∧ WeirWrote s s' i j (pageAddr fd d.dst) (d.count * d.rowBytes) ∧
      (∀ r b, r < d.count → b < d.rowBytes → Tbl.look 0#8 (pageAddr fd d.dst + r * d.rowBytes + b) s'.hbm =
        if x r < d.nrows then Tbl.look 0#8 (pageAddr ft d.table + x r * d.rowBytes + b) s.hbm else 0) ∧
      (s'.ctx j.ctx).oor = forUp (fun _ n => satAdd 48 n 1) 0
        ((List.range d.count).filter (fun r => decide (d.nrows ≤ x r))).length (s.ctx j.ctx).oor) ∧
  (∀ (s : State) (i : Nat) (j : WeirJob) (f : Nat), s.weir[i]? = some j → j.code = none → (s.ctx j.ctx).abort = none →
    (∀ k, (s.part k).reset = none) → j.addr % frameBytes + 64 ≤ frameBytes → Mapped s j.ctx j.addr f false →
    LinesClean s (pageAddr f j.addr) 64 → weirOk (parseWeir (bytesAt 0 s.hbm (pageAddr f j.addr) 64)) = false →
    ∀ x, (s.ctx j.ctx).exec = some x → x.launch.id = j.launch → x.ending = none → x.began = true →
    ∀ c ∈ [Instr.weirGather i, .weirSegsum i, .weirAtomadd i, .weirFill i],
      ∃ s' x', exec c s = .next s' ∧ s'.weir = listSet s.weir i { j with code := some 1, fadr := 0 } ∧ s'.hbm = s.hbm ∧
        s'.wfCtx = j.ctx ∧ s'.wfCode = 1 ∧ s'.wfAddr = 0 ∧ (s'.ctx j.ctx).exec = some x' ∧
        x'.ending = some { status := 0x11, csDetail := BitVec.ofNat 32 (j.cmdIx % 256 + 0x0A00), at_ := s.now } ∧
        (x.pair = none → s'.tiles = s.tiles))

/-- 05 R222, R223: ATOMADD adds each record's value, in FP32, to the element of its key, in record order, and drops and counts
a key at or above NROWS; the key 0xFFFF_FFFF is skipped. SEGSUM sums each segment's rows element by element from
+0.0, rounding each sum to FP32. Ranges lie in one page each, the destination in a frame of its own. -/
def Obligations.AtomicAndSegmentSums : Prop :=
  (∀ (s : State) (i : Nat) (j : WeirJob) (f fd fx : Nat) (d : WDesc), WeirReady s i j f d → d.op = 2 → d.fmt = 0 →
    Mapped s j.ctx d.dst fd false → d.dst % frameBytes + 4 * d.nrows ≤ frameBytes →
    Mapped s j.ctx d.idx fx false → d.idx % frameBytes + 8 * d.count ≤ frameBytes → fd ≠ fx →
    LinesClean s (pageAddr fx d.idx) (8 * d.count) → LinesClean s (pageAddr fd d.dst) (4 * d.nrows) →
    d.nrows ≤ 0xFFFFFFFF →
    let key := fun r => (wordAt s (pageAddr fx d.idx + 8 * r)).toNat
    let val := fun r => wordAt s (pageAddr fx d.idx + 8 * r + 4)
    ∃ s', exec (.weirAtomadd i) s = .next s' ∧ WeirWrote s s' i j (pageAddr fd d.dst) (4 * d.nrows) ∧
      (∀ k, k < d.nrows → wordAt s' (pageAddr fd d.dst + 4 * k) =
        ((List.range d.count).filter (fun r => decide (key r = k))).foldl (fun acc r => (fpAdd acc (val r)).1)
          (wordAt s (pageAddr fd d.dst + 4 * k))) ∧
      (s'.ctx j.ctx).oor = forUp (fun _ n => satAdd 48 n 1) 0
        ((List.range d.count).filter (fun r => decide (d.nrows ≤ key r ∧ key r ≠ 0xFFFFFFFF))).length (s.ctx j.ctx).oor) ∧
  (∀ (s : State) (i : Nat) (j : WeirJob) (f fd fx fo ft : Nat) (d : WDesc), WeirReady s i j f d → d.op = 1 →
    Mapped s j.ctx d.dst fd false →
    d.dst % frameBytes + d.nseg * (4 * (d.rowBytes / segElem d.fmt)) ≤ frameBytes →
    Mapped s j.ctx d.idx fx false → d.idx % frameBytes + 4 * d.count ≤ frameBytes →
    Mapped s j.ctx d.offs fo false → d.offs % frameBytes + 4 * (d.nseg + 1) ≤ frameBytes →
    Mapped s j.ctx d.table ft false → d.table % frameBytes + d.nrows * d.rowBytes ≤ frameBytes →
    fd ≠ fx → fd ≠ fo → fd ≠ ft → d.count ≠ 0 → LinesClean s (pageAddr fx d.idx) (4 * d.count) →
    LinesClean s (pageAddr fo d.offs) (4 * (d.nseg + 1)) → LinesClean s (pageAddr ft d.table) (d.nrows * d.rowBytes) →
    LinesClean s (pageAddr fd d.dst) (d.nseg * (4 * (d.rowBytes / segElem d.fmt))) →
    let offs := fun g => (wordAt s (pageAddr fo d.offs + 4 * g)).toNat
    let x := fun r => (wordAt s (pageAddr fx d.idx + 4 * r)).toNat
    let row := fun r => segRow d.fmt (bytesAt 0 s.hbm (pageAddr ft d.table + x r * d.rowBytes) d.rowBytes)
    (∀ g, g < d.nseg → offs g ≤ offs (g + 1) ∧ offs (g + 1) ≤ d.count) →
    ∃ s', exec (.weirSegsum i) s = .next s' ∧
      WeirWrote s s' i j (pageAddr fd d.dst) (d.nseg * (4 * (d.rowBytes / segElem d.fmt))) ∧
      (∀ g e, g < d.nseg → e < d.rowBytes / segElem d.fmt →
        wordAt s' (pageAddr fd d.dst + g * (4 * (d.rowBytes / segElem d.fmt)) + 4 * e) =
          (fpAdd 0#32 (((List.range (offs (g + 1) - offs g)).filter (fun r => decide (x (offs g + r) < d.nrows))).foldl
            (fun acc r => (fpAdd acc ((row (offs g + r)).getD e 0#32)).1) 0#32)).1))

/-- 05 R223, R225, R228, 06 R255, 07 R298: a single atomic add stores round_fp32(w + v) and is acknowledged, to its tile or
by a packet. A completed descriptor frees its place, and the WEIR command that has waited longest issues. -/
def Obligations.SingleAtomsAndCompletion : Prop :=
  (∀ (s : State) (i : Nat) (a : AtomReq) (f : Nat), s.atoms[i]? = some a → a.acked = false →
    (∀ k, (s.part k).reset = none) → Mapped s a.ctx a.loc f a.tile.isNone → a.loc % 4 = 0 →
    LinesClean s (pageAddr f a.loc) 4 →
    ∃ s', exec (.singleAtomadd i) s = .next s' ∧
      wordAt s' (pageAddr f a.loc) = (if a.tile = none ∧ a.pkt = none then wordAt s (pageAddr f a.loc)
        else (fpAdd (wordAt s (pageAddr f a.loc)) a.val).1) ∧
      (∀ b, b < pageAddr f a.loc ∨ pageAddr f a.loc + 4 ≤ b → Tbl.look 0#8 b s'.hbm = Tbl.look 0#8 b s.hbm) ∧
      (a.tile.isSome = true → s'.atoms = listSet s.atoms i { a with acked := true }) ∧
      (a.tile = none → s'.atoms = listDrop s.atoms i ∧ ∀ q, a.pkt = some q → q.src ≠ s.devNo →
        ∃ z, s'.fab.queue = s.fab.queue ++ [z] ∧ z.pkt = replyTo s q .replyAck 0 [] q.loc)) ∧
  (∀ (s : State) (i : Nat) (j : WeirJob), s.weir[i]? = some j →
    (j.code = none → exec (.weirDescComplete i) s = .next s) ∧
    (j.code ≠ none → exec (.weirDescComplete i) s = .next (issueWaiting { s with weir := listDrop s.weir i })))

/-- 09 R378, R379, R381, R383, R608: a partition's temperature is its highest effective reading, its band and its sampling
interval follow with their hysteresis; a diode off its model for the 50th sample becomes suspect and reads as its
neighbours' maximum plus 3 °C; a blind partition with one adjacent partition that is not blind reads as that one plus
3 °C; a thermal trip removes device power, and the card controller records code 1.

05 R217, R218, Table 5-5, Table 9-9: a stack's band is the higher of its partition's and its own report's; a refresh of a
channel takes the multiplier of the band, and the preset of a stack becomes CONSERVATIVE in band 4, with
MEM_PRESET_CHANGE, and standard below. -/
def Obligations.HeatResults : Prop :=
  (
  (∀ (s : State) (g : Fin 10) (raws : List Int) (t : Int), s.alive = true → g.val < 8 → raws.length = 8 →
    (∀ d, d / 8 = g.val → (diode s d).suspect = false ∧ (diode s d).bad < 49) → t ∈ raws → (∀ r ∈ raws, r ≤ t) →
    ∃ s', exec (.thermSample g raws) s = .next s' ∧ (s'.part g.val).temp = t ∧ (s'.part g.val).blind = false ∧
      (s'.part g.val).band = nextBand (s.part g.val).band t ∧
      Tbl.look 0 g.val s'.pwr.ivals = nextIval (Tbl.look 0 g.val s.pwr.ivals) t ∧
      (∀ k, k < 8 → (diode s' (8 * g.val + k)).eff = raws.getD k 0 ∧ (diode s' (8 * g.val + k)).raw = raws.getD k 0) ∧
      (∀ d, d / 8 ≠ g.val → diode s' d = diode s d) ∧
      (∀ p, p ≠ g.val → s'.part p = { s.part p with temp := (s'.part p).temp }) ∧
      (∀ p, p ≠ g.val → (s.part p).blind = false → s'.part p = s.part p) ∧
      (∀ p, p < 8 → (p = g.val + 1 ∨ g.val = p + 1) → (s.part p).blind = true →
        (∀ q, q < 8 → q ≠ g.val → (q = p + 1 ∨ p = q + 1) → (s.part q).blind = true) → (s'.part p).temp = t + 24)) ∧
  (∀ (s : State) (g : Fin 10) (raws : List Int) (k : Nat) (m : Int), s.alive = true → g.val < 8 → raws.length = 8 → k < 8 →
    (diode s (8 * g.val + k)).suspect = false → (diode s (8 * g.val + k)).bad = 49 →
    Tbl.look 0 (8 * g.val + k) s.fuses.calib = 0 →
    (∀ d, d / 8 = g.val → d ≠ 8 * g.val + k → (diode s d).suspect = false ∧ (diode s d).bad < 49) →
    (∀ j, j < 8 → j ≠ k → raws.getD j 0 = m) →
    (∀ d ∈ neighboursOf (8 * g.val + k), d / 8 ≠ g.val →
      (diode s d).suspect = false ∧ (diode s d).raw = m ∧ (diode s d).eff = m) →
    48 < (raws.getD k 0 - m).natAbs →
    ∃ s', exec (.thermSample g raws) s = .next s' ∧ (diode s' (8 * g.val + k)).suspect = true ∧
      (diode s' (8 * g.val + k)).eff = m + 24) ∧
  (∀ (now : Nat) (t : Int), now < 5 →
    (nextBand now t = if now ≤ bandOf t then bandOf t else if t ≤ bandLow now - 24 then bandOf t else now) ∧
    (bandOf t = 0 ↔ t < 8 * 45) ∧ (bandOf t = 1 ↔ 8 * 45 ≤ t ∧ t < 8 * 70) ∧ (bandOf t = 2 ↔ 8 * 70 ≤ t ∧ t < 8 * 85) ∧
    (bandOf t = 3 ↔ 8 * 85 ≤ t ∧ t < 8 * 95) ∧ (bandOf t = 4 ↔ 8 * 95 ≤ t)) ∧
  (∀ (s : State) (p : PartIx), s.alive = true → s.card.input = true →
    ∃ s', exec (.thermtrip p) s = .next s' ∧ s'.card.power = false ∧ s'.card.offCode = 1 ∧ s'.parts = [] ∧ s'.ctxs = [] ∧
      s'.tiles = [] ∧ s'.flash = s.flash ∧ s'.hostMem = s.hostMem ∧ s'.platform = s.platform ∧ s'.msix = s.msix)
  ) ∧
  (
  (∀ (s : State) (k : PartIx) (t : Int), s.alive = true →
    exec (.stackTemperatureReport k t) s = .next (s.setStk k.val { s.stk k.val with
      temp := t, ownBand := bandOf t, band := Nat.max (s.part k.val).band (bandOf t) })) ∧
  (∀ (s : State) (k : PartIx) (ch : ChanIx), s.alive = true → (s.stk k.val).trained = true →
    (s.part k.val).reset = none →
    ∃ s', exec (.hbmRefresh k ch) s = .next s' ∧
      (∀ m, Tbl.look 0 m (s'.stk k.val).refmult = if m = ch.val
        then (if (s.stk k.val).band < 2 then 0 else if (s.stk k.val).band = 2 then 1 else 2)
        else Tbl.look 0 m (s.stk k.val).refmult) ∧
      (∀ m, m ≠ k.val → s'.stk m = s.stk m) ∧ s'.hbm = s.hbm) ∧
  (∀ (s : State) (k : PartIx), s.alive = true → (s.stk k.val).trained = true → (s.part k.val).reset = none →
    ((s.stk k.val).conserv = decide ((s.stk k.val).band = 4) → exec (.memPresetChange k) s = .next s) ∧
    ((s.stk k.val).conserv ≠ decide ((s.stk k.val).band = 4) → exec (.memPresetChange k) s =
      .next (raise 0x2005 k.val (s.stk k.val).band
        (s.setStk k.val { s.stk k.val with conserv := decide ((s.stk k.val).band = 4) }))))
  )

/-! ### The Reach fabric (07) and Stroke (08) -/

/-- 07 R286, R287, Table 7-9, 01 R39, 12 R478, 14 R563, R570: START is the firmware's write of what the card controller
delivers, the straps and the rack's RACK and RACKS, or zeros without a rack; another value is not it, and FAB_CFG is
ignored once START has been set. START refuses a size or a configuration, places a device of no fabric at once, or
begins training on every port; a device in training is placed when every port has reached UP or DOWN or 500 ms have
passed, with the number of its tray and slot. That the number is in use before DEV_NUM shows it is log 41. -/
def Obligations.PlacementResults : Prop :=
  (∀ (s : State) (v : BitVec 64), s.alive = true →
    (s.fab.start ≠ none ∨ v ≠ bringUp s → exec (.fabStart v) s = .next s) ∧
    (s.fab.start = none → pastMaps s = true → (s.card.rackPresent = true → s.card.delivered = true) → v = bringUp s →
      let c := s.card
      let racks := if c.rackPresent then c.racks.toNat else 0
      (racks = 0 → ∃ s', exec (.fabStart v) s = .next s' ∧ s'.fab.place = .placed ∧ s'.fab.placed = true ∧
        s'.fab.devNum = 0#14 ∧ s'.fab.machine = 1 ∧ s'.stroke.st = .master ∧ s'.fab.ports = s.fab.ports) ∧
      (256 < racks → ∃ s', exec (.fabStart v) s = .next s' ∧ s'.fab.place = .refusedSize ∧
        s'.fab.placed = s.fab.placed ∧ s'.fab.ports = s.fab.ports) ∧
      (racks ≠ 0 → racks ≤ 256 → racks ≤ c.rack.toNat → ∃ s', exec (.fabStart v) s = .next s' ∧
        s'.fab.place = .refusedCfg ∧ s'.fab.placed = s.fab.placed ∧ s'.fab.ports = s.fab.ports) ∧
      (racks ≤ 256 → c.rack.toNat < racks → ∃ s', exec (.fabStart v) s = .next s' ∧ s'.fab.place = .training ∧
        s'.fab.start = some s.now ∧ s'.fab.racks = c.racks ∧ s'.fab.rack = c.rack ∧
        s'.devNo.toNat = 64 * c.rack.toNat + 4 * c.tray.toNat + c.slot.toNat ∧ s'.fab.devNum = s.fab.devNum ∧
        s'.fab.machine = s.fab.machine ∧
        (∀ n, n < 12 → s'.port n = { s.port n with attempts := 1, st := .detect, since := s.now, reeq := none })))) ∧
  (∀ (s : State) (a : BitVec 64), s.fab.start = some a → s.fab.place = .training →
    ((∀ n, n < 12 → (s.port n).settled = true) ∨ 500000000 ≤ s.since a →
      ∃ s', exec .fabPlaced s = .next s' ∧ s'.fab.place = .placed ∧ s'.fab.placed = true ∧
        s'.fab.devNum = s.devNo ∧ s'.fab.machine = 64 * s.fab.racks.toNat ∧ s'.fab.ports = s.fab.ports) ∧
    ((∃ n, n < 12 ∧ (s.port n).settled = false) → s.since a < 500000000 → exec .fabPlaced s = .next s))

/-- 07 R289, R290, R293, R296, R322, Tables 7-1 and 7-3: each event of a port's training in its state: signal and its
timeout, rates, equalisation and its fallback, the lane check, the partner's identity, retraining and its fourth time in
10 s, TRAIN, DOWN, whose port's packets are routed again, and in-service re-equalisation. -/
def Obligations.PortTrainingResults : Prop :=
  ∀ (s : State) (n : PortIx),
    let x := s.port n.val
    let age := s.since x.since
    (x.st = .detect → age ≤ 10000000 → ∃ s', exec (.detectSignal n) s = .next s' ∧
      OnlyPort s s' n.val { x with st := .rate, since := s.now, reeq := none }) ∧
    (x.st = .detect → notAfter x.since s.now = true → 10000000 ≤ age →
      exec (.detectTimeout n) s = .next (s.setPort n.val { x with since := x.since + 100000000#64 })) ∧
    (∀ r2, x.st = .rate → 1000000 ≤ age → ∃ s', exec (.rateExchange n r2) s = .next s' ∧
      OnlyPort s s' n.val { x with
        rate2 := r2, fallback := false, st := .eq, since := s.now, reeq := none, conserv := wantConserv s }) ∧
    (x.st = .eq → age ≤ 20000000 → ∃ s', exec (.eqDone n true) s = .next s' ∧
      OnlyPort s s' n.val { x with st := .lanes, since := s.now, reeq := none }) ∧
    (x.st = .eq → 20000000 ≤ age → ∃ s', exec (.eqDone n false) s = .next s' ∧
      (x.rate2 = true → OnlyPort s s' n.val { x with
        rate2 := false, fallback := true, st := .eq, since := s.now, reeq := none, conserv := wantConserv s }) ∧
      (x.rate2 = false → AttemptEnds s s' n.val 1 x)) ∧
    (∀ mask : BitVec 8, x.st = .lanes → 1000000 ≤ age → ∃ s', exec (.lanesCheck n mask) s = .next s' ∧
      let lower := mask.extractLsb' 0 4 = 0xF#4
      let upper := mask.extractLsb' 4 4 = 0xF#4
      (lower → upper → OnlyPort s s' n.val { x with
        goodLanes := mask, half := false, st := .ident, since := s.now, reeq := none }) ∧
      ((lower ∧ ¬ upper) ∨ (upper ∧ ¬ lower) → OnlyPort s s' n.val { x with
        goodLanes := mask, half := true, st := .ident, since := s.now, reeq := none }) ∧
      (¬ lower → ¬ upper → AttemptEnds s s' n.val 2 { x with goodLanes := mask })) ∧
    (∀ who : Ident, x.st = .ident → ∃ s', exec (.ident n who) s = .next s' ∧
      let right := (who.rack.toNat, who.x.toNat, who.y.toNat, who.z.toNat) = neighbour s.fab n.val ∧
        who.port.val = partnerPort n.val
      (who.racks ≠ s.fab.racks → (s'.port n.val).st = .down ∧ (s'.port n.val).downReason = 4) ∧
      (who.racks = s.fab.racks → ¬ right → (s'.port n.val).st = .down ∧ (s'.port n.val).downReason = 3) ∧
      (who.racks = s.fab.racks → right → (s'.port n.val).st = .up ∧ (s'.port n.val).partnerRack = some who.rack ∧
        (x.ctlq = [] → s'.sent = s.sent ++ x.replay.map (fun f => (n.val, { f with ack := x.rxSeq - 1, hit := true }))))) ∧
    (∀ lost, x.st = .up →
      lost = true ∨ 1000 < ((x.resends.filter (fun e => decide (s.since e.1 ≤ 1000000))).map (fun e => e.2)).sum →
      ∃ s', exec (.linkRetrain n lost) s = .next s' ∧
        ((x.retrains.filter (fun a => decide (s.since a < 10000000000))).length < 3 →
          (s'.port n.val).st = .eq ∧ (s'.port n.val).replay = x.replay) ∧
        (3 ≤ (x.retrains.filter (fun a => decide (s.since a < 10000000000))).length →
          (s'.port n.val).st = .down ∧ (s'.port n.val).downReason = 5)) ∧
    (s.alive = true →
      (x.st = .down → ∃ s', exec (.portTrain n) s = .next s' ∧ (s'.port n.val).st = .detect ∧
        (s'.port n.val).attempts = 1 ∧ ∀ m, m ≠ n.val → s'.port m = s.port m) ∧
      (x.st ≠ .down → exec (.portTrain n) s = .next s) ∧
      (x.st ≠ .off → ∃ s', exec (.portDown n) s = .next s' ∧ (s'.port n.val).st = .down ∧
        (s'.port n.val).downReason = 6 ∧ (s'.port n.val).replay = [] ∧
        (let back := x.replay.filterMap (·.pkt) ++ x.ctlq
         (∀ q ∈ back, q.dest ≠ s.devNo ∧ (q.ptype = .read ∨ q.ptype = .write ∨ q.ptype = .replyData ∨
           q.ptype = .replyAck ∨ q.ptype = .replyFault)) →
         (s'.fab.queue.drop s.fab.queue.length).map (·.pkt) = back)) ∧
      (x.st = .off → exec (.portDown n) s = .next s)) ∧
    (x.st = .up → x.reeq = none → x.conserv ≠ wantConserv s → (s.port (sibling n.val)).reeq = none →
      exec (.portReequalise n) s = .next (s.setPort n.val { x with conserv := wantConserv s, reeq := some s.now })) ∧
    ((s.port (sibling n.val)).reeq ≠ none → exec (.portReequalise n) s = .next s) ∧
    (∀ a, x.reeq = some a → (40000 ≤ s.since a → x.ctlq = [] →
        exec (.portReeqDone n) s = .next (s.setPort n.val { x with reeq := none })) ∧
      (s.since a < 40000 → exec (.portReeqDone n) s = .next s))

/-- 07 R292: a flit whose check fails, and every flit after it, is discarded, and a NAK names the number expected; a flit of
that number is delivered once, and what it acknowledges leaves the replay buffer. A NAK makes the sender resend
from the named flit, in order. -/
def Obligations.RetryResults : Prop :=
  ∀ (s : State) (n : PortIx) (seq ack : BitVec 12) (pkt : Option Packet) (esc : Option Bool),
    (s.port n.val).carries = true →
    let x := s.port n.val
    (∃ s', exec (.flitReceive n seq false pkt ack esc) s = .next s' ∧ s'.fab.arrived = s.fab.arrived ∧
      s'.fab.queue = s.fab.queue ∧ (s'.port n.val).crc = satAdd 48 x.crc 1 ∧ (s'.port n.val).rxSeq = x.rxSeq ∧
      (x.nak = false → s'.naks = s.naks ++ [(n.val, x.rxSeq)]) ∧ (s'.port n.val).nak = true) ∧
    (seq ≠ x.rxSeq → ∃ s', exec (.flitReceive n seq true pkt ack esc) s = .next s' ∧ s'.fab.arrived = s.fab.arrived ∧
      s'.fab.queue = s.fab.queue ∧ (s'.port n.val).rxSeq = x.rxSeq ∧ (s'.port n.val).replay = x.replay) ∧
    (seq = x.rxSeq → x.ctlq = [] → ∃ s', exec (.flitReceive n seq true pkt ack esc) s = .next s' ∧
      (s'.port n.val).rxSeq = x.rxSeq + 1 ∧ (s'.port n.val).nak = false ∧
      (s'.port n.val).replay = ackReplay ack x.replay ∧
      (pkt = none → s'.fab.arrived = s.fab.arrived ∧ s'.fab.queue = s.fab.queue) ∧
      (∀ q, pkt = some q →
        let kept := q.ptype = .easyAll ∨ q.ptype = .boot ∨ q.ptype = .atomAdd ∨ q.dest = s.devNo
        (kept → ∃ a, s'.fab.arrived = s.fab.arrived ++ [a] ∧ a.pkt = q ∧ a.port = some n ∧ s'.fab.queue = s.fab.queue) ∧
        (¬ kept → ∃ z, s'.fab.queue = s.fab.queue ++ [z] ∧ z.pkt = q ∧ s'.fab.arrived = s.fab.arrived))) ∧
    (∀ i, x.replay.findIdx? (fun f => decide (f.seq = seq)) = some i →
      ∃ s', exec (.nakReceive n seq) s = .next s' ∧
        (let again := fun (f : Flit) => { f with ack := x.rxSeq - 1, hit := true }
         s'.sent = s.sent ++ (x.replay.drop i).map (fun f => (n.val, again f)) ∧
         (s'.port n.val).retry = satAdd 48 x.retry (x.replay.drop i).length ∧
         (s'.port n.val).replay = x.replay.map (fun f => if (x.replay.drop i).contains f then again f else f))) ∧
    (x.replay.findIdx? (fun f => decide (f.seq = seq)) = none → exec (.nakReceive n seq) s = .next s)

/-- 07 R297, R298, R302, Table 7-5: a request at its target. READ is answered with data replies of at most 256 bytes, WRITE with
an acknowledgement once its bytes are in memory, ATOMADD goes to its stack; a device without a place, or out of
service, answers UNREACHABLE, and one without a context for the job NO_JOB. -/
def Obligations.PacketRequestResults : Prop :=
  ∀ (s : State) (i : Nat) (a : Arrival), s.fab.arrived[i]? = some a → a.pkt.dest = s.devNo →
    a.pkt.src ≠ s.devNo →
    let q := a.pkt
    let rest := takeArrival i s
    let command := if q.ptype = .read then Instr.packetRead i
      else if q.ptype = .write then .packetWrite i else .packetAtomadd i
    (q.ptype = .read ∨ q.ptype = .write ∨ q.ptype = .atomAdd →
      (s.fab.placed = false ∨ s.rst.oos = true → exec command s = .next (faultReply q 5 rest)) ∧
      (s.fab.placed = true → s.rst.oos = false → ctxOfJob s q.jobid = none →
        exec command s = .next (faultReply q 1 rest))) ∧
    (∀ c, s.fab.placed = true → s.rst.oos = false → ctxOfJob s q.jobid = some c →
      (∀ bs s1, q.ptype = .read → rangeShut s c q.loc.toNat q.len.toNat = false →
        readLocal (viaRemote c) q.loc.toNat q.len.toNat rest = (.ok bs, s1) →
        s1.fab = rest.fab →
        ∃ s', exec (.packetRead i) s = .next s' ∧ s'.fab.arrived = listDrop s.fab.arrived i ∧ s'.hbm = s1.hbm ∧
          (s'.fab.queue.drop s.fab.queue.length).map (·.pkt) = (List.range ((bs.length + 255) / 256)).map (fun k =>
            replyTo s q .replyData 0 ((bs.drop (256 * k)).take 256) (BitVec.ofNat 42 (q.loc.toNat + 256 * k)))) ∧
      (∀ s1, q.ptype = .write → rangeShut s c q.loc.toNat q.data.length = false →
        writeLocal (viaRemote c) q.loc.toNat q.data rest = (.ok (), s1) → s1.fab = rest.fab →
        exec (.packetWrite i) s = .next (routerPut (replyTo s q .replyAck 0 [] q.loc) s1)) ∧
      (∀ f b s1, q.ptype = .write → rangeShut s c q.loc.toNat q.data.length = false →
        writeLocal (viaRemote c) q.loc.toNat q.data rest = (.err f b, s1) → exec (.packetWrite i) s = .next (faultReply q
          (match f with
            | .xlate => 2
            | .perm => 3
            | .poison => 4) s1)) ∧
      (q.ptype = .atomAdd → exec (.packetAtomadd i) s = .next { rest with atoms := s.atoms ++ [{
        ctx := c, loc := q.loc.toNat, val := q.value, tile := none, pkt := some q, rgen := 0#6, acked := false }] }))

/-- 02 R82, 07 R297, R302, 03 R139, 11 R458: a reply at its tile. Data are written to data SRAM at their place; an acknowledgement
of the last packet of a write completes its tag; a fault raises the trap of its reason as an imprecise trap; a reply
of a stale generation is dropped at the partition edge. A write with a part beyond 4 TiB - 1 ends with XLATE. -/
def Obligations.PacketReplyResults : Prop :=
  ∀ (s : State) (i : Nat) (a : Arrival), s.fab.arrived[i]? = some a → a.pkt.dest = s.devNo →
    a.pkt.handle.toNat < 2 ^ 31 →
    let q := a.pkt
    let t := handleTile q
    let p := tilePart t
    let rest := takeArrival i s
    let command := if q.ptype = .replyData then Instr.replyData i
      else if q.ptype = .replyAck then .replyAck i else .replyFault i
    (q.ptype = .replyData ∨ q.ptype = .replyAck ∨ q.ptype = .replyFault →
      (s.part p).rgen ≠ q.rgen → exec command s = .next (staleReply p rest)) ∧
    (∀ tag r, (s.part p).rgen = q.rgen → repliesTo s q = true → (s.tile t).held = none →
      q.handle.toNat < 2 ^ 30 → replyReq s q = some (tag, r) →
      (∀ e ∈ (s.tile t).tags, ∀ z, e.2 = some z → z.waiting = false) →
      (q.ptype = .replyData → r.inbound = true → reqLocal r 0 ≤ q.loc.toNat →
        q.loc.toNat + q.data.length ≤ reqLocal r 0 + r.len →
        ∃ s', exec (.replyData i) s = .next s' ∧
          (∀ b, Tbl.look 0#8 b (s'.tile t).sram =
            if r.sram + (q.loc.toNat - reqLocal r 0) ≤ b ∧ b < r.sram + (q.loc.toNat - reqLocal r 0) + q.data.length
            then q.data.getD (b - (r.sram + (q.loc.toNat - reqLocal r 0))) 0#8
            else Tbl.look 0#8 b (s.tile t).sram) ∧
          tagOf (s'.tile t) tag = (if r.len ≤ r.doneLen + q.data.length then none
            else some { r with doneLen := r.doneLen + q.data.length
                               got := r.got ++ [(q.loc.toNat - reqLocal r 0, q.data.length)] })) ∧
      (∀ off, q.ptype = .replyAck → r.inbound = false → (packetCuts r).length ≤ r.doneLen + 1 → beyond r = some off →
        exec (.replyAck i) s = .next (trapTile t
          { cause := 0x0A, imprecise := true, pc := r.pc, addr := r.ga.toNat + off, detail := tag } rest)) ∧
      (q.ptype = .replyAck → r.inbound = false → beyond r = none →
        ∃ s', exec (.replyAck i) s = .next s' ∧
          tagOf (s'.tile t) tag = (if (packetCuts r).length ≤ r.doneLen + 1 then none
            else some { r with doneLen := r.doneLen + 1 }) ∧
          (∀ u, u ≠ t → s'.tile u = s.tile u)) ∧
      (q.ptype = .replyFault → exec (.replyFault i) s = .next (trapTile t
        { cause := if q.reason = 2#8 then 0x0A else if q.reason = 3#8 then 0x0B else if q.reason = 4#8 then 0x0C else 0x0D
          imprecise := true, pc := r.pc, addr := r.ga.toNat + transferOf r q.loc.toNat, detail := tag } rest)))

/-- 07 R299 to R301: a packet takes the productive port of the most free credits that can carry it, the lowest number on a tie;
without one it enters escape, in dimension order; with no productive port UP, or after 100 µs, it is discarded, a
request with a fault reply UNROUTABLE, and counted. -/
def Obligations.RoutingResults : Prop :=
  ∀ (s : State) (i : Nat) (q : Queued), s.fab.queue[i]? = some q →
    let ports := productive s.fab q.pkt.dest.toNat
    let slots := match q.entry.bind (fun e => e.slot.map (fun k => (k, e.recs))) with
      | none => s.fab.slots
      | some (k, recs) => Tbl.put none k (some { recs := recs, sent := s.now }) s.fab.slots
    let rest : State := { s with fab := { s.fab with queue := listDrop s.fab.queue i, slots := slots } }
    (∀ (cr : List Credits) (n : Nat), q.esc = none → n ∈ ports → (s.port n).room q.pkt = true →
      0 < (creditOf cr n).adaptive →
      (∀ m ∈ ports, (s.port m).room q.pkt = true → (creditOf cr m).adaptive < (creditOf cr n).adaptive ∨
        ((creditOf cr m).adaptive = (creditOf cr n).adaptive ∧ n ≤ m)) →
      exec (.routePacket i cr) s = .next (putFlit n q.pkt none rest)) ∧
    (∀ (cr : List Credits) (dim a b : Nat),
      (∀ m ∈ ports, (s.port m).room q.pkt = true → (creditOf cr m).adaptive = 0) ∨ q.esc ≠ none →
      escapePorts s.fab q.pkt.dest.toNat = some (dim, [a, b]) →
      let ch := decide (q.esc = some (dim, true))
      let free := fun n => (s.port n).room q.pkt = true ∧ 0 < (if ch then (creditOf cr n).esc1 else (creditOf cr n).esc0)
      (free a → ¬ free b → exec (.routePacket i cr) s = .next (putFlit a q.pkt (some ch) rest)) ∧
      (¬ free a → free b → exec (.routePacket i cr) s = .next (putFlit b q.pkt (some ch) rest)) ∧
      (free a → free b → ∃ n, (n = a ∨ n = b) ∧
        exec (.routePacket i cr) s = .next { putFlit n q.pkt (some ch) rest with freeIx := s.freeIx + 1 }) ∧
      (¬ free a → ¬ free b → exec (.routePacket i cr) s = .next s)) ∧
    ((∃ n ∈ ports, (s.port n).st = .up) → s.since q.since ≤ 100000 → exec (.unroutable i) s = .next s) ∧
    ((∀ n ∈ ports, (s.port n).st ≠ .up) ∨ 100000 < s.since q.since →
      ∃ s', exec (.unroutable i) s = .next s' ∧ s'.fab.cntUnroutable = satAdd 32 s.fab.cntUnroutable 1 ∧
        (isRequest q.pkt.ptype = false → s'.fab.queue = listDrop s.fab.queue i) ∧
        (isRequest q.pkt.ptype = true → q.pkt.src ≠ s.devNo →
          ∃ z, s'.fab.queue = listDrop s.fab.queue i ++ [z] ∧ z.pkt = replyTo s q.pkt .replyFault 6 [] q.pkt.loc))

/-- 07 R304 to R306: an atomic add for another device is absorbed by the entry of its key, which adds its value, while the entry
has absorbed fewer than 7 and a pending slot is free; else it is entered, or routed on its own. An entry leaves
HOLD_NS after it was entered. A slot's reply goes to every record, in order, and frees it, as 2,000,000 counts do. -/
def Obligations.CombinerResults : Prop :=
  (∀ (s : State) (i : Nat) (a : Arrival), s.fab.arrived[i]? = some a → a.pkt.ptype = .atomAdd →
    a.pkt.dest ≠ s.devNo →
    let q := a.pkt
    let rest := takeArrival i s
    let takes := fun (e : Comb) (n : Nat) => { e with
      value := (fpAdd e.value q.value).1, recs := e.recs ++ [{ src := q.src, handle := q.handle, rgen := q.rgen }]
      slot := some n }
    let may := fun (e : Comb) (n : Nat) => s.fab.combEn = true ∧ e.recs.length < 8 ∧
      (if e.slot.isSome then e.slot else freeSlot s.fab) = some n
    let alone : State := { rest with fab := { rest.fab with
      queue := s.fab.queue ++ [{ pkt := q, since := s.now, esc := a.esc }] } }
    (∀ k e n, s.fab.comb.findIdx? (Comb.keyed q) = some k → s.fab.comb[k]? = some e → may e n →
      exec (.packetAtomadd i) s = .next { rest with fab := { rest.fab with
        comb := listSet s.fab.comb k (takes e n), cntCombined := satAdd 48 s.fab.cntCombined 1 } }) ∧
    (∀ k w e n, s.fab.comb.findIdx? (Comb.keyed q) = none →
      s.fab.queue.findIdx? (fun w => w.entry.any (Comb.keyed q)) = some k → s.fab.queue[k]? = some w → w.entry = some e →
      may e n →
      exec (.packetAtomadd i) s = .next { rest with fab := { rest.fab with
        queue := listSet s.fab.queue k { w with pkt := combPacket s (takes e n), entry := some (takes e n) }
        cntCombined := satAdd 48 s.fab.cntCombined 1 } }) ∧
    (∀ e, (entries s.fab).find? (Comb.keyed q) = some e →
      s.fab.combEn = false ∨ 8 ≤ e.recs.length ∨ (e.slot = none ∧ freeSlot s.fab = none) →
      exec (.packetAtomadd i) s = .next alone) ∧
    ((entries s.fab).find? (Comb.keyed q) = none →
      ((entries s.fab).length < 256 →
        exec (.packetAtomadd i) s = .next { rest with fab := { rest.fab with comb := s.fab.comb ++ [{
          dest := q.dest, jobid := q.jobid, loc := q.loc, value := q.value
          recs := [{ src := q.src, handle := q.handle, rgen := q.rgen }], slot := none
          entered := s.now, esc := a.esc }] } }) ∧
      (256 ≤ (entries s.fab).length → exec (.packetAtomadd i) s = .next alone))) ∧
  (∀ (s : State) (i : Nat) (e : Comb), s.fab.comb[i]? = some e →
    (s.since e.entered < s.fab.holdNs → exec (.combinerHoldExpire i) s = .next s) ∧
    (s.fab.holdNs ≤ s.since e.entered → exec (.combinerHoldExpire i) s = .next { s with fab := { s.fab with
      comb := listDrop s.fab.comb i
      queue := s.fab.queue ++ [{ pkt := combPacket s e, since := e.entered, esc := e.esc, entry := some e }] } })) ∧
  (∀ (s : State) (i : Nat) (a : Arrival) (k : Nat) (p : PendSlot), s.fab.arrived[i]? = some a →
    a.pkt.ptype = .replyAck ∨ a.pkt.ptype = .replyFault → a.pkt.dest = s.devNo → a.pkt.handle.toNat = 2 ^ 31 + k →
    Tbl.look none k s.fab.slots = some p → (∀ r ∈ p.recs, r.src ≠ s.devNo) →
    ∃ s', exec (.pendingSlotReply i) s = .next s' ∧ Tbl.look none k s'.fab.slots = none ∧
      (s'.fab.queue.drop s.fab.queue.length).map (·.pkt) = p.recs.map (fun r =>
        { a.pkt with src := s.devNo, dest := r.src, handle := r.handle, rgen := r.rgen })) ∧
  (∀ (s : State) (k : Fin 512) (p : PendSlot), Tbl.look none k.val s.fab.slots = some p →
    (2000000 ≤ s.since p.sent → exec (.pendingSlotTimeout k) s =
      .next { s with fab := { s.fab with slots := Tbl.put none k.val none s.fab.slots } }) ∧
    (s.since p.sent < 2000000 → exec (.pendingSlotTimeout k) s = .next s))

/-- 07 R308, R310, R311, R317: EASYALL_SEND of a non-zero job enters its triple and logs it, and of job 0 does nothing. A message
whose triple is kept is discarded; another is entered and logged, and the context bound to the job at or before
its origin count aborts its launch with status EASY_ALL (0x33); triples expire after 1 ms. -/
def Obligations.EasyAllResults : Prop :=
  (∀ (s : State) (job : BitVec 32), s.alive = true →
    (job = 0#32 → exec (.easyallSend job) s = .next s) ∧
    (job ≠ 0#32 → ∃ s', exec (.easyallSend job) s = .next s' ∧ s'.fab.logJob = job ∧ s'.fab.logOrigin = s.devNo ∧
      s'.fab.logCause = 0x30#8 ∧ s'.fab.logValid = true ∧ s'.fab.logStroke = s.now ∧
      s'.fab.triples.head? = some { job := job, origin := s.devNo, stroke := s.now, boot := false, kept := s.now })) ∧
  (∀ (s : State) (i : Nat) (a : Arrival), s.fab.arrived[i]? = some a → a.pkt.ptype = .easyAll →
    let q := a.pkt
    let held := ∃ t ∈ s.fab.triples, s.since t.kept < 1000000 ∧ t.boot = false ∧ t.job = q.jobid ∧ t.origin = q.src ∧
      t.stroke = q.stroke
    (held → exec (.easyAll i) s = .next (takeArrival i s)) ∧
    (¬ held → ∃ s', exec (.easyAll i) s = .next (afterPass s s') ∧ s'.fab.logJob = q.jobid ∧ s'.fab.logOrigin = q.src ∧
      s'.fab.logCause = q.reason ∧ s'.fab.logStroke = q.stroke ∧
      s'.fab.triples.head? = some { job := q.jobid, origin := q.src, stroke := q.stroke, boot := false, kept := s.now } ∧
      (∀ c, ctxOfJob s q.jobid = some c → (s.ctx c).st = .running →
        (notAfter (s.ctx c).jobAt q.stroke = true →
          (∀ x, (s.ctx c).exec = some x → x.ending = none → x.began = true → (s.ctx c).abort = none →
            ∃ x', (s'.ctx c).exec = some x' ∧ x'.ending.map (·.status) = some 0x33 ∧ (s'.ctx c).st = .aborting) ∧
          ((s.ctx c).exec = none → (s.ctx c).en = true → (s'.ctx c).st = .stopped)) ∧
        (notAfter (s.ctx c).jobAt q.stroke = false → s'.ctx c = s.ctx c)))) ∧
  (∀ (s : State), exec .easyallTripleExpire s = .next { s with fab := { s.fab with
    triples := s.fab.triples.filter (fun t => decide (s.since t.kept < 1000000)) } })

/-- 08 R324, R327 to R330, Table 8-1: a tick adds 1 to the counter; an UP port sends a marker at most every 8,192 counts; a
marker of a master below this device's number makes its port the parent; the states move as Table 8-1 gives; a parent
lost, or silent for 4 intervals, begins HOLDOVER. -/
def Obligations.StrokeResults : Prop :=
  (∀ (s : State), s.alive = true → (∀ e ∈ s.tiles, e.2.held = none) →
    ∃ s', exec .strokeTick s = .next s' ∧ s'.now = s.now + 1 ∧ s'.tiles = s.tiles ∧ s'.ctxs = s.ctxs ∧ s'.fab = s.fab ∧
      s'.stroke.st = s.stroke.st) ∧
  (∀ (s : State), s.alive = false → ∃ s', exec .strokeTick s = .next s' ∧ s'.now = s.now) ∧
  (∀ (s : State) (n : PortIx), (s.port n.val).st = .up →
    (∀ a, (s.port n.val).markTx = some a → s.since a < 8192 → exec (.strokeMarkerSend n) s = .next s) ∧
    ((s.port n.val).markTx = none ∨ (∃ a, (s.port n.val).markTx = some a ∧ 8192 ≤ s.since a) →
      ∃ s', exec (.strokeMarkerSend n) s = .next s' ∧ OnlyPort { s with markers := s'.markers } s' n.val
          { s.port n.val with markTx := some s.now } ∧
        s'.markers = s.markers ++ [(n.val, { sent := s.now, echo := (s.port n.val).markRx
                                             master := s.stroke.master, hops := s.stroke.hops, ann := s.stroke.ann })])) ∧
  (∀ (s : State) (n : PortIx) (m : Marker) (a : Advert) (t1 : BitVec 64), (s.port n.val).st = .up →
    (s.port n.val).markTx = some t1 → (s.port n.val).advert = some a → a.master = m.master → m.hops ≤ 1024 →
    0 < (m.ann - a.ann).toInt → m.master.toNat < s.devNo.toNat → s.stroke.st = .acquire →
    (∀ k, k ≠ n.val → (s.port k).advert = none) →
    ∃ s', exec (.strokeMarkerReceive n m) s = .next s' ∧ s'.stroke.parent = some n ∧ s'.stroke.master = m.master ∧
      s'.stroke.hops = m.hops + 1 ∧
      (s.stroke.ever = true → s.stroke.parent = some n → s.stroke.run < 15 → s'.stroke.st = .acquire ∧ s'.now = s.now) ∧
      (s.stroke.ever = true → s.stroke.parent = some n → s.stroke.run = 15 →
        (∀ o, markerOffset s (s.port n.val) m = some o → -32 ≤ o → o ≤ 32 → s'.stroke.st = .locked))) ∧
  (∀ (s : State) (p : PortIx), s.stroke.parent = some p → s.stroke.st = .locked →
    ((s.port p.val).st ≠ .up ∨ (∃ a, (s.port p.val).markRx = some a ∧ 32768 ≤ s.since a) →
      ∃ s', exec .strokeHoldover s = .next s' ∧ s'.stroke.st = .holdover ∧ s'.stroke.parent = none ∧
        s'.stroke.rate = s.stroke.rate ∧ s'.now = s.now) ∧
    ((s.port p.val).st = .up → (∀ a, (s.port p.val).markRx = some a → s.since a < 32768) →
      exec .strokeHoldover s = .next s)) ∧
  (∀ (s : State), (∀ n, n < 12 → (s.port n).advert = none) → s.fab.placed = true → s.stroke.st = .holdover →
    ∃ s', exec .strokeMasterChange s = .next s' ∧ s'.stroke.st = .master ∧ s'.stroke.master = s.devNo ∧
      s'.stroke.masterAt = some s.now ∧ s'.stroke.cntMaster = satAdd 32 s.stroke.cntMaster 1 ∧ s'.stroke.ever = true)

/-! ### Power and heat (09) -/

/-- 09 R362, R363, R368 to R371, R374: a sample adds each domain's current and voltage to its interval, an estimate once a
phase is out; a good phase's third low reading under load opens it and requests a pass; one below -2 A excludes it; a
VDD_LOGIC current above I_lim raises the clamp by one level, up to 3, counted from level 0. The 1 ms mean is
published. -/
def Obligations.PowerSampleResults : Prop :=
  (∀ (s : State) (currents : List Int) (volts : List Nat), s.alive = true →
    let cur := fun i => currents.getD i 0
    ∃ s', exec (.pwrSample currents volts) s = .next s' ∧
      (∀ d, d < 4 → (dom s' d).nowI = (domCurrent s' d cur).1 ∧ (dom s' d).est = (domCurrent s' d cur).2 ∧
        (dom s' d).nowV = volts.getD d 0 ∧ (dom s' d).sumI = (dom s d).sumI + (domCurrent s' d cur).1 ∧
        (dom s' d).sumV = (dom s d).sumV + volts.getD d 0 ∧
        (dom s' d).n = (dom s d).n + 1 ∧ (dom s' d).current = (dom s d).current ∧
        (dom s' d).voltage = (dom s d).voltage) ∧
      ((∀ i, i < 37 → (phase s i).isOpen = false ∧ (phase s i).excl = false) → (domCurrent s 0 cur).2 = false ∧
        (domCurrent s 0 cur).1 = ((List.range 24).map cur).sum ∧ iLim s 0 = 1150000) ∧
      (let above := (iLim s 0 : Int) < guarded (domCurrent s 0 cur).1 (domCurrent s 0 cur).2;
        (above → s.pwr.clamp < 3 → s'.pwr.clamp = s.pwr.clamp + 1) ∧
        (above → s.pwr.clamp = 0 → s'.pwr.cntClamp = satAdd 32 s.pwr.cntClamp 1) ∧
        (¬ above ∨ 3 ≤ s.pwr.clamp → s'.pwr.clamp = s.pwr.clamp)) ∧
      (∀ d i, d < 4 → i ∈ goodPhases s d →
        (cur i < -2000 → (phase s' i).excl = true ∧ (phase s' i).isOpen = false) ∧
        ((phase s i).low = 2 → 0 ≤ cur i → cur i < 1000 → (phase s i).same < 99 →
          10000 * ((goodPhases s d).length : Int) < sumOf cur (goodPhases s d) →
          (phase s' i).isOpen = true ∧ s'.pwr.passDue = true))) ∧
  (∀ (s : State) (drops : List Int), s.alive = true →
    ∃ s', exec (.pwrPublish drops) s = .next s' ∧
      (∀ d, d < 4 → (dom s d).n ≠ 0 → dom s' d = { dom s d with
        current := (dom s d).sumI / (dom s d).n, voltage := (dom s d).sumV / (dom s d).n, sumI := 0, sumV := 0, n := 0 }))

/-- 09 R364 to R367, R373, R384, R385, R387, R400, 06 R261, 11 R466: a pass that is due sets every MAXPT and WLOGIC, chooses
no point faster than MAXPT, keeps budgets in tenths of a watt, estimates each partition's power at its point, and holds
P15 and stretch level 3 in a short domain, P15 out of service; scheduler passes follow it. A chosen point takes effect,
and the setpoint is that of the fastest point in force. -/
def Obligations.GovernorResults : Prop :=
  (∀ (s : State) (act : List Nat) (other : Nat), s.alive = true → s.boot.cox = true → s.boot.trained = true →
    s.rst.cox = none ∨ s.pwr.governed = false → passIsDue s = true →
    ∃ s', exec (.governorPass act other) s = .next (afterPass s s') ∧ s'.pwr.governed = true ∧ s'.pwr.passAt = s.now ∧
      s'.pwr.passDue = false ∧ s'.pwr.setpoint = pointMv (fastestOf (fun p => (s'.part p).point)) ∧
      (∀ p, p < 8 → (s'.part p).estW = (partPw s' p (s'.part p).point s'.pwr.setpoint).toNat) ∧
      (let v := s'.pwr.wantSet
        let rest := (if (dom s 0).est then (other : Int) * 11 / 10 else (other : Int)) + domPw s 1 + domPw s 2 + domPw s 3
        (s'.pwr.wLogic : Int) =
          max 0 (min ((effLimit s : Int) * 1000000000000 - rest) ((iLim s 0 : Int) * (v : Int) * 1000000))) ∧
      (∀ p, p < 8 → timedIn s p = false →
        let x := s'.part p
        let chosen := x.nextPoint.getD x.point
        x.maxpt = Nat.min 15 ((s.part p).cap + boolNat (s.part p).crack) ∧ x.maxpt ≤ chosen ∧ chosen ≤ 15 ∧
          x.budget % 100000000000 = 0 ∧ x.point = (s.part p).point ∧ x.cap = (s.part p).cap ∧
          (s.pwr.short = true → chosen = 15 ∧ x.govStretch = 3) ∧ (s.rst.oos = true → chosen = 15))) ∧
  (∀ (s : State) (act : List Nat) (other : Nat),
    s.alive = false ∨ s.boot.cox = false ∨ s.boot.trained = false ∨ (s.rst.cox ≠ none ∧ s.pwr.governed = true) →
    exec (.governorPass act other) s = .next s) ∧
  (∀ (s : State) (p : PartIx) (n : Nat), (s.part p.val).nextPoint = some n →
    ∃ s', exec (.clockPointApply p) s = .next s' ∧
      s'.part p.val = { s.part p.val with point := n, nextPoint := none, estW := (s'.part p.val).estW } ∧
      (∀ q, q ≠ p.val → s'.part q = { s.part q with estW := (s'.part q).estW }) ∧
      (∀ q, q < 8 → (s'.part q).estW = (partPw s' q (s'.part q).point s'.pwr.setpoint).toNat) ∧
      s'.pwr.setpoint = pointMv (fastestOf (fun q => (s'.part q).point)) ∧
      s'.pwr.wantSet = pointMv (fastestOf (fun q => ((s'.part q).nextPoint).getD (s'.part q).point)) ∧
      (∀ w ∈ s'.ump.work, w ∈ s.ump.work ∧ (w.margin = false ∨ w.subject.part ≠ p.val))) ∧
  (∀ (s : State) (p : PartIx), (s.part p.val).nextPoint = none → exec (.clockPointApply p) s = .next s)

/-! ### The Umpire (10) -/

/-- 10 R402, R404, R405, R407 to R411, R421, R422, R426, R602, Tables 10-2 and 10-5: the first due sweep that may start
becomes work. A tile passes a trial that halts within twice its cycles, without a trap and with the library's SIG. A trial
without a failure goes on with the next one; a first failure is counted and retried. A nominal failure that the retry
confirms quarantines its tile (cause 2), which is OUT at once, and evicts it, one that it does not confirm makes an
ACTIVE tile SUSPECT (cause 1), a confirmed margin failure too (cause 3), and a margin failure not confirmed changes
nothing. A failed isolation sweep retires its tile (cause 10). -/
def Obligations.UmpireTrialResults : Prop :=
  (∀ s : State, umpWorks s = false → exec .sweepStart s = .next s) ∧
  (∀ (s : State) (d : Due), umpWorks s = true → execs s = [] → s.boot.stage = .qualify ∨ s.boot.stage = .ready →
    listMin (startBefore s) ((allDue s).filter (mayStart s)) = some d →
    ∃ s' w, exec .sweepStart s = .next s' ∧ s'.ump.work = s.ump.work ++ [w] ∧ w.subject = d.subject ∧
      w.margin = d.margin ∧ w.retry = none ∧ w.isolation = d.iso ∧ w.trial = resumeOf s d.subject d.margin ∧
      w.qsweeps = s.ump.qsweeps ∧ w.clean = s.ump.clean ∧ w.power = trialPower s d.subject d.margin ∧
      Tbl.look 0 d.subject.part s'.ump.commit = Tbl.look 0 d.subject.part s.ump.commit + w.power) ∧
  (∀ (s : State) (i : Nat) (runs : List TrialRun) (w : Work), s.ump.work[i]? = some w → umpWorks s = true →
    stale s w = false →
    let mine := runs.filter (fun r => (subjTiles s w.subject).contains r.tile.val)
    let hit := (mine.filter (fun r => !trialPass w.trial r)).map (·.tile.val)
    let s1 := forList trialReport mine s
    (w.retry = none → hit = [] → w.trial + 1 < w.subject.trials → stale s1 w = false →
      mayGoOn (setResume w.subject (w.trial + 1) w.margin s1) w = true →
      ∃ s', exec (.trialComplete i runs) s = .next s' ∧
        s'.ump.work = listSet s.ump.work i { w with trial := w.trial + 1, retry := none }) ∧
    (w.retry = none → hit ≠ [] → w.isolation = false →
      ∃ s', exec (.trialComplete i runs) s = .next s' ∧ s'.ump.work = listSet s.ump.work i { w with retry := some hit } ∧
        Tbl.look 0 (if w.margin then 2 else 1) s'.ump.cnt =
          forUp (fun _ n => satAdd 48 n 1) 0 hit.length (Tbl.look 0 (if w.margin then 2 else 1) s.ump.cnt)) ∧
    (w.retry = none → hit ≠ [] → w.isolation = true → ∀ t, w.subject = .tile t →
      ∃ s', exec (.trialComplete i runs) s = .next s' ∧ s'.ump.work = listDrop s.ump.work i ∧
        (s'.utile t).st = .retired ∧ (s'.utile t).cause = 10) ∧
    (∀ t g, w.retry = some [t] → w.subject = .crew g → (s.utile t).gcrew = g → (s.utile t).role = .enabled →
      (s.utile t).st = .active → (s.utile t).wasCleared = false → w.trial + 1 < 22 →
      ∃ s', exec (.trialComplete i runs) s = .next s' ∧
        (w.margin = false → t ∈ hit →
          (s'.utile t).st = .quarantined ∧ (s'.utile t).cause = 2 ∧ t ∈ s'.ump.evicting ∧ (s'.utile t).role = .out) ∧
        ((∀ r ∈ mine, r.tile.val = t → r.ces = 0 ∧ r.trap = none) →
          (w.margin = false → t ∉ hit → (s'.utile t).st = .suspect ∧ (s'.utile t).cause = 1) ∧
          (w.margin = true → t ∈ hit → (s'.utile t).st = .suspect ∧ (s'.utile t).cause = 3) ∧
          (w.margin = true → t ∉ hit →
            (s'.utile t).st = .active ∧ (s'.utile t).cause = (s.utile t).cause)))) ∧
  (∀ (k : Nat) (r : TrialRun), trialPass k r = true ↔
    r.trap = none ∧ r.sig = r.want ∧ ∃ n, r.halted = some n ∧ n ≤ 2 * trialCycles.getD k 0)

/-- 10 R419, R420, R421, Tables 10-4 and 10-5: with both crews finished the SIGs of each logical tile are compared; equal, the
check ends; unequal, it is counted and waits for triage. The third crew's SIG decides each tile: the partner's tile becomes
SUSPECT (cause 4), or the checked tile is quarantined (cause 5), or none agrees and all three are triggers (cause 6). -/
def Obligations.PairCheckResults : Prop :=
  (∀ (s : State) (c : CtxIx) (x : Exec) (p : Pair), (s.ctx c.val).exec = some x → x.pair = some p → p.gPart ≠ none →
    umpWorks s = true → x.ranAt.isSome = true →
    let chk := fun k => chkTile x p k
    let mism := ((List.range 8).map (fun k => (k, replaySig s (p.pTiles.getD k 0)))).filter
      (fun e => decide (e.2 ≠ some (s.tile (chk e.1)).sig))
    ((∃ k, k < 8 ∧ (s.tile (chk k)).run ≠ .halted) ∨ (∃ t ∈ p.pTiles, replayOver s t = false) →
      exec (.pairCheckCompare c) s = .next s) ∧
    ((∀ k, k < 8 → (s.tile (chk k)).run = .halted) → (∀ t ∈ p.pTiles, replayOver s t = true) →
      (mism = [] → ∃ s', exec (.pairCheckCompare c) s = .next s' ∧
        (s'.ctx c.val).exec = some { x with pair := none } ∧ s'.ump.cnt = s.ump.cnt) ∧
      (mism ≠ [] → ∃ s' q, exec (.pairCheckCompare c) s = .next s' ∧
        (s'.ctx c.val).exec = some { x with pair := some q } ∧ q.mism = mism ∧ q.gPart = none ∧
        Tbl.look 0 4 s'.ump.cnt = satAdd 48 (Tbl.look 0 4 s.ump.cnt) 1))) ∧
  (∀ (s : State) (c : CtxIx) (x : Exec) (p : Pair) (g k : Nat) (sig : Option (BitVec 64)),
    (s.ctx c.val).exec = some x → x.pair = some p → p.gThird = some g → p.gPart = none → p.mism = [(k, sig)] →
    umpWorks s = true → (∀ t ∈ (s.crew g).tiles, replayOver s t = true) →
    let a := chkTile x p k
    let b := p.pTiles.getD k 0
    let t := (s.crew g).tiles.getD k 0
    let own := (s.tile a).sig
    let third := replaySig s t
    let fresh := fun u => (s.utile u).st = .active ∧ (s.utile u).role = .enabled ∧ (s.utile u).wasCleared = false
    let state := fun (s' : State) u st cause => (s'.utile u).st = st ∧ (s'.utile u).cause = cause
    a ≠ b → a ≠ t → b ≠ t → fresh a → fresh b → fresh t →
    ∃ s', exec (.triageVerdict c) s = .next s' ∧
      (third = some own → state s' b .suspect 4 ∧ s'.utile a = s.utile a ∧ s'.utile t = s.utile t) ∧
      (third ≠ some own → third ≠ none → third = sig → state s' a .quarantined 5 ∧ a ∈ s'.ump.evicting ∧
        (s'.utile a).role = .out) ∧
      (third = none ∨ (third ≠ some own ∧ third ≠ sig) →
        state s' a .suspect 6 ∧ state s' b .suspect 6 ∧ state s' t .suspect 6))

/-- 10 R424, R425, R427 to R429, R431, R434, R436, R440, 02 R102, 11 R468: a swap gives a crew's logical tile the nearest spare
that has passed both sweeps, changes the epoch and loses the pins; without a spare the crew is withdrawn. UMP_CMD and
its RESULT; the retired map's entries go to flash in order; a POP discards the head of its log. -/
def Obligations.SwapAndUmpireCommands : Prop :=
  (∀ (s : State) (t : TileIx), umpWorks s = true → swapReady s t.val = true →
    (∀ e ∈ s.ump.tiles, e.1 < t.val → e.2.pending = none ∨ swapReady s e.1 = false) →
    let u := s.utile t.val
    let pool := sparePool s (tilePart t.val)
    (∀ x, pool ≠ [] → nearest (s.crew u.gcrew).tiles u.ltile (pool.filter (sweptBoth s)) = some x → x ≠ t.val →
      ∃ s', exec (.swap t) s = .next s' ∧ (s'.crew u.gcrew).tiles = listSet (s.crew u.gcrew).tiles u.ltile x ∧
        (s'.utile x).role = .enabled ∧ (s'.utile x).gcrew = u.gcrew ∧ (s'.utile x).ltile = u.ltile ∧
        (s'.utile t.val).role ≠ .enabled ∧
        s'.ump.epoch.toNat = s.ump.epoch.toNat / 65536 * 65536 + (s.ump.epoch.toNat + 1) % 65536) ∧
    (pool = [] → u.gcrew / 64 = tilePart t.val → ∃ s', exec (.swap t) s = .next s' ∧
      Tbl.look 0 (tilePart t.val) s'.ump.nCrews = Tbl.look 0 (tilePart t.val) s.ump.nCrews - 1 ∧
      s'.ump.epoch.toNat = s.ump.epoch.toNat / 65536 * 65536 + (s.ump.epoch.toNat + 1) % 65536)) ∧
  (∀ (s : State) (t : TileIx), umpWorks s = false ∨ swapReady s t.val = false → exec (.swap t) s = .next s) ∧
  (∀ (s : State) (e : MapEntry) (r : List MapEntry), s.alive = true → s.coxRuns = true → s.ump.toFlash = e :: r →
    s.ump.flashFail = none →
    (∃ s', exec (.retiredMapWrite true) s = .next s' ∧ s'.ump.toFlash = r ∧
      s'.flash = (appendEntry e s).flash ∧ s'.ump.rmapHash = sha384 (tileBitmap (retiredMap s'))) ∧
    (∃ s', exec (.retiredMapWrite false) s = .next s' ∧ s'.ump.toFlash = e :: r ∧ s'.ump.flashFail = some s.now)) ∧
  (∀ (s : State) (pt : BitVec 13), s.alive = true →
    let u := s.utile pt.toNat
    let bad := if 4607 < pt.toNat then 1 else if u.st = .fused ∨ u.st = .retired then 2 else 0
    ∃ s1 s2, exec (.umpSweep pt) s = .next s1 ∧ exec (.umpQuarantine pt) s = .next s2 ∧ s1.ump.result = bad ∧
      s2.ump.result = bad ∧
      (bad ≠ 0 → s1.ump.tiles = s.ump.tiles ∧ s1.ump.crews = s.ump.crews ∧ s2.ump.tiles = s.ump.tiles) ∧
      (bad = 0 → u.role = .enabled → (s1.crew u.gcrew).dueNom = true ∧ (s1.crew u.gcrew).dueMar = true) ∧
      (bad = 0 → u.role = .spare → (s1.utile pt.toNat).dueNom = true ∧ (s1.utile pt.toNat).dueMar = true) ∧
      (u.st = .active → bad = 0 → u.role = .enabled →
        (s2.utile pt.toNat).st = .suspect ∧ (s2.utile pt.toNat).cause = 9) ∧
      (u.st = .active → bad = 0 → u.role = .spare → u.wasCleared = false →
        (s2.utile pt.toNat).st = .quarantined ∧ (s2.utile pt.toNat).cause = 9 ∧ (s2.utile pt.toNat).role = .out)) ∧
  (∀ (s : State) (p : PartIx), s.alive = true →
    (∃ s', exec .umpLogPop s = .next s' ∧ s' = { s with ump := { s.ump with log := { s.ump.log with
      items := s.ump.log.items.drop 1 } } }) ∧
    (∃ s', exec (.faultPop p) s = .next s' ∧ s' = s.setPart p.val { s.part p.val with
      faults := { (s.part p.val).faults with items := (s.part p.val).faults.items.drop 1 } }) ∧
    (∃ s', exec .resetLogPop s = .next s' ∧ s' = { s with rst := { s.rst with log := { s.rst.log with
      items := s.rst.log.items.drop 1 } } }))

/-! ### Resets (11) and the start (12) -/

/-- 11 R450, R453, R455 to R458, R464, R468, R473, Tables 11-3, 11-6 and 11-7, 02 R101, R102: what starts a partition reset,
in service or out of it, and what it does at once: the generation and the count rise, the fault ring and every tile of the
partition are cleared, and a launch with a crew there ends with status COLLATERAL (0x31), its abort held; a lost TCLK
takes the partition to P15. 35 µs later it ends; one whose TCLK has not relocked goes on, and 100 µs after the loss the
device leaves service, as where the channels of a lost HCLK fail, or where the reset has reached the escalation count;
MCLK or SCLK lost take it out of service at once. -/
def Obligations.PartitionResetResults : Prop :=
  (∀ (s : State) (p : PartIx), s.up = true → (s.part p.val).reset = none →
    let begun := fun (c : Instr) (cause : Nat) (counted : Bool) => ∃ s', exec c s = .next s' ∧
      (s'.part p.val).reset = some { start := s.now, cause := cause, counted := counted } ∧
      (s'.part p.val).rgen = (s.part p.val).rgen + 1 ∧
      (s'.part p.val).cntReset = satAdd 16 (s.part p.val).cntReset 1 ∧ (s'.part p.val).faults = { } ∧
      (∀ t, tilePart t = p.val → s'.tile t = { } ∧ Tbl.look 0 t s'.tileCe = 0 ∧ Tbl.look 0 t s'.tileUe = 0) ∧
      (∀ t, tilePart t ≠ p.val → Tbl.look 0 t s'.tileCe = Tbl.look 0 t s.tileCe) ∧
      Tbl.look [] p.val s'.tcache = [] ∧
      (s.rst.log.items.length < 16 → ∃ e, s'.rst.log.items = s.rst.log.items ++ [e] ∧ e.w0 = s.now) ∧
      (∀ k x, (s.ctx k).exec = some x → x.ending = none → x.began = true → (∃ g ∈ x.crews, g / 64 = p.val) →
        (∃ x', (s'.ctx k).exec = some x' ∧ x'.ending.map (·.status) = some 0x31) ∧
        ∃ a, (s'.ctx k).abort = some a ∧ p.val ∈ a.parts)
    begun (.edgeProtocol p) 4 true ∧
    (s.rst.cox = none → s.rst.oos = false → begun (.partitionReset p) 5 false) ∧
    (s.rst.oos = true → exec (.partitionReset p) s = .next s) ∧
    ((s.part p.val).tclk = true → begun (.clkLoss (.tclk p)) 2 true ∧
      ∃ s', exec (.clkLoss (.tclk p)) s = .next s' ∧ (s'.part p.val).tclk = false ∧
        (s'.part p.val).lostAt = some s.now ∧ (s'.part p.val).point = 15) ∧
    ((s.stk p.val).hclk = true → begun (.clkLoss (.hclk p)) 3 true)) ∧
  (∀ (s : State), s.up = true → s.rst.oos = false →
    (s.rst.mclk = true → ∃ s', exec (.clkLoss .mclk) s = .next s' ∧ s'.rst.oos = true ∧ s'.rst.oosCause = 3) ∧
    (s.rst.sclk = true → ∃ s', exec (.clkLoss .sclk) s = .next s' ∧ s'.rst.oos = true ∧ s'.rst.oosCause = 3) ∧
    (s.rst.sclk = false → exec (.clkLoss .sclk) s = .next s) ∧
    (exec (.clkLoss .pclk) s = exec (.hostDetach .pclkLoss) s) ∧
    (∀ n : PortIx, (s.port n.val).st ≠ .up → exec (.clkLoss (.rclk n)) s = .next s)) ∧
  (∀ (s : State) (p : PartIx) (r : PReset) (ok : Bool), s.up = true → (s.part p.val).reset = some r →
    let left := fun (cause : Nat) => ∃ s', exec (.partResetDone p ok) s = .next (afterPass s s') ∧ s'.rst.oos = true ∧
      (s.rst.oos = false → s'.rst.oosCause = cause)
    (s.since r.start < 35000 → exec (.partResetDone p ok) s = .next s) ∧
    (35000 ≤ s.since r.start → (ok = true ∨ (s.part p.val).tclk = true ∧ (s.stk p.val).hclk = true) →
      (s.rst.escDue ≠ some p.val → ∃ s', exec (.partResetDone p ok) s = .next (afterPass s s') ∧
        (s'.part p.val).reset = none ∧ (s'.part p.val).tclk = true ∧ (s'.part p.val).lostAt = none ∧
        (s'.stk p.val).hclk = true ∧ (s'.part p.val).rgen = (s.part p.val).rgen ∧ s'.rst.oos = s.rst.oos ∧
        (∀ k a, k < 64 → (s'.ctx k).abort = some a → p.val ∉ a.parts)) ∧
      (s.rst.escDue = some p.val → left 1)) ∧
    (35000 ≤ s.since r.start → ok = false → (s.part p.val).tclk = false →
      ((∀ a, (s.part p.val).lostAt = some a → s.since a < 100000) → exec (.partResetDone p ok) s = .next s) ∧
      (∀ a, (s.part p.val).lostAt = some a → 100000 ≤ s.since a → left 3)) ∧
    (35000 ≤ s.since r.start → ok = false → (s.part p.val).tclk = true → (s.stk p.val).hclk = false → left 4))

/-- 11 R460 to R463, R468, R470, Table 11-8, 12 R476, 13 R521: a heartbeat is stored; a silent core, or the host, begins a Cox
restart: not READY, every partition in reset at P15, the contexts' launches ended; it ends with fresh heartbeats and
RUNNING contexts STOPPED, once no partition is in reset, no abort goes on and the governor has passed, or, when the
copy of COX in management memory fails its check, out of service. A full device reset needs its confirmation
and clears everything but the flash, what lies outside the device and the bytes of HBM. -/
def Obligations.CoxAndDeviceResetResults : Prop :=
  (∀ (s : State) (k : Fin 4), s.up = true → s.boot.cox = true → ∃ s', exec (.coxHeartbeat k) s = .next s' ∧
    s' = { s with rst := { s.rst with beats := s'.rst.beats } } ∧ Tbl.look 0 k.val s'.rst.beats = s.now ∧
    (∀ j, j ≠ k.val → Tbl.look 0 j s'.rst.beats = Tbl.look 0 j s.rst.beats)) ∧
  (∀ (s : State), s.up = true → s.boot.cox = true → s.rst.cox = none →
    let begun := fun (c : Instr) => ∃ s', exec c s = .next s' ∧ s'.rst.cox = some s.now ∧
      s'.rst.restarts = satAdd 32 s.rst.restarts 1 ∧ s'.boot.ready = false ∧ s'.pwr.governed = false ∧
      (∀ p, p < 8 → (s'.part p).reset ≠ none ∧ (s'.part p).point = 15) ∧
      (∀ k x, k < 64 → (s.ctx k).exec = some x → x.ending = none → x.began = true →
        ∃ x', (s'.ctx k).exec = some x' ∧ x'.ending.map (·.status) = some 0x32)
    (s.rst.oos = false → begun .coxRestart) ∧
    (watching s = true → (∃ k, k < 4 ∧ 500000 < s.since (Tbl.look 0 k s.rst.beats)) → begun .coxHang) ∧
    ((∀ k, k < 4 → s.since (Tbl.look 0 k s.rst.beats) ≤ 500000) → exec .coxHang s = .next s)) ∧
  (∀ (s : State) (ok : Bool) (m : BitVec 4), s.rst.cox = none → exec (.coxRestarted ok m) s = .next s) ∧
  (∀ (s : State) (w : BitVec 64) (m : BitVec 4), s.up = true → s.rst.cox = some w → s.rst.oos = false →
    (∀ ok, ok = false ∨ sha384 s.boot.coxMem ≠ s.boot.coxSha →
      ∃ s', exec (.coxRestarted ok m) s = .next s' ∧ s'.rst.oos = true ∧ s'.rst.oosCause = 2 ∧ s'.rst.cox = none) ∧
    ((s.rst.coxTimes.filter (fun a => decide (span a w ≤ 60000000000))).length < 3 →
      sha384 s.boot.coxMem = s.boot.coxSha → (∀ p, p < 8 → (s.part p).reset = none) →
      (∀ e ∈ s.ctxs, abortOver e.2 = true) → s.pwr.governed = true → s.rst.escDue = none →
      ∃ s', exec (.coxRestarted true 15#4) s = .next s' ∧ s'.rst.cox = none ∧ s'.rst.oos = false ∧
        (∀ k, k < 4 → Tbl.look 0 k s'.rst.beats = s.now) ∧
        (∀ c, c < 64 → (s.ctx c).st = .running → (s'.ctx c).st = .stopped) ∧
        s'.boot.ready = (decide (s.boot.stage = .ready) && s.boot.expireAt.isNone))) ∧
  (∀ (s : State) (v : BitVec 16),
    let cleared := fun (c : Instr) => ∃ s', exec c s = .next s' ∧ s'.ctxs = [] ∧ s'.tiles = [] ∧ s'.frames = [] ∧
      s'.weir = [] ∧ s'.atoms = [] ∧ s'.fab.ports = [] ∧ s'.fab.start = none ∧ s'.fab.placed = false ∧ s'.now = 0 ∧
      s'.rst.mclk = true ∧ s'.rst.sclk = true ∧ s'.rst.oos = false ∧ s'.hbm = s.hbm ∧ s'.hostMem = s.hostMem ∧
      s'.pending = s.pending ∧ s'.fuses = s.fuses ∧ s'.card = s.card
    (v ≠ 0x00D5#16 → exec (.deviceReset v) s = .next s) ∧ (s.up = true → cleared (.deviceReset 0x00D5#16)) ∧
    (s.alive = true → cleared .perst) ∧ (s.alive = true → s.up = false → cleared .powerGood) ∧
    (s.up = true → exec .powerGood s = .next s))

/-- 12 R476, R479, R483, R484: microcode goes to every tile, and one that fails its check twice is quarantined (cause 2);
stacks train, and the scrubber and the governor start, or the device leaves service with cause 4 at stage FAILED; the end of the qualification makes
it READY. -/
def Obligations.BootStageResults : Prop :=
  (∀ (s : State) (bad bad2 : List TileIx), s.alive = true → s.coxRuns = true → s.boot.stage = .maps →
    sha384 s.boot.mcode = hdrMcodeSha (slotHeader s s.boot.slot) →
    ∃ s', exec (.mcodeBroadcast bad bad2) s = .next s' ∧ s'.boot.stage = .train ∧ s'.boot.mcodeDone = true ∧
      (∀ t, t < 4608 → (s.utile t).st = .active → (s.utile t).wasCleared = false →
        (t ∈ bad.map (·.val) → t ∈ bad2.map (·.val) →
          (s'.utile t).st = .quarantined ∧ (s'.utile t).cause = 2) ∧
        (t ∉ bad.map (·.val) ∨ t ∉ bad2.map (·.val) → s'.utile t = s.utile t))) ∧
  (∀ (s : State) (fails : List HbmFail), s.alive = true → s.coxRuns = true → s.boot.stage = .train →
    ∃ s', exec (.hbmTrainDone fails) s = .next s' ∧
      (∀ k : PartIx, (∀ f ∈ fails, f.stack ≠ k) → (s'.stk k.val).trained = true ∧ (s'.stk k.val).settings = true) ∧
      (fails = [] → s.rst.oos = false → s'.boot.stage = .qualify ∧ s'.boot.trained = true) ∧
      (fails ≠ [] → s'.boot.stage = .failed ∧ s'.rst.oos = true ∧ (s.rst.oos = false → s'.rst.oosCause = 4) ∧
        s'.boot.hbmFail ≠ none)) ∧
  (∀ (s : State), s.alive = true → s.coxRuns = true → s.boot.stage = .qualify → s.rst.oos = false →
    (qualified s = true → s.pwr.governed = true → ∃ s', exec .bootReady s = .next s' ∧ s'.boot.stage = .ready ∧
      s'.boot.ready = true ∧ s'.boot.readyAt = s.now ∧ s'.ump.tiles = s.ump.tiles ∧ s'.ctxs = s.ctxs) ∧
    (qualified s = false ∨ s.pwr.governed = false → exec .bootReady s = .next s)) ∧
  (∀ (s : State) (bad bad2 : List TileIx) (fails : List HbmFail), s.alive = true →
    (s.boot.stage ≠ .maps → exec (.mcodeBroadcast bad bad2) s = .next s) ∧
    (s.boot.stage ≠ .train → exec (.hbmTrainDone fails) s = .next s) ∧
    (s.boot.stage ≠ .qualify → exec .bootReady s = .next s))

/-! ### Firmware (12) -/

/-- 12 R498, R500, R501, R503, R509, R513, Tables 12-4 to 12-6 and 12-9: ACTIVATE of an inactive slot that passes puts it in trial, one that
fails is REJECTED with its reason; CONFIRM ends the running slot's trial; a record that cannot be written leaves the one
in force, with FLASH_FAIL; ABORT_DOWNLOAD ends a download; while no command is accepted nothing happens. A minute in
trial is counted in the record; after the last the device falls back, and is reset once no launch executes or 100 ms have
passed. -/
def Obligations.FirmwareCommandResults : Prop :=
  (∀ (s : State), fwAccepts s = true →
    let b := !s.boot.record.active
    (s.boot.record.trial = true → exec (.fwActivate true) s = .next { s with boot := { s.boot with result := 3 } }) ∧
    (s.boot.record.trial = false → slotState s b = 0 →
      exec (.fwActivate true) s = .next { s with boot := { s.boot with result := 1 } }) ∧
    (∀ ok, ok = false ∨ s.card.flashFails = true → s.boot.record.trial = false → slotState s b ≠ 0 →
      ∃ s', exec (.fwActivate ok) s = .next s' ∧ s'.boot.result = 5 ∧ s'.boot.record = s.boot.record) ∧
    (s.card.flashFails = false → s.boot.record.trial = false → slotState s b ≠ 0 →
      ∃ s', exec (.fwActivate true) s = .next s' ∧
      if verifySlot s b = 0 then s'.boot.result = 0 ∧ s'.boot.record.active = b ∧
        s'.boot.record.trial = true ∧ s'.boot.record.activeVer = slotVersion s b ∧
        s'.boot.record.standbyVer = s.boot.record.activeVer ∧ s'.boot.record.trialBoots = 0 ∧
        s'.boot.record.trialMin = 0 ∧ s'.boot.record.seq = (s.boot.record.seq + 1) % 2 ^ 32
      else s'.boot.result = 2 ∧ s'.boot.record.rej b = true ∧ s'.boot.record.active = s.boot.record.active ∧
        (if b then s'.boot.reasonB else s'.boot.reasonA) = verifySlot s b) ∧
    (s.card.flashFails = false → s.boot.trial = true → s.boot.record.trial = true → s.boot.record.active = s.boot.slot →
      ∃ s', exec (.fwConfirm true) s = .next s' ∧ s'.boot.result = 0 ∧ s'.boot.trial = false ∧
        s'.boot.record = { s.boot.record with trial := false, trialBoots := 0, trialMin := 0
                                              seq := (s.boot.record.seq + 1) % 2 ^ 32 }) ∧
    (s.boot.trial = false → exec (.fwConfirm true) s = .next { s with boot := { s.boot with result := 1 } }) ∧
    (∀ d, s.download = some d →
      exec .abortDownload s = .next { s with boot := { s.boot with download := none, result := 0 } }) ∧
    (s.download = none → exec .abortDownload s = .next { s with boot := { s.boot with result := 1 } }) ∧
    (∀ v : BitVec 32, s.boot.record.trial = false → v ≠ 0#32 → slotState s b = 1 →
      ∃ s' d, exec (.fwBroadcast v) s = .next s' ∧ s' = { s with boot := { s.boot with seeding := some d, result := 0 } } ∧
        d.session = v ∧ d.sent = 0)) ∧
  (∀ (s : State) (v : BitVec 32) (ok : Bool), fwAccepts s = false →
    exec (.fwActivate ok) s = .next s ∧ exec (.fwConfirm ok) s = .next s ∧ exec .abortDownload s = .next s ∧
      exec (.fwBroadcast v) s = .next s) ∧
  (∀ (s : State), mgmtUp s = true → s.boot.expireAt = none → s.boot.trial = true → s.boot.ready = true →
    (∀ ok, s.since s.boot.minuteAt < 60000000000 → exec (.trialMinute ok) s = .next s) ∧
    (∀ ok, ok = false ∨ s.card.flashFails = true → 60000000000 ≤ s.since s.boot.minuteAt → s.boot.record.trialMin < 29 →
      ∃ s', exec (.trialMinute ok) s = .next s' ∧ s'.boot.record = s.boot.record ∧ s'.boot.result = 5 ∧
        s'.boot.minuteAt = s.now ∧ s'.boot.ready = true) ∧
    (s.card.flashFails = false → 60000000000 ≤ s.since s.boot.minuteAt → s.boot.record.trialMin < 29 →
      ∃ s', exec (.trialMinute true) s = .next s' ∧ s'.boot.record.trialMin = s.boot.record.trialMin + 1 ∧
        s'.boot.minuteAt = s.now ∧ s'.boot.ready = true) ∧
    (s.card.flashFails = false → 60000000000 ≤ s.since s.boot.minuteAt → s.boot.record.trialMin = 29 →
      ∃ s', exec (.trialMinute true) s = .next s' ∧ s'.boot.ready = false ∧ s'.boot.record.active = !s.boot.record.active ∧
        s'.boot.record.trial = false ∧ s'.boot.record.fellBack = true ∧ s'.boot.expireAt = some s.now)) ∧
  (∀ (s : State) (ok : Bool) (a : BitVec 64), mgmtUp s = true → s.boot.expireAt = some a →
    (execs s ≠ [] → s.since a < 100000000 → exec (.trialMinute ok) s = .next s) ∧
    (execs s = [] ∨ 100000000 ≤ s.since a → exec (.trialMinute ok) s = .next (fullReset s)))

/-- 12 R489 to R491, R511, 13 R536, Table 12-6: the seed sends its next chunk no sooner than 20 µs after the last; a chunk of a new
session erases the sector of the inactive slot's header and is kept; 100 ms without a chunk ends the session. A PLDM
download asks for offset 4,096 first, writes each piece where it belongs, and seals the slot with its last; Transfer- and
ApplyComplete then report success, VerifyComplete the result of the checks, ActivateFirmware acts as ACTIVATE and reports
its RESULT and that a reset is needed, and CancelUpdate ends the download. The completion codes and the agent's time-out
of 60 s are the model's (log 32). -/
def Obligations.FirmwareTransferResults : Prop :=
  (∀ (s : State) (sd : Seeding), s.boot.seeding = some sd → s.up = true → s.coxRuns = true →
    (sd.sent ≠ 0 → s.since sd.lastAt < 20000 → exec .bootChunkSend s = .next s) ∧
    (sd.sent = 0 ∨ 20000 ≤ s.since sd.lastAt →
      ∃ s', exec .bootChunkSend s = .next s' ∧
        s'.boot.seeding = (if sd.sent + 1 < sd.n then some { sd with sent := sd.sent + 1, lastAt := s.now } else none))) ∧
  (∀ (s : State) (i : Nat) (a : Arrival), s.fab.arrived[i]? = some a → a.pkt.ptype = .boot → s.fab.triples = [] →
    s.fab.rack.toNat = a.pkt.src.toNat / 64 → s.coxRuns = true → s.boot.record.trial = false →
    s.download = none → a.pkt.jobid ≠ s.boot.session → 16 ≤ a.pkt.handle.toNat →
    a.pkt.handle.toNat < a.pkt.value.toNat → 256 * a.pkt.value.toNat ≤ 25165824 → a.pkt.data.length = 256 →
    ∃ s' rx, exec (.bootPacket i) s = .next s' ∧ s'.fab.arrived = listDrop s.fab.arrived i ∧
      s'.boot.session = a.pkt.jobid ∧ s'.boot.rx = some rx ∧ rx.chunks = [a.pkt.handle.toNat] ∧
      rx.n = a.pkt.value.toNat ∧
      slotRead s' (!s.boot.record.active) (256 * a.pkt.handle.toNat) 256 = a.pkt.data ∧
      (∀ j, j < 65536 → j < 256 * a.pkt.handle.toNat ∨ 256 * a.pkt.handle.toNat + 256 ≤ j →
        Tbl.look 0xFF#8 (slotBase (!s.boot.record.active) + j) s'.flash = 0xFF#8) ∧
      slotRead s' (!s.boot.record.active) 0 4096 = List.replicate 4096 0xFF#8) ∧
  (∀ (s : State) (rx : Session), s.boot.rx = some rx → s.coxRuns = true →
    (s.since rx.lastAt < 100000000 → exec .bootBcastIncomplete s = .next s) ∧
    (100000000 ≤ s.since rx.lastAt → ∃ s', exec .bootBcastIncomplete s = .next s' ∧ s'.boot.rx = none ∧
      s'.boot.session = s.boot.session)) ∧
  (∀ (s : State) (n : Nat), mgmtUp s = true → inRecovery s = false →
    (s.boot.record.trial = false → s.download = none → s.boot.rx = none →
      exec (.requestUpdate n) s = .next { s with
        mgmt := s.mgmt ++ [.pldm 0]
        boot := { s.boot with download := some { maxXfer := clampNat 1 4096 n, began := false, header := []
                                                 nextOff := 0, total := 0, sealed := false, lastAt := s.now } } }) ∧
    (s.boot.record.trial = true → ∃ k, exec (.requestUpdate n) s = .next { s with mgmt := s.mgmt ++ [.pldm k] } ∧ k ≠ 0) ∧
    (∀ d, s.download = some d → d.began = false → 4096 < n → n ≤ 25165824 → 1 ≤ d.maxXfer → d.maxXfer ≤ 4096 →
      ∃ s', exec (.updateComponent n) s = .next s' ∧
        s'.boot.download = some { d with began := true, nextOff := 4096, total := n, lastAt := s.now } ∧
        s'.mgmt = s.mgmt ++ [.pldm 0, .want 4096 (Nat.min d.maxXfer (n - 4096))] ∧
        slotRead s' (!s.boot.record.active) 0 4096 = List.replicate 4096 0xFF#8) ∧
    (s.download = none → ∃ k, exec (.updateComponent n) s = .next { s with mgmt := s.mgmt ++ [.pldm k] } ∧ k ≠ 0)) ∧
  (∀ (s : State) (d : Download) (off : Nat) (data : List Byte), mgmtUp s = true → inRecovery s = false →
    s.download = some d → d.began = true → d.sealed = false → off = d.nextOff → data.length = wantLen d →
    (4096 ≤ off → ∃ s', exec (.firmwareData off data) s = .next s' ∧
      s'.boot.download = some { d with
        nextOff := if d.total ≤ off + data.length then 0 else off + data.length, lastAt := s.now } ∧
      (data ≠ [] → slotRead s' (!s.boot.record.active) off data.length = data)) ∧
    (off + data.length < 4096 → ∃ s', exec (.firmwareData off data) s = .next s' ∧ s'.flash = s.flash ∧
      s'.boot.download = some { d with nextOff := off + data.length, header := d.header ++ data, lastAt := s.now }) ∧
    (off < 4096 → off + data.length = 4096 → d.header.length = off → s.boot.record.rej (!s.boot.record.active) = false →
      ∃ s' d', exec (.firmwareData off data) s = .next s' ∧ s'.boot.download = some d' ∧ d'.sealed = true ∧
        hdrSealed (slotHeader s' (!s.boot.record.active)) = true ∧
        (slotHeader s' (!s.boot.record.active)).take 4088 = (d.header ++ data).take 4088)) ∧
  (∀ (s : State) (d : Download), mgmtUp s = true → s.download = some d → inRecovery s = false →
    let answered := fun (m : MgmtOut) => { s with
      mgmt := s.mgmt ++ [m], boot := { s.boot with download := some { d with lastAt := s.now } } }
    (d.sealed = true →
      exec .transferComplete s = .next (answered (.pldm 0)) ∧ exec .applyComplete s = .next (answered (.pldm 0)) ∧
      exec .verifyComplete s = .next (answered (.pldm (verifySlot s (!s.boot.record.active))))) ∧
    (d.sealed = false → exec .transferComplete s = .next s ∧ exec .verifyComplete s = .next s ∧
      exec .applyComplete s = .next s) ∧
    exec .cancelUpdate s = .next { s with
      mgmt := s.mgmt ++ [.pldm 0], boot := { s.boot with download := none, result := 0 } } ∧
    (fwAccepts s = true →
      exec (.activateFirmware .selfContained) s = .next (answered (.pldm 0x8C)) ∧
      (∀ ok, s.boot.record.trial = true → exec (.activateFirmware (.pending ok)) s = .next { s with
        mgmt := s.mgmt ++ [.activated 3 true], boot := { s.boot with download := none, result := 3 } }) ∧
      (∀ ok, s.boot.record.trial = false → slotState s (!s.boot.record.active) = 0 →
        exec (.activateFirmware (.pending ok)) s = .next { s with
          mgmt := s.mgmt ++ [.activated 1 true], boot := { s.boot with download := none, result := 1 } }) ∧
      (s.boot.record.trial = false → slotState s (!s.boot.record.active) ≠ 0 → s.card.flashFails = false →
        ∃ s', exec (.activateFirmware (.pending true)) s = .next s' ∧ s'.boot.download = none ∧
          s'.mgmt = s.mgmt ++ [.activated s'.boot.result true] ∧
          if verifySlot s (!s.boot.record.active) = 0 then s'.boot.result = 0 ∧
            s'.boot.record.active = !s.boot.record.active ∧ s'.boot.record.trial = true ∧
            s'.boot.record.activeVer = slotVersion s (!s.boot.record.active) ∧
            s'.boot.record.standbyVer = s.boot.record.activeVer
          else s'.boot.result = 2 ∧ s'.boot.record.active = s.boot.record.active ∧
            s'.boot.record.rej (!s.boot.record.active) = true))) ∧
  (∀ (s : State) (how : Activate), mgmtUp s = true → fwAccepts s = true → s.download = none →
    exec (.activateFirmware how) s = .next { s with mgmt := s.mgmt ++ [.pldm 0x80] })

/-! ### The host and the management path (13) -/

/-- 13 R518, R519, R552, 05 R205, R215, R216: a host read within an OWNED or SYSTEM frame returns its bytes, an uncorrectable line poisons
the data and the frame, a FREE frame reads as zero and a POISONED one as poisoned data; a write to either is discarded
and counted; an address outside HBM is an unsupported request, and one outside BAR2's aperture does not reach the
device. -/
def Obligations.HostMemoryResults : Prop :=
  (∀ (s : State) (addr len : Nat) (bs : List Byte), s.host.aperture * 2 ^ 30 < addr + len → bs.length = len →
    exec (.hostMemRead .bar2 addr len) s = .next s ∧ exec (.hostMemWrite .bar2 addr bs) s = .next s) ∧
  ∀ (s : State) (path : HostPath) (addr len : Nat), pathOpen s path = true → inBar s path addr len = true →
    s.host.d3hot = false → 0 < len → execs s = [] → (∀ k, (s.part k).reset = none) →
    let pa := hostPa s path addr
    let f := pa / 0x200000
    let answer := fun data poisoned unsupported (s' : State) =>
      s'.hostData = some { data := data, poisoned := poisoned, unsupported := unsupported }
    (0x6000000000 < pa + len → exec (.hostMemRead path addr len) s = .next { s with
        host := { s.host with aerUr := true }
        hostData := some { data := [], poisoned := false, unsupported := true } } ∧
      ∀ bs : List Byte, bs.length = len →
        exec (.hostMemWrite path addr bs) s = .next { s with host := { s.host with aerUr := true } }) ∧
    (pa + len ≤ 0x6000000000 → pa % 0x200000 + len ≤ 0x200000 →
      (s.frameNow f = .free → ∃ s', exec (.hostMemRead path addr len) s = .next s' ∧
        answer (List.replicate len 0#8) false false s' ∧ s'.hbm = s.hbm) ∧
      (s.frameNow f = .poisoned → ∃ s', exec (.hostMemRead path addr len) s = .next s' ∧ answer [] true false s') ∧
      (s.frameNow f = .owned ∨ s.frameNow f = .system → LinesClean s pa len →
        (∃ s', exec (.hostMemRead path addr len) s = .next s' ∧ answer (bytesAt 0 s.hbm pa len) false false s' ∧
          s'.hbm = s.hbm ∧ s'.frames = s.frames) ∧
        (∀ bs : List Byte, bs.length = len → ∃ s', exec (.hostMemWrite path addr bs) s = .next s' ∧
          (∀ a, Tbl.look 0#8 a s'.hbm = if pa ≤ a ∧ a < pa + len then bs.getD (a - pa) 0#8 else Tbl.look 0#8 a s.hbm) ∧
          s'.frames = s.frames ∧ s'.host.hostDrop = s.host.hostDrop)) ∧
      (s.frameNow f = .owned → Tbl.look LineErr.none (pa / 64) s.lineErr = .uncorrectable →
        ∃ s', exec (.hostMemRead path addr len) s = .next s' ∧ answer [] true false s' ∧ (s'.frame f).st = .poisoned ∧
          (s'.frame f).scrub = false ∧ (s'.stk (frameStack f)).ueAddr = 64 * (pa / 64) ∧
          (s'.stk (frameStack f)).ue = satAdd 32 (s.stk (frameStack f)).ue 1) ∧
      (s.frameNow f = .owned → (∀ l, pa / 64 < l → l ≤ (pa + len - 1) / 64 → Tbl.look LineErr.none l s.lineErr = .none) →
        Tbl.look LineErr.none (pa / 64) s.lineErr = .correctable →
        ∃ s', exec (.hostMemRead path addr len) s = .next s' ∧ answer (bytesAt 0 s.hbm pa len) false false s' ∧
          Tbl.look LineErr.none (pa / 64) s'.lineErr = .none ∧
          (s'.stk (frameStack f)).ce = satAdd 48 (s.stk (frameStack f)).ce 1) ∧
      (s.frameNow f = .free ∨ s.frameNow f = .poisoned → ∀ bs : List Byte, bs.length = len →
        ∃ s', exec (.hostMemWrite path addr bs) s = .next s' ∧ s'.hbm = s.hbm ∧
          s'.host.hostDrop = satAdd 32 s.host.hostDrop 1))

/-- 00 R18 to R21, 13 R517, R521, R522, R524, R528, R529, 05 R229, 15 R584, Tables 5-8, 13-1, 13-3 and 13-11: a register
write stores its fields, with a value out of range at the nearer bound, and one whose register has a command of its own
acts as that command; a read returns the bytes asked for, and a full read clears a read-to-clear field; other widths of a
write have no effect on BAR0. A link settles at an option that the device offers; a host detach aborts and disables every
context; EVT_CFG with EN from 0 to 1 begins the event ring anew. -/
def Obligations.HostRegisterResults : Prop :=
  (∀ (s : State) (v : BitVec 64), s.alive = true → s.host.d3hot = false →
    (∃ s', exec (.regWrite .bar0 0x50000 8 v) s = .next s' ∧
      s'.pwr.limitW = clampNat 100 1050 (v.extractLsb' 0 11).toNat ∧
      s'.pwr.tTarget = clampNat 60 110 (v.extractLsb' 16 8).toNat ∧ s'.pwr.g = Nat.max 1 (v.extractLsb' 24 8).toNat ∧
      s' = { s with pwr := { s.pwr with limitW := s'.pwr.limitW, tTarget := s'.pwr.tTarget, g := s'.pwr.g } }) ∧
    (∀ c : CtxIx, ∃ s', exec (.regWrite .bar0 (0x60800 + 8 * c.val) 8 v) s = .next s' ∧
      ((s.ctx c.val).exec ≠ none → s' = s) ∧
      ((s.ctx c.val).exec = none → s' = s.setCtx c.val { s.ctx c.val with
        bttRoot := (v.extractLsb' 14 25).toNat * 16384, bttEn := v.getLsbD 0 })) ∧
    (exec (.regWrite .bar0 0x218 8 v) s = .next { s with rst := { s.rst with
      escCount := clampNat 2 16 (v.extractLsb' 0 5).toNat, escWindow := clampNat 60 3600 (v.extractLsb' 16 12).toNat } }) ∧
    (exec (.regWrite .bar0 0x40008 8 v) s = .next { s with ump := { s.ump with
      trialS := clampNat 10 3600 (v.extractLsb' 0 16).toNat, marginS := clampNat 60 65535 (v.extractLsb' 16 16).toNat
      suspectS := clampNat 1 300 (v.extractLsb' 32 16).toNat } }) ∧
    (exec (.regWrite .bar0 0xA0010 8 v) s = exec (.evtRingEnable v) s ∧
      exec (.regWrite .bar0 0x70018 8 v) s = exec (.easyallSend (v.extractLsb' 0 32)) s ∧
      (v.getLsbD 0 = true → exec (.regWrite .bar0 0x40208 8 v) s = exec .umpLogPop s ∧
        exec (.regWrite .bar0 0x230 8 v) s = exec .resetLogPop s ∧
        ∀ p : PartIx, exec (.regWrite .bar0 (0x20028 + 0x1000 * p.val) 8 v) s = exec (.faultPop p) s)) ∧
    (∀ (off width : Nat), width ≠ 8 ∨ off % 8 ≠ 0 → exec (.regWrite .bar0 off width v) s = .next s) ∧
    (∀ off, 0xB0000 ≤ off → exec (.regWrite .bar0 off 8 v) s = .next s) ∧
    (∀ (a : Nat) (b : Bar), exec (.regWrite b a 8 v) { s with card := { s.card with power := false } } =
      .next { s with card := { s.card with power := false } })) ∧
  (∀ (s : State) (bar : Bar) (off width : Nat), s.alive = true → s.host.d3hot = false →
    let d : HostData := { data := (List.range width).map (fun i => barByte s bar (off + i)), poisoned := false
                          unsupported := false }
    (∃ s', exec (.rcRead bar off width) s = .next s' ∧ s'.hostData = some d ∧ s'.hbm = s.hbm ∧ s'.flash = s.flash ∧
      s'.tiles = s.tiles ∧ s'.frames = s.frames ∧ s'.fuses = s.fuses) ∧
    (bar = .bar4 ∨ width ≠ 8 ∨ off % 8 ≠ 0 → exec (.rcRead bar off width) s = .next { s with hostData := some d })) ∧
  (∀ (s : State), s.alive = true → s.host.d3hot = false → s.cntAdmitted < 2 ^ 48 →
    exec (.rcRead .bar0 0x10038 8) s = .next { s with
      cntAdmitted := 0
      hostData := some { data := leBytes 8 s.cntAdmitted, poisoned := false, unsupported := false } } ∧
    exec (.rcRead .bar0 0x10038 4) s = .next { s with
      hostData := some { data := leBytes 4 s.cntAdmitted, poisoned := false, unsupported := false } }) ∧
  (∀ (s : State) (speed width : Nat) (flit : Bool) (m : CxlMode), s.up = true →
    (1 ≤ speed → speed ≤ 6 → width ∈ [1, 2, 4, 8, 16] → (flit = true ↔ speed = 6) →
      ∃ s', exec (.pcieLinkUp speed width flit m) s = .next s' ∧ s'.host.speed = speed ∧ s'.host.width = width ∧
        s'.host.flit = flit ∧ s'.host.attached = true ∧ s'.rst.pclk = true ∧
        (s'.host.degraded = true ↔ speed < 4 ∨ width < 8) ∧
        (s'.host.cxl = .cxl31 ↔ m = .cxl31 ∧ speed = 6 ∧ (width = 16 ∨ width = 8)) ∧
        (s'.host.cxl = .cxl20 ↔ m = .cxl20 ∧ speed = 5 ∧ (width = 16 ∨ width = 8))) ∧
    (speed = 0 ∨ 6 < speed ∨ width ∉ [1, 2, 4, 8, 16] ∨ ¬ (flit = true ↔ speed = 6) →
      exec (.pcieLinkUp speed width flit m) s = .next s)) ∧
  (∀ (s : State) (why : Detach), s.alive = true → s.host.attached = true →
    ∃ s', exec (.hostDetach why) s = .next (afterPass s s') ∧ s'.host.evtEn = false ∧
      (∀ c, c < 64 → (s'.ctx c).en = false ∧ (s'.ctx c).fetched = []) ∧
      (∀ c, c < 64 → (s.ctx c).exec = none → (s.ctx c).abort = none → (s'.ctx c).st = .disabled) ∧
      (∀ c x, c < 64 → (s.ctx c).exec = some x → x.ending = none → x.began = true →
        ∃ x', (s'.ctx c).exec = some x' ∧ x'.ending.map (·.status) = some 0x30) ∧
      (why = .flr ∨ why = .cxlReset → s'.host.attached = true ∧ s'.host.speed = s.host.speed) ∧
      (why ≠ .flr → why ≠ .cxlReset → s'.host.attached = false ∧ s'.host.speed = 0)) ∧
  (∀ (s : State) (why : Detach), s.host.attached = false →
    (why ≠ .pclkLoss → exec (.hostDetach why) s = .next s) ∧
    (s.alive = true → exec (.hostDetach .pclkLoss) s = .next { s with rst := { s.rst with pclk := false } })) ∧
  (∀ (s : State) (v : BitVec 64), s.alive = true → s.host.heldLost = 0 →
    let size := Nat.min 8 (v.extractLsb' 0 4).toNat
    let base := (v.extractLsb' 12 52).toNat * 4096
    (s.host.evtEn = false → v.getLsbD 4 = true → exec (.evtRingEnable v) s = .next { s with host := { s.host with
      evtSize := size, evtBase := base, evtEn := true, evtIrq := v.getLsbD 5, evtTail := 0, evtHead := 0
      evtPhase := true } }) ∧
    (s.host.evtEn = false → v.getLsbD 4 = false → exec (.evtRingEnable v) s = .next { s with host := { s.host with
      evtSize := size, evtBase := base, evtIrq := v.getLsbD 5 } }) ∧
    (s.host.evtEn = true → exec (.evtRingEnable v) s = .next { s with host := { s.host with
      evtEn := v.getLsbD 4, evtIrq := v.getLsbD 5 } }))

/-- 13 R533 to R535, R540 to R544, Tables 13-6, 13-9 and 13-10: vendor commands with their statuses, the first check that fails deciding;
a refused one changes nothing but MGMT_REFUSED; the power limit is stored at the nearer bound; the reconciler compares a
stable map once a second, tries again 2 ms later otherwise, and repairs a shadow that differs, which the third time in a
row restarts the firmware; sensors, the effecter (read under identifier 257, the model's: log 32) and the event
receiver. -/
def Obligations.ManagementResults : Prop :=
  (∀ (s : State) (off len : Nat), mgmtUp s = true →
    (0 < len → len ≤ 1024 → off + len ≤ 4800 → exec (.getShadow off len) s =
      .next { s with mgmt := s.mgmt ++ [.vendor 0 (((shadowBytes s).drop off).take len)] }) ∧
    (len = 0 ∨ 1024 < len → ∃ s', exec (.getShadow off len) s = .next s' ∧ s'.mgmt = s.mgmt ++ [.vendor 4 []] ∧
      s'.host.refused = satAdd 32 s.host.refused 1 ∧ s'.host.shadow = s.host.shadow)) ∧
  (∀ (s : State) (w : Nat), mgmtUp s = true → exec (.setPowerLimit (some w)) s = .next { s with
    pwr := { s.pwr with mgmtW := clampNat 100 1050 w }, mgmt := s.mgmt ++ [.vendor 0 []] }) ∧
  (∀ (s : State) (e : BitVec 32), mgmtUp s = true →
    ∀ c ∈ [Instr.setPowerLimit none, .tileQuarantine e none, .tileSweep e none],
      ∃ s', exec c s = .next s' ∧ s'.mgmt = s.mgmt ++ [.vendor 4 []] ∧ s'.ump = s.ump ∧ s'.pwr = s.pwr ∧
        s'.host.refused = satAdd 32 s.host.refused 1) ∧
  (∀ (s : State) (e : BitVec 32) (t : Nat), mgmtUp s = true →
    let r := if s.rst.oos then 5 else if !s.boot.ready then 3 else if e ≠ s.ump.epoch then 1
      else if 4607 < t ∨ (s.utile t).st = .fused ∨ (s.utile t).st = .retired then 2 else 0
    ∃ s1 s2, exec (.tileQuarantine e (some t)) s = .next s1 ∧ exec (.tileSweep e (some t)) s = .next s2 ∧
      s1.mgmt = s.mgmt ++ [.vendor r []] ∧ s2.mgmt = s.mgmt ++ [.vendor r []] ∧
      (r ≠ 0 → s1.ump = s.ump ∧ s2.ump = s.ump ∧ s1.host.refused = satAdd 32 s.host.refused 1 ∧
        s2.host.refused = satAdd 32 s.host.refused 1) ∧
      (r = 0 → (s.utile t).st = .active → (s.utile t).role = .enabled →
        (s1.utile t).st = .suspect ∧ (s1.utile t).cause = 9 ∧ (s2.crew (s.utile t).gcrew).dueNom = true)) ∧
  (∀ (s : State) (whole : Bool), mgmtUp s = true → s.host.shadow.length = 4800 →
    ∃ s', exec (.shadowPublish whole) s = .next s' ∧ s'.host.shSeq = (s.host.shSeq + 2) % 2 ^ 32 ∧
      s'.host.shadow.length = 4800 ∧ s'.host.shadow.drop 192 = tileSection s ∧
      s'.host.shadow.take 4 = leBytes 4 s.ump.epoch.toNat ∧
      (whole = false → (s'.host.shadow.drop 64).take 128 = (s.host.shadow.drop 64).take 128)) ∧
  (∀ (s : State), mgmtUp s = true → s.host.shadow.length = 4800 →
    let later := fun (n : Nat) => { s with host := { s.host with recDue := s.now + BitVec.ofNat 64 n } }
    (s.now.toNat < s.host.recDue.toNat → exec .reconcile s = .next s) ∧
    (s.host.recDue.toNat ≤ s.now.toNat →
      (s.since s.host.mapAt < 2000000 ∨ shadowSeq s % 2 = 1 → exec .reconcile s = .next (later 2000000)) ∧
      (2000000 ≤ s.since s.host.mapAt → shadowSeq s % 2 = 0 →
        (shadowEpoch s = s.ump.epoch.toNat → divergent s = 0 → ∃ s', exec .reconcile s = .next s' ∧
          s'.host.misRun = 0 ∧ s'.host.shadow = s.host.shadow ∧ s'.host.shEpoch = s.ump.epoch ∧
          s'.host.recDue = (later 1000000000).host.recDue) ∧
        (shadowEpoch s ≠ s.ump.epoch.toNat ∨ divergent s ≠ 0 → s.host.misRun < 2 → ∃ s', exec .reconcile s = .next s' ∧
          s'.host.misRun = s.host.misRun + 1 ∧ s'.host.diverge = satAdd 16 s.host.diverge 1 ∧ divergent s' = 0 ∧
          shadowEpoch s' = s.ump.epoch.toNat ∧ s'.host.recDue = (later 1000000000).host.recDue) ∧
        (shadowEpoch s ≠ s.ump.epoch.toNat ∨ divergent s ≠ 0 → s.host.misRun = 2 →
          ∃ s', exec .reconcile s = .next s' ∧ s'.rst.cox = some s.now)))) ∧
  (∀ (s : State) (id w : Nat), mgmtUp s = true →
    (∀ v, sensorReading s id = some v → exec (.pldmSensorRead id) s = .next { s with mgmt := s.mgmt ++ [.sensor id v] }) ∧
    (sensorReading s id = none ↔ id = 0 ∨ 21 < id) ∧
    exec (.pldmSensorRead 257) s = .next { s with mgmt := s.mgmt ++ [.sensor 257 (1000 * (s.pwr.mgmtW : Int))] } ∧
    (sensorReading s 1 = some (dom s 0).current ∧ sensorReading s 8 = some ((dom s 3).voltage : Int) ∧
      sensorReading s 17 = some ((s.part 7).temp * 125)) ∧
    exec (.pldmEffecterSet 1 w) s = .next { s with
      pwr := { s.pwr with mgmtW := clampNat 100 1050 w }, mgmt := s.mgmt ++ [.pldm 0] } ∧
    (id ≠ 1 → ∃ k, exec (.pldmEffecterSet id w) s = .next { s with mgmt := s.mgmt ++ [.pldm k] } ∧ k ≠ 0)) ∧
  (∀ (s : State) (eid : BitVec 8), mgmtUp s = true → exec (.setEventReceiver eid) s = .next { s with
    host := { s.host with receiver := some eid, unsent := [] }, platform := s.platform ++ s.host.unsent
    mgmt := s.mgmt ++ [.pldm 0] })

/-- 13 R531, R538, R539, Tables 13-5 and 13-7: GET_VERSION begins a negotiation, and until the algorithms are agreed
GET_DIGESTS, GET_CERTIFICATE, CHALLENGE and GET_MEASUREMENTS are answered with an error; a digest is that of the chain;
a certificate read is the bytes asked for; a signed response, whose nonce and signature are the model's free values (log 1,
log 3), is one message. Endpoint IDs and the dynamic address. -/
def Obligations.SecurityAndAddressResults : Prop :=
  (∀ (s : State), mgmtUp s = true →
    (∃ m, exec .getVersion s = .next { s with host := { s.host with spdm := false }, mgmt := s.mgmt ++ [.spdm m] }) ∧
    (∃ m, exec .getCapabilities s = .next { s with freeIx := s.freeIx + 1, mgmt := s.mgmt ++ [.spdm m] }) ∧
    (∃ m, exec (.negotiateAlgorithms true) s =
      .next { s with host := { s.host with spdm := true }, mgmt := s.mgmt ++ [.spdm m] }) ∧
    exec (.negotiateAlgorithms false) s = .next { s with mgmt := s.mgmt ++ [.spdmError] } ∧
    (s.host.spdm = false → ∀ c ∈ [Instr.getDigests, .getCertificate 0 0 16, .challenge 0 [], .getMeasurements 0xFF#8 []],
      exec c s = .next { s with mgmt := s.mgmt ++ [.spdmError] }) ∧
    (s.host.spdm = true →
      exec .getDigests s = .next { s with
        mgmt := s.mgmt ++ [.spdm ([0x13#8, 0x01#8, 0#8, 1#8] ++ sha384 (certChain s))] } ∧
      (∀ off len, off < (certChain s).length → exec (.getCertificate 0 off len) s = .next { s with
        mgmt := s.mgmt ++ [.spdm ([0x13#8, 0x02#8, 0#8, 0#8] ++ leBytes 2 (((certChain s).drop off).take len).length ++
          leBytes 2 ((certChain s).length - off - (((certChain s).drop off).take len).length) ++
          ((certChain s).drop off).take len)] }) ∧
      (∀ slot off len, slot ≠ 0 → exec (.getCertificate slot off len) s =
        .next { s with mgmt := s.mgmt ++ [.spdmError] }) ∧
      (∀ nonce, ∃ m, exec (.challenge 0 nonce) s = .next { s with freeIx := s.freeIx + 1, mgmt := s.mgmt ++ [.spdm m] }) ∧
      (∀ ix : BitVec 8, ∀ nonce, ix.toNat ≤ 9 ∨ ix = 0xFF#8 →
        ∃ m, exec (.getMeasurements ix nonce) s = .next { s with freeIx := s.freeIx + 1, mgmt := s.mgmt ++ [.spdm m] }) ∧
      (∀ ix : BitVec 8, ∀ nonce, 9 < ix.toNat → ix ≠ 0xFF#8 →
        exec (.getMeasurements ix nonce) s = .next { s with mgmt := s.mgmt ++ [.spdmError] }))) ∧
  (∀ (s : State) (a : BitVec 7) (eid : BitVec 8), s.up = true →
    (s.host.i3c = none → exec (.dynamicAddressAssign a) s = .next { s with host := { s.host with i3c := some a } }) ∧
    (s.host.i3c ≠ none → exec (.dynamicAddressAssign a) s = .next s) ∧
    exec .rstdaa s = .next { s with host := { s.host with i3c := none } } ∧
    (s.coxRuns = true → s.host.i3c ≠ none → ∃ s', exec (.setEndpointId .i3c eid) s = .next s' ∧
      Tbl.look 0 0 s'.host.eids = eid ∧ exec (.setEndpointId .smbus eid) s = .next s) ∧
    (s.coxRuns = true → s.host.i3c = none → ∃ s', exec (.setEndpointId .smbus eid) s = .next s' ∧
      Tbl.look 0 1 s'.host.eids = eid ∧ exec (.setEndpointId .i3c eid) s = .next s) ∧
    (s.coxRuns = true → s.host.speed ≠ 0 → ∃ s', exec (.setEndpointId .pcieVdm eid) s = .next s' ∧
      Tbl.look 0 2 s'.host.eids = eid) ∧
    (s.host.speed = 0 → exec (.setEndpointId .pcieVdm eid) s = .next s))

/-! ### The card and the rack (12, 14) -/

/-- 14 R556, R563, R564, R572 to R577, 12 R486, Tables 14-4 and 14-5: each card fault within its bounds removes the device's power,
is recorded and reported, and leaves the flash; power returns as Table 14-4 says; a tray's power, and the limits that the
rack sends for its shelves and its coolant. Of faults found together the lowest code alone is recorded. Readings where the
specification is silent: log 33.

14 R565 to R569, Table 14-5: the card controller drives each lamp as the device's state, LOCATE and the last
power removal say; a measurement is taken where the on-time admits it, two that fail in a row set OPEN or SHORT, one that passes
sets OK, and a status older than 4 s reads UNVERIFIED; a pulse of a lamp too dim is lengthened every 2 s; DUTY,
FLICKER_FREE and the lamp test, which wait for the end of a lengthened pulse (R580). -/
def Obligations.CardRackAndLampResults : Prop :=
  (
  (∀ (s : State) (mv watts : Nat), s.card.power = true → s.card.input = true → s.card.logAt ≠ some s.card.time →
    ∀ e ∈ [(Instr.inputUv mv watts, 2, decide (mv < 46000)), (.inputOv mv watts, 3, decide (60000 < mv)),
        (.overpower mv watts, 4, decide (1320 < watts)), (.seqFail mv watts, 5, true), (.aclkFail mv watts, 6, true)],
      let r : CardEntry := { code := e.2.1, secs := s.card.time / 1000000000, mv := mv, watts := watts }
      if e.2.2 = true then ∃ s', exec e.1 s = .next s' ∧ s'.card.power = false ∧ s'.card.offCode = e.2.1 ∧
        s'.card.supplies = [.stby] ∧ s'.card.offAt = s.card.time ∧ s'.cardOut = s.cardOut ++ [.entry r] ∧ s'.flash = s.flash ∧
        s'.tiles = [] ∧ s'.ctxs = [] ∧
        (s.card.log.length < 1024 → s'.card.log = s.card.log ++ [r]) ∧
        (s.card.log.length = 1024 → s'.card.log = s.card.log.drop 1 ++ [r])
      else exec e.1 s = .next s) ∧
  (∀ (s : State) (mv watts : Nat) (l : List CardEntry) (o : CardEntry), s.card.power = false → s.card.input = true →
    s.card.offAt = s.card.time → s.card.logAt = some s.card.time → s.card.log = l ++ [o] → o.code = s.card.offCode →
    let r : CardEntry := { code := 5, secs := s.card.time / 1000000000, mv := mv, watts := watts }
    (5 < o.code → ∃ s', exec (.seqFail mv watts) s = .next s' ∧ s'.card.log = l ++ [r] ∧ s'.card.offCode = 5 ∧
      s'.card.power = false) ∧
    (o.code ≤ 5 → exec (.seqFail mv watts) s = .next s)) ∧
  (∀ (s : State) (mv watts : Nat), s.card.input = true → s.card.logAt ≠ some s.card.time →
    ∃ s', exec (.phaseOpen mv watts) s = .next s' ∧ s'.card.phaseOpen = true ∧ s'.card.power = s.card.power ∧
      s'.cardOut = s.cardOut ++ [.entry { code := 7, secs := s.card.time / 1000000000, mv := mv, watts := watts }]) ∧
  (∀ (s : State) (k : Nat), s.card.power = false → s.card.input = true → s.card.supplies = supplyOrder.take k →
    let on := { s with card := { s.card with power := true, supplies := supplyOrder } }
    (s.card.offCode = 2 → exec .powerOn s = .next s) ∧
    (s.card.offCode = 1 → s.card.time < s.card.offAt + 10000000000 → exec .powerOn s = .next s) ∧
    (s.card.offCode = 1 → s.card.offAt + 10000000000 ≤ s.card.time → exec .powerOn s = .next on) ∧
    (s.card.offCode ∈ [3, 4, 5, 6] → exec .powerOn s = .next on) ∧
    (∀ rp, (s.card.offCode = 2 ∨ s.card.offCode = 1 ∧ rp = false → exec (.inputRestored rp) s =
        .next { s with card := { s.card with power := true, supplies := supplyOrder, rackPresent := rp } }) ∧
      (s.card.offCode ∈ [3, 4, 5, 6] ∨ s.card.offCode = 1 ∧ rp = true → exec (.inputRestored rp) s =
        .next { s with card := { s.card with rackPresent := rp } }))) ∧
  (∀ (s : State) (rack : BitVec 8) (racks : BitVec 9),
    let c := { s.card with rack := rack, racks := racks, delivered := true, rackPresent := true }
    (s.rack.trayOn = true → exec (.trayEnable rack racks) s = .next { s with card := c } ∧
      ∃ s', exec .trayOff s = .next s' ∧ s'.card.power = false ∧ s'.card.input = false ∧ s'.rack.trayOn = false ∧
        s'.card.supplies = [] ∧ s'.flash = s.flash ∧ s'.card.log = s.card.log ∧ s'.card.tray = s.card.tray ∧ s'.card.slot = s.card.slot) ∧
    (s.rack.trayOn = false → exec .trayOff s = .next s ∧ ∀ k, s.card.supplies = supplyOrder.take k →
      exec (.trayEnable rack racks) s = .next { s with
        card := { c with input := true, power := true, supplies := supplyOrder }
        rack := { s.rack with trayOn := true } })) ∧
  (∀ (s : State), mgmtUp s = true →
    let w := fun n : Nat => Nat.min 1050 ((16000 * n - 3200) / 64 - 150)
    let sent := fun (r : Rack) (n : Nat) => { s with
      rack := r, rackLimits := s.rackLimits ++ [n], pwr := { s.pwr with mgmtW := clampNat 100 1050 n }
      mgmt := s.mgmt ++ [.vendor 0 []] }
    (s.rack.coolant = false →
      exec .shelfLoss s = .next (sent { s.rack with shelves := s.rack.shelves - 1 } (w (s.rack.shelves - 1))) ∧
      exec .shelfRestored s = .next (sent { s.rack with shelves := 6 } 1050)) ∧
    (s.rack.coolant = true → s.rack.shelves = 4 →
      exec .shelfLoss s = .next (sent { s.rack with shelves := 3 } 550) ∧
      exec .shelfRestored s = .next (sent { s.rack with shelves := 6 } 700)) ∧
    (w 5 = 1050 ∧ w 4 = 800) ∧
    (∀ (inlet : Int) (flow : Nat), 40000 < inlet ∨ flow < 96000 → 48000 ≤ flow →
      exec (.coolantMonitor inlet flow) s =
        .next (sent { s.rack with coolant := true, lowFlow := none } (Nat.min 700 (w s.rack.shelves)))) ∧
    (∀ (inlet : Int) (flow : Nat), inlet ≤ 40000 → 96000 ≤ flow → exec (.coolantMonitor inlet flow) s =
      .next { s with rack := { s.rack with coolant := false, lowFlow := none } }) ∧
    (∀ (inlet : Int) (flow a : Nat), flow < 48000 → s.rack.lowFlow = some a → a ≤ s.card.time → s.rack.trayOn = true →
      (a + 10000000000 ≤ s.card.time → ∃ s', exec (.coolantMonitor inlet flow) s = .next s' ∧ s'.card.power = false ∧
        s'.rack.trayOn = false) ∧
      (s.card.time < a + 10000000000 → ∃ s', exec (.coolantMonitor inlet flow) s = .next s' ∧ s'.card = s.card ∧
        s'.rack = { s.rack with coolant := true })))
  ) ∧
  (
  (∀ (s : State), s.card.input = true →
    ∃ s', exec .lampPoll s = .next s' ∧
      (s.card.power = false → (lampAt s' 0).drive = 0) ∧
      (s.card.power = false → s.card.offCode ∈ [1, 3, 4, 5, 6] → (lampAt s' 1).drive = 2) ∧
      (s.card.power = true → mgmtUp s = true → s.rst.oos = true → (lampAt s' 0).drive = 0 ∧ (lampAt s' 1).drive = 2) ∧
      (s.card.power = true → mgmtUp s = true → s.rst.oos = false →
        (lampAt s' 0).drive = (if bit (((shadowBytes s).getD 20 0#8).toNat) 0 then 2 else 1) ∧
        (s.card.phaseOpen = true ∨ bit (((shadowBytes s).getD 20 0#8).toNat) 1 = true → (lampAt s' 1).drive = 1)) ∧
      (s.card.power = true → mgmtUp s = false → (lampAt s' 0).drive = 1) ∧
      (lampAt s' 2).drive = (if s.card.locate then 2 else 0) ∧
      (∀ i a, i < 3 → (lampAt s i).measured = some a → a + 4000000000 < s.card.time →
        (lampAt s' i).st = .unverified) ∧
      (∀ i a, i < 3 → (lampAt s i).measured = some a → s.card.time ≤ a + 4000000000 → (lampAt s i).flickerFree = false →
        (lampAt s' i).st = (lampAt s i).st)) ∧
  (∀ (s : State) (l : Lamp) (ua mv : Nat), s.card.input = true →
    let i := lampIx l
    let x := lampAt s i
    let pulse := ∃ a, x.pulseAt = some a ∧ a + 20000 ≤ s.card.time ∧ s.card.time ≤ a + 40000
    (onTime s i = 0 ∨ (onTime s i < 40 ∧ (x.flickerFree = true ∨ ¬ pulse)) → exec (.lampMeasure l ua mv) s = .next s) ∧
    (40 ≤ onTime s i ∨ (onTime s i ≠ 0 ∧ x.flickerFree = false ∧ pulse) → s.card.logAt ≠ some s.card.time →
      ∃ s', exec (.lampMeasure l ua mv) s = .next s' ∧ (lampAt s' i).measured = some s.card.time ∧
        (∀ j, j ≠ i → lampAt s' j = lampAt s j) ∧
        (2000 ≤ ua → 1200 ≤ mv → (lampAt s' i).st = .ok ∧ (lampAt s' i).fails = 0) ∧
        (ua < 2000 ∨ mv < 1200 → (lampAt s' i).fails = x.fails + 1 ∧
          (x.fails = 0 → (lampAt s' i).st = x.st ∧ s'.cardOut = s.cardOut) ∧
          (x.fails ≠ 0 → (lampAt s' i).st = (if ua < 2000 then .openCircuit else .short)) ∧
          (x.fails ≠ 0 → x.st = .ok → ∃ v w : Nat, s'.cardOut = s.cardOut ++ [.lamp i (lampAt s' i).st,
            .entry { code := 8, secs := s.card.time / 1000000000, mv := v, watts := w }])))) ∧
  (∀ (s : State), s.card.input = true → s.card.testUntil = none →
    ∃ s', exec .lampPoll s = .next s' ∧ ∀ i, i < 3 →
      ((lampAt s' i).drive ≠ 0 → 0 < s.card.duty → s.card.duty < 40 → (lampAt s i).flickerFree = false →
        (∀ a, (lampAt s i).pulseAt = some a → a + 2000000000 ≤ s.card.time) →
        (lampAt s' i).pulseAt = some s.card.time) ∧
      ((lampAt s i).flickerFree = true → (lampAt s' i).pulseAt = (lampAt s i).pulseAt ∧
        ((lampAt s' i).drive ≠ 0 → 0 < s.card.duty → s.card.duty < 40 → (lampAt s' i).st = .unverified))) ∧
  (∀ (s : State) (d : Nat) (ff : BitVec 3), s.card.input = true → pulsing s = false →
    ∃ s', exec (.duty d ff) s = .next s' ∧ s'.card.duty = Nat.min 1000 d ∧
      ∀ i, i < 3 → (lampAt s' i).flickerFree = ff.getLsbD i ∧ (lampAt s' i).drive = (lampAt s i).drive) ∧
  (∀ (s : State) (b : Bool), s.card.input = true → pulsing s = false →
    (∃ s', exec (.locate b) s = .next s' ∧ s'.card.locate = b ∧ (lampAt s' 2).drive = (if b then 2 else 0)) ∧
    (∃ s', exec .lampTest s = .next s' ∧ s'.card.testUntil = some (s.card.time + 2000000000) ∧
      onTime s' 0 = 1000 ∧ onTime s' 1 = 1000 ∧ onTime s' 2 = 1000)) ∧
  (∀ (s : State) (b : Bool) (d : Nat) (ff : BitVec 3), s.card.input = true → pulsing s = true →
    let waits := fun (m : LampCmd) => { s with card := { s.card with waiting := s.card.waiting ++ [m] } }
    exec (.locate b) s = .next (waits (.locate b)) ∧ exec (.duty d ff) s = .next (waits (.duty d ff)) ∧
      exec .lampTest s = .next (waits .test))
  )

/-! ### The machine as a whole -/

/-- 02 R96, R97, R99, R102, 06 R269, R270, Tables 2-6 and 2-7: the first trap of a launch stops its tile, writes a
fault record to the ring of its partition, ends the launch with TILE_TRAP, and begins the context's abort; the context
is ABORTING unless it continues on a fault. A later trap leaves a SECONDARY record and the ending as it was.

02 R74 to R77, R98, R101, Table 2-6: a load of a word with a single-bit error returns the corrected value, removes the error and counts
it; a double-bit error is the precise trap SRAM_UE with the word's address and its syndrome (the code's syndromes are the
model's open constants, log 4), and is counted. -/
def Obligations.TrapAndErrorEffects : Prop :=
  (
  ∀ (s : State) (t : TileIx) (w : Word) (e : Exec), Issues s t.val .trap w → (s.tile t.val).job = .launch →
    let x := s.tile t.val
    let p := tilePart t.val
    let record := fun secondary : Nat => ({
      w0 := s.now
      w1 := BitVec.ofNat 64 (0x12 + secondary * 0x200 + x.ctx * 2 ^ 10 + t.val * 2 ^ 16 + x.tid * 2 ^ 32 +
        x.crew * 2 ^ 35 + x.pc.toNat * 2 ^ 48)
      w2 := BitVec.ofNat 64 (x.launchId.toNat + 0x1012 * 2 ^ 32 + (s.part p).rgen.toNat * 2 ^ 48)
      w3 := BitVec.ofNat 64 ((w.extractLsb' 0 8).toNat * 2 ^ 56) } : FaultRec)
    (s.ctx x.ctx).exec = some e → e.launch.id = x.launchId → e.began = true → e.pair = none →
    (s.part p).faults.items.length < 16 →
    (e.faults = [] → e.ending = none → (s.ctx x.ctx).abort = none → (s.ctx x.ctx).jobid = 0 →
      ∃ s' e', exec (.trap t) s = .next s' ∧ (s'.tile t.val).run = .stopped ∧
        (s'.part p).faults.items = (s.part p).faults.items ++ [record 0] ∧
        (s'.ctx x.ctx).exec = some e' ∧ e'.faults.map (·.frec) = [record 0] ∧
        e'.ending = some { status := 0x10, csDetail := 0, at_ := s.now } ∧
        (s'.ctx x.ctx).st = (if (s.ctx x.ctx).contOnFault then (s.ctx x.ctx).st else .aborting) ∧
        (s'.ctx x.ctx).sweep = some s.now ∧
        (s'.ctx x.ctx).abort = some { start := s.now, quiesced := false, parts := [], stuck := [] }) ∧
    (∀ f, e.faults = [f] → f.stroke ≠ s.now → e.ending ≠ none →
      ∃ s' e', exec (.trap t) s = .next s' ∧ (s'.tile t.val).run = .stopped ∧
        (s'.part p).faults.items = (s.part p).faults.items ++ [record 1] ∧
        (s'.ctx x.ctx).exec = some e' ∧ e'.ending = e.ending ∧ e'.faults.map (·.frec) = [f.frec, record 1])
  ) ∧
  (
  ∀ (s : State) (t : TileIx) (w : Word), Issues s t.val .lw w →
    let x := s.tile t.val
    let ea := effAddr x w 4
    ea % 4 = 0 → ea + 4 ≤ 0x18000 → unitBusy x (ea / 64) = false →
    (Tbl.look EccErr.none (ea / 8) x.sramErr = .single → wRd w ≠ 0 →
      (ceHour s (s.utile t.val)).length + 1 < s.ump.ceLimit →
      ∃ s', exec (.lw t) s = .next s' ∧
        (s'.tile t.val).sreg (wRd w) = BitVec.ofNat 32 (leNat (bytesAt 0 x.sram ea 4)) ∧
        (s'.tile t.val).pc = x.pc + 1 ∧ (s'.tile t.val).sram = x.sram ∧
        Tbl.look EccErr.none (ea / 8) (s'.tile t.val).sramErr = .none ∧
        (s'.tile t.val).eccCe = satAdd 32 x.eccCe 1 ∧
        Tbl.look 0 t.val s'.tileCe = satAdd 32 (Tbl.look 0 t.val s.tileCe) 1) ∧
    (∀ n, Tbl.look EccErr.none (ea / 8) x.sramErr = .double n →
      exec (.lw t) s = .next (trapTile t.val (precise 0x06 x.pc (8 * (ea / 8)) (Config.syndrome n).toNat)
        (waited s t.val .lw w)))
  )

/-- The commands are performed one at a time, in the order in which they wait: a step is the effect of the command in
front on the machine without it, and a machine with no command waiting stays as it is (the model's queue; log 13).
No row of the table has bits. -/
def Obligations.StepRunsFrontCommand : Prop :=
  (∀ (s : State) (c : Instr), step { s with pending := c :: s.pending } = exec c s) ∧
  (∀ s : State, s.pending = [] → step s = .next s) ∧
  (∀ nbits w : Nat, decodeTableWord nbits w = none) ∧
  (∀ (s : State) (nbits w : Nat), s.withFetchWord nbits w = s)

/-- The values that the register tables give after reset: 01 Table 1-3, 05 R204, Table 5-8, 06 R240, Tables 6-1 and 6-12, 07
Table 7-9, 08 Table 8-3, 09 Table 9-6, 10 Table 10-8, 11 Table 11-12, 12 Table 12-9, 13 Table 13-11, 03 R133: every context DISABLED, every frame
POISONED with its scrub pending, every port OFF, the Umpire's periods and policy, the power limits, the escalation policy. -/
def Obligations.ResetValues : Prop :=
  (∀ c, (State.reset.ctx c).st = .disabled ∧ (State.reset.ctx c).en = false ∧ (State.reset.ctx c).limitMs = 1000 ∧
    (State.reset.ctx c).jobid = 0 ∧ (State.reset.ctx c).sqHead = 0 ∧ (State.reset.ctx c).cqTail = 0 ∧
    (State.reset.ctx c).cqPhase = true ∧ (State.reset.ctx c).bttEn = false ∧ (State.reset.ctx c).oor = 0) ∧
  (∀ f, (State.reset.frame f).st = .poisoned ∧ (State.reset.frame f).scrub = true) ∧
  (∀ k, (State.reset.stk k).ce = 0 ∧ (State.reset.stk k).ue = 0 ∧ (State.reset.stk k).trained = false) ∧
  (∀ n, (State.reset.port n).st = .off ∧ (State.reset.port n).retry = 0 ∧ (State.reset.port n).crc = 0) ∧
  (State.reset.fab.place = .idle ∧ State.reset.fab.placed = false ∧ State.reset.fab.machine = 1 ∧
    State.reset.fab.combEn = true ∧ State.reset.fab.holdNs = 0 ∧ State.reset.fab.cntUnroutable = 0) ∧
  (State.reset.stroke.st = .init ∧ State.reset.stroke.now = 0 ∧ State.reset.stroke.cntMaster = 0 ∧
    State.reset.stroke.cntSlip = 0) ∧
  (State.reset.pwr.limitW = 1050 ∧ State.reset.pwr.tTarget = 100 ∧ State.reset.pwr.g = 4 ∧
    State.reset.pwr.mgmtW = 1050 ∧ State.reset.pwr.clamp = 0) ∧
  (∀ p, (State.reset.part p).point = 15 ∧ (State.reset.part p).cap = 0 ∧ (State.reset.part p).rgen = 0 ∧
    (State.reset.part p).faults.items = []) ∧
  (State.reset.ump.trials = true ∧ State.reset.ump.pair = true ∧ State.reset.ump.spareWarn = 16 ∧
    State.reset.ump.trialS = 300 ∧ State.reset.ump.marginS = 3600 ∧ State.reset.ump.suspectS = 10 ∧
    State.reset.ump.interval = 64 ∧ State.reset.ump.pinLimitS = 30 ∧ State.reset.ump.ceLimit = 16 ∧
    State.reset.ump.clean = 8 ∧ State.reset.ump.qsweeps = 16) ∧
  (State.reset.rst.oos = false ∧ State.reset.rst.escCount = 4 ∧ State.reset.rst.escWindow = 600 ∧
    State.reset.rst.log.items = []) ∧
  (State.reset.boot.stage = .rom ∧ State.reset.boot.ready = false ∧ State.reset.boot.result = 0) ∧
  (State.reset.host.speed = 0 ∧ State.reset.host.evtEn = false ∧ State.reset.host.evtPhase = true ∧
    State.reset.host.evtLost = 0 ∧ State.reset.host.hostDrop = 0) ∧
  (∀ t, (State.reset.tile t).run = .off ∧ (State.reset.tile t).extent = 0xFFFFFFFF#32 ∧ (State.reset.tile t).cycle = 0 ∧
    (State.reset.tile t).fpstat = 0#6) ∧
  State.reset.pending = []

/-- The memories of the machine after reset are in canonical form. -/
def Obligations.ResetMemoryWellFormed : Prop := MemWf State.reset

/-- Every step keeps the canonical form of HBM, card flash and host memory, takes exactly the command in front off the
queue, and leaves the fuses as they were (00 R4, R6: the fused grade and map never change; the canonical form is the model's own), whatever the command. -/
def Obligations.StepKeepsInvariant : Prop :=
  ∀ s s' : State, MemWf s → step s = .next s' →
    MemWf s' ∧ s'.pending = s.pending.tail ∧ s'.fuses = s.fuses
end

