-- ==== Sys2Proof/Laws/Tbl.lean ====
section
/-!
SUPPORT. Laws of sparse tables and of the byte memories built on them: a read after a write, writes elsewhere, and the
canonical form that every operation keeps.
-/

namespace Sys2Proof.Machine

/-! ### Reads after writes -/

theorem Tbl.look_insert {α : Type} (d : α) (j k : Nat) (x : α) (t : Tbl α) :
    Tbl.look d j (Tbl.insert k x t) = if j = k then x else Tbl.look d j t := by
  induction t with
  | nil => simp [Tbl.insert, Tbl.look]
  | cons e r ih =>
    obtain ⟨i, y⟩ := e
    simp only [Tbl.insert]
    split
    · simp [Tbl.look]
    · split
      · rename_i h; subst h
        simp only [Tbl.look]
        split <;> rfl
      · simp only [Tbl.look, ih]
        split
        · rename_i h2; subst h2
          rw [if_neg]; omega
        · rfl

theorem Tbl.look_erase {α : Type} (d : α) (j k : Nat) (t : Tbl α) :
    Tbl.look d j (Tbl.erase k t) = if j = k then d else Tbl.look d j t := by
  induction t with
  | nil => simp [Tbl.erase, Tbl.look]
  | cons e r ih =>
    obtain ⟨i, y⟩ := e
    simp only [Tbl.erase]
    split
    · rename_i h; subst h
      rw [ih]; simp only [Tbl.look]
      split <;> rfl
    · simp only [Tbl.look, ih]
      split
      · rename_i h2; subst h2
        rw [if_neg]; omega
      · rfl

/-- A read after a write, at any key of any table. -/
theorem Tbl.look_put {α : Type} [DecidableEq α] (d : α) (j k : Nat) (x : α) (t : Tbl α) :
    Tbl.look d j (Tbl.put d k x t) = if j = k then x else Tbl.look d j t := by
  unfold Tbl.put
  split
  · rename_i h; subst h; exact Tbl.look_erase x j k t
  · exact Tbl.look_insert d j k x t

@[simp] theorem Tbl.look_put_same {α : Type} [DecidableEq α] (d : α) (k : Nat) (x : α) (t : Tbl α) :
    Tbl.look d k (Tbl.put d k x t) = x := by simp [Tbl.look_put]

theorem Tbl.look_put_other {α : Type} [DecidableEq α] (d : α) {j k : Nat} (x : α) (t : Tbl α) (h : j ≠ k) :
    Tbl.look d j (Tbl.put d k x t) = Tbl.look d j t := by simp [Tbl.look_put, h]

@[simp] theorem Tbl.look_nil {α : Type} (d : α) (k : Nat) : Tbl.look d k ([] : Tbl α) = d := rfl

/-! ### The canonical form -/

theorem Tbl.rising_none_of_some {α : Type} {i : Nat} {t : Tbl α} (h : Tbl.rising (some i) t = true) :
    Tbl.rising none t = true := by
  cases t with
  | nil => rfl
  | cons e r => obtain ⟨j, y⟩ := e; simp [Tbl.rising] at h ⊢; exact h.2

theorem Tbl.rising_weaken {α : Type} {i j : Nat} {t : Tbl α} (hij : i ≤ j) (h : Tbl.rising (some j) t = true) :
    Tbl.rising (some i) t = true := by
  cases t with
  | nil => rfl
  | cons e r => obtain ⟨k, y⟩ := e; simp [Tbl.rising] at h ⊢; exact ⟨by omega, h.2⟩

theorem Tbl.rising_insert {α : Type} (k : Nat) (x : α) (t : Tbl α) (lo : Option Nat)
    (hlo : ∀ i, lo = some i → i < k) (h : Tbl.rising lo t = true) : Tbl.rising lo (Tbl.insert k x t) = true := by
  induction t generalizing lo with
  | nil =>
    cases lo with
    | none => rfl
    | some i => simp [Tbl.insert, Tbl.rising, hlo i rfl]
  | cons e r ih =>
    obtain ⟨j, y⟩ := e
    have hj : Tbl.rising (some j) r = true := by
      cases lo <;> simp [Tbl.rising] at h <;> first | exact h | exact h.2
    simp only [Tbl.insert]
    split
    · rename_i hkj
      cases lo with
      | none => simp [Tbl.rising, hkj, hj]
      | some i => simp [Tbl.rising, hkj, hj, hlo i rfl]
    · split
      · rename_i hkj; subst hkj
        cases lo with
        | none => simpa [Tbl.rising] using hj
        | some i => simpa [Tbl.rising, hlo i rfl] using hj
      · rename_i h1 h2
        have := ih (some j) (by intro i hi; cases hi; omega) hj
        cases lo with
        | none => simpa [Tbl.rising] using this
        | some i => simp [Tbl.rising] at h ⊢; exact ⟨h.1, this⟩

theorem Tbl.rising_erase {α : Type} (k : Nat) (t : Tbl α) (lo : Option Nat) (h : Tbl.rising lo t = true) :
    Tbl.rising lo (Tbl.erase k t) = true := by
  induction t generalizing lo with
  | nil => exact h
  | cons e r ih =>
    obtain ⟨j, y⟩ := e
    have hj : Tbl.rising (some j) r = true := by
      cases lo <;> simp [Tbl.rising] at h <;> first | exact h | exact h.2
    simp only [Tbl.erase]
    split
    · cases lo with
      | none => exact ih none (Tbl.rising_none_of_some hj)
      | some i =>
        simp [Tbl.rising] at h
        exact ih (some i) (Tbl.rising_weaken (by omega) hj)
    · have := ih (some j) hj
      cases lo with
      | none => simpa [Tbl.rising] using this
      | some i => simp [Tbl.rising] at h ⊢; exact ⟨h.1, this⟩

theorem Tbl.all_insert {α : Type} (p : Nat × α → Bool) (k : Nat) (x : α) (t : Tbl α) (hx : p (k, x) = true)
    (h : t.all p = true) : (Tbl.insert k x t).all p = true := by
  induction t with
  | nil => simp [Tbl.insert, hx]
  | cons e r ih =>
    obtain ⟨j, y⟩ := e
    simp only [List.all_cons, Bool.and_eq_true] at h
    simp only [Tbl.insert]
    split
    · simp [hx, h.1, h.2]
    · split
      · simp [hx, h.2]
      · simp [h.1, ih h.2]

theorem Tbl.all_erase {α : Type} (p : Nat × α → Bool) (k : Nat) (t : Tbl α) (h : t.all p = true) :
    (Tbl.erase k t).all p = true := by
  induction t with
  | nil => exact h
  | cons e r ih =>
    obtain ⟨j, y⟩ := e
    simp only [List.all_cons, Bool.and_eq_true] at h
    simp only [Tbl.erase]
    split
    · exact ih h.2
    · simp [h.1, ih h.2]

/-- Every write keeps the canonical form. -/
theorem Tbl.wf_put {α : Type} [DecidableEq α] (d : α) (k : Nat) (x : α) (t : Tbl α) (h : Tbl.wf d t = true) :
    Tbl.wf d (Tbl.put d k x t) = true := by
  simp only [Tbl.wf, Bool.and_eq_true] at h ⊢
  unfold Tbl.put
  split
  · exact ⟨Tbl.rising_erase k t none h.1, Tbl.all_erase _ k t h.2⟩
  · rename_i hx
    exact ⟨Tbl.rising_insert k x t none (by simp) h.1, Tbl.all_insert _ k x t (by simpa using hx) h.2⟩

theorem Tbl.rising_filter {α : Type} (p : Nat × α → Bool) (t : Tbl α) (lo : Option Nat)
    (h : Tbl.rising lo t = true) : Tbl.rising lo (t.filter p) = true := by
  induction t generalizing lo with
  | nil => exact h
  | cons e r ih =>
    obtain ⟨j, y⟩ := e
    have hj : Tbl.rising (some j) r = true := by
      cases lo <;> simp [Tbl.rising] at h <;> first | exact h | exact h.2
    simp only [List.filter_cons]
    split
    · have := ih (some j) hj
      cases lo with
      | none => simpa [Tbl.rising] using this
      | some i => simp [Tbl.rising] at h ⊢; exact ⟨h.1, this⟩
    · cases lo with
      | none => exact ih none (Tbl.rising_none_of_some hj)
      | some i =>
        simp [Tbl.rising] at h
        exact ih (some i) (Tbl.rising_weaken (by omega) hj)

/-- Clearing a range keeps the canonical form. -/
theorem Tbl.wf_clear {α : Type} [DecidableEq α] (d : α) (a n : Nat) (t : Tbl α) (h : Tbl.wf d t = true) :
    Tbl.wf d (Tbl.clear a n t) = true := by
  simp only [Tbl.wf, Bool.and_eq_true] at h ⊢
  refine ⟨Tbl.rising_filter _ t none h.1, ?_⟩
  simp only [Tbl.clear, List.all_eq_true, List.mem_filter] at h ⊢
  exact fun e he => h.2 e he.1

/-! ### Byte memories -/

/-- Writing bytes keeps the canonical form. -/
theorem putBytes_wf (d : Byte) (bs : List Byte) (m : Tbl Byte) (a : Nat) (h : Tbl.wf d m = true) :
    Tbl.wf d (putBytes d m a bs) = true := by
  induction bs generalizing m a with
  | nil => exact h
  | cons b r ih => exact ih _ _ (Tbl.wf_put d a b m h)

/-- A byte outside the bytes written reads as before. -/
theorem putBytes_look_out (d : Byte) (bs : List Byte) (m : Tbl Byte) (a x : Nat) (h : x < a ∨ a + bs.length ≤ x) :
    Tbl.look d x (putBytes d m a bs) = Tbl.look d x m := by
  induction bs generalizing m a with
  | nil => rfl
  | cons b r ih =>
    simp only [putBytes]
    rw [ih _ _ (by simp at h; omega), Tbl.look_put, if_neg (by simp at h; omega)]

/-- A byte written reads back. -/
theorem putBytes_look_in (d : Byte) (bs : List Byte) (m : Tbl Byte) (a i : Nat) (h : i < bs.length) :
    Tbl.look d (a + i) (putBytes d m a bs) = bs[i] := by
  induction bs generalizing m a i with
  | nil => simp at h
  | cons b r ih =>
    simp only [putBytes]
    cases i with
    | zero =>
      rw [putBytes_look_out d r _ _ _ (by omega)]
      simp
    | succ j =>
      have h2 : j < r.length := by simpa using h
      have := ih (Tbl.put d a b m) (a + 1) j h2
      rw [show a + (j + 1) = a + 1 + j by omega, this]
      rfl

/-- What has been written reads back whole. -/
theorem bytesAt_putBytes (d : Byte) (bs : List Byte) (m : Tbl Byte) (a : Nat) :
    bytesAt d (putBytes d m a bs) a bs.length = bs := by
  suffices H : ∀ (n : Nat) (k : Nat), k + n = bs.length → bytesAt d (putBytes d m a bs) (a + k) n = bs.drop k by
    simpa using H bs.length 0 (by omega)
  intro n
  induction n with
  | zero => intro k hk; simp [bytesAt, show k = bs.length by omega]
  | succ n ih =>
    intro k hk
    have h2 : k < bs.length := by omega
    simp only [bytesAt]
    rw [putBytes_look_in d bs m a k h2, show a + k + 1 = a + (k + 1) by omega, ih (k + 1) (by omega),
      List.drop_eq_getElem_cons h2]

@[simp] theorem bytesAt_length (d : Byte) (m : Tbl Byte) (a n : Nat) : (bytesAt d m a n).length = n := by
  induction n generalizing a with
  | zero => rfl
  | succ n ih => simp [bytesAt, ih]

/-- Bytes read elsewhere than where bytes were written are as before. -/
theorem bytesAt_putBytes_out (d : Byte) (bs : List Byte) (m : Tbl Byte) (a b n : Nat)
    (h : b + n ≤ a ∨ a + bs.length ≤ b) : bytesAt d (putBytes d m a bs) b n = bytesAt d m b n := by
  induction n generalizing b with
  | zero => rfl
  | succ n ih =>
    simp only [bytesAt]
    rw [putBytes_look_out d bs m a b (by omega), ih (b + 1) (by omega)]

@[simp] theorem leBytes_length (n v : Nat) : (leBytes n v).length = n := by
  induction n generalizing v with
  | zero => rfl
  | succ n ih => simp [leBytes, ih]

end Sys2Proof.Machine
end

