-- ==== Sys2Proof/Laws/State.lean ====
section
/-!
SUPPORT. What each update of State leaves and what it changes: one lemma for each field and update, so that no proof
unfolds a record update.
-/

namespace Sys2Proof.Machine

/-! ### setTile -/

@[simp] theorem State.setTile_pending (s : State) (t : Nat) (x : Tile) : (s.setTile t x).pending = s.pending := rfl
@[simp] theorem State.setTile_freeIx (s : State) (t : Nat) (x : Tile) : (s.setTile t x).freeIx = s.freeIx := rfl
@[simp] theorem State.setTile_fuses (s : State) (t : Nat) (x : Tile) : (s.setTile t x).fuses = s.fuses := rfl
@[simp] theorem State.setTile_tileCe (s : State) (t : Nat) (x : Tile) : (s.setTile t x).tileCe = s.tileCe := rfl
@[simp] theorem State.setTile_tileUe (s : State) (t : Nat) (x : Tile) : (s.setTile t x).tileUe = s.tileUe := rfl
@[simp] theorem State.setTile_parts (s : State) (t : Nat) (x : Tile) : (s.setTile t x).parts = s.parts := rfl
@[simp] theorem State.setTile_ctxs (s : State) (t : Nat) (x : Tile) : (s.setTile t x).ctxs = s.ctxs := rfl
@[simp] theorem State.setTile_stks (s : State) (t : Nat) (x : Tile) : (s.setTile t x).stks = s.stks := rfl
@[simp] theorem State.setTile_hbm (s : State) (t : Nat) (x : Tile) : (s.setTile t x).hbm = s.hbm := rfl
@[simp] theorem State.setTile_lineErr (s : State) (t : Nat) (x : Tile) : (s.setTile t x).lineErr = s.lineErr := rfl
@[simp] theorem State.setTile_frames (s : State) (t : Nat) (x : Tile) : (s.setTile t x).frames = s.frames := rfl
@[simp] theorem State.setTile_fcResult (s : State) (t : Nat) (x : Tile) : (s.setTile t x).fcResult = s.fcResult := rfl
@[simp] theorem State.setTile_fcState (s : State) (t : Nat) (x : Tile) : (s.setTile t x).fcState = s.fcState := rfl
@[simp] theorem State.setTile_fcScrub (s : State) (t : Nat) (x : Tile) : (s.setTile t x).fcScrub = s.fcScrub := rfl
@[simp] theorem State.setTile_fcOwner (s : State) (t : Nat) (x : Tile) : (s.setTile t x).fcOwner = s.fcOwner := rfl
@[simp] theorem State.setTile_btiCtx (s : State) (t : Nat) (x : Tile) : (s.setTile t x).btiCtx = s.btiCtx := rfl
@[simp] theorem State.setTile_btiPage (s : State) (t : Nat) (x : Tile) : (s.setTile t x).btiPage = s.btiPage := rfl
@[simp] theorem State.setTile_btiAll (s : State) (t : Nat) (x : Tile) : (s.setTile t x).btiAll = s.btiAll := rfl
@[simp] theorem State.setTile_btiGo (s : State) (t : Nat) (x : Tile) : (s.setTile t x).btiGo = s.btiGo := rfl
@[simp] theorem State.setTile_btiNow (s : State) (t : Nat) (x : Tile) : (s.setTile t x).btiNow = s.btiNow := rfl
@[simp] theorem State.setTile_passMark (s : State) (t : Nat) (x : Tile) : (s.setTile t x).passMark = s.passMark := rfl
@[simp] theorem State.setTile_tcache (s : State) (t : Nat) (x : Tile) : (s.setTile t x).tcache = s.tcache := rfl
@[simp] theorem State.setTile_wfCtx (s : State) (t : Nat) (x : Tile) : (s.setTile t x).wfCtx = s.wfCtx := rfl
@[simp] theorem State.setTile_wfCode (s : State) (t : Nat) (x : Tile) : (s.setTile t x).wfCode = s.wfCode := rfl
@[simp] theorem State.setTile_wfAddr (s : State) (t : Nat) (x : Tile) : (s.setTile t x).wfAddr = s.wfAddr := rfl
@[simp] theorem State.setTile_weir (s : State) (t : Nat) (x : Tile) : (s.setTile t x).weir = s.weir := rfl
@[simp] theorem State.setTile_atoms (s : State) (t : Nat) (x : Tile) : (s.setTile t x).atoms = s.atoms := rfl
@[simp] theorem State.setTile_spills (s : State) (t : Nat) (x : Tile) : (s.setTile t x).spills = s.spills := rfl
@[simp] theorem State.setTile_berthResult (s : State) (t : Nat) (x : Tile) : (s.setTile t x).berthResult = s.berthResult := rfl
@[simp] theorem State.setTile_berthQuery (s : State) (t : Nat) (x : Tile) : (s.setTile t x).berthQuery = s.berthQuery := rfl
@[simp] theorem State.setTile_defCrewMw (s : State) (t : Nat) (x : Tile) : (s.setTile t x).defCrewMw = s.defCrewMw := rfl
@[simp] theorem State.setTile_passUs (s : State) (t : Nat) (x : Tile) : (s.setTile t x).passUs = s.passUs := rfl
@[simp] theorem State.setTile_cntInfeasible (s : State) (t : Nat) (x : Tile) : (s.setTile t x).cntInfeasible = s.cntInfeasible := rfl
@[simp] theorem State.setTile_cntAdmitted (s : State) (t : Nat) (x : Tile) : (s.setTile t x).cntAdmitted = s.cntAdmitted := rfl
@[simp] theorem State.setTile_cntOverrun (s : State) (t : Nat) (x : Tile) : (s.setTile t x).cntOverrun = s.cntOverrun := rfl
@[simp] theorem State.setTile_fab (s : State) (t : Nat) (x : Tile) : (s.setTile t x).fab = s.fab := rfl
@[simp] theorem State.setTile_stroke (s : State) (t : Nat) (x : Tile) : (s.setTile t x).stroke = s.stroke := rfl
@[simp] theorem State.setTile_pwr (s : State) (t : Nat) (x : Tile) : (s.setTile t x).pwr = s.pwr := rfl
@[simp] theorem State.setTile_ump (s : State) (t : Nat) (x : Tile) : (s.setTile t x).ump = s.ump := rfl
@[simp] theorem State.setTile_rst (s : State) (t : Nat) (x : Tile) : (s.setTile t x).rst = s.rst := rfl
@[simp] theorem State.setTile_boot (s : State) (t : Nat) (x : Tile) : (s.setTile t x).boot = s.boot := rfl
@[simp] theorem State.setTile_host (s : State) (t : Nat) (x : Tile) : (s.setTile t x).host = s.host := rfl
@[simp] theorem State.setTile_card (s : State) (t : Nat) (x : Tile) : (s.setTile t x).card = s.card := rfl
@[simp] theorem State.setTile_rack (s : State) (t : Nat) (x : Tile) : (s.setTile t x).rack = s.rack := rfl
@[simp] theorem State.setTile_flash (s : State) (t : Nat) (x : Tile) : (s.setTile t x).flash = s.flash := rfl
@[simp] theorem State.setTile_evLogNext (s : State) (t : Nat) (x : Tile) : (s.setTile t x).evLogNext = s.evLogNext := rfl
@[simp] theorem State.setTile_hostMem (s : State) (t : Nat) (x : Tile) : (s.setTile t x).hostMem = s.hostMem := rfl
@[simp] theorem State.setTile_hostData (s : State) (t : Nat) (x : Tile) : (s.setTile t x).hostData = s.hostData := rfl
@[simp] theorem State.setTile_msix (s : State) (t : Nat) (x : Tile) : (s.setTile t x).msix = s.msix := rfl
@[simp] theorem State.setTile_sent (s : State) (t : Nat) (x : Tile) : (s.setTile t x).sent = s.sent := rfl
@[simp] theorem State.setTile_naks (s : State) (t : Nat) (x : Tile) : (s.setTile t x).naks = s.naks := rfl
@[simp] theorem State.setTile_markers (s : State) (t : Nat) (x : Tile) : (s.setTile t x).markers = s.markers := rfl
@[simp] theorem State.setTile_mgmt (s : State) (t : Nat) (x : Tile) : (s.setTile t x).mgmt = s.mgmt := rfl
@[simp] theorem State.setTile_cardOut (s : State) (t : Nat) (x : Tile) : (s.setTile t x).cardOut = s.cardOut := rfl
@[simp] theorem State.setTile_rackLimits (s : State) (t : Nat) (x : Tile) : (s.setTile t x).rackLimits = s.rackLimits := rfl
@[simp] theorem State.setTile_platform (s : State) (t : Nat) (x : Tile) : (s.setTile t x).platform = s.platform := rfl
@[simp] theorem State.setTile_snoops (s : State) (t : Nat) (x : Tile) : (s.setTile t x).snoops = s.snoops := rfl
@[simp] theorem State.setTile_part (s : State) (t : Nat) (x : Tile) (j : Nat) : (s.setTile t x).part j = s.part j := rfl
@[simp] theorem State.setTile_ctx (s : State) (t : Nat) (x : Tile) (j : Nat) : (s.setTile t x).ctx j = s.ctx j := rfl
@[simp] theorem State.setTile_stk (s : State) (t : Nat) (x : Tile) (j : Nat) : (s.setTile t x).stk j = s.stk j := rfl
@[simp] theorem State.setTile_frame (s : State) (t : Nat) (x : Tile) (j : Nat) : (s.setTile t x).frame j = s.frame j := rfl
@[simp] theorem State.setTile_port (s : State) (t : Nat) (x : Tile) (j : Nat) : (s.setTile t x).port j = s.port j := rfl
@[simp] theorem State.setTile_utile (s : State) (t : Nat) (x : Tile) (j : Nat) : (s.setTile t x).utile j = s.utile j := rfl
@[simp] theorem State.setTile_crew (s : State) (t : Nat) (x : Tile) (j : Nat) : (s.setTile t x).crew j = s.crew j := rfl
@[simp] theorem State.setTile_now (s : State) (t : Nat) (x : Tile) : (s.setTile t x).now = s.now := rfl
@[simp] theorem State.setTile_alive (s : State) (t : Nat) (x : Tile) : (s.setTile t x).alive = s.alive := rfl
theorem State.setTile_tile_ite (s : State) (t : Nat) (x : Tile) (j : Nat) : (s.setTile t x).tile j = if j = t then x else s.tile j :=
  Tbl.look_put _ _ _ _ _
@[simp] theorem State.setTile_tile_same (s : State) (t : Nat) (x : Tile) : (s.setTile t x).tile t = x := Tbl.look_put_same _ _ _ _
theorem State.setTile_tile_other (s : State) (t : Nat) (x : Tile) (j : Nat) (h : j ≠ t) : (s.setTile t x).tile j = s.tile j :=
  Tbl.look_put_other _ _ _ h

/-! ### setPart -/

@[simp] theorem State.setPart_pending (s : State) (p : Nat) (x : Part) : (s.setPart p x).pending = s.pending := rfl
@[simp] theorem State.setPart_freeIx (s : State) (p : Nat) (x : Part) : (s.setPart p x).freeIx = s.freeIx := rfl
@[simp] theorem State.setPart_fuses (s : State) (p : Nat) (x : Part) : (s.setPart p x).fuses = s.fuses := rfl
@[simp] theorem State.setPart_tiles (s : State) (p : Nat) (x : Part) : (s.setPart p x).tiles = s.tiles := rfl
@[simp] theorem State.setPart_tileCe (s : State) (p : Nat) (x : Part) : (s.setPart p x).tileCe = s.tileCe := rfl
@[simp] theorem State.setPart_tileUe (s : State) (p : Nat) (x : Part) : (s.setPart p x).tileUe = s.tileUe := rfl
@[simp] theorem State.setPart_ctxs (s : State) (p : Nat) (x : Part) : (s.setPart p x).ctxs = s.ctxs := rfl
@[simp] theorem State.setPart_stks (s : State) (p : Nat) (x : Part) : (s.setPart p x).stks = s.stks := rfl
@[simp] theorem State.setPart_hbm (s : State) (p : Nat) (x : Part) : (s.setPart p x).hbm = s.hbm := rfl
@[simp] theorem State.setPart_lineErr (s : State) (p : Nat) (x : Part) : (s.setPart p x).lineErr = s.lineErr := rfl
@[simp] theorem State.setPart_frames (s : State) (p : Nat) (x : Part) : (s.setPart p x).frames = s.frames := rfl
@[simp] theorem State.setPart_fcResult (s : State) (p : Nat) (x : Part) : (s.setPart p x).fcResult = s.fcResult := rfl
@[simp] theorem State.setPart_fcState (s : State) (p : Nat) (x : Part) : (s.setPart p x).fcState = s.fcState := rfl
@[simp] theorem State.setPart_fcScrub (s : State) (p : Nat) (x : Part) : (s.setPart p x).fcScrub = s.fcScrub := rfl
@[simp] theorem State.setPart_fcOwner (s : State) (p : Nat) (x : Part) : (s.setPart p x).fcOwner = s.fcOwner := rfl
@[simp] theorem State.setPart_btiCtx (s : State) (p : Nat) (x : Part) : (s.setPart p x).btiCtx = s.btiCtx := rfl
@[simp] theorem State.setPart_btiPage (s : State) (p : Nat) (x : Part) : (s.setPart p x).btiPage = s.btiPage := rfl
@[simp] theorem State.setPart_btiAll (s : State) (p : Nat) (x : Part) : (s.setPart p x).btiAll = s.btiAll := rfl
@[simp] theorem State.setPart_btiGo (s : State) (p : Nat) (x : Part) : (s.setPart p x).btiGo = s.btiGo := rfl
@[simp] theorem State.setPart_btiNow (s : State) (p : Nat) (x : Part) : (s.setPart p x).btiNow = s.btiNow := rfl
@[simp] theorem State.setPart_passMark (s : State) (p : Nat) (x : Part) : (s.setPart p x).passMark = s.passMark := rfl
@[simp] theorem State.setPart_tcache (s : State) (p : Nat) (x : Part) : (s.setPart p x).tcache = s.tcache := rfl
@[simp] theorem State.setPart_wfCtx (s : State) (p : Nat) (x : Part) : (s.setPart p x).wfCtx = s.wfCtx := rfl
@[simp] theorem State.setPart_wfCode (s : State) (p : Nat) (x : Part) : (s.setPart p x).wfCode = s.wfCode := rfl
@[simp] theorem State.setPart_wfAddr (s : State) (p : Nat) (x : Part) : (s.setPart p x).wfAddr = s.wfAddr := rfl
@[simp] theorem State.setPart_weir (s : State) (p : Nat) (x : Part) : (s.setPart p x).weir = s.weir := rfl
@[simp] theorem State.setPart_atoms (s : State) (p : Nat) (x : Part) : (s.setPart p x).atoms = s.atoms := rfl
@[simp] theorem State.setPart_spills (s : State) (p : Nat) (x : Part) : (s.setPart p x).spills = s.spills := rfl
@[simp] theorem State.setPart_berthResult (s : State) (p : Nat) (x : Part) : (s.setPart p x).berthResult = s.berthResult := rfl
@[simp] theorem State.setPart_berthQuery (s : State) (p : Nat) (x : Part) : (s.setPart p x).berthQuery = s.berthQuery := rfl
@[simp] theorem State.setPart_defCrewMw (s : State) (p : Nat) (x : Part) : (s.setPart p x).defCrewMw = s.defCrewMw := rfl
@[simp] theorem State.setPart_passUs (s : State) (p : Nat) (x : Part) : (s.setPart p x).passUs = s.passUs := rfl
@[simp] theorem State.setPart_cntInfeasible (s : State) (p : Nat) (x : Part) : (s.setPart p x).cntInfeasible = s.cntInfeasible := rfl
@[simp] theorem State.setPart_cntAdmitted (s : State) (p : Nat) (x : Part) : (s.setPart p x).cntAdmitted = s.cntAdmitted := rfl
@[simp] theorem State.setPart_cntOverrun (s : State) (p : Nat) (x : Part) : (s.setPart p x).cntOverrun = s.cntOverrun := rfl
@[simp] theorem State.setPart_fab (s : State) (p : Nat) (x : Part) : (s.setPart p x).fab = s.fab := rfl
@[simp] theorem State.setPart_stroke (s : State) (p : Nat) (x : Part) : (s.setPart p x).stroke = s.stroke := rfl
@[simp] theorem State.setPart_pwr (s : State) (p : Nat) (x : Part) : (s.setPart p x).pwr = s.pwr := rfl
@[simp] theorem State.setPart_ump (s : State) (p : Nat) (x : Part) : (s.setPart p x).ump = s.ump := rfl
@[simp] theorem State.setPart_rst (s : State) (p : Nat) (x : Part) : (s.setPart p x).rst = s.rst := rfl
@[simp] theorem State.setPart_boot (s : State) (p : Nat) (x : Part) : (s.setPart p x).boot = s.boot := rfl
@[simp] theorem State.setPart_host (s : State) (p : Nat) (x : Part) : (s.setPart p x).host = s.host := rfl
@[simp] theorem State.setPart_card (s : State) (p : Nat) (x : Part) : (s.setPart p x).card = s.card := rfl
@[simp] theorem State.setPart_rack (s : State) (p : Nat) (x : Part) : (s.setPart p x).rack = s.rack := rfl
@[simp] theorem State.setPart_flash (s : State) (p : Nat) (x : Part) : (s.setPart p x).flash = s.flash := rfl
@[simp] theorem State.setPart_evLogNext (s : State) (p : Nat) (x : Part) : (s.setPart p x).evLogNext = s.evLogNext := rfl
@[simp] theorem State.setPart_hostMem (s : State) (p : Nat) (x : Part) : (s.setPart p x).hostMem = s.hostMem := rfl
@[simp] theorem State.setPart_hostData (s : State) (p : Nat) (x : Part) : (s.setPart p x).hostData = s.hostData := rfl
@[simp] theorem State.setPart_msix (s : State) (p : Nat) (x : Part) : (s.setPart p x).msix = s.msix := rfl
@[simp] theorem State.setPart_sent (s : State) (p : Nat) (x : Part) : (s.setPart p x).sent = s.sent := rfl
@[simp] theorem State.setPart_naks (s : State) (p : Nat) (x : Part) : (s.setPart p x).naks = s.naks := rfl
@[simp] theorem State.setPart_markers (s : State) (p : Nat) (x : Part) : (s.setPart p x).markers = s.markers := rfl
@[simp] theorem State.setPart_mgmt (s : State) (p : Nat) (x : Part) : (s.setPart p x).mgmt = s.mgmt := rfl
@[simp] theorem State.setPart_cardOut (s : State) (p : Nat) (x : Part) : (s.setPart p x).cardOut = s.cardOut := rfl
@[simp] theorem State.setPart_rackLimits (s : State) (p : Nat) (x : Part) : (s.setPart p x).rackLimits = s.rackLimits := rfl
@[simp] theorem State.setPart_platform (s : State) (p : Nat) (x : Part) : (s.setPart p x).platform = s.platform := rfl
@[simp] theorem State.setPart_snoops (s : State) (p : Nat) (x : Part) : (s.setPart p x).snoops = s.snoops := rfl
@[simp] theorem State.setPart_tile (s : State) (p : Nat) (x : Part) (j : Nat) : (s.setPart p x).tile j = s.tile j := rfl
@[simp] theorem State.setPart_ctx (s : State) (p : Nat) (x : Part) (j : Nat) : (s.setPart p x).ctx j = s.ctx j := rfl
@[simp] theorem State.setPart_stk (s : State) (p : Nat) (x : Part) (j : Nat) : (s.setPart p x).stk j = s.stk j := rfl
@[simp] theorem State.setPart_frame (s : State) (p : Nat) (x : Part) (j : Nat) : (s.setPart p x).frame j = s.frame j := rfl
@[simp] theorem State.setPart_port (s : State) (p : Nat) (x : Part) (j : Nat) : (s.setPart p x).port j = s.port j := rfl
@[simp] theorem State.setPart_utile (s : State) (p : Nat) (x : Part) (j : Nat) : (s.setPart p x).utile j = s.utile j := rfl
@[simp] theorem State.setPart_crew (s : State) (p : Nat) (x : Part) (j : Nat) : (s.setPart p x).crew j = s.crew j := rfl
@[simp] theorem State.setPart_now (s : State) (p : Nat) (x : Part) : (s.setPart p x).now = s.now := rfl
@[simp] theorem State.setPart_alive (s : State) (p : Nat) (x : Part) : (s.setPart p x).alive = s.alive := rfl
theorem State.setPart_part_ite (s : State) (p : Nat) (x : Part) (j : Nat) : (s.setPart p x).part j = if j = p then x else s.part j :=
  Tbl.look_put _ _ _ _ _
@[simp] theorem State.setPart_part_same (s : State) (p : Nat) (x : Part) : (s.setPart p x).part p = x := Tbl.look_put_same _ _ _ _
theorem State.setPart_part_other (s : State) (p : Nat) (x : Part) (j : Nat) (h : j ≠ p) : (s.setPart p x).part j = s.part j :=
  Tbl.look_put_other _ _ _ h

/-! ### setCtx -/

@[simp] theorem State.setCtx_pending (s : State) (c : Nat) (x : Ctx) : (s.setCtx c x).pending = s.pending := rfl
@[simp] theorem State.setCtx_freeIx (s : State) (c : Nat) (x : Ctx) : (s.setCtx c x).freeIx = s.freeIx := rfl
@[simp] theorem State.setCtx_fuses (s : State) (c : Nat) (x : Ctx) : (s.setCtx c x).fuses = s.fuses := rfl
@[simp] theorem State.setCtx_tiles (s : State) (c : Nat) (x : Ctx) : (s.setCtx c x).tiles = s.tiles := rfl
@[simp] theorem State.setCtx_tileCe (s : State) (c : Nat) (x : Ctx) : (s.setCtx c x).tileCe = s.tileCe := rfl
@[simp] theorem State.setCtx_tileUe (s : State) (c : Nat) (x : Ctx) : (s.setCtx c x).tileUe = s.tileUe := rfl
@[simp] theorem State.setCtx_parts (s : State) (c : Nat) (x : Ctx) : (s.setCtx c x).parts = s.parts := rfl
@[simp] theorem State.setCtx_stks (s : State) (c : Nat) (x : Ctx) : (s.setCtx c x).stks = s.stks := rfl
@[simp] theorem State.setCtx_hbm (s : State) (c : Nat) (x : Ctx) : (s.setCtx c x).hbm = s.hbm := rfl
@[simp] theorem State.setCtx_lineErr (s : State) (c : Nat) (x : Ctx) : (s.setCtx c x).lineErr = s.lineErr := rfl
@[simp] theorem State.setCtx_frames (s : State) (c : Nat) (x : Ctx) : (s.setCtx c x).frames = s.frames := rfl
@[simp] theorem State.setCtx_fcResult (s : State) (c : Nat) (x : Ctx) : (s.setCtx c x).fcResult = s.fcResult := rfl
@[simp] theorem State.setCtx_fcState (s : State) (c : Nat) (x : Ctx) : (s.setCtx c x).fcState = s.fcState := rfl
@[simp] theorem State.setCtx_fcScrub (s : State) (c : Nat) (x : Ctx) : (s.setCtx c x).fcScrub = s.fcScrub := rfl
@[simp] theorem State.setCtx_fcOwner (s : State) (c : Nat) (x : Ctx) : (s.setCtx c x).fcOwner = s.fcOwner := rfl
@[simp] theorem State.setCtx_btiCtx (s : State) (c : Nat) (x : Ctx) : (s.setCtx c x).btiCtx = s.btiCtx := rfl
@[simp] theorem State.setCtx_btiPage (s : State) (c : Nat) (x : Ctx) : (s.setCtx c x).btiPage = s.btiPage := rfl
@[simp] theorem State.setCtx_btiAll (s : State) (c : Nat) (x : Ctx) : (s.setCtx c x).btiAll = s.btiAll := rfl
@[simp] theorem State.setCtx_btiGo (s : State) (c : Nat) (x : Ctx) : (s.setCtx c x).btiGo = s.btiGo := rfl
@[simp] theorem State.setCtx_btiNow (s : State) (c : Nat) (x : Ctx) : (s.setCtx c x).btiNow = s.btiNow := rfl
@[simp] theorem State.setCtx_passMark (s : State) (c : Nat) (x : Ctx) : (s.setCtx c x).passMark = s.passMark := rfl
@[simp] theorem State.setCtx_tcache (s : State) (c : Nat) (x : Ctx) : (s.setCtx c x).tcache = s.tcache := rfl
@[simp] theorem State.setCtx_wfCtx (s : State) (c : Nat) (x : Ctx) : (s.setCtx c x).wfCtx = s.wfCtx := rfl
@[simp] theorem State.setCtx_wfCode (s : State) (c : Nat) (x : Ctx) : (s.setCtx c x).wfCode = s.wfCode := rfl
@[simp] theorem State.setCtx_wfAddr (s : State) (c : Nat) (x : Ctx) : (s.setCtx c x).wfAddr = s.wfAddr := rfl
@[simp] theorem State.setCtx_weir (s : State) (c : Nat) (x : Ctx) : (s.setCtx c x).weir = s.weir := rfl
@[simp] theorem State.setCtx_atoms (s : State) (c : Nat) (x : Ctx) : (s.setCtx c x).atoms = s.atoms := rfl
@[simp] theorem State.setCtx_spills (s : State) (c : Nat) (x : Ctx) : (s.setCtx c x).spills = s.spills := rfl
@[simp] theorem State.setCtx_berthResult (s : State) (c : Nat) (x : Ctx) : (s.setCtx c x).berthResult = s.berthResult := rfl
@[simp] theorem State.setCtx_berthQuery (s : State) (c : Nat) (x : Ctx) : (s.setCtx c x).berthQuery = s.berthQuery := rfl
@[simp] theorem State.setCtx_defCrewMw (s : State) (c : Nat) (x : Ctx) : (s.setCtx c x).defCrewMw = s.defCrewMw := rfl
@[simp] theorem State.setCtx_passUs (s : State) (c : Nat) (x : Ctx) : (s.setCtx c x).passUs = s.passUs := rfl
@[simp] theorem State.setCtx_cntInfeasible (s : State) (c : Nat) (x : Ctx) : (s.setCtx c x).cntInfeasible = s.cntInfeasible := rfl
@[simp] theorem State.setCtx_cntAdmitted (s : State) (c : Nat) (x : Ctx) : (s.setCtx c x).cntAdmitted = s.cntAdmitted := rfl
@[simp] theorem State.setCtx_cntOverrun (s : State) (c : Nat) (x : Ctx) : (s.setCtx c x).cntOverrun = s.cntOverrun := rfl
@[simp] theorem State.setCtx_fab (s : State) (c : Nat) (x : Ctx) : (s.setCtx c x).fab = s.fab := rfl
@[simp] theorem State.setCtx_stroke (s : State) (c : Nat) (x : Ctx) : (s.setCtx c x).stroke = s.stroke := rfl
@[simp] theorem State.setCtx_pwr (s : State) (c : Nat) (x : Ctx) : (s.setCtx c x).pwr = s.pwr := rfl
@[simp] theorem State.setCtx_ump (s : State) (c : Nat) (x : Ctx) : (s.setCtx c x).ump = s.ump := rfl
@[simp] theorem State.setCtx_rst (s : State) (c : Nat) (x : Ctx) : (s.setCtx c x).rst = s.rst := rfl
@[simp] theorem State.setCtx_boot (s : State) (c : Nat) (x : Ctx) : (s.setCtx c x).boot = s.boot := rfl
@[simp] theorem State.setCtx_host (s : State) (c : Nat) (x : Ctx) : (s.setCtx c x).host = s.host := rfl
@[simp] theorem State.setCtx_card (s : State) (c : Nat) (x : Ctx) : (s.setCtx c x).card = s.card := rfl
@[simp] theorem State.setCtx_rack (s : State) (c : Nat) (x : Ctx) : (s.setCtx c x).rack = s.rack := rfl
@[simp] theorem State.setCtx_flash (s : State) (c : Nat) (x : Ctx) : (s.setCtx c x).flash = s.flash := rfl
@[simp] theorem State.setCtx_evLogNext (s : State) (c : Nat) (x : Ctx) : (s.setCtx c x).evLogNext = s.evLogNext := rfl
@[simp] theorem State.setCtx_hostMem (s : State) (c : Nat) (x : Ctx) : (s.setCtx c x).hostMem = s.hostMem := rfl
@[simp] theorem State.setCtx_hostData (s : State) (c : Nat) (x : Ctx) : (s.setCtx c x).hostData = s.hostData := rfl
@[simp] theorem State.setCtx_msix (s : State) (c : Nat) (x : Ctx) : (s.setCtx c x).msix = s.msix := rfl
@[simp] theorem State.setCtx_sent (s : State) (c : Nat) (x : Ctx) : (s.setCtx c x).sent = s.sent := rfl
@[simp] theorem State.setCtx_naks (s : State) (c : Nat) (x : Ctx) : (s.setCtx c x).naks = s.naks := rfl
@[simp] theorem State.setCtx_markers (s : State) (c : Nat) (x : Ctx) : (s.setCtx c x).markers = s.markers := rfl
@[simp] theorem State.setCtx_mgmt (s : State) (c : Nat) (x : Ctx) : (s.setCtx c x).mgmt = s.mgmt := rfl
@[simp] theorem State.setCtx_cardOut (s : State) (c : Nat) (x : Ctx) : (s.setCtx c x).cardOut = s.cardOut := rfl
@[simp] theorem State.setCtx_rackLimits (s : State) (c : Nat) (x : Ctx) : (s.setCtx c x).rackLimits = s.rackLimits := rfl
@[simp] theorem State.setCtx_platform (s : State) (c : Nat) (x : Ctx) : (s.setCtx c x).platform = s.platform := rfl
@[simp] theorem State.setCtx_snoops (s : State) (c : Nat) (x : Ctx) : (s.setCtx c x).snoops = s.snoops := rfl
@[simp] theorem State.setCtx_tile (s : State) (c : Nat) (x : Ctx) (j : Nat) : (s.setCtx c x).tile j = s.tile j := rfl
@[simp] theorem State.setCtx_part (s : State) (c : Nat) (x : Ctx) (j : Nat) : (s.setCtx c x).part j = s.part j := rfl
@[simp] theorem State.setCtx_stk (s : State) (c : Nat) (x : Ctx) (j : Nat) : (s.setCtx c x).stk j = s.stk j := rfl
@[simp] theorem State.setCtx_frame (s : State) (c : Nat) (x : Ctx) (j : Nat) : (s.setCtx c x).frame j = s.frame j := rfl
@[simp] theorem State.setCtx_port (s : State) (c : Nat) (x : Ctx) (j : Nat) : (s.setCtx c x).port j = s.port j := rfl
@[simp] theorem State.setCtx_utile (s : State) (c : Nat) (x : Ctx) (j : Nat) : (s.setCtx c x).utile j = s.utile j := rfl
@[simp] theorem State.setCtx_crew (s : State) (c : Nat) (x : Ctx) (j : Nat) : (s.setCtx c x).crew j = s.crew j := rfl
@[simp] theorem State.setCtx_now (s : State) (c : Nat) (x : Ctx) : (s.setCtx c x).now = s.now := rfl
@[simp] theorem State.setCtx_alive (s : State) (c : Nat) (x : Ctx) : (s.setCtx c x).alive = s.alive := rfl
theorem State.setCtx_ctx_ite (s : State) (c : Nat) (x : Ctx) (j : Nat) : (s.setCtx c x).ctx j = if j = c then x else s.ctx j :=
  Tbl.look_put _ _ _ _ _
@[simp] theorem State.setCtx_ctx_same (s : State) (c : Nat) (x : Ctx) : (s.setCtx c x).ctx c = x := Tbl.look_put_same _ _ _ _
theorem State.setCtx_ctx_other (s : State) (c : Nat) (x : Ctx) (j : Nat) (h : j ≠ c) : (s.setCtx c x).ctx j = s.ctx j :=
  Tbl.look_put_other _ _ _ h

/-! ### setStk -/

@[simp] theorem State.setStk_pending (s : State) (k : Nat) (x : Stack) : (s.setStk k x).pending = s.pending := rfl
@[simp] theorem State.setStk_freeIx (s : State) (k : Nat) (x : Stack) : (s.setStk k x).freeIx = s.freeIx := rfl
@[simp] theorem State.setStk_fuses (s : State) (k : Nat) (x : Stack) : (s.setStk k x).fuses = s.fuses := rfl
@[simp] theorem State.setStk_tiles (s : State) (k : Nat) (x : Stack) : (s.setStk k x).tiles = s.tiles := rfl
@[simp] theorem State.setStk_tileCe (s : State) (k : Nat) (x : Stack) : (s.setStk k x).tileCe = s.tileCe := rfl
@[simp] theorem State.setStk_tileUe (s : State) (k : Nat) (x : Stack) : (s.setStk k x).tileUe = s.tileUe := rfl
@[simp] theorem State.setStk_parts (s : State) (k : Nat) (x : Stack) : (s.setStk k x).parts = s.parts := rfl
@[simp] theorem State.setStk_ctxs (s : State) (k : Nat) (x : Stack) : (s.setStk k x).ctxs = s.ctxs := rfl
@[simp] theorem State.setStk_hbm (s : State) (k : Nat) (x : Stack) : (s.setStk k x).hbm = s.hbm := rfl
@[simp] theorem State.setStk_lineErr (s : State) (k : Nat) (x : Stack) : (s.setStk k x).lineErr = s.lineErr := rfl
@[simp] theorem State.setStk_frames (s : State) (k : Nat) (x : Stack) : (s.setStk k x).frames = s.frames := rfl
@[simp] theorem State.setStk_fcResult (s : State) (k : Nat) (x : Stack) : (s.setStk k x).fcResult = s.fcResult := rfl
@[simp] theorem State.setStk_fcState (s : State) (k : Nat) (x : Stack) : (s.setStk k x).fcState = s.fcState := rfl
@[simp] theorem State.setStk_fcScrub (s : State) (k : Nat) (x : Stack) : (s.setStk k x).fcScrub = s.fcScrub := rfl
@[simp] theorem State.setStk_fcOwner (s : State) (k : Nat) (x : Stack) : (s.setStk k x).fcOwner = s.fcOwner := rfl
@[simp] theorem State.setStk_btiCtx (s : State) (k : Nat) (x : Stack) : (s.setStk k x).btiCtx = s.btiCtx := rfl
@[simp] theorem State.setStk_btiPage (s : State) (k : Nat) (x : Stack) : (s.setStk k x).btiPage = s.btiPage := rfl
@[simp] theorem State.setStk_btiAll (s : State) (k : Nat) (x : Stack) : (s.setStk k x).btiAll = s.btiAll := rfl
@[simp] theorem State.setStk_btiGo (s : State) (k : Nat) (x : Stack) : (s.setStk k x).btiGo = s.btiGo := rfl
@[simp] theorem State.setStk_btiNow (s : State) (k : Nat) (x : Stack) : (s.setStk k x).btiNow = s.btiNow := rfl
@[simp] theorem State.setStk_passMark (s : State) (k : Nat) (x : Stack) : (s.setStk k x).passMark = s.passMark := rfl
@[simp] theorem State.setStk_tcache (s : State) (k : Nat) (x : Stack) : (s.setStk k x).tcache = s.tcache := rfl
@[simp] theorem State.setStk_wfCtx (s : State) (k : Nat) (x : Stack) : (s.setStk k x).wfCtx = s.wfCtx := rfl
@[simp] theorem State.setStk_wfCode (s : State) (k : Nat) (x : Stack) : (s.setStk k x).wfCode = s.wfCode := rfl
@[simp] theorem State.setStk_wfAddr (s : State) (k : Nat) (x : Stack) : (s.setStk k x).wfAddr = s.wfAddr := rfl
@[simp] theorem State.setStk_weir (s : State) (k : Nat) (x : Stack) : (s.setStk k x).weir = s.weir := rfl
@[simp] theorem State.setStk_atoms (s : State) (k : Nat) (x : Stack) : (s.setStk k x).atoms = s.atoms := rfl
@[simp] theorem State.setStk_spills (s : State) (k : Nat) (x : Stack) : (s.setStk k x).spills = s.spills := rfl
@[simp] theorem State.setStk_berthResult (s : State) (k : Nat) (x : Stack) : (s.setStk k x).berthResult = s.berthResult := rfl
@[simp] theorem State.setStk_berthQuery (s : State) (k : Nat) (x : Stack) : (s.setStk k x).berthQuery = s.berthQuery := rfl
@[simp] theorem State.setStk_defCrewMw (s : State) (k : Nat) (x : Stack) : (s.setStk k x).defCrewMw = s.defCrewMw := rfl
@[simp] theorem State.setStk_passUs (s : State) (k : Nat) (x : Stack) : (s.setStk k x).passUs = s.passUs := rfl
@[simp] theorem State.setStk_cntInfeasible (s : State) (k : Nat) (x : Stack) : (s.setStk k x).cntInfeasible = s.cntInfeasible := rfl
@[simp] theorem State.setStk_cntAdmitted (s : State) (k : Nat) (x : Stack) : (s.setStk k x).cntAdmitted = s.cntAdmitted := rfl
@[simp] theorem State.setStk_cntOverrun (s : State) (k : Nat) (x : Stack) : (s.setStk k x).cntOverrun = s.cntOverrun := rfl
@[simp] theorem State.setStk_fab (s : State) (k : Nat) (x : Stack) : (s.setStk k x).fab = s.fab := rfl
@[simp] theorem State.setStk_stroke (s : State) (k : Nat) (x : Stack) : (s.setStk k x).stroke = s.stroke := rfl
@[simp] theorem State.setStk_pwr (s : State) (k : Nat) (x : Stack) : (s.setStk k x).pwr = s.pwr := rfl
@[simp] theorem State.setStk_ump (s : State) (k : Nat) (x : Stack) : (s.setStk k x).ump = s.ump := rfl
@[simp] theorem State.setStk_rst (s : State) (k : Nat) (x : Stack) : (s.setStk k x).rst = s.rst := rfl
@[simp] theorem State.setStk_boot (s : State) (k : Nat) (x : Stack) : (s.setStk k x).boot = s.boot := rfl
@[simp] theorem State.setStk_host (s : State) (k : Nat) (x : Stack) : (s.setStk k x).host = s.host := rfl
@[simp] theorem State.setStk_card (s : State) (k : Nat) (x : Stack) : (s.setStk k x).card = s.card := rfl
@[simp] theorem State.setStk_rack (s : State) (k : Nat) (x : Stack) : (s.setStk k x).rack = s.rack := rfl
@[simp] theorem State.setStk_flash (s : State) (k : Nat) (x : Stack) : (s.setStk k x).flash = s.flash := rfl
@[simp] theorem State.setStk_evLogNext (s : State) (k : Nat) (x : Stack) : (s.setStk k x).evLogNext = s.evLogNext := rfl
@[simp] theorem State.setStk_hostMem (s : State) (k : Nat) (x : Stack) : (s.setStk k x).hostMem = s.hostMem := rfl
@[simp] theorem State.setStk_hostData (s : State) (k : Nat) (x : Stack) : (s.setStk k x).hostData = s.hostData := rfl
@[simp] theorem State.setStk_msix (s : State) (k : Nat) (x : Stack) : (s.setStk k x).msix = s.msix := rfl
@[simp] theorem State.setStk_sent (s : State) (k : Nat) (x : Stack) : (s.setStk k x).sent = s.sent := rfl
@[simp] theorem State.setStk_naks (s : State) (k : Nat) (x : Stack) : (s.setStk k x).naks = s.naks := rfl
@[simp] theorem State.setStk_markers (s : State) (k : Nat) (x : Stack) : (s.setStk k x).markers = s.markers := rfl
@[simp] theorem State.setStk_mgmt (s : State) (k : Nat) (x : Stack) : (s.setStk k x).mgmt = s.mgmt := rfl
@[simp] theorem State.setStk_cardOut (s : State) (k : Nat) (x : Stack) : (s.setStk k x).cardOut = s.cardOut := rfl
@[simp] theorem State.setStk_rackLimits (s : State) (k : Nat) (x : Stack) : (s.setStk k x).rackLimits = s.rackLimits := rfl
@[simp] theorem State.setStk_platform (s : State) (k : Nat) (x : Stack) : (s.setStk k x).platform = s.platform := rfl
@[simp] theorem State.setStk_snoops (s : State) (k : Nat) (x : Stack) : (s.setStk k x).snoops = s.snoops := rfl
@[simp] theorem State.setStk_tile (s : State) (k : Nat) (x : Stack) (j : Nat) : (s.setStk k x).tile j = s.tile j := rfl
@[simp] theorem State.setStk_part (s : State) (k : Nat) (x : Stack) (j : Nat) : (s.setStk k x).part j = s.part j := rfl
@[simp] theorem State.setStk_ctx (s : State) (k : Nat) (x : Stack) (j : Nat) : (s.setStk k x).ctx j = s.ctx j := rfl
@[simp] theorem State.setStk_frame (s : State) (k : Nat) (x : Stack) (j : Nat) : (s.setStk k x).frame j = s.frame j := rfl
@[simp] theorem State.setStk_port (s : State) (k : Nat) (x : Stack) (j : Nat) : (s.setStk k x).port j = s.port j := rfl
@[simp] theorem State.setStk_utile (s : State) (k : Nat) (x : Stack) (j : Nat) : (s.setStk k x).utile j = s.utile j := rfl
@[simp] theorem State.setStk_crew (s : State) (k : Nat) (x : Stack) (j : Nat) : (s.setStk k x).crew j = s.crew j := rfl
@[simp] theorem State.setStk_now (s : State) (k : Nat) (x : Stack) : (s.setStk k x).now = s.now := rfl
@[simp] theorem State.setStk_alive (s : State) (k : Nat) (x : Stack) : (s.setStk k x).alive = s.alive := rfl
theorem State.setStk_stk_ite (s : State) (k : Nat) (x : Stack) (j : Nat) : (s.setStk k x).stk j = if j = k then x else s.stk j :=
  Tbl.look_put _ _ _ _ _
@[simp] theorem State.setStk_stk_same (s : State) (k : Nat) (x : Stack) : (s.setStk k x).stk k = x := Tbl.look_put_same _ _ _ _
theorem State.setStk_stk_other (s : State) (k : Nat) (x : Stack) (j : Nat) (h : j ≠ k) : (s.setStk k x).stk j = s.stk j :=
  Tbl.look_put_other _ _ _ h

/-! ### setFrame -/

@[simp] theorem State.setFrame_pending (s : State) (f : Nat) (x : Frame) : (s.setFrame f x).pending = s.pending := rfl
@[simp] theorem State.setFrame_freeIx (s : State) (f : Nat) (x : Frame) : (s.setFrame f x).freeIx = s.freeIx := rfl
@[simp] theorem State.setFrame_fuses (s : State) (f : Nat) (x : Frame) : (s.setFrame f x).fuses = s.fuses := rfl
@[simp] theorem State.setFrame_tiles (s : State) (f : Nat) (x : Frame) : (s.setFrame f x).tiles = s.tiles := rfl
@[simp] theorem State.setFrame_tileCe (s : State) (f : Nat) (x : Frame) : (s.setFrame f x).tileCe = s.tileCe := rfl
@[simp] theorem State.setFrame_tileUe (s : State) (f : Nat) (x : Frame) : (s.setFrame f x).tileUe = s.tileUe := rfl
@[simp] theorem State.setFrame_parts (s : State) (f : Nat) (x : Frame) : (s.setFrame f x).parts = s.parts := rfl
@[simp] theorem State.setFrame_ctxs (s : State) (f : Nat) (x : Frame) : (s.setFrame f x).ctxs = s.ctxs := rfl
@[simp] theorem State.setFrame_stks (s : State) (f : Nat) (x : Frame) : (s.setFrame f x).stks = s.stks := rfl
@[simp] theorem State.setFrame_hbm (s : State) (f : Nat) (x : Frame) : (s.setFrame f x).hbm = s.hbm := rfl
@[simp] theorem State.setFrame_lineErr (s : State) (f : Nat) (x : Frame) : (s.setFrame f x).lineErr = s.lineErr := rfl
@[simp] theorem State.setFrame_fcResult (s : State) (f : Nat) (x : Frame) : (s.setFrame f x).fcResult = s.fcResult := rfl
@[simp] theorem State.setFrame_fcState (s : State) (f : Nat) (x : Frame) : (s.setFrame f x).fcState = s.fcState := rfl
@[simp] theorem State.setFrame_fcScrub (s : State) (f : Nat) (x : Frame) : (s.setFrame f x).fcScrub = s.fcScrub := rfl
@[simp] theorem State.setFrame_fcOwner (s : State) (f : Nat) (x : Frame) : (s.setFrame f x).fcOwner = s.fcOwner := rfl
@[simp] theorem State.setFrame_btiCtx (s : State) (f : Nat) (x : Frame) : (s.setFrame f x).btiCtx = s.btiCtx := rfl
@[simp] theorem State.setFrame_btiPage (s : State) (f : Nat) (x : Frame) : (s.setFrame f x).btiPage = s.btiPage := rfl
@[simp] theorem State.setFrame_btiAll (s : State) (f : Nat) (x : Frame) : (s.setFrame f x).btiAll = s.btiAll := rfl
@[simp] theorem State.setFrame_btiGo (s : State) (f : Nat) (x : Frame) : (s.setFrame f x).btiGo = s.btiGo := rfl
@[simp] theorem State.setFrame_btiNow (s : State) (f : Nat) (x : Frame) : (s.setFrame f x).btiNow = s.btiNow := rfl
@[simp] theorem State.setFrame_passMark (s : State) (f : Nat) (x : Frame) : (s.setFrame f x).passMark = s.passMark := rfl
@[simp] theorem State.setFrame_tcache (s : State) (f : Nat) (x : Frame) : (s.setFrame f x).tcache = s.tcache := rfl
@[simp] theorem State.setFrame_wfCtx (s : State) (f : Nat) (x : Frame) : (s.setFrame f x).wfCtx = s.wfCtx := rfl
@[simp] theorem State.setFrame_wfCode (s : State) (f : Nat) (x : Frame) : (s.setFrame f x).wfCode = s.wfCode := rfl
@[simp] theorem State.setFrame_wfAddr (s : State) (f : Nat) (x : Frame) : (s.setFrame f x).wfAddr = s.wfAddr := rfl
@[simp] theorem State.setFrame_weir (s : State) (f : Nat) (x : Frame) : (s.setFrame f x).weir = s.weir := rfl
@[simp] theorem State.setFrame_atoms (s : State) (f : Nat) (x : Frame) : (s.setFrame f x).atoms = s.atoms := rfl
@[simp] theorem State.setFrame_spills (s : State) (f : Nat) (x : Frame) : (s.setFrame f x).spills = s.spills := rfl
@[simp] theorem State.setFrame_berthResult (s : State) (f : Nat) (x : Frame) : (s.setFrame f x).berthResult = s.berthResult := rfl
@[simp] theorem State.setFrame_berthQuery (s : State) (f : Nat) (x : Frame) : (s.setFrame f x).berthQuery = s.berthQuery := rfl
@[simp] theorem State.setFrame_defCrewMw (s : State) (f : Nat) (x : Frame) : (s.setFrame f x).defCrewMw = s.defCrewMw := rfl
@[simp] theorem State.setFrame_passUs (s : State) (f : Nat) (x : Frame) : (s.setFrame f x).passUs = s.passUs := rfl
@[simp] theorem State.setFrame_cntInfeasible (s : State) (f : Nat) (x : Frame) : (s.setFrame f x).cntInfeasible = s.cntInfeasible := rfl
@[simp] theorem State.setFrame_cntAdmitted (s : State) (f : Nat) (x : Frame) : (s.setFrame f x).cntAdmitted = s.cntAdmitted := rfl
@[simp] theorem State.setFrame_cntOverrun (s : State) (f : Nat) (x : Frame) : (s.setFrame f x).cntOverrun = s.cntOverrun := rfl
@[simp] theorem State.setFrame_fab (s : State) (f : Nat) (x : Frame) : (s.setFrame f x).fab = s.fab := rfl
@[simp] theorem State.setFrame_stroke (s : State) (f : Nat) (x : Frame) : (s.setFrame f x).stroke = s.stroke := rfl
@[simp] theorem State.setFrame_pwr (s : State) (f : Nat) (x : Frame) : (s.setFrame f x).pwr = s.pwr := rfl
@[simp] theorem State.setFrame_ump (s : State) (f : Nat) (x : Frame) : (s.setFrame f x).ump = s.ump := rfl
@[simp] theorem State.setFrame_rst (s : State) (f : Nat) (x : Frame) : (s.setFrame f x).rst = s.rst := rfl
@[simp] theorem State.setFrame_boot (s : State) (f : Nat) (x : Frame) : (s.setFrame f x).boot = s.boot := rfl
@[simp] theorem State.setFrame_host (s : State) (f : Nat) (x : Frame) : (s.setFrame f x).host = s.host := rfl
@[simp] theorem State.setFrame_card (s : State) (f : Nat) (x : Frame) : (s.setFrame f x).card = s.card := rfl
@[simp] theorem State.setFrame_rack (s : State) (f : Nat) (x : Frame) : (s.setFrame f x).rack = s.rack := rfl
@[simp] theorem State.setFrame_flash (s : State) (f : Nat) (x : Frame) : (s.setFrame f x).flash = s.flash := rfl
@[simp] theorem State.setFrame_evLogNext (s : State) (f : Nat) (x : Frame) : (s.setFrame f x).evLogNext = s.evLogNext := rfl
@[simp] theorem State.setFrame_hostMem (s : State) (f : Nat) (x : Frame) : (s.setFrame f x).hostMem = s.hostMem := rfl
@[simp] theorem State.setFrame_hostData (s : State) (f : Nat) (x : Frame) : (s.setFrame f x).hostData = s.hostData := rfl
@[simp] theorem State.setFrame_msix (s : State) (f : Nat) (x : Frame) : (s.setFrame f x).msix = s.msix := rfl
@[simp] theorem State.setFrame_sent (s : State) (f : Nat) (x : Frame) : (s.setFrame f x).sent = s.sent := rfl
@[simp] theorem State.setFrame_naks (s : State) (f : Nat) (x : Frame) : (s.setFrame f x).naks = s.naks := rfl
@[simp] theorem State.setFrame_markers (s : State) (f : Nat) (x : Frame) : (s.setFrame f x).markers = s.markers := rfl
@[simp] theorem State.setFrame_mgmt (s : State) (f : Nat) (x : Frame) : (s.setFrame f x).mgmt = s.mgmt := rfl
@[simp] theorem State.setFrame_cardOut (s : State) (f : Nat) (x : Frame) : (s.setFrame f x).cardOut = s.cardOut := rfl
@[simp] theorem State.setFrame_rackLimits (s : State) (f : Nat) (x : Frame) : (s.setFrame f x).rackLimits = s.rackLimits := rfl
@[simp] theorem State.setFrame_platform (s : State) (f : Nat) (x : Frame) : (s.setFrame f x).platform = s.platform := rfl
@[simp] theorem State.setFrame_snoops (s : State) (f : Nat) (x : Frame) : (s.setFrame f x).snoops = s.snoops := rfl
@[simp] theorem State.setFrame_tile (s : State) (f : Nat) (x : Frame) (j : Nat) : (s.setFrame f x).tile j = s.tile j := rfl
@[simp] theorem State.setFrame_part (s : State) (f : Nat) (x : Frame) (j : Nat) : (s.setFrame f x).part j = s.part j := rfl
@[simp] theorem State.setFrame_ctx (s : State) (f : Nat) (x : Frame) (j : Nat) : (s.setFrame f x).ctx j = s.ctx j := rfl
@[simp] theorem State.setFrame_stk (s : State) (f : Nat) (x : Frame) (j : Nat) : (s.setFrame f x).stk j = s.stk j := rfl
@[simp] theorem State.setFrame_port (s : State) (f : Nat) (x : Frame) (j : Nat) : (s.setFrame f x).port j = s.port j := rfl
@[simp] theorem State.setFrame_utile (s : State) (f : Nat) (x : Frame) (j : Nat) : (s.setFrame f x).utile j = s.utile j := rfl
@[simp] theorem State.setFrame_crew (s : State) (f : Nat) (x : Frame) (j : Nat) : (s.setFrame f x).crew j = s.crew j := rfl
@[simp] theorem State.setFrame_now (s : State) (f : Nat) (x : Frame) : (s.setFrame f x).now = s.now := rfl
@[simp] theorem State.setFrame_alive (s : State) (f : Nat) (x : Frame) : (s.setFrame f x).alive = s.alive := rfl
theorem State.setFrame_frame_ite (s : State) (f : Nat) (x : Frame) (j : Nat) : (s.setFrame f x).frame j = if j = f then x else s.frame j :=
  Tbl.look_put _ _ _ _ _
@[simp] theorem State.setFrame_frame_same (s : State) (f : Nat) (x : Frame) : (s.setFrame f x).frame f = x := Tbl.look_put_same _ _ _ _
theorem State.setFrame_frame_other (s : State) (f : Nat) (x : Frame) (j : Nat) (h : j ≠ f) : (s.setFrame f x).frame j = s.frame j :=
  Tbl.look_put_other _ _ _ h

/-! ### setPort -/

@[simp] theorem State.setPort_pending (s : State) (n : Nat) (x : Port) : (s.setPort n x).pending = s.pending := rfl
@[simp] theorem State.setPort_freeIx (s : State) (n : Nat) (x : Port) : (s.setPort n x).freeIx = s.freeIx := rfl
@[simp] theorem State.setPort_fuses (s : State) (n : Nat) (x : Port) : (s.setPort n x).fuses = s.fuses := rfl
@[simp] theorem State.setPort_tiles (s : State) (n : Nat) (x : Port) : (s.setPort n x).tiles = s.tiles := rfl
@[simp] theorem State.setPort_tileCe (s : State) (n : Nat) (x : Port) : (s.setPort n x).tileCe = s.tileCe := rfl
@[simp] theorem State.setPort_tileUe (s : State) (n : Nat) (x : Port) : (s.setPort n x).tileUe = s.tileUe := rfl
@[simp] theorem State.setPort_parts (s : State) (n : Nat) (x : Port) : (s.setPort n x).parts = s.parts := rfl
@[simp] theorem State.setPort_ctxs (s : State) (n : Nat) (x : Port) : (s.setPort n x).ctxs = s.ctxs := rfl
@[simp] theorem State.setPort_stks (s : State) (n : Nat) (x : Port) : (s.setPort n x).stks = s.stks := rfl
@[simp] theorem State.setPort_hbm (s : State) (n : Nat) (x : Port) : (s.setPort n x).hbm = s.hbm := rfl
@[simp] theorem State.setPort_lineErr (s : State) (n : Nat) (x : Port) : (s.setPort n x).lineErr = s.lineErr := rfl
@[simp] theorem State.setPort_frames (s : State) (n : Nat) (x : Port) : (s.setPort n x).frames = s.frames := rfl
@[simp] theorem State.setPort_fcResult (s : State) (n : Nat) (x : Port) : (s.setPort n x).fcResult = s.fcResult := rfl
@[simp] theorem State.setPort_fcState (s : State) (n : Nat) (x : Port) : (s.setPort n x).fcState = s.fcState := rfl
@[simp] theorem State.setPort_fcScrub (s : State) (n : Nat) (x : Port) : (s.setPort n x).fcScrub = s.fcScrub := rfl
@[simp] theorem State.setPort_fcOwner (s : State) (n : Nat) (x : Port) : (s.setPort n x).fcOwner = s.fcOwner := rfl
@[simp] theorem State.setPort_btiCtx (s : State) (n : Nat) (x : Port) : (s.setPort n x).btiCtx = s.btiCtx := rfl
@[simp] theorem State.setPort_btiPage (s : State) (n : Nat) (x : Port) : (s.setPort n x).btiPage = s.btiPage := rfl
@[simp] theorem State.setPort_btiAll (s : State) (n : Nat) (x : Port) : (s.setPort n x).btiAll = s.btiAll := rfl
@[simp] theorem State.setPort_btiGo (s : State) (n : Nat) (x : Port) : (s.setPort n x).btiGo = s.btiGo := rfl
@[simp] theorem State.setPort_btiNow (s : State) (n : Nat) (x : Port) : (s.setPort n x).btiNow = s.btiNow := rfl
@[simp] theorem State.setPort_passMark (s : State) (n : Nat) (x : Port) : (s.setPort n x).passMark = s.passMark := rfl
@[simp] theorem State.setPort_tcache (s : State) (n : Nat) (x : Port) : (s.setPort n x).tcache = s.tcache := rfl
@[simp] theorem State.setPort_wfCtx (s : State) (n : Nat) (x : Port) : (s.setPort n x).wfCtx = s.wfCtx := rfl
@[simp] theorem State.setPort_wfCode (s : State) (n : Nat) (x : Port) : (s.setPort n x).wfCode = s.wfCode := rfl
@[simp] theorem State.setPort_wfAddr (s : State) (n : Nat) (x : Port) : (s.setPort n x).wfAddr = s.wfAddr := rfl
@[simp] theorem State.setPort_weir (s : State) (n : Nat) (x : Port) : (s.setPort n x).weir = s.weir := rfl
@[simp] theorem State.setPort_atoms (s : State) (n : Nat) (x : Port) : (s.setPort n x).atoms = s.atoms := rfl
@[simp] theorem State.setPort_spills (s : State) (n : Nat) (x : Port) : (s.setPort n x).spills = s.spills := rfl
@[simp] theorem State.setPort_berthResult (s : State) (n : Nat) (x : Port) : (s.setPort n x).berthResult = s.berthResult := rfl
@[simp] theorem State.setPort_berthQuery (s : State) (n : Nat) (x : Port) : (s.setPort n x).berthQuery = s.berthQuery := rfl
@[simp] theorem State.setPort_defCrewMw (s : State) (n : Nat) (x : Port) : (s.setPort n x).defCrewMw = s.defCrewMw := rfl
@[simp] theorem State.setPort_passUs (s : State) (n : Nat) (x : Port) : (s.setPort n x).passUs = s.passUs := rfl
@[simp] theorem State.setPort_cntInfeasible (s : State) (n : Nat) (x : Port) : (s.setPort n x).cntInfeasible = s.cntInfeasible := rfl
@[simp] theorem State.setPort_cntAdmitted (s : State) (n : Nat) (x : Port) : (s.setPort n x).cntAdmitted = s.cntAdmitted := rfl
@[simp] theorem State.setPort_cntOverrun (s : State) (n : Nat) (x : Port) : (s.setPort n x).cntOverrun = s.cntOverrun := rfl
@[simp] theorem State.setPort_stroke (s : State) (n : Nat) (x : Port) : (s.setPort n x).stroke = s.stroke := rfl
@[simp] theorem State.setPort_pwr (s : State) (n : Nat) (x : Port) : (s.setPort n x).pwr = s.pwr := rfl
@[simp] theorem State.setPort_ump (s : State) (n : Nat) (x : Port) : (s.setPort n x).ump = s.ump := rfl
@[simp] theorem State.setPort_rst (s : State) (n : Nat) (x : Port) : (s.setPort n x).rst = s.rst := rfl
@[simp] theorem State.setPort_boot (s : State) (n : Nat) (x : Port) : (s.setPort n x).boot = s.boot := rfl
@[simp] theorem State.setPort_host (s : State) (n : Nat) (x : Port) : (s.setPort n x).host = s.host := rfl
@[simp] theorem State.setPort_card (s : State) (n : Nat) (x : Port) : (s.setPort n x).card = s.card := rfl
@[simp] theorem State.setPort_rack (s : State) (n : Nat) (x : Port) : (s.setPort n x).rack = s.rack := rfl
@[simp] theorem State.setPort_flash (s : State) (n : Nat) (x : Port) : (s.setPort n x).flash = s.flash := rfl
@[simp] theorem State.setPort_evLogNext (s : State) (n : Nat) (x : Port) : (s.setPort n x).evLogNext = s.evLogNext := rfl
@[simp] theorem State.setPort_hostMem (s : State) (n : Nat) (x : Port) : (s.setPort n x).hostMem = s.hostMem := rfl
@[simp] theorem State.setPort_hostData (s : State) (n : Nat) (x : Port) : (s.setPort n x).hostData = s.hostData := rfl
@[simp] theorem State.setPort_msix (s : State) (n : Nat) (x : Port) : (s.setPort n x).msix = s.msix := rfl
@[simp] theorem State.setPort_sent (s : State) (n : Nat) (x : Port) : (s.setPort n x).sent = s.sent := rfl
@[simp] theorem State.setPort_naks (s : State) (n : Nat) (x : Port) : (s.setPort n x).naks = s.naks := rfl
@[simp] theorem State.setPort_markers (s : State) (n : Nat) (x : Port) : (s.setPort n x).markers = s.markers := rfl
@[simp] theorem State.setPort_mgmt (s : State) (n : Nat) (x : Port) : (s.setPort n x).mgmt = s.mgmt := rfl
@[simp] theorem State.setPort_cardOut (s : State) (n : Nat) (x : Port) : (s.setPort n x).cardOut = s.cardOut := rfl
@[simp] theorem State.setPort_rackLimits (s : State) (n : Nat) (x : Port) : (s.setPort n x).rackLimits = s.rackLimits := rfl
@[simp] theorem State.setPort_platform (s : State) (n : Nat) (x : Port) : (s.setPort n x).platform = s.platform := rfl
@[simp] theorem State.setPort_snoops (s : State) (n : Nat) (x : Port) : (s.setPort n x).snoops = s.snoops := rfl
@[simp] theorem State.setPort_tile (s : State) (n : Nat) (x : Port) (j : Nat) : (s.setPort n x).tile j = s.tile j := rfl
@[simp] theorem State.setPort_part (s : State) (n : Nat) (x : Port) (j : Nat) : (s.setPort n x).part j = s.part j := rfl
@[simp] theorem State.setPort_ctx (s : State) (n : Nat) (x : Port) (j : Nat) : (s.setPort n x).ctx j = s.ctx j := rfl
@[simp] theorem State.setPort_stk (s : State) (n : Nat) (x : Port) (j : Nat) : (s.setPort n x).stk j = s.stk j := rfl
@[simp] theorem State.setPort_frame (s : State) (n : Nat) (x : Port) (j : Nat) : (s.setPort n x).frame j = s.frame j := rfl
@[simp] theorem State.setPort_utile (s : State) (n : Nat) (x : Port) (j : Nat) : (s.setPort n x).utile j = s.utile j := rfl
@[simp] theorem State.setPort_crew (s : State) (n : Nat) (x : Port) (j : Nat) : (s.setPort n x).crew j = s.crew j := rfl
@[simp] theorem State.setPort_now (s : State) (n : Nat) (x : Port) : (s.setPort n x).now = s.now := rfl
@[simp] theorem State.setPort_alive (s : State) (n : Nat) (x : Port) : (s.setPort n x).alive = s.alive := rfl
theorem State.setPort_port_ite (s : State) (n : Nat) (x : Port) (j : Nat) : (s.setPort n x).port j = if j = n then x else s.port j :=
  Tbl.look_put _ _ _ _ _
@[simp] theorem State.setPort_port_same (s : State) (n : Nat) (x : Port) : (s.setPort n x).port n = x := Tbl.look_put_same _ _ _ _
theorem State.setPort_port_other (s : State) (n : Nat) (x : Port) (j : Nat) (h : j ≠ n) : (s.setPort n x).port j = s.port j :=
  Tbl.look_put_other _ _ _ h

/-! ### setUtile -/

@[simp] theorem State.setUtile_pending (s : State) (t : Nat) (x : UmpTile) : (s.setUtile t x).pending = s.pending := rfl
@[simp] theorem State.setUtile_freeIx (s : State) (t : Nat) (x : UmpTile) : (s.setUtile t x).freeIx = s.freeIx := rfl
@[simp] theorem State.setUtile_fuses (s : State) (t : Nat) (x : UmpTile) : (s.setUtile t x).fuses = s.fuses := rfl
@[simp] theorem State.setUtile_tiles (s : State) (t : Nat) (x : UmpTile) : (s.setUtile t x).tiles = s.tiles := rfl
@[simp] theorem State.setUtile_tileCe (s : State) (t : Nat) (x : UmpTile) : (s.setUtile t x).tileCe = s.tileCe := rfl
@[simp] theorem State.setUtile_tileUe (s : State) (t : Nat) (x : UmpTile) : (s.setUtile t x).tileUe = s.tileUe := rfl
@[simp] theorem State.setUtile_parts (s : State) (t : Nat) (x : UmpTile) : (s.setUtile t x).parts = s.parts := rfl
@[simp] theorem State.setUtile_ctxs (s : State) (t : Nat) (x : UmpTile) : (s.setUtile t x).ctxs = s.ctxs := rfl
@[simp] theorem State.setUtile_stks (s : State) (t : Nat) (x : UmpTile) : (s.setUtile t x).stks = s.stks := rfl
@[simp] theorem State.setUtile_hbm (s : State) (t : Nat) (x : UmpTile) : (s.setUtile t x).hbm = s.hbm := rfl
@[simp] theorem State.setUtile_lineErr (s : State) (t : Nat) (x : UmpTile) : (s.setUtile t x).lineErr = s.lineErr := rfl
@[simp] theorem State.setUtile_frames (s : State) (t : Nat) (x : UmpTile) : (s.setUtile t x).frames = s.frames := rfl
@[simp] theorem State.setUtile_fcResult (s : State) (t : Nat) (x : UmpTile) : (s.setUtile t x).fcResult = s.fcResult := rfl
@[simp] theorem State.setUtile_fcState (s : State) (t : Nat) (x : UmpTile) : (s.setUtile t x).fcState = s.fcState := rfl
@[simp] theorem State.setUtile_fcScrub (s : State) (t : Nat) (x : UmpTile) : (s.setUtile t x).fcScrub = s.fcScrub := rfl
@[simp] theorem State.setUtile_fcOwner (s : State) (t : Nat) (x : UmpTile) : (s.setUtile t x).fcOwner = s.fcOwner := rfl
@[simp] theorem State.setUtile_btiCtx (s : State) (t : Nat) (x : UmpTile) : (s.setUtile t x).btiCtx = s.btiCtx := rfl
@[simp] theorem State.setUtile_btiPage (s : State) (t : Nat) (x : UmpTile) : (s.setUtile t x).btiPage = s.btiPage := rfl
@[simp] theorem State.setUtile_btiAll (s : State) (t : Nat) (x : UmpTile) : (s.setUtile t x).btiAll = s.btiAll := rfl
@[simp] theorem State.setUtile_btiGo (s : State) (t : Nat) (x : UmpTile) : (s.setUtile t x).btiGo = s.btiGo := rfl
@[simp] theorem State.setUtile_btiNow (s : State) (t : Nat) (x : UmpTile) : (s.setUtile t x).btiNow = s.btiNow := rfl
@[simp] theorem State.setUtile_passMark (s : State) (t : Nat) (x : UmpTile) : (s.setUtile t x).passMark = s.passMark := rfl
@[simp] theorem State.setUtile_tcache (s : State) (t : Nat) (x : UmpTile) : (s.setUtile t x).tcache = s.tcache := rfl
@[simp] theorem State.setUtile_wfCtx (s : State) (t : Nat) (x : UmpTile) : (s.setUtile t x).wfCtx = s.wfCtx := rfl
@[simp] theorem State.setUtile_wfCode (s : State) (t : Nat) (x : UmpTile) : (s.setUtile t x).wfCode = s.wfCode := rfl
@[simp] theorem State.setUtile_wfAddr (s : State) (t : Nat) (x : UmpTile) : (s.setUtile t x).wfAddr = s.wfAddr := rfl
@[simp] theorem State.setUtile_weir (s : State) (t : Nat) (x : UmpTile) : (s.setUtile t x).weir = s.weir := rfl
@[simp] theorem State.setUtile_atoms (s : State) (t : Nat) (x : UmpTile) : (s.setUtile t x).atoms = s.atoms := rfl
@[simp] theorem State.setUtile_spills (s : State) (t : Nat) (x : UmpTile) : (s.setUtile t x).spills = s.spills := rfl
@[simp] theorem State.setUtile_berthResult (s : State) (t : Nat) (x : UmpTile) : (s.setUtile t x).berthResult = s.berthResult := rfl
@[simp] theorem State.setUtile_berthQuery (s : State) (t : Nat) (x : UmpTile) : (s.setUtile t x).berthQuery = s.berthQuery := rfl
@[simp] theorem State.setUtile_defCrewMw (s : State) (t : Nat) (x : UmpTile) : (s.setUtile t x).defCrewMw = s.defCrewMw := rfl
@[simp] theorem State.setUtile_passUs (s : State) (t : Nat) (x : UmpTile) : (s.setUtile t x).passUs = s.passUs := rfl
@[simp] theorem State.setUtile_cntInfeasible (s : State) (t : Nat) (x : UmpTile) : (s.setUtile t x).cntInfeasible = s.cntInfeasible := rfl
@[simp] theorem State.setUtile_cntAdmitted (s : State) (t : Nat) (x : UmpTile) : (s.setUtile t x).cntAdmitted = s.cntAdmitted := rfl
@[simp] theorem State.setUtile_cntOverrun (s : State) (t : Nat) (x : UmpTile) : (s.setUtile t x).cntOverrun = s.cntOverrun := rfl
@[simp] theorem State.setUtile_fab (s : State) (t : Nat) (x : UmpTile) : (s.setUtile t x).fab = s.fab := rfl
@[simp] theorem State.setUtile_stroke (s : State) (t : Nat) (x : UmpTile) : (s.setUtile t x).stroke = s.stroke := rfl
@[simp] theorem State.setUtile_pwr (s : State) (t : Nat) (x : UmpTile) : (s.setUtile t x).pwr = s.pwr := rfl
@[simp] theorem State.setUtile_rst (s : State) (t : Nat) (x : UmpTile) : (s.setUtile t x).rst = s.rst := rfl
@[simp] theorem State.setUtile_boot (s : State) (t : Nat) (x : UmpTile) : (s.setUtile t x).boot = s.boot := rfl
@[simp] theorem State.setUtile_host (s : State) (t : Nat) (x : UmpTile) : (s.setUtile t x).host = s.host := rfl
@[simp] theorem State.setUtile_card (s : State) (t : Nat) (x : UmpTile) : (s.setUtile t x).card = s.card := rfl
@[simp] theorem State.setUtile_rack (s : State) (t : Nat) (x : UmpTile) : (s.setUtile t x).rack = s.rack := rfl
@[simp] theorem State.setUtile_flash (s : State) (t : Nat) (x : UmpTile) : (s.setUtile t x).flash = s.flash := rfl
@[simp] theorem State.setUtile_evLogNext (s : State) (t : Nat) (x : UmpTile) : (s.setUtile t x).evLogNext = s.evLogNext := rfl
@[simp] theorem State.setUtile_hostMem (s : State) (t : Nat) (x : UmpTile) : (s.setUtile t x).hostMem = s.hostMem := rfl
@[simp] theorem State.setUtile_hostData (s : State) (t : Nat) (x : UmpTile) : (s.setUtile t x).hostData = s.hostData := rfl
@[simp] theorem State.setUtile_msix (s : State) (t : Nat) (x : UmpTile) : (s.setUtile t x).msix = s.msix := rfl
@[simp] theorem State.setUtile_sent (s : State) (t : Nat) (x : UmpTile) : (s.setUtile t x).sent = s.sent := rfl
@[simp] theorem State.setUtile_naks (s : State) (t : Nat) (x : UmpTile) : (s.setUtile t x).naks = s.naks := rfl
@[simp] theorem State.setUtile_markers (s : State) (t : Nat) (x : UmpTile) : (s.setUtile t x).markers = s.markers := rfl
@[simp] theorem State.setUtile_mgmt (s : State) (t : Nat) (x : UmpTile) : (s.setUtile t x).mgmt = s.mgmt := rfl
@[simp] theorem State.setUtile_cardOut (s : State) (t : Nat) (x : UmpTile) : (s.setUtile t x).cardOut = s.cardOut := rfl
@[simp] theorem State.setUtile_rackLimits (s : State) (t : Nat) (x : UmpTile) : (s.setUtile t x).rackLimits = s.rackLimits := rfl
@[simp] theorem State.setUtile_platform (s : State) (t : Nat) (x : UmpTile) : (s.setUtile t x).platform = s.platform := rfl
@[simp] theorem State.setUtile_snoops (s : State) (t : Nat) (x : UmpTile) : (s.setUtile t x).snoops = s.snoops := rfl
@[simp] theorem State.setUtile_tile (s : State) (t : Nat) (x : UmpTile) (j : Nat) : (s.setUtile t x).tile j = s.tile j := rfl
@[simp] theorem State.setUtile_part (s : State) (t : Nat) (x : UmpTile) (j : Nat) : (s.setUtile t x).part j = s.part j := rfl
@[simp] theorem State.setUtile_ctx (s : State) (t : Nat) (x : UmpTile) (j : Nat) : (s.setUtile t x).ctx j = s.ctx j := rfl
@[simp] theorem State.setUtile_stk (s : State) (t : Nat) (x : UmpTile) (j : Nat) : (s.setUtile t x).stk j = s.stk j := rfl
@[simp] theorem State.setUtile_frame (s : State) (t : Nat) (x : UmpTile) (j : Nat) : (s.setUtile t x).frame j = s.frame j := rfl
@[simp] theorem State.setUtile_port (s : State) (t : Nat) (x : UmpTile) (j : Nat) : (s.setUtile t x).port j = s.port j := rfl
@[simp] theorem State.setUtile_crew (s : State) (t : Nat) (x : UmpTile) (j : Nat) : (s.setUtile t x).crew j = s.crew j := rfl
@[simp] theorem State.setUtile_now (s : State) (t : Nat) (x : UmpTile) : (s.setUtile t x).now = s.now := rfl
@[simp] theorem State.setUtile_alive (s : State) (t : Nat) (x : UmpTile) : (s.setUtile t x).alive = s.alive := rfl
theorem State.setUtile_utile_ite (s : State) (t : Nat) (x : UmpTile) (j : Nat) : (s.setUtile t x).utile j = if j = t then x else s.utile j :=
  Tbl.look_put _ _ _ _ _
@[simp] theorem State.setUtile_utile_same (s : State) (t : Nat) (x : UmpTile) : (s.setUtile t x).utile t = x := Tbl.look_put_same _ _ _ _
theorem State.setUtile_utile_other (s : State) (t : Nat) (x : UmpTile) (j : Nat) (h : j ≠ t) : (s.setUtile t x).utile j = s.utile j :=
  Tbl.look_put_other _ _ _ h

/-! ### setCrew -/

@[simp] theorem State.setCrew_pending (s : State) (g : Nat) (x : Crew) : (s.setCrew g x).pending = s.pending := rfl
@[simp] theorem State.setCrew_freeIx (s : State) (g : Nat) (x : Crew) : (s.setCrew g x).freeIx = s.freeIx := rfl
@[simp] theorem State.setCrew_fuses (s : State) (g : Nat) (x : Crew) : (s.setCrew g x).fuses = s.fuses := rfl
@[simp] theorem State.setCrew_tiles (s : State) (g : Nat) (x : Crew) : (s.setCrew g x).tiles = s.tiles := rfl
@[simp] theorem State.setCrew_tileCe (s : State) (g : Nat) (x : Crew) : (s.setCrew g x).tileCe = s.tileCe := rfl
@[simp] theorem State.setCrew_tileUe (s : State) (g : Nat) (x : Crew) : (s.setCrew g x).tileUe = s.tileUe := rfl
@[simp] theorem State.setCrew_parts (s : State) (g : Nat) (x : Crew) : (s.setCrew g x).parts = s.parts := rfl
@[simp] theorem State.setCrew_ctxs (s : State) (g : Nat) (x : Crew) : (s.setCrew g x).ctxs = s.ctxs := rfl
@[simp] theorem State.setCrew_stks (s : State) (g : Nat) (x : Crew) : (s.setCrew g x).stks = s.stks := rfl
@[simp] theorem State.setCrew_hbm (s : State) (g : Nat) (x : Crew) : (s.setCrew g x).hbm = s.hbm := rfl
@[simp] theorem State.setCrew_lineErr (s : State) (g : Nat) (x : Crew) : (s.setCrew g x).lineErr = s.lineErr := rfl
@[simp] theorem State.setCrew_frames (s : State) (g : Nat) (x : Crew) : (s.setCrew g x).frames = s.frames := rfl
@[simp] theorem State.setCrew_fcResult (s : State) (g : Nat) (x : Crew) : (s.setCrew g x).fcResult = s.fcResult := rfl
@[simp] theorem State.setCrew_fcState (s : State) (g : Nat) (x : Crew) : (s.setCrew g x).fcState = s.fcState := rfl
@[simp] theorem State.setCrew_fcScrub (s : State) (g : Nat) (x : Crew) : (s.setCrew g x).fcScrub = s.fcScrub := rfl
@[simp] theorem State.setCrew_fcOwner (s : State) (g : Nat) (x : Crew) : (s.setCrew g x).fcOwner = s.fcOwner := rfl
@[simp] theorem State.setCrew_btiCtx (s : State) (g : Nat) (x : Crew) : (s.setCrew g x).btiCtx = s.btiCtx := rfl
@[simp] theorem State.setCrew_btiPage (s : State) (g : Nat) (x : Crew) : (s.setCrew g x).btiPage = s.btiPage := rfl
@[simp] theorem State.setCrew_btiAll (s : State) (g : Nat) (x : Crew) : (s.setCrew g x).btiAll = s.btiAll := rfl
@[simp] theorem State.setCrew_btiGo (s : State) (g : Nat) (x : Crew) : (s.setCrew g x).btiGo = s.btiGo := rfl
@[simp] theorem State.setCrew_btiNow (s : State) (g : Nat) (x : Crew) : (s.setCrew g x).btiNow = s.btiNow := rfl
@[simp] theorem State.setCrew_passMark (s : State) (g : Nat) (x : Crew) : (s.setCrew g x).passMark = s.passMark := rfl
@[simp] theorem State.setCrew_tcache (s : State) (g : Nat) (x : Crew) : (s.setCrew g x).tcache = s.tcache := rfl
@[simp] theorem State.setCrew_wfCtx (s : State) (g : Nat) (x : Crew) : (s.setCrew g x).wfCtx = s.wfCtx := rfl
@[simp] theorem State.setCrew_wfCode (s : State) (g : Nat) (x : Crew) : (s.setCrew g x).wfCode = s.wfCode := rfl
@[simp] theorem State.setCrew_wfAddr (s : State) (g : Nat) (x : Crew) : (s.setCrew g x).wfAddr = s.wfAddr := rfl
@[simp] theorem State.setCrew_weir (s : State) (g : Nat) (x : Crew) : (s.setCrew g x).weir = s.weir := rfl
@[simp] theorem State.setCrew_atoms (s : State) (g : Nat) (x : Crew) : (s.setCrew g x).atoms = s.atoms := rfl
@[simp] theorem State.setCrew_spills (s : State) (g : Nat) (x : Crew) : (s.setCrew g x).spills = s.spills := rfl
@[simp] theorem State.setCrew_berthResult (s : State) (g : Nat) (x : Crew) : (s.setCrew g x).berthResult = s.berthResult := rfl
@[simp] theorem State.setCrew_berthQuery (s : State) (g : Nat) (x : Crew) : (s.setCrew g x).berthQuery = s.berthQuery := rfl
@[simp] theorem State.setCrew_defCrewMw (s : State) (g : Nat) (x : Crew) : (s.setCrew g x).defCrewMw = s.defCrewMw := rfl
@[simp] theorem State.setCrew_passUs (s : State) (g : Nat) (x : Crew) : (s.setCrew g x).passUs = s.passUs := rfl
@[simp] theorem State.setCrew_cntInfeasible (s : State) (g : Nat) (x : Crew) : (s.setCrew g x).cntInfeasible = s.cntInfeasible := rfl
@[simp] theorem State.setCrew_cntAdmitted (s : State) (g : Nat) (x : Crew) : (s.setCrew g x).cntAdmitted = s.cntAdmitted := rfl
@[simp] theorem State.setCrew_cntOverrun (s : State) (g : Nat) (x : Crew) : (s.setCrew g x).cntOverrun = s.cntOverrun := rfl
@[simp] theorem State.setCrew_fab (s : State) (g : Nat) (x : Crew) : (s.setCrew g x).fab = s.fab := rfl
@[simp] theorem State.setCrew_stroke (s : State) (g : Nat) (x : Crew) : (s.setCrew g x).stroke = s.stroke := rfl
@[simp] theorem State.setCrew_pwr (s : State) (g : Nat) (x : Crew) : (s.setCrew g x).pwr = s.pwr := rfl
@[simp] theorem State.setCrew_rst (s : State) (g : Nat) (x : Crew) : (s.setCrew g x).rst = s.rst := rfl
@[simp] theorem State.setCrew_boot (s : State) (g : Nat) (x : Crew) : (s.setCrew g x).boot = s.boot := rfl
@[simp] theorem State.setCrew_host (s : State) (g : Nat) (x : Crew) : (s.setCrew g x).host = s.host := rfl
@[simp] theorem State.setCrew_card (s : State) (g : Nat) (x : Crew) : (s.setCrew g x).card = s.card := rfl
@[simp] theorem State.setCrew_rack (s : State) (g : Nat) (x : Crew) : (s.setCrew g x).rack = s.rack := rfl
@[simp] theorem State.setCrew_flash (s : State) (g : Nat) (x : Crew) : (s.setCrew g x).flash = s.flash := rfl
@[simp] theorem State.setCrew_evLogNext (s : State) (g : Nat) (x : Crew) : (s.setCrew g x).evLogNext = s.evLogNext := rfl
@[simp] theorem State.setCrew_hostMem (s : State) (g : Nat) (x : Crew) : (s.setCrew g x).hostMem = s.hostMem := rfl
@[simp] theorem State.setCrew_hostData (s : State) (g : Nat) (x : Crew) : (s.setCrew g x).hostData = s.hostData := rfl
@[simp] theorem State.setCrew_msix (s : State) (g : Nat) (x : Crew) : (s.setCrew g x).msix = s.msix := rfl
@[simp] theorem State.setCrew_sent (s : State) (g : Nat) (x : Crew) : (s.setCrew g x).sent = s.sent := rfl
@[simp] theorem State.setCrew_naks (s : State) (g : Nat) (x : Crew) : (s.setCrew g x).naks = s.naks := rfl
@[simp] theorem State.setCrew_markers (s : State) (g : Nat) (x : Crew) : (s.setCrew g x).markers = s.markers := rfl
@[simp] theorem State.setCrew_mgmt (s : State) (g : Nat) (x : Crew) : (s.setCrew g x).mgmt = s.mgmt := rfl
@[simp] theorem State.setCrew_cardOut (s : State) (g : Nat) (x : Crew) : (s.setCrew g x).cardOut = s.cardOut := rfl
@[simp] theorem State.setCrew_rackLimits (s : State) (g : Nat) (x : Crew) : (s.setCrew g x).rackLimits = s.rackLimits := rfl
@[simp] theorem State.setCrew_platform (s : State) (g : Nat) (x : Crew) : (s.setCrew g x).platform = s.platform := rfl
@[simp] theorem State.setCrew_snoops (s : State) (g : Nat) (x : Crew) : (s.setCrew g x).snoops = s.snoops := rfl
@[simp] theorem State.setCrew_tile (s : State) (g : Nat) (x : Crew) (j : Nat) : (s.setCrew g x).tile j = s.tile j := rfl
@[simp] theorem State.setCrew_part (s : State) (g : Nat) (x : Crew) (j : Nat) : (s.setCrew g x).part j = s.part j := rfl
@[simp] theorem State.setCrew_ctx (s : State) (g : Nat) (x : Crew) (j : Nat) : (s.setCrew g x).ctx j = s.ctx j := rfl
@[simp] theorem State.setCrew_stk (s : State) (g : Nat) (x : Crew) (j : Nat) : (s.setCrew g x).stk j = s.stk j := rfl
@[simp] theorem State.setCrew_frame (s : State) (g : Nat) (x : Crew) (j : Nat) : (s.setCrew g x).frame j = s.frame j := rfl
@[simp] theorem State.setCrew_port (s : State) (g : Nat) (x : Crew) (j : Nat) : (s.setCrew g x).port j = s.port j := rfl
@[simp] theorem State.setCrew_utile (s : State) (g : Nat) (x : Crew) (j : Nat) : (s.setCrew g x).utile j = s.utile j := rfl
@[simp] theorem State.setCrew_now (s : State) (g : Nat) (x : Crew) : (s.setCrew g x).now = s.now := rfl
@[simp] theorem State.setCrew_alive (s : State) (g : Nat) (x : Crew) : (s.setCrew g x).alive = s.alive := rfl
theorem State.setCrew_crew_ite (s : State) (g : Nat) (x : Crew) (j : Nat) : (s.setCrew g x).crew j = if j = g then x else s.crew j :=
  Tbl.look_put _ _ _ _ _
@[simp] theorem State.setCrew_crew_same (s : State) (g : Nat) (x : Crew) : (s.setCrew g x).crew g = x := Tbl.look_put_same _ _ _ _
theorem State.setCrew_crew_other (s : State) (g : Nat) (x : Crew) (j : Nat) (h : j ≠ g) : (s.setCrew g x).crew j = s.crew j :=
  Tbl.look_put_other _ _ _ h

/-! ### modFab -/

@[simp] theorem State.modFab_pending (s : State) (f : Fabric → Fabric) : (s.modFab f).pending = s.pending := rfl
@[simp] theorem State.modFab_freeIx (s : State) (f : Fabric → Fabric) : (s.modFab f).freeIx = s.freeIx := rfl
@[simp] theorem State.modFab_fuses (s : State) (f : Fabric → Fabric) : (s.modFab f).fuses = s.fuses := rfl
@[simp] theorem State.modFab_tiles (s : State) (f : Fabric → Fabric) : (s.modFab f).tiles = s.tiles := rfl
@[simp] theorem State.modFab_tileCe (s : State) (f : Fabric → Fabric) : (s.modFab f).tileCe = s.tileCe := rfl
@[simp] theorem State.modFab_tileUe (s : State) (f : Fabric → Fabric) : (s.modFab f).tileUe = s.tileUe := rfl
@[simp] theorem State.modFab_parts (s : State) (f : Fabric → Fabric) : (s.modFab f).parts = s.parts := rfl
@[simp] theorem State.modFab_ctxs (s : State) (f : Fabric → Fabric) : (s.modFab f).ctxs = s.ctxs := rfl
@[simp] theorem State.modFab_stks (s : State) (f : Fabric → Fabric) : (s.modFab f).stks = s.stks := rfl
@[simp] theorem State.modFab_hbm (s : State) (f : Fabric → Fabric) : (s.modFab f).hbm = s.hbm := rfl
@[simp] theorem State.modFab_lineErr (s : State) (f : Fabric → Fabric) : (s.modFab f).lineErr = s.lineErr := rfl
@[simp] theorem State.modFab_frames (s : State) (f : Fabric → Fabric) : (s.modFab f).frames = s.frames := rfl
@[simp] theorem State.modFab_fcResult (s : State) (f : Fabric → Fabric) : (s.modFab f).fcResult = s.fcResult := rfl
@[simp] theorem State.modFab_fcState (s : State) (f : Fabric → Fabric) : (s.modFab f).fcState = s.fcState := rfl
@[simp] theorem State.modFab_fcScrub (s : State) (f : Fabric → Fabric) : (s.modFab f).fcScrub = s.fcScrub := rfl
@[simp] theorem State.modFab_fcOwner (s : State) (f : Fabric → Fabric) : (s.modFab f).fcOwner = s.fcOwner := rfl
@[simp] theorem State.modFab_btiCtx (s : State) (f : Fabric → Fabric) : (s.modFab f).btiCtx = s.btiCtx := rfl
@[simp] theorem State.modFab_btiPage (s : State) (f : Fabric → Fabric) : (s.modFab f).btiPage = s.btiPage := rfl
@[simp] theorem State.modFab_btiAll (s : State) (f : Fabric → Fabric) : (s.modFab f).btiAll = s.btiAll := rfl
@[simp] theorem State.modFab_btiGo (s : State) (f : Fabric → Fabric) : (s.modFab f).btiGo = s.btiGo := rfl
@[simp] theorem State.modFab_btiNow (s : State) (f : Fabric → Fabric) : (s.modFab f).btiNow = s.btiNow := rfl
@[simp] theorem State.modFab_passMark (s : State) (f : Fabric → Fabric) : (s.modFab f).passMark = s.passMark := rfl
@[simp] theorem State.modFab_tcache (s : State) (f : Fabric → Fabric) : (s.modFab f).tcache = s.tcache := rfl
@[simp] theorem State.modFab_wfCtx (s : State) (f : Fabric → Fabric) : (s.modFab f).wfCtx = s.wfCtx := rfl
@[simp] theorem State.modFab_wfCode (s : State) (f : Fabric → Fabric) : (s.modFab f).wfCode = s.wfCode := rfl
@[simp] theorem State.modFab_wfAddr (s : State) (f : Fabric → Fabric) : (s.modFab f).wfAddr = s.wfAddr := rfl
@[simp] theorem State.modFab_weir (s : State) (f : Fabric → Fabric) : (s.modFab f).weir = s.weir := rfl
@[simp] theorem State.modFab_atoms (s : State) (f : Fabric → Fabric) : (s.modFab f).atoms = s.atoms := rfl
@[simp] theorem State.modFab_spills (s : State) (f : Fabric → Fabric) : (s.modFab f).spills = s.spills := rfl
@[simp] theorem State.modFab_berthResult (s : State) (f : Fabric → Fabric) : (s.modFab f).berthResult = s.berthResult := rfl
@[simp] theorem State.modFab_berthQuery (s : State) (f : Fabric → Fabric) : (s.modFab f).berthQuery = s.berthQuery := rfl
@[simp] theorem State.modFab_defCrewMw (s : State) (f : Fabric → Fabric) : (s.modFab f).defCrewMw = s.defCrewMw := rfl
@[simp] theorem State.modFab_passUs (s : State) (f : Fabric → Fabric) : (s.modFab f).passUs = s.passUs := rfl
@[simp] theorem State.modFab_cntInfeasible (s : State) (f : Fabric → Fabric) : (s.modFab f).cntInfeasible = s.cntInfeasible := rfl
@[simp] theorem State.modFab_cntAdmitted (s : State) (f : Fabric → Fabric) : (s.modFab f).cntAdmitted = s.cntAdmitted := rfl
@[simp] theorem State.modFab_cntOverrun (s : State) (f : Fabric → Fabric) : (s.modFab f).cntOverrun = s.cntOverrun := rfl
@[simp] theorem State.modFab_stroke (s : State) (f : Fabric → Fabric) : (s.modFab f).stroke = s.stroke := rfl
@[simp] theorem State.modFab_pwr (s : State) (f : Fabric → Fabric) : (s.modFab f).pwr = s.pwr := rfl
@[simp] theorem State.modFab_ump (s : State) (f : Fabric → Fabric) : (s.modFab f).ump = s.ump := rfl
@[simp] theorem State.modFab_rst (s : State) (f : Fabric → Fabric) : (s.modFab f).rst = s.rst := rfl
@[simp] theorem State.modFab_boot (s : State) (f : Fabric → Fabric) : (s.modFab f).boot = s.boot := rfl
@[simp] theorem State.modFab_host (s : State) (f : Fabric → Fabric) : (s.modFab f).host = s.host := rfl
@[simp] theorem State.modFab_card (s : State) (f : Fabric → Fabric) : (s.modFab f).card = s.card := rfl
@[simp] theorem State.modFab_rack (s : State) (f : Fabric → Fabric) : (s.modFab f).rack = s.rack := rfl
@[simp] theorem State.modFab_flash (s : State) (f : Fabric → Fabric) : (s.modFab f).flash = s.flash := rfl
@[simp] theorem State.modFab_evLogNext (s : State) (f : Fabric → Fabric) : (s.modFab f).evLogNext = s.evLogNext := rfl
@[simp] theorem State.modFab_hostMem (s : State) (f : Fabric → Fabric) : (s.modFab f).hostMem = s.hostMem := rfl
@[simp] theorem State.modFab_hostData (s : State) (f : Fabric → Fabric) : (s.modFab f).hostData = s.hostData := rfl
@[simp] theorem State.modFab_msix (s : State) (f : Fabric → Fabric) : (s.modFab f).msix = s.msix := rfl
@[simp] theorem State.modFab_sent (s : State) (f : Fabric → Fabric) : (s.modFab f).sent = s.sent := rfl
@[simp] theorem State.modFab_naks (s : State) (f : Fabric → Fabric) : (s.modFab f).naks = s.naks := rfl
@[simp] theorem State.modFab_markers (s : State) (f : Fabric → Fabric) : (s.modFab f).markers = s.markers := rfl
@[simp] theorem State.modFab_mgmt (s : State) (f : Fabric → Fabric) : (s.modFab f).mgmt = s.mgmt := rfl
@[simp] theorem State.modFab_cardOut (s : State) (f : Fabric → Fabric) : (s.modFab f).cardOut = s.cardOut := rfl
@[simp] theorem State.modFab_rackLimits (s : State) (f : Fabric → Fabric) : (s.modFab f).rackLimits = s.rackLimits := rfl
@[simp] theorem State.modFab_platform (s : State) (f : Fabric → Fabric) : (s.modFab f).platform = s.platform := rfl
@[simp] theorem State.modFab_snoops (s : State) (f : Fabric → Fabric) : (s.modFab f).snoops = s.snoops := rfl
@[simp] theorem State.modFab_fab (s : State) (f : Fabric → Fabric) : (s.modFab f).fab = f s.fab := rfl
@[simp] theorem State.modFab_tile (s : State) (f : Fabric → Fabric) (j : Nat) : (s.modFab f).tile j = s.tile j := rfl
@[simp] theorem State.modFab_part (s : State) (f : Fabric → Fabric) (j : Nat) : (s.modFab f).part j = s.part j := rfl
@[simp] theorem State.modFab_ctx (s : State) (f : Fabric → Fabric) (j : Nat) : (s.modFab f).ctx j = s.ctx j := rfl
@[simp] theorem State.modFab_stk (s : State) (f : Fabric → Fabric) (j : Nat) : (s.modFab f).stk j = s.stk j := rfl
@[simp] theorem State.modFab_frame (s : State) (f : Fabric → Fabric) (j : Nat) : (s.modFab f).frame j = s.frame j := rfl
@[simp] theorem State.modFab_utile (s : State) (f : Fabric → Fabric) (j : Nat) : (s.modFab f).utile j = s.utile j := rfl
@[simp] theorem State.modFab_crew (s : State) (f : Fabric → Fabric) (j : Nat) : (s.modFab f).crew j = s.crew j := rfl
@[simp] theorem State.modFab_now (s : State) (f : Fabric → Fabric) : (s.modFab f).now = s.now := rfl
@[simp] theorem State.modFab_alive (s : State) (f : Fabric → Fabric) : (s.modFab f).alive = s.alive := rfl

/-! ### modStroke -/

@[simp] theorem State.modStroke_pending (s : State) (f : Stroke → Stroke) : (s.modStroke f).pending = s.pending := rfl
@[simp] theorem State.modStroke_freeIx (s : State) (f : Stroke → Stroke) : (s.modStroke f).freeIx = s.freeIx := rfl
@[simp] theorem State.modStroke_fuses (s : State) (f : Stroke → Stroke) : (s.modStroke f).fuses = s.fuses := rfl
@[simp] theorem State.modStroke_tiles (s : State) (f : Stroke → Stroke) : (s.modStroke f).tiles = s.tiles := rfl
@[simp] theorem State.modStroke_tileCe (s : State) (f : Stroke → Stroke) : (s.modStroke f).tileCe = s.tileCe := rfl
@[simp] theorem State.modStroke_tileUe (s : State) (f : Stroke → Stroke) : (s.modStroke f).tileUe = s.tileUe := rfl
@[simp] theorem State.modStroke_parts (s : State) (f : Stroke → Stroke) : (s.modStroke f).parts = s.parts := rfl
@[simp] theorem State.modStroke_ctxs (s : State) (f : Stroke → Stroke) : (s.modStroke f).ctxs = s.ctxs := rfl
@[simp] theorem State.modStroke_stks (s : State) (f : Stroke → Stroke) : (s.modStroke f).stks = s.stks := rfl
@[simp] theorem State.modStroke_hbm (s : State) (f : Stroke → Stroke) : (s.modStroke f).hbm = s.hbm := rfl
@[simp] theorem State.modStroke_lineErr (s : State) (f : Stroke → Stroke) : (s.modStroke f).lineErr = s.lineErr := rfl
@[simp] theorem State.modStroke_frames (s : State) (f : Stroke → Stroke) : (s.modStroke f).frames = s.frames := rfl
@[simp] theorem State.modStroke_fcResult (s : State) (f : Stroke → Stroke) : (s.modStroke f).fcResult = s.fcResult := rfl
@[simp] theorem State.modStroke_fcState (s : State) (f : Stroke → Stroke) : (s.modStroke f).fcState = s.fcState := rfl
@[simp] theorem State.modStroke_fcScrub (s : State) (f : Stroke → Stroke) : (s.modStroke f).fcScrub = s.fcScrub := rfl
@[simp] theorem State.modStroke_fcOwner (s : State) (f : Stroke → Stroke) : (s.modStroke f).fcOwner = s.fcOwner := rfl
@[simp] theorem State.modStroke_btiCtx (s : State) (f : Stroke → Stroke) : (s.modStroke f).btiCtx = s.btiCtx := rfl
@[simp] theorem State.modStroke_btiPage (s : State) (f : Stroke → Stroke) : (s.modStroke f).btiPage = s.btiPage := rfl
@[simp] theorem State.modStroke_btiAll (s : State) (f : Stroke → Stroke) : (s.modStroke f).btiAll = s.btiAll := rfl
@[simp] theorem State.modStroke_btiGo (s : State) (f : Stroke → Stroke) : (s.modStroke f).btiGo = s.btiGo := rfl
@[simp] theorem State.modStroke_btiNow (s : State) (f : Stroke → Stroke) : (s.modStroke f).btiNow = s.btiNow := rfl
@[simp] theorem State.modStroke_passMark (s : State) (f : Stroke → Stroke) : (s.modStroke f).passMark = s.passMark := rfl
@[simp] theorem State.modStroke_tcache (s : State) (f : Stroke → Stroke) : (s.modStroke f).tcache = s.tcache := rfl
@[simp] theorem State.modStroke_wfCtx (s : State) (f : Stroke → Stroke) : (s.modStroke f).wfCtx = s.wfCtx := rfl
@[simp] theorem State.modStroke_wfCode (s : State) (f : Stroke → Stroke) : (s.modStroke f).wfCode = s.wfCode := rfl
@[simp] theorem State.modStroke_wfAddr (s : State) (f : Stroke → Stroke) : (s.modStroke f).wfAddr = s.wfAddr := rfl
@[simp] theorem State.modStroke_weir (s : State) (f : Stroke → Stroke) : (s.modStroke f).weir = s.weir := rfl
@[simp] theorem State.modStroke_atoms (s : State) (f : Stroke → Stroke) : (s.modStroke f).atoms = s.atoms := rfl
@[simp] theorem State.modStroke_spills (s : State) (f : Stroke → Stroke) : (s.modStroke f).spills = s.spills := rfl
@[simp] theorem State.modStroke_berthResult (s : State) (f : Stroke → Stroke) : (s.modStroke f).berthResult = s.berthResult := rfl
@[simp] theorem State.modStroke_berthQuery (s : State) (f : Stroke → Stroke) : (s.modStroke f).berthQuery = s.berthQuery := rfl
@[simp] theorem State.modStroke_defCrewMw (s : State) (f : Stroke → Stroke) : (s.modStroke f).defCrewMw = s.defCrewMw := rfl
@[simp] theorem State.modStroke_passUs (s : State) (f : Stroke → Stroke) : (s.modStroke f).passUs = s.passUs := rfl
@[simp] theorem State.modStroke_cntInfeasible (s : State) (f : Stroke → Stroke) : (s.modStroke f).cntInfeasible = s.cntInfeasible := rfl
@[simp] theorem State.modStroke_cntAdmitted (s : State) (f : Stroke → Stroke) : (s.modStroke f).cntAdmitted = s.cntAdmitted := rfl
@[simp] theorem State.modStroke_cntOverrun (s : State) (f : Stroke → Stroke) : (s.modStroke f).cntOverrun = s.cntOverrun := rfl
@[simp] theorem State.modStroke_fab (s : State) (f : Stroke → Stroke) : (s.modStroke f).fab = s.fab := rfl
@[simp] theorem State.modStroke_pwr (s : State) (f : Stroke → Stroke) : (s.modStroke f).pwr = s.pwr := rfl
@[simp] theorem State.modStroke_ump (s : State) (f : Stroke → Stroke) : (s.modStroke f).ump = s.ump := rfl
@[simp] theorem State.modStroke_rst (s : State) (f : Stroke → Stroke) : (s.modStroke f).rst = s.rst := rfl
@[simp] theorem State.modStroke_boot (s : State) (f : Stroke → Stroke) : (s.modStroke f).boot = s.boot := rfl
@[simp] theorem State.modStroke_host (s : State) (f : Stroke → Stroke) : (s.modStroke f).host = s.host := rfl
@[simp] theorem State.modStroke_card (s : State) (f : Stroke → Stroke) : (s.modStroke f).card = s.card := rfl
@[simp] theorem State.modStroke_rack (s : State) (f : Stroke → Stroke) : (s.modStroke f).rack = s.rack := rfl
@[simp] theorem State.modStroke_flash (s : State) (f : Stroke → Stroke) : (s.modStroke f).flash = s.flash := rfl
@[simp] theorem State.modStroke_evLogNext (s : State) (f : Stroke → Stroke) : (s.modStroke f).evLogNext = s.evLogNext := rfl
@[simp] theorem State.modStroke_hostMem (s : State) (f : Stroke → Stroke) : (s.modStroke f).hostMem = s.hostMem := rfl
@[simp] theorem State.modStroke_hostData (s : State) (f : Stroke → Stroke) : (s.modStroke f).hostData = s.hostData := rfl
@[simp] theorem State.modStroke_msix (s : State) (f : Stroke → Stroke) : (s.modStroke f).msix = s.msix := rfl
@[simp] theorem State.modStroke_sent (s : State) (f : Stroke → Stroke) : (s.modStroke f).sent = s.sent := rfl
@[simp] theorem State.modStroke_naks (s : State) (f : Stroke → Stroke) : (s.modStroke f).naks = s.naks := rfl
@[simp] theorem State.modStroke_markers (s : State) (f : Stroke → Stroke) : (s.modStroke f).markers = s.markers := rfl
@[simp] theorem State.modStroke_mgmt (s : State) (f : Stroke → Stroke) : (s.modStroke f).mgmt = s.mgmt := rfl
@[simp] theorem State.modStroke_cardOut (s : State) (f : Stroke → Stroke) : (s.modStroke f).cardOut = s.cardOut := rfl
@[simp] theorem State.modStroke_rackLimits (s : State) (f : Stroke → Stroke) : (s.modStroke f).rackLimits = s.rackLimits := rfl
@[simp] theorem State.modStroke_platform (s : State) (f : Stroke → Stroke) : (s.modStroke f).platform = s.platform := rfl
@[simp] theorem State.modStroke_snoops (s : State) (f : Stroke → Stroke) : (s.modStroke f).snoops = s.snoops := rfl
@[simp] theorem State.modStroke_stroke (s : State) (f : Stroke → Stroke) : (s.modStroke f).stroke = f s.stroke := rfl
@[simp] theorem State.modStroke_tile (s : State) (f : Stroke → Stroke) (j : Nat) : (s.modStroke f).tile j = s.tile j := rfl
@[simp] theorem State.modStroke_part (s : State) (f : Stroke → Stroke) (j : Nat) : (s.modStroke f).part j = s.part j := rfl
@[simp] theorem State.modStroke_ctx (s : State) (f : Stroke → Stroke) (j : Nat) : (s.modStroke f).ctx j = s.ctx j := rfl
@[simp] theorem State.modStroke_stk (s : State) (f : Stroke → Stroke) (j : Nat) : (s.modStroke f).stk j = s.stk j := rfl
@[simp] theorem State.modStroke_frame (s : State) (f : Stroke → Stroke) (j : Nat) : (s.modStroke f).frame j = s.frame j := rfl
@[simp] theorem State.modStroke_port (s : State) (f : Stroke → Stroke) (j : Nat) : (s.modStroke f).port j = s.port j := rfl
@[simp] theorem State.modStroke_utile (s : State) (f : Stroke → Stroke) (j : Nat) : (s.modStroke f).utile j = s.utile j := rfl
@[simp] theorem State.modStroke_crew (s : State) (f : Stroke → Stroke) (j : Nat) : (s.modStroke f).crew j = s.crew j := rfl
@[simp] theorem State.modStroke_alive (s : State) (f : Stroke → Stroke) : (s.modStroke f).alive = s.alive := rfl

/-! ### modPwr -/

@[simp] theorem State.modPwr_pending (s : State) (f : Power → Power) : (s.modPwr f).pending = s.pending := rfl
@[simp] theorem State.modPwr_freeIx (s : State) (f : Power → Power) : (s.modPwr f).freeIx = s.freeIx := rfl
@[simp] theorem State.modPwr_fuses (s : State) (f : Power → Power) : (s.modPwr f).fuses = s.fuses := rfl
@[simp] theorem State.modPwr_tiles (s : State) (f : Power → Power) : (s.modPwr f).tiles = s.tiles := rfl
@[simp] theorem State.modPwr_tileCe (s : State) (f : Power → Power) : (s.modPwr f).tileCe = s.tileCe := rfl
@[simp] theorem State.modPwr_tileUe (s : State) (f : Power → Power) : (s.modPwr f).tileUe = s.tileUe := rfl
@[simp] theorem State.modPwr_parts (s : State) (f : Power → Power) : (s.modPwr f).parts = s.parts := rfl
@[simp] theorem State.modPwr_ctxs (s : State) (f : Power → Power) : (s.modPwr f).ctxs = s.ctxs := rfl
@[simp] theorem State.modPwr_stks (s : State) (f : Power → Power) : (s.modPwr f).stks = s.stks := rfl
@[simp] theorem State.modPwr_hbm (s : State) (f : Power → Power) : (s.modPwr f).hbm = s.hbm := rfl
@[simp] theorem State.modPwr_lineErr (s : State) (f : Power → Power) : (s.modPwr f).lineErr = s.lineErr := rfl
@[simp] theorem State.modPwr_frames (s : State) (f : Power → Power) : (s.modPwr f).frames = s.frames := rfl
@[simp] theorem State.modPwr_fcResult (s : State) (f : Power → Power) : (s.modPwr f).fcResult = s.fcResult := rfl
@[simp] theorem State.modPwr_fcState (s : State) (f : Power → Power) : (s.modPwr f).fcState = s.fcState := rfl
@[simp] theorem State.modPwr_fcScrub (s : State) (f : Power → Power) : (s.modPwr f).fcScrub = s.fcScrub := rfl
@[simp] theorem State.modPwr_fcOwner (s : State) (f : Power → Power) : (s.modPwr f).fcOwner = s.fcOwner := rfl
@[simp] theorem State.modPwr_btiCtx (s : State) (f : Power → Power) : (s.modPwr f).btiCtx = s.btiCtx := rfl
@[simp] theorem State.modPwr_btiPage (s : State) (f : Power → Power) : (s.modPwr f).btiPage = s.btiPage := rfl
@[simp] theorem State.modPwr_btiAll (s : State) (f : Power → Power) : (s.modPwr f).btiAll = s.btiAll := rfl
@[simp] theorem State.modPwr_btiGo (s : State) (f : Power → Power) : (s.modPwr f).btiGo = s.btiGo := rfl
@[simp] theorem State.modPwr_btiNow (s : State) (f : Power → Power) : (s.modPwr f).btiNow = s.btiNow := rfl
@[simp] theorem State.modPwr_passMark (s : State) (f : Power → Power) : (s.modPwr f).passMark = s.passMark := rfl
@[simp] theorem State.modPwr_tcache (s : State) (f : Power → Power) : (s.modPwr f).tcache = s.tcache := rfl
@[simp] theorem State.modPwr_wfCtx (s : State) (f : Power → Power) : (s.modPwr f).wfCtx = s.wfCtx := rfl
@[simp] theorem State.modPwr_wfCode (s : State) (f : Power → Power) : (s.modPwr f).wfCode = s.wfCode := rfl
@[simp] theorem State.modPwr_wfAddr (s : State) (f : Power → Power) : (s.modPwr f).wfAddr = s.wfAddr := rfl
@[simp] theorem State.modPwr_weir (s : State) (f : Power → Power) : (s.modPwr f).weir = s.weir := rfl
@[simp] theorem State.modPwr_atoms (s : State) (f : Power → Power) : (s.modPwr f).atoms = s.atoms := rfl
@[simp] theorem State.modPwr_spills (s : State) (f : Power → Power) : (s.modPwr f).spills = s.spills := rfl
@[simp] theorem State.modPwr_berthResult (s : State) (f : Power → Power) : (s.modPwr f).berthResult = s.berthResult := rfl
@[simp] theorem State.modPwr_berthQuery (s : State) (f : Power → Power) : (s.modPwr f).berthQuery = s.berthQuery := rfl
@[simp] theorem State.modPwr_defCrewMw (s : State) (f : Power → Power) : (s.modPwr f).defCrewMw = s.defCrewMw := rfl
@[simp] theorem State.modPwr_passUs (s : State) (f : Power → Power) : (s.modPwr f).passUs = s.passUs := rfl
@[simp] theorem State.modPwr_cntInfeasible (s : State) (f : Power → Power) : (s.modPwr f).cntInfeasible = s.cntInfeasible := rfl
@[simp] theorem State.modPwr_cntAdmitted (s : State) (f : Power → Power) : (s.modPwr f).cntAdmitted = s.cntAdmitted := rfl
@[simp] theorem State.modPwr_cntOverrun (s : State) (f : Power → Power) : (s.modPwr f).cntOverrun = s.cntOverrun := rfl
@[simp] theorem State.modPwr_fab (s : State) (f : Power → Power) : (s.modPwr f).fab = s.fab := rfl
@[simp] theorem State.modPwr_stroke (s : State) (f : Power → Power) : (s.modPwr f).stroke = s.stroke := rfl
@[simp] theorem State.modPwr_ump (s : State) (f : Power → Power) : (s.modPwr f).ump = s.ump := rfl
@[simp] theorem State.modPwr_rst (s : State) (f : Power → Power) : (s.modPwr f).rst = s.rst := rfl
@[simp] theorem State.modPwr_boot (s : State) (f : Power → Power) : (s.modPwr f).boot = s.boot := rfl
@[simp] theorem State.modPwr_host (s : State) (f : Power → Power) : (s.modPwr f).host = s.host := rfl
@[simp] theorem State.modPwr_card (s : State) (f : Power → Power) : (s.modPwr f).card = s.card := rfl
@[simp] theorem State.modPwr_rack (s : State) (f : Power → Power) : (s.modPwr f).rack = s.rack := rfl
@[simp] theorem State.modPwr_flash (s : State) (f : Power → Power) : (s.modPwr f).flash = s.flash := rfl
@[simp] theorem State.modPwr_evLogNext (s : State) (f : Power → Power) : (s.modPwr f).evLogNext = s.evLogNext := rfl
@[simp] theorem State.modPwr_hostMem (s : State) (f : Power → Power) : (s.modPwr f).hostMem = s.hostMem := rfl
@[simp] theorem State.modPwr_hostData (s : State) (f : Power → Power) : (s.modPwr f).hostData = s.hostData := rfl
@[simp] theorem State.modPwr_msix (s : State) (f : Power → Power) : (s.modPwr f).msix = s.msix := rfl
@[simp] theorem State.modPwr_sent (s : State) (f : Power → Power) : (s.modPwr f).sent = s.sent := rfl
@[simp] theorem State.modPwr_naks (s : State) (f : Power → Power) : (s.modPwr f).naks = s.naks := rfl
@[simp] theorem State.modPwr_markers (s : State) (f : Power → Power) : (s.modPwr f).markers = s.markers := rfl
@[simp] theorem State.modPwr_mgmt (s : State) (f : Power → Power) : (s.modPwr f).mgmt = s.mgmt := rfl
@[simp] theorem State.modPwr_cardOut (s : State) (f : Power → Power) : (s.modPwr f).cardOut = s.cardOut := rfl
@[simp] theorem State.modPwr_rackLimits (s : State) (f : Power → Power) : (s.modPwr f).rackLimits = s.rackLimits := rfl
@[simp] theorem State.modPwr_platform (s : State) (f : Power → Power) : (s.modPwr f).platform = s.platform := rfl
@[simp] theorem State.modPwr_snoops (s : State) (f : Power → Power) : (s.modPwr f).snoops = s.snoops := rfl
@[simp] theorem State.modPwr_pwr (s : State) (f : Power → Power) : (s.modPwr f).pwr = f s.pwr := rfl
@[simp] theorem State.modPwr_tile (s : State) (f : Power → Power) (j : Nat) : (s.modPwr f).tile j = s.tile j := rfl
@[simp] theorem State.modPwr_part (s : State) (f : Power → Power) (j : Nat) : (s.modPwr f).part j = s.part j := rfl
@[simp] theorem State.modPwr_ctx (s : State) (f : Power → Power) (j : Nat) : (s.modPwr f).ctx j = s.ctx j := rfl
@[simp] theorem State.modPwr_stk (s : State) (f : Power → Power) (j : Nat) : (s.modPwr f).stk j = s.stk j := rfl
@[simp] theorem State.modPwr_frame (s : State) (f : Power → Power) (j : Nat) : (s.modPwr f).frame j = s.frame j := rfl
@[simp] theorem State.modPwr_port (s : State) (f : Power → Power) (j : Nat) : (s.modPwr f).port j = s.port j := rfl
@[simp] theorem State.modPwr_utile (s : State) (f : Power → Power) (j : Nat) : (s.modPwr f).utile j = s.utile j := rfl
@[simp] theorem State.modPwr_crew (s : State) (f : Power → Power) (j : Nat) : (s.modPwr f).crew j = s.crew j := rfl
@[simp] theorem State.modPwr_now (s : State) (f : Power → Power) : (s.modPwr f).now = s.now := rfl
@[simp] theorem State.modPwr_alive (s : State) (f : Power → Power) : (s.modPwr f).alive = s.alive := rfl

/-! ### modUmp -/

@[simp] theorem State.modUmp_pending (s : State) (f : Umpire → Umpire) : (s.modUmp f).pending = s.pending := rfl
@[simp] theorem State.modUmp_freeIx (s : State) (f : Umpire → Umpire) : (s.modUmp f).freeIx = s.freeIx := rfl
@[simp] theorem State.modUmp_fuses (s : State) (f : Umpire → Umpire) : (s.modUmp f).fuses = s.fuses := rfl
@[simp] theorem State.modUmp_tiles (s : State) (f : Umpire → Umpire) : (s.modUmp f).tiles = s.tiles := rfl
@[simp] theorem State.modUmp_tileCe (s : State) (f : Umpire → Umpire) : (s.modUmp f).tileCe = s.tileCe := rfl
@[simp] theorem State.modUmp_tileUe (s : State) (f : Umpire → Umpire) : (s.modUmp f).tileUe = s.tileUe := rfl
@[simp] theorem State.modUmp_parts (s : State) (f : Umpire → Umpire) : (s.modUmp f).parts = s.parts := rfl
@[simp] theorem State.modUmp_ctxs (s : State) (f : Umpire → Umpire) : (s.modUmp f).ctxs = s.ctxs := rfl
@[simp] theorem State.modUmp_stks (s : State) (f : Umpire → Umpire) : (s.modUmp f).stks = s.stks := rfl
@[simp] theorem State.modUmp_hbm (s : State) (f : Umpire → Umpire) : (s.modUmp f).hbm = s.hbm := rfl
@[simp] theorem State.modUmp_lineErr (s : State) (f : Umpire → Umpire) : (s.modUmp f).lineErr = s.lineErr := rfl
@[simp] theorem State.modUmp_frames (s : State) (f : Umpire → Umpire) : (s.modUmp f).frames = s.frames := rfl
@[simp] theorem State.modUmp_fcResult (s : State) (f : Umpire → Umpire) : (s.modUmp f).fcResult = s.fcResult := rfl
@[simp] theorem State.modUmp_fcState (s : State) (f : Umpire → Umpire) : (s.modUmp f).fcState = s.fcState := rfl
@[simp] theorem State.modUmp_fcScrub (s : State) (f : Umpire → Umpire) : (s.modUmp f).fcScrub = s.fcScrub := rfl
@[simp] theorem State.modUmp_fcOwner (s : State) (f : Umpire → Umpire) : (s.modUmp f).fcOwner = s.fcOwner := rfl
@[simp] theorem State.modUmp_btiCtx (s : State) (f : Umpire → Umpire) : (s.modUmp f).btiCtx = s.btiCtx := rfl
@[simp] theorem State.modUmp_btiPage (s : State) (f : Umpire → Umpire) : (s.modUmp f).btiPage = s.btiPage := rfl
@[simp] theorem State.modUmp_btiAll (s : State) (f : Umpire → Umpire) : (s.modUmp f).btiAll = s.btiAll := rfl
@[simp] theorem State.modUmp_btiGo (s : State) (f : Umpire → Umpire) : (s.modUmp f).btiGo = s.btiGo := rfl
@[simp] theorem State.modUmp_btiNow (s : State) (f : Umpire → Umpire) : (s.modUmp f).btiNow = s.btiNow := rfl
@[simp] theorem State.modUmp_passMark (s : State) (f : Umpire → Umpire) : (s.modUmp f).passMark = s.passMark := rfl
@[simp] theorem State.modUmp_tcache (s : State) (f : Umpire → Umpire) : (s.modUmp f).tcache = s.tcache := rfl
@[simp] theorem State.modUmp_wfCtx (s : State) (f : Umpire → Umpire) : (s.modUmp f).wfCtx = s.wfCtx := rfl
@[simp] theorem State.modUmp_wfCode (s : State) (f : Umpire → Umpire) : (s.modUmp f).wfCode = s.wfCode := rfl
@[simp] theorem State.modUmp_wfAddr (s : State) (f : Umpire → Umpire) : (s.modUmp f).wfAddr = s.wfAddr := rfl
@[simp] theorem State.modUmp_weir (s : State) (f : Umpire → Umpire) : (s.modUmp f).weir = s.weir := rfl
@[simp] theorem State.modUmp_atoms (s : State) (f : Umpire → Umpire) : (s.modUmp f).atoms = s.atoms := rfl
@[simp] theorem State.modUmp_spills (s : State) (f : Umpire → Umpire) : (s.modUmp f).spills = s.spills := rfl
@[simp] theorem State.modUmp_berthResult (s : State) (f : Umpire → Umpire) : (s.modUmp f).berthResult = s.berthResult := rfl
@[simp] theorem State.modUmp_berthQuery (s : State) (f : Umpire → Umpire) : (s.modUmp f).berthQuery = s.berthQuery := rfl
@[simp] theorem State.modUmp_defCrewMw (s : State) (f : Umpire → Umpire) : (s.modUmp f).defCrewMw = s.defCrewMw := rfl
@[simp] theorem State.modUmp_passUs (s : State) (f : Umpire → Umpire) : (s.modUmp f).passUs = s.passUs := rfl
@[simp] theorem State.modUmp_cntInfeasible (s : State) (f : Umpire → Umpire) : (s.modUmp f).cntInfeasible = s.cntInfeasible := rfl
@[simp] theorem State.modUmp_cntAdmitted (s : State) (f : Umpire → Umpire) : (s.modUmp f).cntAdmitted = s.cntAdmitted := rfl
@[simp] theorem State.modUmp_cntOverrun (s : State) (f : Umpire → Umpire) : (s.modUmp f).cntOverrun = s.cntOverrun := rfl
@[simp] theorem State.modUmp_fab (s : State) (f : Umpire → Umpire) : (s.modUmp f).fab = s.fab := rfl
@[simp] theorem State.modUmp_stroke (s : State) (f : Umpire → Umpire) : (s.modUmp f).stroke = s.stroke := rfl
@[simp] theorem State.modUmp_pwr (s : State) (f : Umpire → Umpire) : (s.modUmp f).pwr = s.pwr := rfl
@[simp] theorem State.modUmp_rst (s : State) (f : Umpire → Umpire) : (s.modUmp f).rst = s.rst := rfl
@[simp] theorem State.modUmp_boot (s : State) (f : Umpire → Umpire) : (s.modUmp f).boot = s.boot := rfl
@[simp] theorem State.modUmp_host (s : State) (f : Umpire → Umpire) : (s.modUmp f).host = s.host := rfl
@[simp] theorem State.modUmp_card (s : State) (f : Umpire → Umpire) : (s.modUmp f).card = s.card := rfl
@[simp] theorem State.modUmp_rack (s : State) (f : Umpire → Umpire) : (s.modUmp f).rack = s.rack := rfl
@[simp] theorem State.modUmp_flash (s : State) (f : Umpire → Umpire) : (s.modUmp f).flash = s.flash := rfl
@[simp] theorem State.modUmp_evLogNext (s : State) (f : Umpire → Umpire) : (s.modUmp f).evLogNext = s.evLogNext := rfl
@[simp] theorem State.modUmp_hostMem (s : State) (f : Umpire → Umpire) : (s.modUmp f).hostMem = s.hostMem := rfl
@[simp] theorem State.modUmp_hostData (s : State) (f : Umpire → Umpire) : (s.modUmp f).hostData = s.hostData := rfl
@[simp] theorem State.modUmp_msix (s : State) (f : Umpire → Umpire) : (s.modUmp f).msix = s.msix := rfl
@[simp] theorem State.modUmp_sent (s : State) (f : Umpire → Umpire) : (s.modUmp f).sent = s.sent := rfl
@[simp] theorem State.modUmp_naks (s : State) (f : Umpire → Umpire) : (s.modUmp f).naks = s.naks := rfl
@[simp] theorem State.modUmp_markers (s : State) (f : Umpire → Umpire) : (s.modUmp f).markers = s.markers := rfl
@[simp] theorem State.modUmp_mgmt (s : State) (f : Umpire → Umpire) : (s.modUmp f).mgmt = s.mgmt := rfl
@[simp] theorem State.modUmp_cardOut (s : State) (f : Umpire → Umpire) : (s.modUmp f).cardOut = s.cardOut := rfl
@[simp] theorem State.modUmp_rackLimits (s : State) (f : Umpire → Umpire) : (s.modUmp f).rackLimits = s.rackLimits := rfl
@[simp] theorem State.modUmp_platform (s : State) (f : Umpire → Umpire) : (s.modUmp f).platform = s.platform := rfl
@[simp] theorem State.modUmp_snoops (s : State) (f : Umpire → Umpire) : (s.modUmp f).snoops = s.snoops := rfl
@[simp] theorem State.modUmp_ump (s : State) (f : Umpire → Umpire) : (s.modUmp f).ump = f s.ump := rfl
@[simp] theorem State.modUmp_tile (s : State) (f : Umpire → Umpire) (j : Nat) : (s.modUmp f).tile j = s.tile j := rfl
@[simp] theorem State.modUmp_part (s : State) (f : Umpire → Umpire) (j : Nat) : (s.modUmp f).part j = s.part j := rfl
@[simp] theorem State.modUmp_ctx (s : State) (f : Umpire → Umpire) (j : Nat) : (s.modUmp f).ctx j = s.ctx j := rfl
@[simp] theorem State.modUmp_stk (s : State) (f : Umpire → Umpire) (j : Nat) : (s.modUmp f).stk j = s.stk j := rfl
@[simp] theorem State.modUmp_frame (s : State) (f : Umpire → Umpire) (j : Nat) : (s.modUmp f).frame j = s.frame j := rfl
@[simp] theorem State.modUmp_port (s : State) (f : Umpire → Umpire) (j : Nat) : (s.modUmp f).port j = s.port j := rfl
@[simp] theorem State.modUmp_now (s : State) (f : Umpire → Umpire) : (s.modUmp f).now = s.now := rfl
@[simp] theorem State.modUmp_alive (s : State) (f : Umpire → Umpire) : (s.modUmp f).alive = s.alive := rfl

/-! ### modRst -/

@[simp] theorem State.modRst_pending (s : State) (f : Resets → Resets) : (s.modRst f).pending = s.pending := rfl
@[simp] theorem State.modRst_freeIx (s : State) (f : Resets → Resets) : (s.modRst f).freeIx = s.freeIx := rfl
@[simp] theorem State.modRst_fuses (s : State) (f : Resets → Resets) : (s.modRst f).fuses = s.fuses := rfl
@[simp] theorem State.modRst_tiles (s : State) (f : Resets → Resets) : (s.modRst f).tiles = s.tiles := rfl
@[simp] theorem State.modRst_tileCe (s : State) (f : Resets → Resets) : (s.modRst f).tileCe = s.tileCe := rfl
@[simp] theorem State.modRst_tileUe (s : State) (f : Resets → Resets) : (s.modRst f).tileUe = s.tileUe := rfl
@[simp] theorem State.modRst_parts (s : State) (f : Resets → Resets) : (s.modRst f).parts = s.parts := rfl
@[simp] theorem State.modRst_ctxs (s : State) (f : Resets → Resets) : (s.modRst f).ctxs = s.ctxs := rfl
@[simp] theorem State.modRst_stks (s : State) (f : Resets → Resets) : (s.modRst f).stks = s.stks := rfl
@[simp] theorem State.modRst_hbm (s : State) (f : Resets → Resets) : (s.modRst f).hbm = s.hbm := rfl
@[simp] theorem State.modRst_lineErr (s : State) (f : Resets → Resets) : (s.modRst f).lineErr = s.lineErr := rfl
@[simp] theorem State.modRst_frames (s : State) (f : Resets → Resets) : (s.modRst f).frames = s.frames := rfl
@[simp] theorem State.modRst_fcResult (s : State) (f : Resets → Resets) : (s.modRst f).fcResult = s.fcResult := rfl
@[simp] theorem State.modRst_fcState (s : State) (f : Resets → Resets) : (s.modRst f).fcState = s.fcState := rfl
@[simp] theorem State.modRst_fcScrub (s : State) (f : Resets → Resets) : (s.modRst f).fcScrub = s.fcScrub := rfl
@[simp] theorem State.modRst_fcOwner (s : State) (f : Resets → Resets) : (s.modRst f).fcOwner = s.fcOwner := rfl
@[simp] theorem State.modRst_btiCtx (s : State) (f : Resets → Resets) : (s.modRst f).btiCtx = s.btiCtx := rfl
@[simp] theorem State.modRst_btiPage (s : State) (f : Resets → Resets) : (s.modRst f).btiPage = s.btiPage := rfl
@[simp] theorem State.modRst_btiAll (s : State) (f : Resets → Resets) : (s.modRst f).btiAll = s.btiAll := rfl
@[simp] theorem State.modRst_btiGo (s : State) (f : Resets → Resets) : (s.modRst f).btiGo = s.btiGo := rfl
@[simp] theorem State.modRst_btiNow (s : State) (f : Resets → Resets) : (s.modRst f).btiNow = s.btiNow := rfl
@[simp] theorem State.modRst_passMark (s : State) (f : Resets → Resets) : (s.modRst f).passMark = s.passMark := rfl
@[simp] theorem State.modRst_tcache (s : State) (f : Resets → Resets) : (s.modRst f).tcache = s.tcache := rfl
@[simp] theorem State.modRst_wfCtx (s : State) (f : Resets → Resets) : (s.modRst f).wfCtx = s.wfCtx := rfl
@[simp] theorem State.modRst_wfCode (s : State) (f : Resets → Resets) : (s.modRst f).wfCode = s.wfCode := rfl
@[simp] theorem State.modRst_wfAddr (s : State) (f : Resets → Resets) : (s.modRst f).wfAddr = s.wfAddr := rfl
@[simp] theorem State.modRst_weir (s : State) (f : Resets → Resets) : (s.modRst f).weir = s.weir := rfl
@[simp] theorem State.modRst_atoms (s : State) (f : Resets → Resets) : (s.modRst f).atoms = s.atoms := rfl
@[simp] theorem State.modRst_spills (s : State) (f : Resets → Resets) : (s.modRst f).spills = s.spills := rfl
@[simp] theorem State.modRst_berthResult (s : State) (f : Resets → Resets) : (s.modRst f).berthResult = s.berthResult := rfl
@[simp] theorem State.modRst_berthQuery (s : State) (f : Resets → Resets) : (s.modRst f).berthQuery = s.berthQuery := rfl
@[simp] theorem State.modRst_defCrewMw (s : State) (f : Resets → Resets) : (s.modRst f).defCrewMw = s.defCrewMw := rfl
@[simp] theorem State.modRst_passUs (s : State) (f : Resets → Resets) : (s.modRst f).passUs = s.passUs := rfl
@[simp] theorem State.modRst_cntInfeasible (s : State) (f : Resets → Resets) : (s.modRst f).cntInfeasible = s.cntInfeasible := rfl
@[simp] theorem State.modRst_cntAdmitted (s : State) (f : Resets → Resets) : (s.modRst f).cntAdmitted = s.cntAdmitted := rfl
@[simp] theorem State.modRst_cntOverrun (s : State) (f : Resets → Resets) : (s.modRst f).cntOverrun = s.cntOverrun := rfl
@[simp] theorem State.modRst_fab (s : State) (f : Resets → Resets) : (s.modRst f).fab = s.fab := rfl
@[simp] theorem State.modRst_stroke (s : State) (f : Resets → Resets) : (s.modRst f).stroke = s.stroke := rfl
@[simp] theorem State.modRst_pwr (s : State) (f : Resets → Resets) : (s.modRst f).pwr = s.pwr := rfl
@[simp] theorem State.modRst_ump (s : State) (f : Resets → Resets) : (s.modRst f).ump = s.ump := rfl
@[simp] theorem State.modRst_boot (s : State) (f : Resets → Resets) : (s.modRst f).boot = s.boot := rfl
@[simp] theorem State.modRst_host (s : State) (f : Resets → Resets) : (s.modRst f).host = s.host := rfl
@[simp] theorem State.modRst_card (s : State) (f : Resets → Resets) : (s.modRst f).card = s.card := rfl
@[simp] theorem State.modRst_rack (s : State) (f : Resets → Resets) : (s.modRst f).rack = s.rack := rfl
@[simp] theorem State.modRst_flash (s : State) (f : Resets → Resets) : (s.modRst f).flash = s.flash := rfl
@[simp] theorem State.modRst_evLogNext (s : State) (f : Resets → Resets) : (s.modRst f).evLogNext = s.evLogNext := rfl
@[simp] theorem State.modRst_hostMem (s : State) (f : Resets → Resets) : (s.modRst f).hostMem = s.hostMem := rfl
@[simp] theorem State.modRst_hostData (s : State) (f : Resets → Resets) : (s.modRst f).hostData = s.hostData := rfl
@[simp] theorem State.modRst_msix (s : State) (f : Resets → Resets) : (s.modRst f).msix = s.msix := rfl
@[simp] theorem State.modRst_sent (s : State) (f : Resets → Resets) : (s.modRst f).sent = s.sent := rfl
@[simp] theorem State.modRst_naks (s : State) (f : Resets → Resets) : (s.modRst f).naks = s.naks := rfl
@[simp] theorem State.modRst_markers (s : State) (f : Resets → Resets) : (s.modRst f).markers = s.markers := rfl
@[simp] theorem State.modRst_mgmt (s : State) (f : Resets → Resets) : (s.modRst f).mgmt = s.mgmt := rfl
@[simp] theorem State.modRst_cardOut (s : State) (f : Resets → Resets) : (s.modRst f).cardOut = s.cardOut := rfl
@[simp] theorem State.modRst_rackLimits (s : State) (f : Resets → Resets) : (s.modRst f).rackLimits = s.rackLimits := rfl
@[simp] theorem State.modRst_platform (s : State) (f : Resets → Resets) : (s.modRst f).platform = s.platform := rfl
@[simp] theorem State.modRst_snoops (s : State) (f : Resets → Resets) : (s.modRst f).snoops = s.snoops := rfl
@[simp] theorem State.modRst_rst (s : State) (f : Resets → Resets) : (s.modRst f).rst = f s.rst := rfl
@[simp] theorem State.modRst_tile (s : State) (f : Resets → Resets) (j : Nat) : (s.modRst f).tile j = s.tile j := rfl
@[simp] theorem State.modRst_part (s : State) (f : Resets → Resets) (j : Nat) : (s.modRst f).part j = s.part j := rfl
@[simp] theorem State.modRst_ctx (s : State) (f : Resets → Resets) (j : Nat) : (s.modRst f).ctx j = s.ctx j := rfl
@[simp] theorem State.modRst_stk (s : State) (f : Resets → Resets) (j : Nat) : (s.modRst f).stk j = s.stk j := rfl
@[simp] theorem State.modRst_frame (s : State) (f : Resets → Resets) (j : Nat) : (s.modRst f).frame j = s.frame j := rfl
@[simp] theorem State.modRst_port (s : State) (f : Resets → Resets) (j : Nat) : (s.modRst f).port j = s.port j := rfl
@[simp] theorem State.modRst_utile (s : State) (f : Resets → Resets) (j : Nat) : (s.modRst f).utile j = s.utile j := rfl
@[simp] theorem State.modRst_crew (s : State) (f : Resets → Resets) (j : Nat) : (s.modRst f).crew j = s.crew j := rfl
@[simp] theorem State.modRst_now (s : State) (f : Resets → Resets) : (s.modRst f).now = s.now := rfl
@[simp] theorem State.modRst_alive (s : State) (f : Resets → Resets) : (s.modRst f).alive = s.alive := rfl

/-! ### modBoot -/

@[simp] theorem State.modBoot_pending (s : State) (f : Boot → Boot) : (s.modBoot f).pending = s.pending := rfl
@[simp] theorem State.modBoot_freeIx (s : State) (f : Boot → Boot) : (s.modBoot f).freeIx = s.freeIx := rfl
@[simp] theorem State.modBoot_fuses (s : State) (f : Boot → Boot) : (s.modBoot f).fuses = s.fuses := rfl
@[simp] theorem State.modBoot_tiles (s : State) (f : Boot → Boot) : (s.modBoot f).tiles = s.tiles := rfl
@[simp] theorem State.modBoot_tileCe (s : State) (f : Boot → Boot) : (s.modBoot f).tileCe = s.tileCe := rfl
@[simp] theorem State.modBoot_tileUe (s : State) (f : Boot → Boot) : (s.modBoot f).tileUe = s.tileUe := rfl
@[simp] theorem State.modBoot_parts (s : State) (f : Boot → Boot) : (s.modBoot f).parts = s.parts := rfl
@[simp] theorem State.modBoot_ctxs (s : State) (f : Boot → Boot) : (s.modBoot f).ctxs = s.ctxs := rfl
@[simp] theorem State.modBoot_stks (s : State) (f : Boot → Boot) : (s.modBoot f).stks = s.stks := rfl
@[simp] theorem State.modBoot_hbm (s : State) (f : Boot → Boot) : (s.modBoot f).hbm = s.hbm := rfl
@[simp] theorem State.modBoot_lineErr (s : State) (f : Boot → Boot) : (s.modBoot f).lineErr = s.lineErr := rfl
@[simp] theorem State.modBoot_frames (s : State) (f : Boot → Boot) : (s.modBoot f).frames = s.frames := rfl
@[simp] theorem State.modBoot_fcResult (s : State) (f : Boot → Boot) : (s.modBoot f).fcResult = s.fcResult := rfl
@[simp] theorem State.modBoot_fcState (s : State) (f : Boot → Boot) : (s.modBoot f).fcState = s.fcState := rfl
@[simp] theorem State.modBoot_fcScrub (s : State) (f : Boot → Boot) : (s.modBoot f).fcScrub = s.fcScrub := rfl
@[simp] theorem State.modBoot_fcOwner (s : State) (f : Boot → Boot) : (s.modBoot f).fcOwner = s.fcOwner := rfl
@[simp] theorem State.modBoot_btiCtx (s : State) (f : Boot → Boot) : (s.modBoot f).btiCtx = s.btiCtx := rfl
@[simp] theorem State.modBoot_btiPage (s : State) (f : Boot → Boot) : (s.modBoot f).btiPage = s.btiPage := rfl
@[simp] theorem State.modBoot_btiAll (s : State) (f : Boot → Boot) : (s.modBoot f).btiAll = s.btiAll := rfl
@[simp] theorem State.modBoot_btiGo (s : State) (f : Boot → Boot) : (s.modBoot f).btiGo = s.btiGo := rfl
@[simp] theorem State.modBoot_btiNow (s : State) (f : Boot → Boot) : (s.modBoot f).btiNow = s.btiNow := rfl
@[simp] theorem State.modBoot_passMark (s : State) (f : Boot → Boot) : (s.modBoot f).passMark = s.passMark := rfl
@[simp] theorem State.modBoot_tcache (s : State) (f : Boot → Boot) : (s.modBoot f).tcache = s.tcache := rfl
@[simp] theorem State.modBoot_wfCtx (s : State) (f : Boot → Boot) : (s.modBoot f).wfCtx = s.wfCtx := rfl
@[simp] theorem State.modBoot_wfCode (s : State) (f : Boot → Boot) : (s.modBoot f).wfCode = s.wfCode := rfl
@[simp] theorem State.modBoot_wfAddr (s : State) (f : Boot → Boot) : (s.modBoot f).wfAddr = s.wfAddr := rfl
@[simp] theorem State.modBoot_weir (s : State) (f : Boot → Boot) : (s.modBoot f).weir = s.weir := rfl
@[simp] theorem State.modBoot_atoms (s : State) (f : Boot → Boot) : (s.modBoot f).atoms = s.atoms := rfl
@[simp] theorem State.modBoot_spills (s : State) (f : Boot → Boot) : (s.modBoot f).spills = s.spills := rfl
@[simp] theorem State.modBoot_berthResult (s : State) (f : Boot → Boot) : (s.modBoot f).berthResult = s.berthResult := rfl
@[simp] theorem State.modBoot_berthQuery (s : State) (f : Boot → Boot) : (s.modBoot f).berthQuery = s.berthQuery := rfl
@[simp] theorem State.modBoot_defCrewMw (s : State) (f : Boot → Boot) : (s.modBoot f).defCrewMw = s.defCrewMw := rfl
@[simp] theorem State.modBoot_passUs (s : State) (f : Boot → Boot) : (s.modBoot f).passUs = s.passUs := rfl
@[simp] theorem State.modBoot_cntInfeasible (s : State) (f : Boot → Boot) : (s.modBoot f).cntInfeasible = s.cntInfeasible := rfl
@[simp] theorem State.modBoot_cntAdmitted (s : State) (f : Boot → Boot) : (s.modBoot f).cntAdmitted = s.cntAdmitted := rfl
@[simp] theorem State.modBoot_cntOverrun (s : State) (f : Boot → Boot) : (s.modBoot f).cntOverrun = s.cntOverrun := rfl
@[simp] theorem State.modBoot_fab (s : State) (f : Boot → Boot) : (s.modBoot f).fab = s.fab := rfl
@[simp] theorem State.modBoot_stroke (s : State) (f : Boot → Boot) : (s.modBoot f).stroke = s.stroke := rfl
@[simp] theorem State.modBoot_pwr (s : State) (f : Boot → Boot) : (s.modBoot f).pwr = s.pwr := rfl
@[simp] theorem State.modBoot_ump (s : State) (f : Boot → Boot) : (s.modBoot f).ump = s.ump := rfl
@[simp] theorem State.modBoot_rst (s : State) (f : Boot → Boot) : (s.modBoot f).rst = s.rst := rfl
@[simp] theorem State.modBoot_host (s : State) (f : Boot → Boot) : (s.modBoot f).host = s.host := rfl
@[simp] theorem State.modBoot_card (s : State) (f : Boot → Boot) : (s.modBoot f).card = s.card := rfl
@[simp] theorem State.modBoot_rack (s : State) (f : Boot → Boot) : (s.modBoot f).rack = s.rack := rfl
@[simp] theorem State.modBoot_flash (s : State) (f : Boot → Boot) : (s.modBoot f).flash = s.flash := rfl
@[simp] theorem State.modBoot_evLogNext (s : State) (f : Boot → Boot) : (s.modBoot f).evLogNext = s.evLogNext := rfl
@[simp] theorem State.modBoot_hostMem (s : State) (f : Boot → Boot) : (s.modBoot f).hostMem = s.hostMem := rfl
@[simp] theorem State.modBoot_hostData (s : State) (f : Boot → Boot) : (s.modBoot f).hostData = s.hostData := rfl
@[simp] theorem State.modBoot_msix (s : State) (f : Boot → Boot) : (s.modBoot f).msix = s.msix := rfl
@[simp] theorem State.modBoot_sent (s : State) (f : Boot → Boot) : (s.modBoot f).sent = s.sent := rfl
@[simp] theorem State.modBoot_naks (s : State) (f : Boot → Boot) : (s.modBoot f).naks = s.naks := rfl
@[simp] theorem State.modBoot_markers (s : State) (f : Boot → Boot) : (s.modBoot f).markers = s.markers := rfl
@[simp] theorem State.modBoot_mgmt (s : State) (f : Boot → Boot) : (s.modBoot f).mgmt = s.mgmt := rfl
@[simp] theorem State.modBoot_cardOut (s : State) (f : Boot → Boot) : (s.modBoot f).cardOut = s.cardOut := rfl
@[simp] theorem State.modBoot_rackLimits (s : State) (f : Boot → Boot) : (s.modBoot f).rackLimits = s.rackLimits := rfl
@[simp] theorem State.modBoot_platform (s : State) (f : Boot → Boot) : (s.modBoot f).platform = s.platform := rfl
@[simp] theorem State.modBoot_snoops (s : State) (f : Boot → Boot) : (s.modBoot f).snoops = s.snoops := rfl
@[simp] theorem State.modBoot_boot (s : State) (f : Boot → Boot) : (s.modBoot f).boot = f s.boot := rfl
@[simp] theorem State.modBoot_tile (s : State) (f : Boot → Boot) (j : Nat) : (s.modBoot f).tile j = s.tile j := rfl
@[simp] theorem State.modBoot_part (s : State) (f : Boot → Boot) (j : Nat) : (s.modBoot f).part j = s.part j := rfl
@[simp] theorem State.modBoot_ctx (s : State) (f : Boot → Boot) (j : Nat) : (s.modBoot f).ctx j = s.ctx j := rfl
@[simp] theorem State.modBoot_stk (s : State) (f : Boot → Boot) (j : Nat) : (s.modBoot f).stk j = s.stk j := rfl
@[simp] theorem State.modBoot_frame (s : State) (f : Boot → Boot) (j : Nat) : (s.modBoot f).frame j = s.frame j := rfl
@[simp] theorem State.modBoot_port (s : State) (f : Boot → Boot) (j : Nat) : (s.modBoot f).port j = s.port j := rfl
@[simp] theorem State.modBoot_utile (s : State) (f : Boot → Boot) (j : Nat) : (s.modBoot f).utile j = s.utile j := rfl
@[simp] theorem State.modBoot_crew (s : State) (f : Boot → Boot) (j : Nat) : (s.modBoot f).crew j = s.crew j := rfl
@[simp] theorem State.modBoot_now (s : State) (f : Boot → Boot) : (s.modBoot f).now = s.now := rfl
@[simp] theorem State.modBoot_alive (s : State) (f : Boot → Boot) : (s.modBoot f).alive = s.alive := rfl

/-! ### modHost -/

@[simp] theorem State.modHost_pending (s : State) (f : HostIf → HostIf) : (s.modHost f).pending = s.pending := rfl
@[simp] theorem State.modHost_freeIx (s : State) (f : HostIf → HostIf) : (s.modHost f).freeIx = s.freeIx := rfl
@[simp] theorem State.modHost_fuses (s : State) (f : HostIf → HostIf) : (s.modHost f).fuses = s.fuses := rfl
@[simp] theorem State.modHost_tiles (s : State) (f : HostIf → HostIf) : (s.modHost f).tiles = s.tiles := rfl
@[simp] theorem State.modHost_tileCe (s : State) (f : HostIf → HostIf) : (s.modHost f).tileCe = s.tileCe := rfl
@[simp] theorem State.modHost_tileUe (s : State) (f : HostIf → HostIf) : (s.modHost f).tileUe = s.tileUe := rfl
@[simp] theorem State.modHost_parts (s : State) (f : HostIf → HostIf) : (s.modHost f).parts = s.parts := rfl
@[simp] theorem State.modHost_ctxs (s : State) (f : HostIf → HostIf) : (s.modHost f).ctxs = s.ctxs := rfl
@[simp] theorem State.modHost_stks (s : State) (f : HostIf → HostIf) : (s.modHost f).stks = s.stks := rfl
@[simp] theorem State.modHost_hbm (s : State) (f : HostIf → HostIf) : (s.modHost f).hbm = s.hbm := rfl
@[simp] theorem State.modHost_lineErr (s : State) (f : HostIf → HostIf) : (s.modHost f).lineErr = s.lineErr := rfl
@[simp] theorem State.modHost_frames (s : State) (f : HostIf → HostIf) : (s.modHost f).frames = s.frames := rfl
@[simp] theorem State.modHost_fcResult (s : State) (f : HostIf → HostIf) : (s.modHost f).fcResult = s.fcResult := rfl
@[simp] theorem State.modHost_fcState (s : State) (f : HostIf → HostIf) : (s.modHost f).fcState = s.fcState := rfl
@[simp] theorem State.modHost_fcScrub (s : State) (f : HostIf → HostIf) : (s.modHost f).fcScrub = s.fcScrub := rfl
@[simp] theorem State.modHost_fcOwner (s : State) (f : HostIf → HostIf) : (s.modHost f).fcOwner = s.fcOwner := rfl
@[simp] theorem State.modHost_btiCtx (s : State) (f : HostIf → HostIf) : (s.modHost f).btiCtx = s.btiCtx := rfl
@[simp] theorem State.modHost_btiPage (s : State) (f : HostIf → HostIf) : (s.modHost f).btiPage = s.btiPage := rfl
@[simp] theorem State.modHost_btiAll (s : State) (f : HostIf → HostIf) : (s.modHost f).btiAll = s.btiAll := rfl
@[simp] theorem State.modHost_btiGo (s : State) (f : HostIf → HostIf) : (s.modHost f).btiGo = s.btiGo := rfl
@[simp] theorem State.modHost_btiNow (s : State) (f : HostIf → HostIf) : (s.modHost f).btiNow = s.btiNow := rfl
@[simp] theorem State.modHost_passMark (s : State) (f : HostIf → HostIf) : (s.modHost f).passMark = s.passMark := rfl
@[simp] theorem State.modHost_tcache (s : State) (f : HostIf → HostIf) : (s.modHost f).tcache = s.tcache := rfl
@[simp] theorem State.modHost_wfCtx (s : State) (f : HostIf → HostIf) : (s.modHost f).wfCtx = s.wfCtx := rfl
@[simp] theorem State.modHost_wfCode (s : State) (f : HostIf → HostIf) : (s.modHost f).wfCode = s.wfCode := rfl
@[simp] theorem State.modHost_wfAddr (s : State) (f : HostIf → HostIf) : (s.modHost f).wfAddr = s.wfAddr := rfl
@[simp] theorem State.modHost_weir (s : State) (f : HostIf → HostIf) : (s.modHost f).weir = s.weir := rfl
@[simp] theorem State.modHost_atoms (s : State) (f : HostIf → HostIf) : (s.modHost f).atoms = s.atoms := rfl
@[simp] theorem State.modHost_spills (s : State) (f : HostIf → HostIf) : (s.modHost f).spills = s.spills := rfl
@[simp] theorem State.modHost_berthResult (s : State) (f : HostIf → HostIf) : (s.modHost f).berthResult = s.berthResult := rfl
@[simp] theorem State.modHost_berthQuery (s : State) (f : HostIf → HostIf) : (s.modHost f).berthQuery = s.berthQuery := rfl
@[simp] theorem State.modHost_defCrewMw (s : State) (f : HostIf → HostIf) : (s.modHost f).defCrewMw = s.defCrewMw := rfl
@[simp] theorem State.modHost_passUs (s : State) (f : HostIf → HostIf) : (s.modHost f).passUs = s.passUs := rfl
@[simp] theorem State.modHost_cntInfeasible (s : State) (f : HostIf → HostIf) : (s.modHost f).cntInfeasible = s.cntInfeasible := rfl
@[simp] theorem State.modHost_cntAdmitted (s : State) (f : HostIf → HostIf) : (s.modHost f).cntAdmitted = s.cntAdmitted := rfl
@[simp] theorem State.modHost_cntOverrun (s : State) (f : HostIf → HostIf) : (s.modHost f).cntOverrun = s.cntOverrun := rfl
@[simp] theorem State.modHost_fab (s : State) (f : HostIf → HostIf) : (s.modHost f).fab = s.fab := rfl
@[simp] theorem State.modHost_stroke (s : State) (f : HostIf → HostIf) : (s.modHost f).stroke = s.stroke := rfl
@[simp] theorem State.modHost_pwr (s : State) (f : HostIf → HostIf) : (s.modHost f).pwr = s.pwr := rfl
@[simp] theorem State.modHost_ump (s : State) (f : HostIf → HostIf) : (s.modHost f).ump = s.ump := rfl
@[simp] theorem State.modHost_rst (s : State) (f : HostIf → HostIf) : (s.modHost f).rst = s.rst := rfl
@[simp] theorem State.modHost_boot (s : State) (f : HostIf → HostIf) : (s.modHost f).boot = s.boot := rfl
@[simp] theorem State.modHost_card (s : State) (f : HostIf → HostIf) : (s.modHost f).card = s.card := rfl
@[simp] theorem State.modHost_rack (s : State) (f : HostIf → HostIf) : (s.modHost f).rack = s.rack := rfl
@[simp] theorem State.modHost_flash (s : State) (f : HostIf → HostIf) : (s.modHost f).flash = s.flash := rfl
@[simp] theorem State.modHost_evLogNext (s : State) (f : HostIf → HostIf) : (s.modHost f).evLogNext = s.evLogNext := rfl
@[simp] theorem State.modHost_hostMem (s : State) (f : HostIf → HostIf) : (s.modHost f).hostMem = s.hostMem := rfl
@[simp] theorem State.modHost_hostData (s : State) (f : HostIf → HostIf) : (s.modHost f).hostData = s.hostData := rfl
@[simp] theorem State.modHost_msix (s : State) (f : HostIf → HostIf) : (s.modHost f).msix = s.msix := rfl
@[simp] theorem State.modHost_sent (s : State) (f : HostIf → HostIf) : (s.modHost f).sent = s.sent := rfl
@[simp] theorem State.modHost_naks (s : State) (f : HostIf → HostIf) : (s.modHost f).naks = s.naks := rfl
@[simp] theorem State.modHost_markers (s : State) (f : HostIf → HostIf) : (s.modHost f).markers = s.markers := rfl
@[simp] theorem State.modHost_mgmt (s : State) (f : HostIf → HostIf) : (s.modHost f).mgmt = s.mgmt := rfl
@[simp] theorem State.modHost_cardOut (s : State) (f : HostIf → HostIf) : (s.modHost f).cardOut = s.cardOut := rfl
@[simp] theorem State.modHost_rackLimits (s : State) (f : HostIf → HostIf) : (s.modHost f).rackLimits = s.rackLimits := rfl
@[simp] theorem State.modHost_platform (s : State) (f : HostIf → HostIf) : (s.modHost f).platform = s.platform := rfl
@[simp] theorem State.modHost_snoops (s : State) (f : HostIf → HostIf) : (s.modHost f).snoops = s.snoops := rfl
@[simp] theorem State.modHost_host (s : State) (f : HostIf → HostIf) : (s.modHost f).host = f s.host := rfl
@[simp] theorem State.modHost_tile (s : State) (f : HostIf → HostIf) (j : Nat) : (s.modHost f).tile j = s.tile j := rfl
@[simp] theorem State.modHost_part (s : State) (f : HostIf → HostIf) (j : Nat) : (s.modHost f).part j = s.part j := rfl
@[simp] theorem State.modHost_ctx (s : State) (f : HostIf → HostIf) (j : Nat) : (s.modHost f).ctx j = s.ctx j := rfl
@[simp] theorem State.modHost_stk (s : State) (f : HostIf → HostIf) (j : Nat) : (s.modHost f).stk j = s.stk j := rfl
@[simp] theorem State.modHost_frame (s : State) (f : HostIf → HostIf) (j : Nat) : (s.modHost f).frame j = s.frame j := rfl
@[simp] theorem State.modHost_port (s : State) (f : HostIf → HostIf) (j : Nat) : (s.modHost f).port j = s.port j := rfl
@[simp] theorem State.modHost_utile (s : State) (f : HostIf → HostIf) (j : Nat) : (s.modHost f).utile j = s.utile j := rfl
@[simp] theorem State.modHost_crew (s : State) (f : HostIf → HostIf) (j : Nat) : (s.modHost f).crew j = s.crew j := rfl
@[simp] theorem State.modHost_now (s : State) (f : HostIf → HostIf) : (s.modHost f).now = s.now := rfl
@[simp] theorem State.modHost_alive (s : State) (f : HostIf → HostIf) : (s.modHost f).alive = s.alive := rfl

/-! ### modCard -/

@[simp] theorem State.modCard_pending (s : State) (f : Card → Card) : (s.modCard f).pending = s.pending := rfl
@[simp] theorem State.modCard_freeIx (s : State) (f : Card → Card) : (s.modCard f).freeIx = s.freeIx := rfl
@[simp] theorem State.modCard_fuses (s : State) (f : Card → Card) : (s.modCard f).fuses = s.fuses := rfl
@[simp] theorem State.modCard_tiles (s : State) (f : Card → Card) : (s.modCard f).tiles = s.tiles := rfl
@[simp] theorem State.modCard_tileCe (s : State) (f : Card → Card) : (s.modCard f).tileCe = s.tileCe := rfl
@[simp] theorem State.modCard_tileUe (s : State) (f : Card → Card) : (s.modCard f).tileUe = s.tileUe := rfl
@[simp] theorem State.modCard_parts (s : State) (f : Card → Card) : (s.modCard f).parts = s.parts := rfl
@[simp] theorem State.modCard_ctxs (s : State) (f : Card → Card) : (s.modCard f).ctxs = s.ctxs := rfl
@[simp] theorem State.modCard_stks (s : State) (f : Card → Card) : (s.modCard f).stks = s.stks := rfl
@[simp] theorem State.modCard_hbm (s : State) (f : Card → Card) : (s.modCard f).hbm = s.hbm := rfl
@[simp] theorem State.modCard_lineErr (s : State) (f : Card → Card) : (s.modCard f).lineErr = s.lineErr := rfl
@[simp] theorem State.modCard_frames (s : State) (f : Card → Card) : (s.modCard f).frames = s.frames := rfl
@[simp] theorem State.modCard_fcResult (s : State) (f : Card → Card) : (s.modCard f).fcResult = s.fcResult := rfl
@[simp] theorem State.modCard_fcState (s : State) (f : Card → Card) : (s.modCard f).fcState = s.fcState := rfl
@[simp] theorem State.modCard_fcScrub (s : State) (f : Card → Card) : (s.modCard f).fcScrub = s.fcScrub := rfl
@[simp] theorem State.modCard_fcOwner (s : State) (f : Card → Card) : (s.modCard f).fcOwner = s.fcOwner := rfl
@[simp] theorem State.modCard_btiCtx (s : State) (f : Card → Card) : (s.modCard f).btiCtx = s.btiCtx := rfl
@[simp] theorem State.modCard_btiPage (s : State) (f : Card → Card) : (s.modCard f).btiPage = s.btiPage := rfl
@[simp] theorem State.modCard_btiAll (s : State) (f : Card → Card) : (s.modCard f).btiAll = s.btiAll := rfl
@[simp] theorem State.modCard_btiGo (s : State) (f : Card → Card) : (s.modCard f).btiGo = s.btiGo := rfl
@[simp] theorem State.modCard_btiNow (s : State) (f : Card → Card) : (s.modCard f).btiNow = s.btiNow := rfl
@[simp] theorem State.modCard_passMark (s : State) (f : Card → Card) : (s.modCard f).passMark = s.passMark := rfl
@[simp] theorem State.modCard_tcache (s : State) (f : Card → Card) : (s.modCard f).tcache = s.tcache := rfl
@[simp] theorem State.modCard_wfCtx (s : State) (f : Card → Card) : (s.modCard f).wfCtx = s.wfCtx := rfl
@[simp] theorem State.modCard_wfCode (s : State) (f : Card → Card) : (s.modCard f).wfCode = s.wfCode := rfl
@[simp] theorem State.modCard_wfAddr (s : State) (f : Card → Card) : (s.modCard f).wfAddr = s.wfAddr := rfl
@[simp] theorem State.modCard_weir (s : State) (f : Card → Card) : (s.modCard f).weir = s.weir := rfl
@[simp] theorem State.modCard_atoms (s : State) (f : Card → Card) : (s.modCard f).atoms = s.atoms := rfl
@[simp] theorem State.modCard_spills (s : State) (f : Card → Card) : (s.modCard f).spills = s.spills := rfl
@[simp] theorem State.modCard_berthResult (s : State) (f : Card → Card) : (s.modCard f).berthResult = s.berthResult := rfl
@[simp] theorem State.modCard_berthQuery (s : State) (f : Card → Card) : (s.modCard f).berthQuery = s.berthQuery := rfl
@[simp] theorem State.modCard_defCrewMw (s : State) (f : Card → Card) : (s.modCard f).defCrewMw = s.defCrewMw := rfl
@[simp] theorem State.modCard_passUs (s : State) (f : Card → Card) : (s.modCard f).passUs = s.passUs := rfl
@[simp] theorem State.modCard_cntInfeasible (s : State) (f : Card → Card) : (s.modCard f).cntInfeasible = s.cntInfeasible := rfl
@[simp] theorem State.modCard_cntAdmitted (s : State) (f : Card → Card) : (s.modCard f).cntAdmitted = s.cntAdmitted := rfl
@[simp] theorem State.modCard_cntOverrun (s : State) (f : Card → Card) : (s.modCard f).cntOverrun = s.cntOverrun := rfl
@[simp] theorem State.modCard_fab (s : State) (f : Card → Card) : (s.modCard f).fab = s.fab := rfl
@[simp] theorem State.modCard_stroke (s : State) (f : Card → Card) : (s.modCard f).stroke = s.stroke := rfl
@[simp] theorem State.modCard_pwr (s : State) (f : Card → Card) : (s.modCard f).pwr = s.pwr := rfl
@[simp] theorem State.modCard_ump (s : State) (f : Card → Card) : (s.modCard f).ump = s.ump := rfl
@[simp] theorem State.modCard_rst (s : State) (f : Card → Card) : (s.modCard f).rst = s.rst := rfl
@[simp] theorem State.modCard_boot (s : State) (f : Card → Card) : (s.modCard f).boot = s.boot := rfl
@[simp] theorem State.modCard_host (s : State) (f : Card → Card) : (s.modCard f).host = s.host := rfl
@[simp] theorem State.modCard_rack (s : State) (f : Card → Card) : (s.modCard f).rack = s.rack := rfl
@[simp] theorem State.modCard_flash (s : State) (f : Card → Card) : (s.modCard f).flash = s.flash := rfl
@[simp] theorem State.modCard_evLogNext (s : State) (f : Card → Card) : (s.modCard f).evLogNext = s.evLogNext := rfl
@[simp] theorem State.modCard_hostMem (s : State) (f : Card → Card) : (s.modCard f).hostMem = s.hostMem := rfl
@[simp] theorem State.modCard_hostData (s : State) (f : Card → Card) : (s.modCard f).hostData = s.hostData := rfl
@[simp] theorem State.modCard_msix (s : State) (f : Card → Card) : (s.modCard f).msix = s.msix := rfl
@[simp] theorem State.modCard_sent (s : State) (f : Card → Card) : (s.modCard f).sent = s.sent := rfl
@[simp] theorem State.modCard_naks (s : State) (f : Card → Card) : (s.modCard f).naks = s.naks := rfl
@[simp] theorem State.modCard_markers (s : State) (f : Card → Card) : (s.modCard f).markers = s.markers := rfl
@[simp] theorem State.modCard_mgmt (s : State) (f : Card → Card) : (s.modCard f).mgmt = s.mgmt := rfl
@[simp] theorem State.modCard_cardOut (s : State) (f : Card → Card) : (s.modCard f).cardOut = s.cardOut := rfl
@[simp] theorem State.modCard_rackLimits (s : State) (f : Card → Card) : (s.modCard f).rackLimits = s.rackLimits := rfl
@[simp] theorem State.modCard_platform (s : State) (f : Card → Card) : (s.modCard f).platform = s.platform := rfl
@[simp] theorem State.modCard_snoops (s : State) (f : Card → Card) : (s.modCard f).snoops = s.snoops := rfl
@[simp] theorem State.modCard_card (s : State) (f : Card → Card) : (s.modCard f).card = f s.card := rfl
@[simp] theorem State.modCard_tile (s : State) (f : Card → Card) (j : Nat) : (s.modCard f).tile j = s.tile j := rfl
@[simp] theorem State.modCard_part (s : State) (f : Card → Card) (j : Nat) : (s.modCard f).part j = s.part j := rfl
@[simp] theorem State.modCard_ctx (s : State) (f : Card → Card) (j : Nat) : (s.modCard f).ctx j = s.ctx j := rfl
@[simp] theorem State.modCard_stk (s : State) (f : Card → Card) (j : Nat) : (s.modCard f).stk j = s.stk j := rfl
@[simp] theorem State.modCard_frame (s : State) (f : Card → Card) (j : Nat) : (s.modCard f).frame j = s.frame j := rfl
@[simp] theorem State.modCard_port (s : State) (f : Card → Card) (j : Nat) : (s.modCard f).port j = s.port j := rfl
@[simp] theorem State.modCard_utile (s : State) (f : Card → Card) (j : Nat) : (s.modCard f).utile j = s.utile j := rfl
@[simp] theorem State.modCard_crew (s : State) (f : Card → Card) (j : Nat) : (s.modCard f).crew j = s.crew j := rfl
@[simp] theorem State.modCard_now (s : State) (f : Card → Card) : (s.modCard f).now = s.now := rfl

/-- modTile is a setTile of the changed value. -/
@[simp] theorem State.modTile_eq (s : State) (t : Nat) (f : Tile → Tile) : s.modTile t f = s.setTile t (f (s.tile t)) := rfl
/-- modPart is a setPart of the changed value. -/
@[simp] theorem State.modPart_eq (s : State) (p : Nat) (f : Part → Part) : s.modPart p f = s.setPart p (f (s.part p)) := rfl
/-- modCtx is a setCtx of the changed value. -/
@[simp] theorem State.modCtx_eq (s : State) (c : Nat) (f : Ctx → Ctx) : s.modCtx c f = s.setCtx c (f (s.ctx c)) := rfl
/-- modStk is a setStk of the changed value. -/
@[simp] theorem State.modStk_eq (s : State) (k : Nat) (f : Stack → Stack) : s.modStk k f = s.setStk k (f (s.stk k)) := rfl
/-- modPort is a setPort of the changed value. -/
@[simp] theorem State.modPort_eq (s : State) (n : Nat) (f : Port → Port) : s.modPort n f = s.setPort n (f (s.port n)) := rfl
/-- modUtile is a setUtile of the changed value. -/
@[simp] theorem State.modUtile_eq (s : State) (t : Nat) (f : UmpTile → UmpTile) : s.modUtile t f = s.setUtile t (f (s.utile t)) := rfl
/-- modCrew is a setCrew of the changed value. -/
@[simp] theorem State.modCrew_eq (s : State) (g : Nat) (f : Crew → Crew) : s.modCrew g f = s.setCrew g (f (s.crew g)) := rfl

end Sys2Proof.Machine
end

