-- ==== Sys2Proof/Laws/Issue.lean ====
section
/-!
SUPPORT. What issuing an instruction can do, said once (03 R113, R115, R122): the shared part of every tile
instruction, for the statements about each.
-/

namespace Sys2Proof.Machine

theorem foldl_max_ge (l : List Nat) (n : Nat) : n ≤ l.foldl max n := by
  induction l generalizing n with
  | nil => simp
  | cons a r ih => exact Nat.le_trans (Nat.le_max_left n a) (ih (max n a))

/-- An instruction issues no earlier than the tile's cycle count. -/
theorem issueAt_ge (x : Tile) (op : Op) (w : Word) : x.cycle ≤ issueAt x op w :=
  Nat.le_trans (Nat.le_max_left _ _) (foldl_max_ge _ _)

theorem checkWord_none (s : State) : checkWord .none s = (.good, s) := rfl

/-- A word without an error is fetched as it stands, and the state does not change. -/
theorem fetch_good {s : State} {t : Nat}
    (h : Tbl.look EccErr.none (s.tile t).pc.toNat (s.tile t).imemErr = .none) :
    fetch t s = (Tbl.look 0#32 (s.tile t).pc.toNat (s.tile t).imem, none, s) := by
  simp only [fetch, h, checkWord_none]

/-- Microcode without an error runs the instruction. -/
theorem runOp_clean {s : State} {t : Nat} {op : Op} {w : Word} (body : Body)
    (h : usesMicrocode op = true → mcodeErrs s t = []) : runOp t op w body s = perform t op w body s := by
  unfold runOp
  split
  · next hu => rw [h hu, mcodeCheck]
  · rfl

/-- An instruction that a tile issues runs its own part. -/
theorem issue_perform {s : State} {t : Nat} {op : Op} {w : Word} (body : Body) (h : Issues s t op w) :
    issue t op body s = perform t op w body s := by
  obtain ⟨h1, h2, h3, h4, h5, h6, h7, h8⟩ := h
  have hgo : (isB op || (s.tile t).preg (wG w)) = true := by rcases h5 with h | h <;> simp [h]
  have hpc : (decide ((s.tile t).pc = 0xFFF#12) && fallsThrough op) = false := by
    cases hf : fallsThrough op with
    | false => simp
    | true => simpa using h7 hf
  simp only [issue, h1, fetch_good h3, h2, h4, runOp_clean body h8]
  simp [hgo, h6]
  intro h9 h10
  simp [h9, h10] at hpc

/-- finish, in the terms of the statements. -/
theorem finish_only {s s1 : State} {t cost lat : Nat} {op : Op} {w : Word} {pc : BitVec 12} {dest : List Nat} {y : Tile}
    (h : OnlyTile s s1 t y) (hc : y.cycle = (s.tile t).cycle) :
    OnlyTile s (finish t (s.tile t).cycle (issueAt (s.tile t) op w) cost pc dest lat s1) t
      (retireAt (s.tile t) op w cost pc dest lat y) := by
  obtain ⟨h1, h2, h3⟩ := h
  have hge := issueAt_ge (s.tile t) op w
  have e : (s.tile t).cycle + (issueAt (s.tile t) op w - (s.tile t).cycle) = issueAt (s.tile t) op w := by omega
  refine ⟨?_, ?_, ?_⟩
  · unfold finish State.modTile State.setTile
    rw [h1]
  · simp only [finish, State.modTile_eq, State.setTile_tile_same, h2, hc, e, retireAt]
  · intro u hu
    simp only [finish, State.modTile_eq]
    rw [State.setTile_tile_other _ _ _ _ hu]
    exact h3 u hu

theorem onlyTile_set (s : State) (t : Nat) (y : Tile) : OnlyTile s (s.setTile t y) t y :=
  ⟨rfl, State.setTile_tile_same .., fun _ hu => State.setTile_tile_other _ _ _ _ hu⟩

/-- A command that changes registers alone completes as its statement says. -/
theorem completes_regOp {s : State} {t cost lat : Nat} {op : Op} {w : Word} {dest : Word → List Nat}
    {f : Word → Tile → Tile} (h : Issues s t op w) (hc : (f w (s.tile t)).cycle = (s.tile t).cycle) :
    OnlyTile s (issue t op (regOp cost lat dest f) s) t
      (retireAt (s.tile t) op w cost ((s.tile t).pc + 1) (dest w) lat (f w (s.tile t))) := by
  rw [issue_perform _ h]
  simp only [perform, regOp, State.modTile_eq]
  exact finish_only (onlyTile_set ..) hc

end Sys2Proof.Machine
end

