-- ==== Sys2Proof/Laws/Raise.lean ====
section
/-!
SUPPORT. Raising an event changes the host interface, its ring in host memory, the interrupts raised, the flash event
log and the messages sent, and nothing else (13 R528, R529, R535, 14 R562, 15 R593).
-/

namespace Sys2Proof.Machine

theorem evtRingWrite_changes (e : Event) (s : State) :
    ∃ h m x, evtRingWrite e s = { s with host := h, hostMem := m, msix := x } := by
  simp only [evtRingWrite]
  split
  · exact ⟨_, _, _, rfl⟩
  · split <;> exact ⟨_, _, _, rfl⟩

theorem pldmEvent_changes (e : Event) (s : State) :
    ∃ h l, pldmEvent e s = { s with host := h, platform := l } := by
  simp only [pldmEvent]
  split <;> exact ⟨_, _, rfl⟩

theorem flashEvent_changes (e : Event) (s : State) :
    ∃ f n, flashEvent e s = { s with flash := f, evLogNext := n } := by
  simp only [flashEvent]
  split <;> exact ⟨_, _, rfl⟩

theorem deliver_changes (e : Event) (s : State) : ∃ h m x f n l, deliver e s =
    { s with host := h, hostMem := m, msix := x, flash := f, evLogNext := n, platform := l } := by
  obtain ⟨h, m, x, e1⟩ := evtRingWrite_changes e s
  obtain ⟨h, l, e2⟩ := pldmEvent_changes e (evtRingWrite e s)
  obtain ⟨f, n, e3⟩ := flashEvent_changes e (pldmEvent e (evtRingWrite e s))
  exact ⟨h, m, x, f, n, l, by rw [deliver, e3, e2, e1]⟩

/-- Everything that raising an event can change. -/
theorem raise_changes (c u d : Nat) (s : State) : ∃ h m x f n l, raise c u d s =
    { s with host := h, hostMem := m, msix := x, flash := f, evLogNext := n, platform := l } := by
  simp only [raise]
  split
  · exact deliver_changes _ _
  · split <;> exact ⟨_, _, _, _, _, _, rfl⟩

@[simp] theorem raise_pending (c u d : Nat) (s : State) : (raise c u d s).pending = s.pending := by
  obtain ⟨_, _, _, _, _, _, e⟩ := raise_changes c u d s; rw [e]
@[simp] theorem raise_freeIx (c u d : Nat) (s : State) : (raise c u d s).freeIx = s.freeIx := by
  obtain ⟨_, _, _, _, _, _, e⟩ := raise_changes c u d s; rw [e]
@[simp] theorem raise_fuses (c u d : Nat) (s : State) : (raise c u d s).fuses = s.fuses := by
  obtain ⟨_, _, _, _, _, _, e⟩ := raise_changes c u d s; rw [e]
@[simp] theorem raise_tiles (c u d : Nat) (s : State) : (raise c u d s).tiles = s.tiles := by
  obtain ⟨_, _, _, _, _, _, e⟩ := raise_changes c u d s; rw [e]
@[simp] theorem raise_tileCe (c u d : Nat) (s : State) : (raise c u d s).tileCe = s.tileCe := by
  obtain ⟨_, _, _, _, _, _, e⟩ := raise_changes c u d s; rw [e]
@[simp] theorem raise_tileUe (c u d : Nat) (s : State) : (raise c u d s).tileUe = s.tileUe := by
  obtain ⟨_, _, _, _, _, _, e⟩ := raise_changes c u d s; rw [e]
@[simp] theorem raise_parts (c u d : Nat) (s : State) : (raise c u d s).parts = s.parts := by
  obtain ⟨_, _, _, _, _, _, e⟩ := raise_changes c u d s; rw [e]
@[simp] theorem raise_ctxs (c u d : Nat) (s : State) : (raise c u d s).ctxs = s.ctxs := by
  obtain ⟨_, _, _, _, _, _, e⟩ := raise_changes c u d s; rw [e]
@[simp] theorem raise_stks (c u d : Nat) (s : State) : (raise c u d s).stks = s.stks := by
  obtain ⟨_, _, _, _, _, _, e⟩ := raise_changes c u d s; rw [e]
@[simp] theorem raise_hbm (c u d : Nat) (s : State) : (raise c u d s).hbm = s.hbm := by
  obtain ⟨_, _, _, _, _, _, e⟩ := raise_changes c u d s; rw [e]
@[simp] theorem raise_lineErr (c u d : Nat) (s : State) : (raise c u d s).lineErr = s.lineErr := by
  obtain ⟨_, _, _, _, _, _, e⟩ := raise_changes c u d s; rw [e]
@[simp] theorem raise_frames (c u d : Nat) (s : State) : (raise c u d s).frames = s.frames := by
  obtain ⟨_, _, _, _, _, _, e⟩ := raise_changes c u d s; rw [e]
@[simp] theorem raise_fcResult (c u d : Nat) (s : State) : (raise c u d s).fcResult = s.fcResult := by
  obtain ⟨_, _, _, _, _, _, e⟩ := raise_changes c u d s; rw [e]
@[simp] theorem raise_fcState (c u d : Nat) (s : State) : (raise c u d s).fcState = s.fcState := by
  obtain ⟨_, _, _, _, _, _, e⟩ := raise_changes c u d s; rw [e]
@[simp] theorem raise_fcScrub (c u d : Nat) (s : State) : (raise c u d s).fcScrub = s.fcScrub := by
  obtain ⟨_, _, _, _, _, _, e⟩ := raise_changes c u d s; rw [e]
@[simp] theorem raise_fcOwner (c u d : Nat) (s : State) : (raise c u d s).fcOwner = s.fcOwner := by
  obtain ⟨_, _, _, _, _, _, e⟩ := raise_changes c u d s; rw [e]
@[simp] theorem raise_btiCtx (c u d : Nat) (s : State) : (raise c u d s).btiCtx = s.btiCtx := by
  obtain ⟨_, _, _, _, _, _, e⟩ := raise_changes c u d s; rw [e]
@[simp] theorem raise_btiPage (c u d : Nat) (s : State) : (raise c u d s).btiPage = s.btiPage := by
  obtain ⟨_, _, _, _, _, _, e⟩ := raise_changes c u d s; rw [e]
@[simp] theorem raise_btiAll (c u d : Nat) (s : State) : (raise c u d s).btiAll = s.btiAll := by
  obtain ⟨_, _, _, _, _, _, e⟩ := raise_changes c u d s; rw [e]
@[simp] theorem raise_btiGo (c u d : Nat) (s : State) : (raise c u d s).btiGo = s.btiGo := by
  obtain ⟨_, _, _, _, _, _, e⟩ := raise_changes c u d s; rw [e]
@[simp] theorem raise_btiNow (c u d : Nat) (s : State) : (raise c u d s).btiNow = s.btiNow := by
  obtain ⟨_, _, _, _, _, _, e⟩ := raise_changes c u d s; rw [e]
@[simp] theorem raise_passMark (c u d : Nat) (s : State) : (raise c u d s).passMark = s.passMark := by
  obtain ⟨_, _, _, _, _, _, e⟩ := raise_changes c u d s; rw [e]
@[simp] theorem raise_tcache (c u d : Nat) (s : State) : (raise c u d s).tcache = s.tcache := by
  obtain ⟨_, _, _, _, _, _, e⟩ := raise_changes c u d s; rw [e]
@[simp] theorem raise_wfCtx (c u d : Nat) (s : State) : (raise c u d s).wfCtx = s.wfCtx := by
  obtain ⟨_, _, _, _, _, _, e⟩ := raise_changes c u d s; rw [e]
@[simp] theorem raise_wfCode (c u d : Nat) (s : State) : (raise c u d s).wfCode = s.wfCode := by
  obtain ⟨_, _, _, _, _, _, e⟩ := raise_changes c u d s; rw [e]
@[simp] theorem raise_wfAddr (c u d : Nat) (s : State) : (raise c u d s).wfAddr = s.wfAddr := by
  obtain ⟨_, _, _, _, _, _, e⟩ := raise_changes c u d s; rw [e]
@[simp] theorem raise_weir (c u d : Nat) (s : State) : (raise c u d s).weir = s.weir := by
  obtain ⟨_, _, _, _, _, _, e⟩ := raise_changes c u d s; rw [e]
@[simp] theorem raise_atoms (c u d : Nat) (s : State) : (raise c u d s).atoms = s.atoms := by
  obtain ⟨_, _, _, _, _, _, e⟩ := raise_changes c u d s; rw [e]
@[simp] theorem raise_spills (c u d : Nat) (s : State) : (raise c u d s).spills = s.spills := by
  obtain ⟨_, _, _, _, _, _, e⟩ := raise_changes c u d s; rw [e]
@[simp] theorem raise_berthResult (c u d : Nat) (s : State) : (raise c u d s).berthResult = s.berthResult := by
  obtain ⟨_, _, _, _, _, _, e⟩ := raise_changes c u d s; rw [e]
@[simp] theorem raise_berthQuery (c u d : Nat) (s : State) : (raise c u d s).berthQuery = s.berthQuery := by
  obtain ⟨_, _, _, _, _, _, e⟩ := raise_changes c u d s; rw [e]
@[simp] theorem raise_defCrewMw (c u d : Nat) (s : State) : (raise c u d s).defCrewMw = s.defCrewMw := by
  obtain ⟨_, _, _, _, _, _, e⟩ := raise_changes c u d s; rw [e]
@[simp] theorem raise_passUs (c u d : Nat) (s : State) : (raise c u d s).passUs = s.passUs := by
  obtain ⟨_, _, _, _, _, _, e⟩ := raise_changes c u d s; rw [e]
@[simp] theorem raise_cntInfeasible (c u d : Nat) (s : State) : (raise c u d s).cntInfeasible = s.cntInfeasible := by
  obtain ⟨_, _, _, _, _, _, e⟩ := raise_changes c u d s; rw [e]
@[simp] theorem raise_cntAdmitted (c u d : Nat) (s : State) : (raise c u d s).cntAdmitted = s.cntAdmitted := by
  obtain ⟨_, _, _, _, _, _, e⟩ := raise_changes c u d s; rw [e]
@[simp] theorem raise_cntOverrun (c u d : Nat) (s : State) : (raise c u d s).cntOverrun = s.cntOverrun := by
  obtain ⟨_, _, _, _, _, _, e⟩ := raise_changes c u d s; rw [e]
@[simp] theorem raise_fab (c u d : Nat) (s : State) : (raise c u d s).fab = s.fab := by
  obtain ⟨_, _, _, _, _, _, e⟩ := raise_changes c u d s; rw [e]
@[simp] theorem raise_stroke (c u d : Nat) (s : State) : (raise c u d s).stroke = s.stroke := by
  obtain ⟨_, _, _, _, _, _, e⟩ := raise_changes c u d s; rw [e]
@[simp] theorem raise_pwr (c u d : Nat) (s : State) : (raise c u d s).pwr = s.pwr := by
  obtain ⟨_, _, _, _, _, _, e⟩ := raise_changes c u d s; rw [e]
@[simp] theorem raise_ump (c u d : Nat) (s : State) : (raise c u d s).ump = s.ump := by
  obtain ⟨_, _, _, _, _, _, e⟩ := raise_changes c u d s; rw [e]
@[simp] theorem raise_rst (c u d : Nat) (s : State) : (raise c u d s).rst = s.rst := by
  obtain ⟨_, _, _, _, _, _, e⟩ := raise_changes c u d s; rw [e]
@[simp] theorem raise_boot (c u d : Nat) (s : State) : (raise c u d s).boot = s.boot := by
  obtain ⟨_, _, _, _, _, _, e⟩ := raise_changes c u d s; rw [e]
@[simp] theorem raise_card (c u d : Nat) (s : State) : (raise c u d s).card = s.card := by
  obtain ⟨_, _, _, _, _, _, e⟩ := raise_changes c u d s; rw [e]
@[simp] theorem raise_rack (c u d : Nat) (s : State) : (raise c u d s).rack = s.rack := by
  obtain ⟨_, _, _, _, _, _, e⟩ := raise_changes c u d s; rw [e]
@[simp] theorem raise_hostData (c u d : Nat) (s : State) : (raise c u d s).hostData = s.hostData := by
  obtain ⟨_, _, _, _, _, _, e⟩ := raise_changes c u d s; rw [e]
@[simp] theorem raise_sent (c u d : Nat) (s : State) : (raise c u d s).sent = s.sent := by
  obtain ⟨_, _, _, _, _, _, e⟩ := raise_changes c u d s; rw [e]
@[simp] theorem raise_naks (c u d : Nat) (s : State) : (raise c u d s).naks = s.naks := by
  obtain ⟨_, _, _, _, _, _, e⟩ := raise_changes c u d s; rw [e]
@[simp] theorem raise_markers (c u d : Nat) (s : State) : (raise c u d s).markers = s.markers := by
  obtain ⟨_, _, _, _, _, _, e⟩ := raise_changes c u d s; rw [e]
@[simp] theorem raise_mgmt (c u d : Nat) (s : State) : (raise c u d s).mgmt = s.mgmt := by
  obtain ⟨_, _, _, _, _, _, e⟩ := raise_changes c u d s; rw [e]
@[simp] theorem raise_cardOut (c u d : Nat) (s : State) : (raise c u d s).cardOut = s.cardOut := by
  obtain ⟨_, _, _, _, _, _, e⟩ := raise_changes c u d s; rw [e]
@[simp] theorem raise_rackLimits (c u d : Nat) (s : State) : (raise c u d s).rackLimits = s.rackLimits := by
  obtain ⟨_, _, _, _, _, _, e⟩ := raise_changes c u d s; rw [e]
@[simp] theorem raise_snoops (c u d : Nat) (s : State) : (raise c u d s).snoops = s.snoops := by
  obtain ⟨_, _, _, _, _, _, e⟩ := raise_changes c u d s; rw [e]
@[simp] theorem raise_tile_at (c u d : Nat) (s : State) (t : Nat) : (raise c u d s).tile t = s.tile t := by
  simp [State.tile]
@[simp] theorem raise_part_at (c u d : Nat) (s : State) (p : Nat) : (raise c u d s).part p = s.part p := by
  simp [State.part]
@[simp] theorem raise_ctx_at (c u d : Nat) (s : State) (k : Nat) : (raise c u d s).ctx k = s.ctx k := by
  simp [State.ctx]
@[simp] theorem raise_stk_at (c u d : Nat) (s : State) (k : Nat) : (raise c u d s).stk k = s.stk k := by
  simp [State.stk]
@[simp] theorem raise_frame_at (c u d : Nat) (s : State) (f : Nat) : (raise c u d s).frame f = s.frame f := by
  simp [State.frame]
@[simp] theorem raise_port_at (c u d : Nat) (s : State) (n : Nat) : (raise c u d s).port n = s.port n := by
  simp [State.port]
@[simp] theorem raise_utile_at (c u d : Nat) (s : State) (t : Nat) : (raise c u d s).utile t = s.utile t := by
  simp [State.utile]
@[simp] theorem raise_crew_at (c u d : Nat) (s : State) (g : Nat) : (raise c u d s).crew g = s.crew g := by
  simp [State.crew]
@[simp] theorem raise_now (c u d : Nat) (s : State) : (raise c u d s).now = s.now := by simp [State.now]

end Sys2Proof.Machine
end

