-- ==== Sys2Proof/Laws/Tile.lean ====
section
/-!
SUPPORT. Laws of a tile's registers and data SRAM: reads after writes, what a clean read gives, and what the bodies
that change registers alone do.
-/

namespace Sys2Proof.Machine

/-! ### Registers -/

/-- 02 Table 2-1: s0 reads as zero and discards writes. -/
theorem Tile.sreg_setS (x : Tile) (n m : Nat) (v : Word) :
    (x.setS n v).sreg m = if m = n ∧ n ≠ 0 then v else x.sreg m := by
  unfold Tile.setS Tile.sreg
  by_cases hn : n = 0
  · simp [hn]
  · by_cases hm : m = 0
    · simp [hn, hm, Ne.symm hn]
    · simp [hn, hm, Tbl.look_put]

/-- 02 Table 2-1: p0 reads as true and discards writes. -/
theorem Tile.preg_setP (x : Tile) (n m : Nat) (v : Bool) :
    (x.setP n v).preg m = if m = n ∧ n ≠ 0 then v else x.preg m := by
  unfold Tile.setP Tile.preg
  by_cases hn : n = 0
  · simp [hn]
  · by_cases hm : m = 0
    · simp [hn, hm, Ne.symm hn]
    · simp [hn, hm, Tbl.look_put]

theorem Tile.vreg_setV (x : Tile) (n m : Nat) (v : VWord) :
    (x.setV n v).vreg m = if m = n then v else x.vreg m := by
  simp [Tile.setV, Tile.vreg, Tbl.look_put]

theorem Tile.aword_setA (x : Tile) (r k q j : Nat) (v : Word) :
    (x.setA r k v).aword q j = if 16 * q + j = 16 * r + k then v else x.aword q j := by
  simp [Tile.setA, Tile.aword, Tbl.look_put]

@[simp] theorem Tile.setS_cycle (x : Tile) (n : Nat) (v : Word) : (x.setS n v).cycle = x.cycle := by
  unfold Tile.setS; split <;> rfl
@[simp] theorem Tile.setP_cycle (x : Tile) (n : Nat) (v : Bool) : (x.setP n v).cycle = x.cycle := by
  unfold Tile.setP; split <;> rfl
@[simp] theorem Tile.setV_cycle (x : Tile) (n : Nat) (v : VWord) : (x.setV n v).cycle = x.cycle := rfl
@[simp] theorem Tile.flag_cycle (x : Tile) (f : Fl) : (x.flag f).cycle = x.cycle := rfl

/-- Writes to a[r] leave every other field. -/
theorem Tile.setAs_frame (x : Tile) (r k : Nat) (l : List Word) : x.setAs r k l = { x with a := (x.setAs r k l).a } := by
  induction l generalizing x k with
  | nil => rfl
  | cons v l ih => simp only [Tile.setAs]; rw [ih]; rfl

/-- What a[q] reads after a run of words is written to a[r] from word k. -/
theorem Tile.aword_setAs (x : Tile) (r k : Nat) (l : List Word) (q j : Nat) :
    (x.setAs r k l).aword q j =
      if 16 * r + k ≤ 16 * q + j ∧ 16 * q + j < 16 * r + k + l.length then l.getD (16 * q + j - (16 * r + k)) 0#32
      else x.aword q j := by
  induction l generalizing x k with
  | nil => simp only [Tile.setAs, List.length_nil]; rw [if_neg]; omega
  | cons v l ih =>
    simp only [Tile.setAs, ih, Tile.aword_setA, List.length_cons]
    by_cases h1 : 16 * q + j = 16 * r + k
    · rw [if_neg (by omega), if_pos h1, if_pos (by omega)]; simp [h1]
    · by_cases h2 : 16 * r + k ≤ 16 * q + j ∧ 16 * q + j < 16 * r + k + (l.length + 1)
      · rw [if_pos (by omega), if_pos h2]
        have : 16 * q + j - (16 * r + k) = (16 * q + j - (16 * r + (k + 1))) + 1 := by omega
        rw [this]; rfl
      · rw [if_neg (by omega), if_neg h1, if_neg h2]

/-! ### Instructions that change registers alone -/

/-- An instruction whose body is regOp completes with the function of its body. -/
theorem completes_of_regOp {c : TileIx → Instr} {op : Op} {cost lat : Nat} {dest : Word → List Nat}
    {f g : Word → Tile → Tile}
    (hx : ∀ t s, exec (c t) s = .next (issue t.val op (regOp cost lat dest g) s))
    (hg : ∀ w x, g w x = f w x) (hc : ∀ w x, (f w x).cycle = x.cycle) : Completes c op cost lat dest f := by
  intro s t w h
  have e : g = f := by funext w x; exact hg w x
  subst e
  exact ⟨_, hx t s, completes_regOp h (hc _ _)⟩

/-- The same for an instruction that first notes when its unit is free again (03 Table 3-14). -/
theorem completes_of_unit {c : TileIx → Instr} {op : Op} {cost lat : Nat} {dest : Word → List Nat}
    {u : Body → Body} {m : Nat → Tile → Tile} {f g : Word → Tile → Tile}
    (hx : ∀ t s, exec (c t) s = .next (issue t.val op (u (regOp cost lat dest g)) s))
    (hu : ∀ b t w atc s, u b t w atc s = b t w atc (s.modTile t (m atc)))
    (hg : ∀ w x, g w (m (issueAt x op w) x) = f w x) (hc : ∀ w x, (f w x).cycle = x.cycle) :
    Completes c op cost lat dest f := by
  intro s t w h
  refine ⟨_, hx t s, ?_⟩
  rw [issue_perform _ h]
  simp only [perform, hu, regOp, State.modTile_eq]
  refine finish_only ⟨rfl, ?_, ?_⟩ (hc _ _)
  · simp [hg]
  · intro v hv
    rw [State.setTile_tile_other _ _ _ _ hv, State.setTile_tile_other _ _ _ _ hv]

/-! ### Data SRAM -/

theorem sramWord_clean {s : State} {t i : Nat} (h : Tbl.look EccErr.none i (s.tile t).sramErr = .none) :
    sramWord t i s = (none, s) := by
  simp only [sramWord, h, checkWord_none]

theorem sramWords_clean {s : State} {t : Nat} (i n : Nat)
    (h : ∀ j, i ≤ j → j < i + n → Tbl.look EccErr.none j (s.tile t).sramErr = .none) :
    sramWords t i n s = (none, s) := by
  induction n generalizing i with
  | zero => rfl
  | succ n ih =>
    simp only [sramWords, sramWord_clean (h i (by omega) (by omega)), ih (i + 1) (fun j h1 h2 => h j (by omega) (by omega))]
    rfl

theorem sramCheck_clean {s : State} {t : Nat} (k a n : Nat)
    (h : 0 < n → ∀ j, a / 8 ≤ j → j ≤ (a + n - 1) / 8 → Tbl.look EccErr.none j (s.tile t).sramErr = .none) :
    sramCheck t k a n s = (none, s) := by
  induction k generalizing a n with
  | zero => rfl
  | succ k ih =>
    simp only [sramCheck]
    split
    · rfl
    · rename_i hn
      have hn : 0 < n := by omega
      have hm : Nat.min n (64 - a % 64) ≤ n := Nat.min_le_left _ _
      rw [sramWords_clean _ _ (fun j h1 h2 => h hn j (by omega) (by omega))]
      exact ih _ _ (fun hp j h1 h2 => h hn j (by omega) (by omega))

theorem overlayUnits_clean {s : State} {t a : Nat} (u n : Nat) (bs : List Byte)
    (h : ∀ v, u ≤ v → v < u + n → unitBusy (s.tile t) v = false) : overlayUnits t a u n bs s = (bs, s) := by
  induction n generalizing u with
  | zero => rfl
  | succ n ih =>
    have hu : unitReq (s.tile t) u = none := by
      simpa [unitBusy] using h u (by omega) (by omega)
    simp only [overlayUnits, overlayUnit, hu]
    exact ih (u + 1) (fun v h1 h2 => h v (by omega) (by omega))

/-- A clean read of data SRAM gives the bytes as they stand and changes nothing (02 R75, R78). -/
theorem sramRead_clean {s : State} {t a n : Nat} (hn : 0 < n) (h : SramClean (s.tile t) a n) :
    sramRead t a n s = (.ok (bytesAt 0 (s.tile t).sram a n), s) := by
  have : n ≠ 0 := by omega
  simp only [sramRead, this, if_false]
  rw [sramCheck_clean _ _ _ (fun _ => h.1)]
  dsimp only
  rw [overlayUnits_clean _ _ _ (fun v h1 h2 => h.2 v h1 (by omega))]

end Sys2Proof.Machine
end

