-- ==== Sys2Proof/WellFormed.lean ====
section
/-!
DEFINITION. Which commands are well formed: the operand shapes that the specification fixes. exec gives every
command a meaning, well formed or not.
-/

namespace Sys2Proof

/-- Diodes of a group: 8 per partition, 4 of the north and of the south edge (09 R377, R378). -/
def groupDiodes (g : Fin 10) : Nat := if g.val < 8 then 8 else 4

/-- A packet's data is as long as LEN says, and at most 256 bytes (07 Table 7-4); a READ gives the length that it
asks for and carries none. -/
def Packet.wf (p : Packet) : Bool :=
  decide (p.data.length ≤ 256) &&
    match p.ptype with
    | .write | .replyData | .boot => decide (p.len.toNat = p.data.length)
    | .read => p.data.isEmpty
    | .atomAdd | .replyAck | .replyFault | .easyAll => p.data.isEmpty

def Packet.wfOpt : Option Packet → Bool
  | none => true
  | some p => p.wf

/-- A command's operands have the shape that the specification gives them. -/
def Instr.wf : Instr → Bool
  | .add _ => true
  | .sub _ => true
  | .and _ => true
  | .or _ => true
  | .xor _ => true
  | .sll _ => true
  | .srl _ => true
  | .sra _ => true
  | .mul _ => true
  | .mulh _ => true
  | .mulhu _ => true
  | .min _ => true
  | .max _ => true
  | .minu _ => true
  | .maxu _ => true
  | .clz _ => true
  | .popc _ => true
  | .ceq _ => true
  | .cne _ => true
  | .clt _ => true
  | .cltu _ => true
  | .cge _ => true
  | .cgeu _ => true
  | .flt _ => true
  | .feq _ => true
  | .pand _ => true
  | .por _ => true
  | .pxor _ => true
  | .pandn _ => true
  | .addi _ => true
  | .andi _ => true
  | .ori _ => true
  | .xori _ => true
  | .shi _ => true
  | .lui _ => true
  | .llo _ => true
  | .lb _ => true
  | .lbu _ => true
  | .lh _ => true
  | .lhu _ => true
  | .lw _ => true
  | .vld8 _ => true
  | .vld _ => true
  | .sb _ => true
  | .sh _ => true
  | .sw _ => true
  | .vst8 _ => true
  | .vst _ => true
  | .br _ => true
  | .call _ => true
  | .jr _ => true
  | .loop _ => true
  | .vadd _ => true
  | .vsub _ => true
  | .vmul _ => true
  | .vfma _ => true
  | .vmin _ => true
  | .vmax _ => true
  | .vdiv _ => true
  | .vsqrt _ => true
  | .vexp2 _ => true
  | .vlog2 _ => true
  | .vabs _ => true
  | .vneg _ => true
  | .vsum _ => true
  | .vmaxh _ => true
  | .vsplat _ => true
  | .vget _ => true
  | .vset _ => true
  | .vcvtif _ => true
  | .vcvtfi _ => true
  | .vpk8 _ => true
  | .vunpk8 _ => true
  | .vpkbf _ => true
  | .aget _ => true
  | .aput _ => true
  | .vmov _ => true
  | .vunpkbf _ => true
  | .mma _ => true
  | .mmaz _ => true
  | .aclr _ => true
  | .mmaComplete _ => true
  | .swalk _ => true
  | .nzmap _ => true
  | .ecfg _ => true
  | .eadd _ => true
  | .eaddv _ => true
  | .espill _ => true
  | .emerge _ => true
  | .ecount _ => true
  | .stream _ => true
  | .swaitt _ => true
  | .crRead _ => true
  | .crWrite _ => true
  | .cbar _ => true
  | .lbar _ => true
  | .fence _ => true
  | .barrierComplete _ => true
  | .waits _ => true
  | .nop _ => true
  | .halt _ => true
  | .haltRetire _ => true
  | .sig _ => true
  | .wake _ => true
  | .rbinit _ => true
  | .rbnext _ => true
  | .trap _ => true
  | .streamReply _ _ => true
  | .streamTimeout _ _ => true
  | .syncTimeout _ => true
  | .writeAck _ _ => true
  | .spillLineSend _ => true
  | .spillLineWrite _ => true
  | .codeImageArrive _ => true
  | .tileExecBegin _ => true
  | .sqTail _ width _ => decide (width = 4 ∨ width = 8)
  | .cqHead _ width _ => decide (width = 4 ∨ width = 8)
  | .descriptorFetch _ => true
  | .hostDmaFault _ _ => true
  | .admissionCheck _ => true
  | .schedulerPass => true
  | .weirCmd _ => true
  | .waitw _ => true
  | .runCmd _ => true
  | .waitt _ => true
  | .writeCmd _ => true
  | .stampCmd _ => true
  | .endStream _ => true
  | .timeLimit _ => true
  | .pinExpired _ => true
  | .completionRecordWrite _ => true
  | .ctxEnable _ _ => true
  | .ctxDisable _ _ => true
  | .resumeCtx _ => true
  | .flushCtx _ => true
  | .abortCmd _ => true
  | .quiesceCheck _ stuck => decide (stuck.Nodup)
  | .ctxStopped _ => true
  | .addCrews _ _ _ => true
  | .removeCrews _ _ _ => true
  | .clearBerth _ => true
  | .assignOwned frame _ => decide (frame.toNat < 196608)
  | .assignSystem frame => decide (frame.toNat < 196608)
  | .releaseFrame frame => decide (frame.toNat < 196608)
  | .queryFrame frame => decide (frame.toNat < 196608)
  | .bttInval _ => true
  | .bttInvalDone => true
  | .frameSweepDone _ => true
  | .scrubFrameDone _ => true
  | .weirGather _ => true
  | .weirSegsum _ => true
  | .weirAtomadd _ => true
  | .weirFill _ => true
  | .weirDescComplete _ => true
  | .singleAtomadd _ => true
  | .memPresetChange _ => true
  | .fabStart _ => true
  | .fabPlaced => true
  | .detectSignal _ => true
  | .detectTimeout _ => true
  | .rateExchange _ _ => true
  | .eqDone _ _ => true
  | .lanesCheck _ _ => true
  | .ident _ _ => true
  | .linkRetrain _ _ => true
  | .portTrain _ => true
  | .portDown _ => true
  | .flitReceive _ _ _ pkt _ _ => decide (Packet.wfOpt pkt = true)
  | .nakReceive _ _ => true
  | .portReequalise _ => true
  | .portReeqDone _ => true
  | .packetRead _ => true
  | .packetWrite _ => true
  | .packetAtomadd _ => true
  | .replyData _ => true
  | .replyAck _ => true
  | .replyFault _ => true
  | .routePacket _ credits => decide (credits.length = 12)
  | .unroutable _ => true
  | .combinerHoldExpire _ => true
  | .pendingSlotReply _ => true
  | .pendingSlotTimeout _ => true
  | .easyallSend _ => true
  | .easyAll _ => true
  | .easyallTripleExpire => true
  | .strokeMarkerSend _ => true
  | .strokeMarkerReceive _ _ => true
  | .strokeHoldover => true
  | .strokeMasterChange => true
  | .pwrSample currents volts => decide (currents.length = 37 ∧ volts.length = 4)
  | .pwrPublish drops => decide (drops.length = 8)
  | .governorPass act _ => decide (act.length = 8)
  | .clockPointApply _ => true
  | .thermSample group raws => decide (raws.length = groupDiodes group)
  | .thermtrip _ => true
  | .sweepStart => true
  | .trialComplete _ runs => decide ((runs.map (·.tile)).Nodup) && runs.all (fun r => r.trap.all (fun c => decide (c < 256)))
  | .pairCheckCompare _ => true
  | .triageVerdict _ => true
  | .swap _ => true
  | .retiredMapWrite _ => true
  | .umpSweep _ => true
  | .umpQuarantine _ => true
  | .umpLogPop => true
  | .faultPop _ => true
  | .resetLogPop => true
  | .clkLoss _ => true
  | .edgeProtocol _ => true
  | .partitionReset _ => true
  | .partResetDone _ _ => true
  | .coxRestart => true
  | .coxHeartbeat _ => true
  | .coxHang => true
  | .coxRestarted _ _ => true
  | .deviceReset _ => true
  | .powerGood => true
  | .mcodeBroadcast bad bad2 => decide (bad.Nodup ∧ bad2.Nodup)
  | .hbmTrainDone _ => true
  | .bootReady => true
  | .fwActivate _ => true
  | .fwConfirm _ => true
  | .abortDownload => true
  | .fwBroadcast _ => true
  | .bootChunkSend => true
  | .bootPacket _ => true
  | .bootBcastIncomplete => true
  | .trialMinute _ => true
  | .perst => true
  | .hostDetach _ => true
  | .hostMemRead _ _ len => decide (0 < len ∧ len ≤ 4096)
  | .hostMemWrite _ _ data => decide (data ≠ [] ∧ data.length ≤ 4096)
  | .evtRingEnable _ => true
  | .regWrite _ _ width _ => decide (width = 1 ∨ width = 2 ∨ width = 4 ∨ width = 8)
  | .getShadow _ _ => true
  | .setPowerLimit _ => true
  | .tileQuarantine _ _ => true
  | .tileSweep _ _ => true
  | .shadowPublish _ => true
  | .reconcile => true
  | .pldmSensorRead _ => true
  | .pldmEffecterSet _ _ => true
  | .requestUpdate _ => true
  | .updateComponent _ => true
  | .firmwareData _ _ => true
  | .transferComplete => true
  | .verifyComplete => true
  | .applyComplete => true
  | .activateFirmware _ => true
  | .cancelUpdate => true
  | .getVersion => true
  | .getCapabilities => true
  | .negotiateAlgorithms _ => true
  | .getDigests => true
  | .getCertificate _ _ _ => true
  | .challenge _ nonce => decide (nonce.length = 32)
  | .getMeasurements _ nonce => decide (nonce.length = 32)
  | .setEndpointId _ _ => true
  | .dynamicAddressAssign _ => true
  | .rstdaa => true
  | .inputUv _ _ => true
  | .inputOv _ _ => true
  | .overpower _ _ => true
  | .seqFail _ _ => true
  | .aclkFail _ _ => true
  | .phaseOpen _ _ => true
  | .powerOn => true
  | .locate _ => true
  | .lampTest => true
  | .lampPoll => true
  | .lampMeasure _ _ _ => true
  | .trayEnable _ _ => true
  | .trayOff => true
  | .shelfLoss => true
  | .coolantMonitor _ _ => true
  | .rcRead _ _ width => decide (width = 1 ∨ width = 2 ∨ width = 4 ∨ width = 8)
  | .eddyDrainDone _ => true
  | .strokeTick => true
  | .hbmRefresh _ _ => true
  | .stackTemperatureReport _ _ => true
  | .inputRestored _ => true
  | .pcieLinkUp _ _ _ _ => true
  | .shelfRestored => true
  | .duty d _ => decide (d ≤ 1000)
  | .setEventReceiver _ => true

end Sys2Proof
end

