-- ==== Sys2Proof/Tests/Slice0.lean ====
section
/-!
SUPPORT. The model's own tests. For each obligation with hypotheses a theorem shows concrete states and operands that
meet them together, clause by clause, at the bounds of the clauses' ranges; then one ill-formed command for each check of
Instr.wf, and single steps whose results are worked out by hand from the specification.
-/

namespace Sys2Proof.Tests

open Sys2Proof Sys2Proof.Machine

set_option Elab.async false

/-! ### Builders of words and of small states -/


/-- A word of format S, M, E or Y: major opcode, rd, rs1, rs2 and the low eight bits; the guard is p0 (03 Table 3-2). -/
def wordS (major rd rs1 rs2 fn : Nat) : Word :=
  BitVec.ofNat 32 (major * 2 ^ 26 + rd * 2 ^ 18 + rs1 * 2 ^ 13 + rs2 * 2 ^ 8 + fn)
/-- A word of format I or B with 13 low bits. -/
def wordI (major hi rs1 imm : Nat) : Word := BitVec.ofNat 32 (major * 2 ^ 26 + hi * 2 ^ 18 + rs1 * 2 ^ 13 + imm)
/-- A word of format V. -/
def wordV (vd va vb fn sub : Nat) : Word :=
  BitVec.ofNat 32 (0x10 * 2 ^ 26 + vd * 2 ^ 19 + va * 2 ^ 15 + vb * 2 ^ 11 + fn * 2 ^ 5 + sub)
/-- A word of format X. -/
def wordX (ad rs1 rs2 rs3 fmt fn : Nat) : Word :=
  BitVec.ofNat 32 (0x11 * 2 ^ 26 + ad * 2 ^ 21 + rs1 * 2 ^ 16 + rs2 * 2 ^ 11 + rs3 * 2 ^ 6 + fmt * 2 ^ 3 + fn)
/-- A word of format W. -/
def wordW (ad rs1 v mode fmt fn : Nat) : Word :=
  BitVec.ofNat 32 (0x12 * 2 ^ 26 + ad * 2 ^ 21 + rs1 * 2 ^ 16 + v * 2 ^ 12 + mode * 2 ^ 9 + fmt * 2 ^ 6 + fn)

/-- Tile 0 runs a launch of context 0 and is about to issue word w. -/
def runTile (x : Tile) (w : Word) : State :=
  State.reset.setTile 0 { x with run := .running, imem := Tbl.put 0#32 x.pc.toNat w x.imem }

def t0 : TileIx := 0
def c0 : CtxIx := 0
/-- s1 = 0x1234_5678, s2 = 0xFFFF_FF00, s3 = 64, s4 = 0x1_7FF8, s5 = 1; p1; v1, v2; 16 bytes of SRAM at 64. -/
def tileA : Tile := {
  s := [(1, 0x12345678), (2, 0xFFFFFF00), (3, 64), (4, 0x17FF8), (5, 1), (6, 3)], p := [(1, true)]
  v := [(1, 0x3F800000_C0000000_40400000_3F800000), (2, 0x7F800000_00000001_BF800000_40000000)]
  sram := [(64, 0x81), (65, 2), (66, 0xF3), (67, 4), (71, 0x80), (79, 0x99)] }

/-- A device that is READY, with the BTT of context 0 in frame 0: page 0 maps to frame 3, page 1 to frame 4. -/
def base : State := { State.reset with
  frames := [(0, { st := .system, scrub := false }), (3, { st := .owned, scrub := false }), (4, { st := .owned, scrub := false })]
  hbm := [(0x4000, 1), (0x4001, 0x80), (0x8000, 0xF), (0x8002, 0x60), (0x8008, 0xF), (0x800A, 0x80)]
  ctxs := [(0, { st := .running, en := true, bttRoot := 0x4000, bttEn := true, spillPages := 1 })]
  boot := { State.reset.boot with stage := .ready, ready := true, cox := true, trained := true }
  host := { State.reset.host with attached := true, speed := 5, width := 16 } }

/-- An executing launch of one crew on tile 0. -/
def launchA : Exec := {
  launch := { id := 5, sqIndex := 0, tArrive := 0, desc := { ncrew := 1, codeWords := 2 }, admitted := true }
  tDispatch := 0, mapEpoch := 0, fwVersion := 0, enabled := 0, dur := 0, crews := [0], tiles := [(0, 0, 0)], shares := [], stream := []
  next := 0, prevDone := 0, began := true, weirWait := none, ranAt := none, image := [7#32, 9#32], slipped := false
  disturbed := false, pinEnd := none, pinFrom := 0, pinExpired := false, pinLost := false, oor := 0, energy := 0
  wakes := [], wakeOver := false, faults := [], cycles := 0, ending := none, pair := none }

/-- Tile 0 runs launchA and is about to issue word w. -/
def baseTile (x : Tile) (w : Word) : State :=
  let s := base.modCtx 0 (fun k => { k with exec := some launchA })
  s.setTile 0 { x with run := .running, job := .launch, launchId := 5, imem := Tbl.put 0#32 x.pc.toNat w x.imem }

/-! ### Hypotheses over all indices, decided on the entries that a sparse table lists -/

theorem look_all {α : Type} {P : Nat → α → Prop} {d : α} {t : Tbl α} (hd : ∀ k, P k d) (h : ∀ e ∈ t, P e.1 e.2) (k : Nat) :
    P k (Tbl.look d k t) := by
  induction t with
  | nil => exact hd k
  | cons e r ih =>
    obtain ⟨j, x⟩ := e
    simp only [Tbl.look]
    split
    · rename_i hj; subst hj; exact h (_, x) (.head _)
    · exact ih (fun e he => h e (.tail _ he))

theorem optAll_of {α : Type} {P : α → Prop} [DecidablePred P] {o : Option α} (h : o.all (fun a => decide (P a)) = true) :
    ∀ a, o = some a → P a := by
  intro a e
  subst e
  simpa using h

theorem clean_of {s : State} {a b : Nat} (h : ∀ e ∈ s.lineErr, ¬ (a < e.1 ∧ e.1 ≤ b)) :
    ∀ l, a < l → l ≤ b → Tbl.look LineErr.none l s.lineErr = .none :=
  fun l h1 h2 => look_all (P := fun l x => a < l → l ≤ b → x = LineErr.none) (fun _ _ _ => rfl)
    (fun e he p q => absurd ⟨p, q⟩ (h e he)) l h1 h2

theorem linesClean_of {s : State} {pa n : Nat} (h : ∀ e ∈ s.lineErr, ¬ (pa / 64 ≤ e.1 ∧ e.1 ≤ (pa + n - 1) / 64)) :
    LinesClean s pa n :=
  fun l h1 h2 => look_all (P := fun l x => pa / 64 ≤ l → l ≤ (pa + n - 1) / 64 → x = LineErr.none) (fun _ _ _ => rfl)
    (fun e he p q => absurd ⟨p, q⟩ (h e he)) l h1 h2

theorem partsIdle_of {s : State} (h : ∀ e ∈ s.parts, e.2.reset = none) : ∀ k, (s.part k).reset = none :=
  look_all (P := fun _ (x : Part) => x.reset = none) (fun _ => rfl) h

theorem advertsAway_of {s : State} {n : Nat} (h : ∀ e ∈ s.fab.ports, e.1 ≠ n → e.2.advert = none) :
    ∀ k, k ≠ n → (s.port k).advert = none :=
  look_all (P := fun k (x : Port) => k ≠ n → x.advert = none) (fun _ _ => rfl) h

theorem diodesWell_of {s : State} {g : Nat} (h : ∀ e ∈ s.pwr.diodes, e.1 / 8 = g → e.2.suspect = false ∧ e.2.bad < 49) :
    ∀ d, d / 8 = g → (diode s d).suspect = false ∧ (diode s d).bad < 49 :=
  look_all (P := fun d (x : Diode) => d / 8 = g → x.suspect = false ∧ x.bad < 49) (fun _ _ => by decide) h

theorem otherDiodesWell_of {s : State} {g m : Nat}
    (h : ∀ e ∈ s.pwr.diodes, e.1 / 8 = g → e.1 ≠ m → e.2.suspect = false ∧ e.2.bad < 49) :
    ∀ d, d / 8 = g → d ≠ m → (diode s d).suspect = false ∧ (diode s d).bad < 49 :=
  look_all (P := fun d (x : Diode) => d / 8 = g → d ≠ m → x.suspect = false ∧ x.bad < 49) (fun _ _ _ => by decide) h

/-- The translation entry that the tables of a context give for an address, else one that permits nothing. -/
def entryOf (s : State) (c loc : Nat) : TEntry :=
  ((walkTable c (loc / frameBytes) s).1).getD { ctx := c, page := 0, frame := 0, r := false, w := false, rmt := false }

theorem mapped_of {s : State} {c loc f : Nat} {remote : Bool}
    (h : (loc < 2 ^ 42 ∧ (s.ctx c).bttEn = true ∧ (s.ctx c).bttRoot % 16384 = 0 ∧
      walkTable c (loc / frameBytes) s = (some (entryOf s c loc), s) ∧ (entryOf s c loc).frame = f ∧
      (entryOf s c loc).r = true ∧ (entryOf s c loc).w = true ∧ (remote = true → (entryOf s c loc).rmt = true)) ∧
      s.tcache = [] ∧ (s.frame f).st = .owned ∧ (s.frame f).owner = c ∧ (s.ctx c).sweep = none) :
    Mapped s c loc f remote := by
  obtain ⟨⟨h1, h2, h3, h4, h5, h6, h7, h8⟩, h9, h10⟩ := h
  exact ⟨entryOf s c loc, h1, h2, h3, h4, h5, h6, h7, h8, by simp [h9, Tbl.look], h10⟩

theorem weirReady_of {s : State} {i : Nat} {j : WeirJob} {f : Nat} {d : WDesc}
    (h : ((s.weir[i]? = some j ∧ j.code = none ∧ (s.ctx j.ctx).abort = none ∧ j.addr % frameBytes + 64 ≤ frameBytes ∧
      parseWeir (bytesAt 0 s.hbm (pageAddr f j.addr) 64) = d ∧ weirOk d = true) ∧ s.parts = [] ∧ s.lineErr = []) ∧
      (j.addr < 2 ^ 42 ∧ (s.ctx j.ctx).bttEn = true ∧ (s.ctx j.ctx).bttRoot % 16384 = 0 ∧
      walkTable j.ctx (j.addr / frameBytes) s = (some (entryOf s j.ctx j.addr), s) ∧ (entryOf s j.ctx j.addr).frame = f ∧
      (entryOf s j.ctx j.addr).r = true ∧ (entryOf s j.ctx j.addr).w = true ∧
      (false = true → (entryOf s j.ctx j.addr).rmt = true)) ∧
      s.tcache = [] ∧ (s.frame f).st = .owned ∧ (s.frame f).owner = j.ctx ∧ (s.ctx j.ctx).sweep = none) :
    WeirReady s i j f d := by
  obtain ⟨⟨⟨h1, h2, h3, h4, h5, h6⟩, h7, h8⟩, h9⟩ := h
  exact ⟨h1, h2, h3, partsIdle_of (by simp [h7]), h4, mapped_of h9, linesClean_of (by rw [h8]; exact fun _ h => nomatch h), h5, h6⟩

/-! ### The hypotheses of the obligations can be met -/

/-! ScalarResults -/
/-- Each operation and a word of it. -/
def scalarWords : List (Op × Word) :=
  ([(.add, wordS 1 7 1 2 0), (.sub, wordS 1 7 1 2 1), (.and, wordS 1 7 1 2 2), (.or, wordS 1 7 1 2 3), (.xor, wordS 1 7 1 2 4), (.sll, wordS 1 7 1 2 5)] : List (Op × Word)) ++
  ([(.srl, wordS 1 7 1 2 6), (.sra, wordS 1 7 1 2 7), (.mul, wordS 1 7 1 2 8), (.mulh, wordS 1 7 1 2 9), (.mulhu, wordS 1 7 1 2 10), (.min, wordS 1 7 1 2 11)] : List (Op × Word)) ++
  ([(.max, wordS 1 7 1 2 12), (.minu, wordS 1 7 1 2 13), (.maxu, wordS 1 7 1 2 14), (.clz, wordS 1 7 5 0 0xF), (.popc, wordS 1 7 1 0 0x10), (.ceq, wordS 1 7 1 2 32)] : List (Op × Word)) ++
  ([(.cne, wordS 1 7 1 2 33), (.clt, wordS 1 7 1 2 34), (.cltu, wordS 1 7 1 2 35), (.cge, wordS 1 7 1 2 36), (.cgeu, wordS 1 7 1 2 37), (.pand, wordS 1 7 1 2 48)] : List (Op × Word)) ++
  ([(.por, wordS 1 7 1 2 49), (.pxor, wordS 1 7 1 2 50), (.pandn, wordS 1 7 1 2 51), (.flt, wordS 1 7 1 2 38), (.feq, wordS 1 7 1 2 39)] : List (Op × Word))
theorem witness_ScalarResults : ∀ p ∈ scalarWords, Issues (runTile tileA p.2) t0.val p.1 p.2 := by decide +kernel
/-! ImmediateResults -/
/-- Each operation and a word of it. -/
def immediateWords : List (Op × Word) :=
  ([(.addi, wordI 2 7 1 0x1FFF), (.andi, wordI 3 7 1 0x1FFF), (.ori, wordI 4 7 1 0x1FFF), (.xori, wordI 5 7 1 0x1FFF), (.shi, wordI 6 7 2 0x44), (.lui, wordI 7 7 2 0x44)] : List (Op × Word)) ++
  ([(.llo, wordI 8 1 1 0x44)] : List (Op × Word))
theorem witness_ImmediateResults : ∀ p ∈ immediateWords, Issues (runTile tileA p.2) t0.val p.1 p.2 := by decide +kernel
/-! LoadResults -/
/-- Each access, its size and a word of it. -/
def loadWords : List (Op × Nat × Word) :=
  ([(.lb, 1, wordI 0xA 7 3 (0*1024)), (.lbu, 1, wordI 0xA 7 3 (1*1024)), (.lh, 2, wordI 0xA 7 3 (2*1024)), (.lhu, 2, wordI 0xA 7 3 (3*1024)), (.lw, 4, wordI 0xA 7 3 (4*1024)), (.vld8, 8, wordI 0xA 7 3 (5*1024))] : List (Op × Nat × Word)) ++
  ([(.vld, 16, wordI 0xA 7 3 (6*1024))] : List (Op × Nat × Word))
theorem witness_LoadResults : ∀ p ∈ loadWords,
    Issues (runTile tileA p.2.2) t0.val p.1 p.2.2 ∧
    SramReads ((runTile tileA p.2.2).tile t0.val) p.2.1 (effAddr ((runTile tileA p.2.2).tile t0.val) p.2.2 p.2.1) p.2.1 := by decide +kernel
/-! StoreResults -/
/-- Each access, its size and a word of it. -/
def storeWords : List (Op × Nat × Word) :=
  ([(.sb, 1, wordI 0xB 1 3 (0*1024)), (.sh, 2, wordI 0xB 1 3 (1*1024)), (.sw, 4, wordI 0xB 1 3 (2*1024)), (.vst8, 8, wordI 0xB 1 3 (3*1024)), (.vst, 16, wordI 0xB 1 3 (4*1024))] : List (Op × Nat × Word))
theorem witness_StoreResults : ∀ p ∈ storeWords,
    Issues (runTile tileA p.2.2) t0.val p.1 p.2.2 ∧
    (effAddr ((runTile tileA p.2.2).tile t0.val) p.2.2 p.2.1) % p.2.1 = 0 ∧ (effAddr ((runTile tileA p.2.2).tile t0.val) p.2.2 p.2.1) + p.2.1 ≤ 0x18000 ∧ (p.2.1 < 8 → SramClean ((runTile tileA p.2.2).tile t0.val) ((effAddr ((runTile tileA p.2.2).tile t0.val) p.2.2 p.2.1) / 8 * 8) 8) := by decide +kernel
/-! AddressAndBranchTraps -/
def w5_1 := (runTile tileA (wordI 0xA 7 4 (4*1024+2)))
def w5_2 := (wordI 0xA 7 4 (4*1024+2))
def w5_3 := (runTile tileA (wordI 0xA 7 6 (4*1024+2)))
def w5_4 := (wordI 0xA 7 6 (4*1024+2))
def w5_5 := (runTile tileA (wordI 0xC 0 0 0x1fff))
def w5_6 := (wordI 0xC 0 0 0x1fff)
def w5_7 := (runTile {tileA with pc := 0xFFF} (wordI 0xC 1 9 1))
def w5_8 := (wordI 0xC 1 9 1)
def w5_9 := (runTile {tileA with pc := 0xFFF} (wordI 0xC 3 5 0x1fff))
def w5_10 := (wordI 0xC 3 5 0x1fff)
def w5_11 := (runTile {tileA with pc := 0xFFF} (wordI 0xC 2 4 0))
def w5_12 := (wordI 0xC 2 4 0)
def w5_13 := (runTile {tileA with pc := 0xFFF} (wordI 0xC 16 0 0x1fff))
def w5_14 := (wordI 0xC 16 0 0x1fff)
def w5_15 := (runTile {tileA with pc := 0xFFF} (wordI 0xC 17 9 0))
def w5_16 := (wordI 0xC 17 9 0)
def w5_17 := (runTile {tileA with pc := 0xFFF} (wordI 0xC 18 3 0))
def w5_18 := (wordI 0xC 18 3 0)
theorem witness_AddressAndBranchTraps :
    (Issues w5_1 t0.val Op.lw w5_2 ∧
      effAddr (w5_1.tile t0.val) w5_2 4 % 4 = 0 ∧
      98304 < effAddr (w5_1.tile t0.val) w5_2 4 + 4) ∧
    (Issues w5_3 t0.val Op.lw w5_4 ∧
      effAddr (w5_3.tile t0.val) w5_4 4 % 4 ≠ 0) ∧
    (Issues w5_5 t0.val Op.br w5_6 ∧
      ((w5_5.tile t0.val).preg (wG w5_6) != BitVec.getLsbD w5_6 22) = true ∧
      (↑(w5_5.tile t0.val).pc.toNat + (BitVec.extractLsb' 0 13 w5_6).toInt < 0 ∨ 4095 < ↑(w5_5.tile t0.val).pc.toNat + (BitVec.extractLsb' 0 13 w5_6).toInt)) ∧
    (Issues w5_7 t0.val Op.call w5_8 ∧
      ((w5_7.tile t0.val).preg (wG w5_8) != BitVec.getLsbD w5_8 22) = true ∧
      (↑(w5_7.tile t0.val).pc.toNat + (BitVec.extractLsb' 0 13 w5_8).toInt < 0 ∨ 4095 < ↑(w5_7.tile t0.val).pc.toNat + (BitVec.extractLsb' 0 13 w5_8).toInt)) ∧
    (Issues w5_9 t0.val Op.loop w5_10 ∧
      (w5_9.tile t0.val).sreg (wRs1 w5_10) = 1#32 ∧
      (w5_9.tile t0.val).pc = 4095#12) ∧
    (Issues w5_11 t0.val Op.jr w5_12 ∧
      ((w5_11.tile t0.val).preg (wG w5_12) != BitVec.getLsbD w5_12 22) = true ∧
      4095 < BitVec.toNat ((w5_11.tile t0.val).sreg (wRs1 w5_12))) ∧
    (Issues w5_13 t0.val Op.br w5_14 ∧
      ((w5_13.tile t0.val).preg (wG w5_14) != BitVec.getLsbD w5_14 22) = false ∧
      (w5_13.tile t0.val).pc = 4095#12) ∧
    (Issues w5_15 t0.val Op.call w5_16 ∧
      ((w5_15.tile t0.val).preg (wG w5_16) != BitVec.getLsbD w5_16 22) = false ∧
      (w5_15.tile t0.val).pc = 4095#12) ∧
    (Issues w5_17 t0.val Op.jr w5_18 ∧
      ((w5_17.tile t0.val).preg (wG w5_18) != BitVec.getLsbD w5_18 22) = false ∧
      (w5_17.tile t0.val).pc = 4095#12) :=
  by and_intros <;> decide +kernel
/-! BranchResults -/
def tileB : Tile := { tileA with p := [(3, true)], pc := 5 }
def w6_1 := (runTile tileB (wordI 0xC 0 0 0x1fff))
def w6_2 := (wordI 0xC 0 0 0x1fff)
def w6_3 := (runTile tileB (wordI 0xC 16 0 0x1fff))
def w6_4 := (wordI 0xC 16 0 0x1fff)
def w6_5 := (runTile tileB (wordI 0xC 1 9 3))
def w6_6 := (wordI 0xC 1 9 3)
def w6_7 := (runTile tileB (wordI 0xC 17 9 3))
def w6_8 := (wordI 0xC 17 9 3)
def w6_9 := (runTile tileB (wordI 0xC 2 3 0))
def w6_10 := (wordI 0xC 2 3 0)
def w6_11 := (runTile tileB (wordI 0xC 18 3 0))
def w6_12 := (wordI 0xC 18 3 0)
def w6_13 := (runTile tileB (wordI 0xC 3 3 4))
def w6_14 := (wordI 0xC 3 3 4)
def w6_15 := (runTile tileB (wordI 0xC 3 5 4))
def w6_16 := (wordI 0xC 3 5 4)
theorem witness_BranchResults :
    (Issues w6_1 t0.val Op.br w6_2 ∧
      ((w6_1.tile t0.val).preg (wG w6_2) != BitVec.getLsbD w6_2 22) = true ∧
      0 ≤ ↑(w6_1.tile t0.val).pc.toNat + (BitVec.extractLsb' 0 13 w6_2).toInt ∧
      ↑(w6_1.tile t0.val).pc.toNat + (BitVec.extractLsb' 0 13 w6_2).toInt ≤ 4095) ∧
    (Issues w6_3 t0.val Op.br w6_4 ∧
      ((w6_3.tile t0.val).preg (wG w6_4) != BitVec.getLsbD w6_4 22) = false ∧
      (w6_3.tile t0.val).pc ≠ 4095#12) ∧
    (Issues w6_5 t0.val Op.call w6_6 ∧
      ((w6_5.tile t0.val).preg (wG w6_6) != BitVec.getLsbD w6_6 22) = true ∧
      0 ≤ ↑(w6_5.tile t0.val).pc.toNat + (BitVec.extractLsb' 0 13 w6_6).toInt ∧
      ↑(w6_5.tile t0.val).pc.toNat + (BitVec.extractLsb' 0 13 w6_6).toInt ≤ 4095) ∧
    (Issues w6_7 t0.val Op.call w6_8 ∧
      ((w6_7.tile t0.val).preg (wG w6_8) != BitVec.getLsbD w6_8 22) = false ∧
      (w6_7.tile t0.val).pc ≠ 4095#12) ∧
    (Issues w6_9 t0.val Op.jr w6_10 ∧
      ((w6_9.tile t0.val).preg (wG w6_10) != BitVec.getLsbD w6_10 22) = true ∧
      0 ≤ ↑(BitVec.toNat ((w6_9.tile t0.val).sreg (wRs1 w6_10))) ∧
      ↑(BitVec.toNat ((w6_9.tile t0.val).sreg (wRs1 w6_10))) ≤ 4095) ∧
    (Issues w6_11 t0.val Op.jr w6_12 ∧
      ((w6_11.tile t0.val).preg (wG w6_12) != BitVec.getLsbD w6_12 22) = false ∧
      (w6_11.tile t0.val).pc ≠ 4095#12) ∧
    (Issues w6_13 t0.val Op.loop w6_14 ∧
      ((w6_13.tile t0.val).sreg (wRs1 w6_14) != 1#32) = true ∧
      0 ≤ ↑(w6_13.tile t0.val).pc.toNat + (BitVec.extractLsb' 0 13 w6_14).toInt ∧
      ↑(w6_13.tile t0.val).pc.toNat + (BitVec.extractLsb' 0 13 w6_14).toInt ≤ 4095) ∧
    (Issues w6_15 t0.val Op.loop w6_16 ∧
      ((w6_15.tile t0.val).sreg (wRs1 w6_16) != 1#32) = false ∧
      (w6_15.tile t0.val).pc ≠ 4095#12) :=
  by and_intros <;> decide +kernel
/-! FetchAndGuardRules -/
def w7_1 := (runTile {tileA with p := [], pc := 5} (wordS 1 7 1 2 0 ||| 0x800000#32))
def w7_2 := (runTile {tileA with p := [], pc := 5} (wordS 1 7 1 2 0x40))
def tileC : Tile := { tileA with p := [], pc := 0xFFF }
def w7_3 := (runTile tileC (wordS 1 7 1 2 0 ||| 0x800000#32))
def w7_4 := (runTile tileC (wordS 1 7 1 2 0))
def w7_5 := (runTile {tileC with imemErr := [(0xFFF, .double 3)]} (wordS 1 7 1 2 0))
theorem witness_FetchAndGuardRules :
    (mayIssue w7_1 (w7_1.tile t0.val) = true ∧
      Tbl.look (0#32) (w7_1.tile t0.val).pc.toNat (w7_1.tile t0.val).imem = Tbl.look (0#32) (w7_1.tile t0.val).pc.toNat (w7_1.tile t0.val).imem ∧
      Tbl.look EccErr.none (w7_1.tile t0.val).pc.toNat (w7_1.tile t0.val).imemErr = EccErr.none ∧
      classify (Tbl.look (0#32) (w7_1.tile t0.val).pc.toNat (w7_1.tile t0.val).imem) = some Op.add ∧
      isB Op.add = false ∧
      (w7_1.tile t0.val).preg (wG (Tbl.look (0#32) (w7_1.tile t0.val).pc.toNat (w7_1.tile t0.val).imem)) = false ∧
      (w7_1.tile t0.val).pc ≠ 4095#12) ∧
    (mayIssue w7_2 (w7_2.tile t0.val) = true ∧
      Tbl.look (0#32) (w7_2.tile t0.val).pc.toNat (w7_2.tile t0.val).imem = Tbl.look (0#32) (w7_2.tile t0.val).pc.toNat (w7_2.tile t0.val).imem ∧
      Tbl.look EccErr.none (w7_2.tile t0.val).pc.toNat (w7_2.tile t0.val).imemErr = EccErr.none ∧
      classify (Tbl.look (0#32) (w7_2.tile t0.val).pc.toNat (w7_2.tile t0.val).imem) = none) ∧
    (mayIssue w7_3 (w7_3.tile t0.val) = true ∧
      Tbl.look (0#32) (w7_3.tile t0.val).pc.toNat (w7_3.tile t0.val).imem = Tbl.look (0#32) (w7_3.tile t0.val).pc.toNat (w7_3.tile t0.val).imem ∧
      Tbl.look EccErr.none (w7_3.tile t0.val).pc.toNat (w7_3.tile t0.val).imemErr = EccErr.none ∧
      classify (Tbl.look (0#32) (w7_3.tile t0.val).pc.toNat (w7_3.tile t0.val).imem) = some Op.add ∧
      (w7_3.tile t0.val).pc = 4095#12 ∧
      isB Op.add = false ∧
      ((w7_3.tile t0.val).preg (wG (Tbl.look (0#32) (w7_3.tile t0.val).pc.toNat (w7_3.tile t0.val).imem)) = false ∨ raisesCreg Op.add (Tbl.look (0#32) (w7_3.tile t0.val).pc.toNat (w7_3.tile t0.val).imem) = false ∧ fallsThrough Op.add = true)) ∧
    (mayIssue w7_4 (w7_4.tile t0.val) = true ∧
      Tbl.look (0#32) (w7_4.tile t0.val).pc.toNat (w7_4.tile t0.val).imem = Tbl.look (0#32) (w7_4.tile t0.val).pc.toNat (w7_4.tile t0.val).imem ∧
      Tbl.look EccErr.none (w7_4.tile t0.val).pc.toNat (w7_4.tile t0.val).imemErr = EccErr.none ∧
      classify (Tbl.look (0#32) (w7_4.tile t0.val).pc.toNat (w7_4.tile t0.val).imem) = some Op.add ∧
      (w7_4.tile t0.val).pc = 4095#12 ∧
      isB Op.add = false ∧
      ((w7_4.tile t0.val).preg (wG (Tbl.look (0#32) (w7_4.tile t0.val).pc.toNat (w7_4.tile t0.val).imem)) = false ∨ raisesCreg Op.add (Tbl.look (0#32) (w7_4.tile t0.val).pc.toNat (w7_4.tile t0.val).imem) = false ∧ fallsThrough Op.add = true)) ∧
    (mayIssue w7_5 (w7_5.tile t0.val) = true ∧
      Tbl.look EccErr.none (w7_5.tile t0.val).pc.toNat (w7_5.tile t0.val).imemErr = EccErr.double 3) :=
  ⟨by decide +kernel, by decide +kernel, by decide +kernel, by decide +kernel, by decide +kernel⟩
/-! VectorArithmeticResults -/
/-- Each operation and a word of it. -/
def laneWords : List (Op × Word) :=
  ([(.vadd, wordV 3 1 2 0 0), (.vsub, wordV 3 1 2 1 0), (.vmul, wordV 3 1 2 2 0), (.vfma, wordV 3 1 2 3 0), (.vmin, wordV 3 1 2 4 0), (.vmax, wordV 3 1 2 5 0)] : List (Op × Word)) ++
  ([(.vabs, wordV 3 1 0 10 0), (.vneg, wordV 3 1 0 11 0), (.vdiv, wordV 3 1 2 6 0), (.vsqrt, wordV 3 1 0 7 0), (.vexp2, wordV 3 1 0 8 0), (.vlog2, wordV 3 1 0 9 0)] : List (Op × Word))
theorem witness_VectorArithmeticResults : ∀ p ∈ laneWords, Issues (runTile tileB p.2) t0.val p.1 p.2 := by decide +kernel
/-! VectorMoveAndConversionResults -/
/-- Each operation and a word of it. -/
def moveWords : List (Op × Word) :=
  ([(.vsplat, wordV 3 0 0 0x10 9), (.vget, wordV 0 1 3 0x11 9), (.vset, wordV 1 0 3 0x12 2), (.vmov, wordV 3 1 0 0x1A 0), (.vcvtif, wordV 3 1 0 0x13 0), (.vcvtfi, wordV 3 1 0 0x14 0)] : List (Op × Word)) ++
  ([(.vunpk8, wordV 1 1 0 0x16 5), (.vunpkbf, wordV 1 1 0 0x1B 1), (.vsum, wordV 1 1 0 0xC 0), (.vmaxh, wordV 1 1 0 0xD 0), (.vpk8, wordV 1 1 2 0x15 1), (.vpkbf, wordV 1 1 2 0x17 0)] : List (Op × Word))
theorem witness_VectorMoveAndConversionResults : ∀ p ∈ moveWords, Issues (runTile tileB p.2) t0.val p.1 p.2 := by decide +kernel
/-! MatrixResults -/
def w10_1 := (runTile {tileA with a := [(37, 5)]} (wordV 1 0 0 0x18 9))
def w10_2 := (wordV 1 0 0 0x18 9)
def w10_3 := (runTile {tileA with a := [(37, 5)]} (wordV 0 2 0 0x19 9))
def w10_4 := (wordV 0 2 0 0x19 9)
def w10_5 := (runTile {tileA with a := [(37, 5)]} (wordX 2 0 0 0 0 2))
def w10_6 := (wordX 2 0 0 0 0 2)
def tileM : Tile := { tileA with s := [(1, 64), (2, 0x17F80), (3, 512)] }
def w10_7 := (runTile tileM (wordX 2 1 2 0 2 1))
def w10_8 := (wordX 2 1 2 0 2 1)
def w10_9 := (runTile tileM (wordX 2 1 2 3 7 0))
def w10_10 := (wordX 2 1 2 3 7 0)
def ad : Advert := { master := 3, hops := 2, ann := 9, fresh := none }
def mma1 : MmaJob := { ad := 1, fmt := 0, zero := true, last := 9, a := List.replicate 128 0x38#8, b := List.replicate 128 0x38#8, sc := [] }
def w10_11 := (runTile { tileM with mma := [mma1, mma1] } (wordX 2 1 2 3 7 0))
def w10_12 := (runTile tileM (wordW 0 1 5 0 3 1))
def w10_13 := (wordW 0 1 5 0 3 1)
theorem witness_MatrixResults :
    (Issues w10_1 t0.val Op.aget w10_2 ∧
      macPending (w10_1.tile t0.val) (BitVec.extractLsb' 2 2 w10_2).toNat = false) ∧
    (Issues w10_3 t0.val Op.aput w10_4 ∧
      macPending (w10_3.tile t0.val) (BitVec.extractLsb' 2 2 w10_4).toNat = false ∧
      0 < 4 ∧
      0 < 16) ∧
    (Issues w10_5 t0.val Op.aclr w10_6 ∧
      macPending (w10_5.tile t0.val) (wAd w10_6) = false ∧
      0 < 4 ∧
      0 < 16) ∧
    (Issues w10_7 t0.val Op.mmaz w10_8 ∧
      (w10_7.tile t0.val).mma.length < 2 ∧
      SramReads (w10_7.tile t0.val) 16 (BitVec.toNat ((w10_7.tile t0.val).sreg (wXrs1 w10_8))) 128 ∧
      SramReads (w10_7.tile t0.val) 16 (BitVec.toNat ((w10_7.tile t0.val).sreg (wXrs2 w10_8))) 128 ∧
      (6 ≤ wXfmt w10_8 → SramReads (w10_7.tile t0.val) 8 (BitVec.toNat ((w10_7.tile t0.val).sreg (wXrs3 w10_8))) 8)) ∧
    (Issues w10_9 t0.val Op.mma w10_10 ∧
      (w10_9.tile t0.val).mma.length < 2 ∧
      SramReads (w10_9.tile t0.val) 16 (BitVec.toNat ((w10_9.tile t0.val).sreg (wXrs1 w10_10))) 128 ∧
      SramReads (w10_9.tile t0.val) 16 (BitVec.toNat ((w10_9.tile t0.val).sreg (wXrs2 w10_10))) 128 ∧
      (6 ≤ wXfmt w10_10 → SramReads (w10_9.tile t0.val) 8 (BitVec.toNat ((w10_9.tile t0.val).sreg (wXrs3 w10_10))) 8)) ∧
    ((w10_11.tile t0.val).mma = [mma1, mma1] ∧
      (w10_11.tile t0.val).held = none ∧
      0 < 4 ∧
      0 < 16) ∧
    (Issues w10_12 t0.val Op.nzmap w10_13 ∧
      SramReads (w10_12.tile t0.val) 16 (BitVec.toNat ((w10_12.tile t0.val).sreg (wXrs1 w10_13))) (128 * (wFmt (wWfmt w10_13)).bytes)) :=
  by and_intros <;> decide +kernel
/-! WalkResults -/
def walkTile : Tile := { s := [(5, 0x200)], v := [(3, 0xFFFFFFFF)], sram := putBytes 0 (putBytes 0 [] 0x200 (leBytes 4 0x1000 ++ leBytes 4 0x8000 ++ leBytes 4 128 ++ leBytes 4 0xA000 ++ [0, 1, 0])) 0x1000 (leBytes 4 0 ++ leBytes 4 16) }
def wWalk : Word := wordW 2 5 3 0 0 0
def sWalk : State := runTile walkTile wWalk
def sWalkBad : State := runTile { walkTile with s := [(5, 0x201)] } wWalk
def ended {α : Type} (r : WalkRes α) : Bool := match r.1 with | .ok _ => true | .error _ => false
theorem walk_that_ends : Issues sWalk t0.val .swalk wWalk ∧ macPending (sWalk.tile t0.val) (wAd wWalk) = false ∧
    portBBusy (sWalk.tile t0.val) = false ∧ ended (walk t0.val wWalk sWalk) = true ∧ (walk t0.val wWalk sWalk).2 = sWalk := by
  decide +kernel
theorem walk_that_traps : Issues sWalkBad t0.val .swalk wWalk ∧ macPending (sWalkBad.tile t0.val) (wAd wWalk) = false ∧
    ended (walk t0.val wWalk sWalkBad) = false ∧ (walk t0.val wWalk sWalkBad).2.tile t0.val = sWalkBad.tile t0.val := by
  decide +kernel
theorem witness_WalkResults : (∃ d p cols xs, walk t0.val wWalk sWalk = (.ok (d, p, cols, xs), sWalk)) ∧
    ∃ tr s1, walk t0.val wWalk sWalkBad = (.error tr, s1) ∧ s1.tile t0.val = sWalkBad.tile t0.val := by
  constructor
  · have h := walk_that_ends.2.2.2
    revert h
    generalize walk t0.val wWalk sWalk = r
    obtain ⟨r, s1⟩ := r
    cases r with
    | ok x => intro h; exact ⟨x.1, x.2.1, x.2.2.1, x.2.2.2, by rw [← h.2]⟩
    | error tr => intro h; simp [ended] at h
  · have h := walk_that_traps.2.2
    revert h
    generalize walk t0.val wWalk sWalkBad = r
    obtain ⟨r, s1⟩ := r
    cases r with
    | ok x => intro h; simp [ended] at h
    | error tr => intro h; exact ⟨tr, s1, rfl, h.2⟩
/-! EddyResults -/
def tileE : Tile := { s := [(1, 5), (2, 0x3F800000), (3, 0xFFFFFFFF)], v := [(2, 0x00000005_00000004_00000003_00000002),
  (3, 0x3F800000_3F800000_3F800000_3F800000)] }
def wEadd : Word := wordS 0x13 0 1 2 1
def w12_1 := (baseTile tileE wEadd)
def w12_2 := (baseTile { tileE with eddy := [(4 * eddySet 5#32 + 1, some { key := 5, val := 0x40000000 })] } wEadd)
def tileFull : Tile := { tileE with eddy := (List.range 4).map fun i => (4 * eddySet 5#32 + i, some { key := BitVec.ofNat 32 (5 + 128 * (i + 1)), val := 0x40000000 }) }
def w12_3 := (baseTile tileFull wEadd)
def w12_4 := (baseTile { tileE with extent := 5 } wEadd)
def pkt : Packet := { ptype := .read, dest := 64, src := 5, handle := 0x10, rgen := 0, reason := 0, jobid := 0, loc := 0x200040, stroke := 0, len := 0x140, value := 0x3F800000, data := [] }
def fl (k : Nat) : Flit := { seq := BitVec.ofNat 12 k, pkt := none, esc := none }
def w12_5 := (baseTile tileE (wordS 0x13 0 0 0 (2*16+2)))
def w12_6 := (wordS 0x13 0 0 0 (2*16+2))
def w12_7 := (baseTile tileE (wordS 0x13 0 3 0 0))
def w12_8 := (wordS 0x13 0 3 0 0)
def w12_9 := (baseTile tileFull (wordS 0x13 4 0 0 5))
def w12_10 := (wordS 0x13 4 0 0 5)
def ent2 : EddyEnt := { key := 5, val := 0x40000000 }
def ent3 : EddyEnt := { key := 133, val := 0x40000000 }
theorem witness_EddyResults :
    (Issues w12_1 t0.val Op.eadd wEadd ∧
      (w12_1.tile t0.val).drain = none ∧
      (∀ i ∈ waysOf ((w12_1.tile t0.val).sreg (wRs1 wEadd)), Tbl.look EccErr.none i (w12_1.tile t0.val).eddyErr = EccErr.none) ∧
      (w12_1.tile t0.val).spillQ.length ≤ 2 ∧
      BitVec.toNat ((w12_1.tile t0.val).sreg (wRs1 wEadd)) < BitVec.toNat (w12_1.tile t0.val).extent ∧
      (List.find? (fun i => decide (Option.map (fun x => x.key) (eddyAt (w12_1.tile t0.val) i) = some ((w12_1.tile t0.val).sreg (wRs1 wEadd)))) (waysOf ((w12_1.tile t0.val).sreg (wRs1 wEadd))) = none) ∧
      (List.find? (fun i => decide (eddyAt (w12_1.tile t0.val) i = none)) (waysOf ((w12_1.tile t0.val).sreg (wRs1 wEadd))) = some (4 * eddySet 5#32))) ∧
    (Issues w12_2 t0.val Op.eadd wEadd ∧
      (w12_2.tile t0.val).drain = none ∧
      (∀ i ∈ waysOf ((w12_2.tile t0.val).sreg (wRs1 wEadd)), Tbl.look EccErr.none i (w12_2.tile t0.val).eddyErr = EccErr.none) ∧
      (w12_2.tile t0.val).spillQ.length ≤ 2 ∧
      BitVec.toNat ((w12_2.tile t0.val).sreg (wRs1 wEadd)) < BitVec.toNat (w12_2.tile t0.val).extent ∧
      (List.find? (fun i => decide (Option.map (fun x => x.key) (eddyAt (w12_2.tile t0.val) i) = some ((w12_2.tile t0.val).sreg (wRs1 wEadd)))) (waysOf ((w12_2.tile t0.val).sreg (wRs1 wEadd))) = some (4 * eddySet 5#32 + 1)) ∧
      eddyAt (w12_2.tile t0.val) (4 * eddySet 5#32 + 1) = some ent2) ∧
    (Issues w12_3 t0.val Op.eadd wEadd ∧
      (w12_3.tile t0.val).drain = none ∧
      (∀ i ∈ waysOf ((w12_3.tile t0.val).sreg (wRs1 wEadd)), Tbl.look EccErr.none i (w12_3.tile t0.val).eddyErr = EccErr.none) ∧
      (w12_3.tile t0.val).spillQ.length ≤ 2 ∧
      BitVec.toNat ((w12_3.tile t0.val).sreg (wRs1 wEadd)) < BitVec.toNat (w12_3.tile t0.val).extent ∧
      (List.find? (fun i => decide (Option.map (fun x => x.key) (eddyAt (w12_3.tile t0.val) i) = some ((w12_3.tile t0.val).sreg (wRs1 wEadd)))) (waysOf ((w12_3.tile t0.val).sreg (wRs1 wEadd))) = none) ∧
      (List.find? (fun i => decide (eddyAt (w12_3.tile t0.val) i = none)) (waysOf ((w12_3.tile t0.val).sreg (wRs1 wEadd))) = none) ∧
      (w12_3.tile t0.val).gather.length < 7 ∧
      eddyAt (w12_3.tile t0.val) (4 * eddySet ((w12_3.tile t0.val).sreg (wRs1 wEadd)) + Tbl.look 0 (eddySet ((w12_3.tile t0.val).sreg (wRs1 wEadd))) (w12_3.tile t0.val).victim) = some ent3) ∧
    (Issues w12_4 t0.val Op.eadd wEadd ∧
      (w12_4.tile t0.val).drain = none ∧
      (∀ i ∈ waysOf ((w12_4.tile t0.val).sreg (wRs1 wEadd)), Tbl.look EccErr.none i (w12_4.tile t0.val).eddyErr = EccErr.none) ∧
      (w12_4.tile t0.val).spillQ.length ≤ 2 ∧
      BitVec.toNat (w12_4.tile t0.val).extent ≤ BitVec.toNat ((w12_4.tile t0.val).sreg (wRs1 wEadd)) ∧
      (w12_4.tile t0.val).job = TJob.launch) ∧
    (Issues w12_5 t0.val Op.eaddv w12_6 ∧
      (w12_5.tile t0.val).drain = none ∧
      (w12_5.tile t0.val).eddyErr = [] ∧
      (eaddOne (w12_5.tile t0.val).pc (lane ((w12_5.tile t0.val).vreg (wEv w12_6)) 3) (lane ((w12_5.tile t0.val).vreg (wEv w12_6 + 1)) 3) (eaddOne (w12_5.tile t0.val).pc (lane ((w12_5.tile t0.val).vreg (wEv w12_6)) 2) (lane ((w12_5.tile t0.val).vreg (wEv w12_6 + 1)) 2) (eaddOne (w12_5.tile t0.val).pc (lane ((w12_5.tile t0.val).vreg (wEv w12_6)) 1) (lane ((w12_5.tile t0.val).vreg (wEv w12_6 + 1)) 1) (eaddOne (w12_5.tile t0.val).pc (lane ((w12_5.tile t0.val).vreg (wEv w12_6)) 0) (lane ((w12_5.tile t0.val).vreg (wEv w12_6 + 1)) 0) { x := w12_5.tile t0.val, oor := 0, spills := 0, fl := 0#6 })))).oor = 0 ∧
      (eaddOne (w12_5.tile t0.val).pc (lane ((w12_5.tile t0.val).vreg (wEv w12_6)) 3) (lane ((w12_5.tile t0.val).vreg (wEv w12_6 + 1)) 3) (eaddOne (w12_5.tile t0.val).pc (lane ((w12_5.tile t0.val).vreg (wEv w12_6)) 2) (lane ((w12_5.tile t0.val).vreg (wEv w12_6 + 1)) 2) (eaddOne (w12_5.tile t0.val).pc (lane ((w12_5.tile t0.val).vreg (wEv w12_6)) 1) (lane ((w12_5.tile t0.val).vreg (wEv w12_6 + 1)) 1) (eaddOne (w12_5.tile t0.val).pc (lane ((w12_5.tile t0.val).vreg (wEv w12_6)) 0) (lane ((w12_5.tile t0.val).vreg (wEv w12_6 + 1)) 0) { x := w12_5.tile t0.val, oor := 0, spills := 0, fl := 0#6 })))).x.spillQ = (w12_5.tile t0.val).spillQ ∧
      (w12_5.tile t0.val).spillQ.length ≤ 2) ∧
    (Issues w12_7 t0.val Op.ecfg w12_8 ∧
      (w12_7.tile t0.val).drain = none) ∧
    (Issues w12_9 t0.val Op.ecount w12_10 ∧
      (w12_9.tile t0.val).drain = none) :=
  by and_intros <;> decide +kernel
/-! EddyDrains -/
def w13_1 := (baseTile tileFull (wordS 0x13 0 0 0 3))
def w13_2 := (wordS 0x13 0 0 0 3)
def w13_3 := (baseTile tileFull (wordS 0x13 0 4 0 4))
def w13_4 := (wordS 0x13 0 4 0 4)
def w13_5 := (baseTile {tileFull with s := [(5, 0x01000000)]} (wordS 0x13 0 4 0 4))
def w13_6 := (wordS 0x13 0 4 0 4)
def w13_7 := (baseTile {tileFull with s := [(5, 0x00000400)]} (wordS 0x13 0 4 0 4))
def w13_8 := (wordS 0x13 0 4 0 4)
def drSpill : Drain := { emerge := none, pc := 3, start := 9 }
def ents : List (Nat × EddyEnt) := (List.range 4).map fun i => (4 * eddySet 5#32 + i, { key := BitVec.ofNat 32 (5 + 128 * (i + 1)), val := 0x40000000 })
def w13_9 := (baseTile {tileFull with drain := some drSpill, gather := [(1, 2)]} 0)
def drMerge : Drain := { emerge := some 64, pc := 3, start := 0 }
def w13_10 := (baseTile {tileFull with drain := some drMerge} 0)
def line1 : SpillLine := { recs := [(1,2),(3,4),(5,6),(7,8),(9,10),(11,12),(13,14),(15,16)], pc := 9 }
def w13_11 := (baseTile {tileFull with spillQ := [line1]} 0)
def w13_12 := ([] : List SpillLine)
def fly1 : SpillFly := { tile := 0, ctx := 0, launch := 5, line := line1, rgen := 0, acked := false }
def sSpill : State := { baseTile tileFull 0 with spills := [fly1] }
def sSpill1 : State := (writePage (viaTile 0 0) 0 (lineBytes line1) sSpill).2
def w13_13 := (sSpill.modCtx 0 fun k => { k with spillLines := 32768 })
theorem witness_EddyDrains :
    (Issues w13_1 t0.val Op.espill w13_2 ∧
      (w13_1.tile t0.val).drain = none ∧
      pairOf w13_1 (w13_1.tile t0.val) = none) ∧
    (Issues w13_3 t0.val Op.emerge w13_4 ∧
      (w13_3.tile t0.val).drain = none ∧
      pairOf w13_3 (w13_3.tile t0.val) = none ∧
      BitVec.extractLsb' 56 8 ((w13_3.tile t0.val).spair (wRs1 w13_4)) = 0#8 ∧
      (BitVec.extractLsb' 42 14 ((w13_3.tile t0.val).spair (wRs1 w13_4))).toNat < w13_3.fab.machine) ∧
    (Issues w13_5 t0.val Op.emerge w13_6 ∧
      (w13_5.tile t0.val).drain = none ∧
      pairOf w13_5 (w13_5.tile t0.val) = none ∧
      BitVec.extractLsb' 56 8 ((w13_5.tile t0.val).spair (wRs1 w13_6)) ≠ 0#8) ∧
    (Issues w13_7 t0.val Op.emerge w13_8 ∧
      (w13_7.tile t0.val).drain = none ∧
      pairOf w13_7 (w13_7.tile t0.val) = none ∧
      BitVec.extractLsb' 56 8 ((w13_7.tile t0.val).spair (wRs1 w13_8)) = 0#8 ∧
      w13_7.fab.machine ≤ (BitVec.extractLsb' 42 14 ((w13_7.tile t0.val).spair (wRs1 w13_8))).toNat) ∧
    (liveFor w13_9 t0.val (w13_9.tile t0.val).launchId = true ∧
      (w13_9.tile t0.val).held = none ∧
      (w13_9.tile t0.val).drain = some drSpill ∧
      (w13_9.tile t0.val).eddyErr = [] ∧
      ((w13_9.tile t0.val).eddy = List.map (fun e => (e.1, some e.2)) ents) ∧
      (List.Pairwise (fun a b => a.1 < b.1) ents) ∧
      ents.length ≤ 512 ∧
      (w13_9.tile t0.val).spillQ.length ≤ 2 ∧
      (w13_9.tile t0.val).gather.length ≤ 7 ∧
      drSpill.emerge = none) ∧
    (liveFor w13_10 t0.val (w13_10.tile t0.val).launchId = true ∧
      (w13_10.tile t0.val).held = none ∧
      (w13_10.tile t0.val).drain = some drMerge ∧
      (w13_10.tile t0.val).eddyErr = [] ∧
      ((w13_10.tile t0.val).eddy = List.map (fun e => (e.1, some e.2)) ents) ∧
      (List.Pairwise (fun a b => a.1 < b.1) ents) ∧
      ents.length ≤ 512 ∧
      (w13_10.tile t0.val).spillQ.length ≤ 2 ∧
      (w13_10.tile t0.val).gather.length ≤ 7 ∧
      drMerge.emerge = some 64#64 ∧
      (BitVec.extractLsb' 42 14 64#64).toNat = w13_10.fab.devNum.toNat) ∧
    (liveFor w13_11 t0.val (w13_11.tile t0.val).launchId = true ∧
      (w13_11.tile t0.val).held = none ∧
      (w13_11.tile t0.val).spillQ = line1 :: w13_12) ∧
    (sSpill.spills[0]? = some fly1 ∧
      fly1.acked = false ∧
      pageShut sSpill fly1.ctx ((sSpill.ctx fly1.ctx).spillBase + 64 * (sSpill.ctx fly1.ctx).spillLines) = false ∧
      64 * ((sSpill.ctx fly1.ctx).spillLines + 1) ≤ (sSpill.ctx fly1.ctx).spillPages * 2097152 ∧
      writePage (viaTile fly1.tile fly1.ctx) ((sSpill.ctx fly1.ctx).spillBase + 64 * (sSpill.ctx fly1.ctx).spillLines) (lineBytes fly1.line) sSpill = (Res.ok (), sSpill1)) ∧
    (w13_13.spills[0]? = some fly1 ∧
      fly1.acked = false ∧
      pageShut w13_13 fly1.ctx ((w13_13.ctx fly1.ctx).spillBase + 64 * (w13_13.ctx fly1.ctx).spillLines) = false ∧
      (w13_13.ctx fly1.ctx).spillPages * 2097152 < 64 * ((w13_13.ctx fly1.ctx).spillLines + 1) ∧
      liveFor w13_13 fly1.tile fly1.launch = true) :=
  by and_intros <;> decide +kernel
/-! StreamResults -/
def tileS : Tile := { s := [(2, 128), (4, 0x40), (6, 256)], sram := [(256, 5), (300, 7)] }
def wStr (i : Nat) : Word := wordS 0x18 6 4 2 i
def w14_1 := (baseTile tileS (wStr 3))
def w14_2 := (wStr 3)
def w14_3 := (baseTile tileS (wStr 19))
def w14_4 := (wStr 19)
def w14_5 := (baseTile {tileS with s := [(2, 128), (4, 0x40), (5, 0x01000000), (6, 256)]} (wStr 19))
def w14_6 := (wStr 19)
def w14_7 := (baseTile {tileS with s := [(2, 128), (4, 0x40), (5, 0x400), (6, 256)]} (wStr 19))
def w14_8 := (wStr 19)
def w14_9 := (baseTile {tileS with s := [(2, 128), (4, 0x40), (6, 257)]} (wStr 19))
def w14_10 := (wStr 19)
def w14_11 := (baseTile {tileS with s := [(2, 0), (4, 0x40), (6, 256)]} (wStr 19))
def w14_12 := (wStr 19)
def w14_13 := (baseTile {tileS with s := [(2, 128), (4, 0x40), (6, 0x17FC0)]} (wStr 19))
def w14_14 := (wStr 19)
def rq : StreamReq := { inbound := true, sram := 512, ga := 0x1FFFC0, len := 128, pc := 4, sentAt := 0, waiting := false, order := 0, wake := none, refHit := false, doneLen := 0, data := [], rgen := 0, discard := false }
def w14_15 := (baseTile {tileS with tags := [(3, some rq)]} (wStr 19))
def w14_16 := (wStr 19)
def w14_17 := (baseTile {tileS with tags := [(3, some rq)]} (wordS 0x19 2 0 0 0))
def w14_18 := (wordS 0x19 2 0 0 0)
def w14_19 := (baseTile {tileS with s := [(2, 8)], tags := [(3, some rq)]} (wordS 0x19 2 0 0 0))
def w14_20 := (wordS 0x19 2 0 0 0)
theorem witness_StreamResults :
    (Issues w14_1 t0.val Op.stream w14_2 ∧
      (BitVec.extractLsb' 56 8 ((w14_1.tile t0.val).spair (wRs1 w14_2)) = 0#8 ∧ (BitVec.extractLsb' 42 14 ((w14_1.tile t0.val).spair (wRs1 w14_2))).toNat < w14_1.fab.machine) ∧
      BitVec.toNat ((w14_1.tile t0.val).sreg (wRd w14_2)) % 64 = 0 ∧
      (64 ≤ BitVec.toNat ((w14_1.tile t0.val).sreg (wRs2 w14_2)) ∧ BitVec.toNat ((w14_1.tile t0.val).sreg (wRs2 w14_2)) ≤ 4096 ∧ BitVec.toNat ((w14_1.tile t0.val).sreg (wRs2 w14_2)) % 64 = 0) ∧
      ((w14_1.tile t0.val).spair (wRs1 w14_2)).toNat % 64 = 0 ∧
      BitVec.toNat ((w14_1.tile t0.val).sreg (wRd w14_2)) + BitVec.toNat ((w14_1.tile t0.val).sreg (wRs2 w14_2)) ≤ 98304 ∧
      tagOf (w14_1.tile t0.val) (BitVec.extractLsb' 0 4 w14_2).toNat = none ∧
      ((List.any (w14_1.tile t0.val).tags fun e => match e.2 with | some q => clash q { inbound := !BitVec.getLsbD w14_2 4, sram := BitVec.toNat ((w14_1.tile t0.val).sreg (wRd w14_2)), ga := (w14_1.tile t0.val).spair (wRs1 w14_2), len := BitVec.toNat ((w14_1.tile t0.val).sreg (wRs2 w14_2)), pc := 0, sentAt := 0, waiting := false, order := 0, wake := none, refHit := false, doneLen := 0, data := [], rgen := 0, discard := false } | none => false) = false) ∧
      (BitVec.extractLsb' 42 14 ((w14_1.tile t0.val).spair (wRs1 w14_2))).toNat = w14_1.fab.devNum.toNat ∧
      BitVec.getLsbD w14_2 4 = false) ∧
    (Issues w14_3 t0.val Op.stream w14_4 ∧
      (BitVec.extractLsb' 56 8 ((w14_3.tile t0.val).spair (wRs1 w14_4)) = 0#8 ∧ (BitVec.extractLsb' 42 14 ((w14_3.tile t0.val).spair (wRs1 w14_4))).toNat < w14_3.fab.machine) ∧
      BitVec.toNat ((w14_3.tile t0.val).sreg (wRd w14_4)) % 64 = 0 ∧
      (64 ≤ BitVec.toNat ((w14_3.tile t0.val).sreg (wRs2 w14_4)) ∧ BitVec.toNat ((w14_3.tile t0.val).sreg (wRs2 w14_4)) ≤ 4096 ∧ BitVec.toNat ((w14_3.tile t0.val).sreg (wRs2 w14_4)) % 64 = 0) ∧
      ((w14_3.tile t0.val).spair (wRs1 w14_4)).toNat % 64 = 0 ∧
      BitVec.toNat ((w14_3.tile t0.val).sreg (wRd w14_4)) + BitVec.toNat ((w14_3.tile t0.val).sreg (wRs2 w14_4)) ≤ 98304 ∧
      tagOf (w14_3.tile t0.val) (BitVec.extractLsb' 0 4 w14_4).toNat = none ∧
      ((List.any (w14_3.tile t0.val).tags fun e => match e.2 with | some q => clash q { inbound := !BitVec.getLsbD w14_4 4, sram := BitVec.toNat ((w14_3.tile t0.val).sreg (wRd w14_4)), ga := (w14_3.tile t0.val).spair (wRs1 w14_4), len := BitVec.toNat ((w14_3.tile t0.val).sreg (wRs2 w14_4)), pc := 0, sentAt := 0, waiting := false, order := 0, wake := none, refHit := false, doneLen := 0, data := [], rgen := 0, discard := false } | none => false) = false) ∧
      (BitVec.extractLsb' 42 14 ((w14_3.tile t0.val).spair (wRs1 w14_4))).toNat = w14_3.fab.devNum.toNat ∧
      BitVec.getLsbD w14_4 4 = true ∧
      SramClean (w14_3.tile t0.val) (BitVec.toNat ((w14_3.tile t0.val).sreg (wRd w14_4))) (BitVec.toNat ((w14_3.tile t0.val).sreg (wRs2 w14_4))) ∧
      (w14_3.tile t0.val).wake = none) ∧
    (Issues w14_5 t0.val Op.stream w14_6 ∧
      BitVec.extractLsb' 56 8 ((w14_5.tile t0.val).spair (wRs1 w14_6)) ≠ 0#8) ∧
    (Issues w14_7 t0.val Op.stream w14_8 ∧
      BitVec.extractLsb' 56 8 ((w14_7.tile t0.val).spair (wRs1 w14_8)) = 0#8 ∧
      w14_7.fab.machine ≤ (BitVec.extractLsb' 42 14 ((w14_7.tile t0.val).spair (wRs1 w14_8))).toNat) ∧
    (Issues w14_9 t0.val Op.stream w14_10 ∧
      (BitVec.extractLsb' 56 8 ((w14_9.tile t0.val).spair (wRs1 w14_10)) = 0#8 ∧ (BitVec.extractLsb' 42 14 ((w14_9.tile t0.val).spair (wRs1 w14_10))).toNat < w14_9.fab.machine) ∧
      BitVec.toNat ((w14_9.tile t0.val).sreg (wRd w14_10)) % 64 ≠ 0) ∧
    (Issues w14_11 t0.val Op.stream w14_12 ∧
      (BitVec.extractLsb' 56 8 ((w14_11.tile t0.val).spair (wRs1 w14_12)) = 0#8 ∧ (BitVec.extractLsb' 42 14 ((w14_11.tile t0.val).spair (wRs1 w14_12))).toNat < w14_11.fab.machine) ∧
      BitVec.toNat ((w14_11.tile t0.val).sreg (wRd w14_12)) % 64 = 0 ∧
      (¬(64 ≤ BitVec.toNat ((w14_11.tile t0.val).sreg (wRs2 w14_12)) ∧ BitVec.toNat ((w14_11.tile t0.val).sreg (wRs2 w14_12)) ≤ 4096 ∧ BitVec.toNat ((w14_11.tile t0.val).sreg (wRs2 w14_12)) % 64 = 0) ∨ ((w14_11.tile t0.val).spair (wRs1 w14_12)).toNat % 64 ≠ 0)) ∧
    (Issues w14_13 t0.val Op.stream w14_14 ∧
      (BitVec.extractLsb' 56 8 ((w14_13.tile t0.val).spair (wRs1 w14_14)) = 0#8 ∧ (BitVec.extractLsb' 42 14 ((w14_13.tile t0.val).spair (wRs1 w14_14))).toNat < w14_13.fab.machine) ∧
      BitVec.toNat ((w14_13.tile t0.val).sreg (wRd w14_14)) % 64 = 0 ∧
      (64 ≤ BitVec.toNat ((w14_13.tile t0.val).sreg (wRs2 w14_14)) ∧ BitVec.toNat ((w14_13.tile t0.val).sreg (wRs2 w14_14)) ≤ 4096 ∧ BitVec.toNat ((w14_13.tile t0.val).sreg (wRs2 w14_14)) % 64 = 0) ∧
      ((w14_13.tile t0.val).spair (wRs1 w14_14)).toNat % 64 = 0 ∧
      98304 < BitVec.toNat ((w14_13.tile t0.val).sreg (wRd w14_14)) + BitVec.toNat ((w14_13.tile t0.val).sreg (wRs2 w14_14))) ∧
    (Issues w14_15 t0.val Op.stream w14_16 ∧
      (BitVec.extractLsb' 56 8 ((w14_15.tile t0.val).spair (wRs1 w14_16)) = 0#8 ∧ (BitVec.extractLsb' 42 14 ((w14_15.tile t0.val).spair (wRs1 w14_16))).toNat < w14_15.fab.machine) ∧
      BitVec.toNat ((w14_15.tile t0.val).sreg (wRd w14_16)) % 64 = 0 ∧
      (64 ≤ BitVec.toNat ((w14_15.tile t0.val).sreg (wRs2 w14_16)) ∧ BitVec.toNat ((w14_15.tile t0.val).sreg (wRs2 w14_16)) ≤ 4096 ∧ BitVec.toNat ((w14_15.tile t0.val).sreg (wRs2 w14_16)) % 64 = 0) ∧
      ((w14_15.tile t0.val).spair (wRs1 w14_16)).toNat % 64 = 0 ∧
      BitVec.toNat ((w14_15.tile t0.val).sreg (wRd w14_16)) + BitVec.toNat ((w14_15.tile t0.val).sreg (wRs2 w14_16)) ≤ 98304 ∧
      tagOf (w14_15.tile t0.val) (BitVec.extractLsb' 0 4 w14_16).toNat ≠ none) ∧
    (Issues w14_17 t0.val Op.swaitt w14_18 ∧
      streamBusy (w14_17.tile t0.val) &&& BitVec.toNat ((w14_17.tile t0.val).sreg (wRd w14_18)) % 2 ^ 16 = 0) ∧
    (Issues w14_19 t0.val Op.swaitt w14_20 ∧
      streamBusy (w14_19.tile t0.val) &&& BitVec.toNat ((w14_19.tile t0.val).sreg (wRd w14_20)) % 2 ^ 16 ≠ 0) :=
  by and_intros <;> decide +kernel
/-! StreamReplies -/
def sR : State := baseTile {tileS with tags := [(3, some rq)]} 0
def tag3 : Fin 16 := 3
def sRb : List Byte := List.replicate 64 0#8
def rqo : StreamReq := { rq with inbound := false, data := List.replicate 128 7#8 }
def sO : State := baseTile {tileS with tags := [(3, some rqo)]} 0
def sO1 : State := (writeTransfers 0 0 rqo (transfersOf rqo) sO).2
def w15_1 := { baseTile {tileS with eddyOut := 2} 0 with spills := [{ fly1 with acked := true }] }
def w15_2 := { fly1 with acked := true }
def w15_3 := {sR with stroke := {sR.stroke with now := 2000000}}
theorem witness_StreamReplies :
    (tagOf (sR.tile t0.val) ↑tag3 = some rq ∧
      (sR.part (tilePart t0.val)).late = [] ∧
      (sR.tile t0.val).held = none ∧
      liveFor sR t0.val (sR.tile t0.val).launchId = true ∧
      rq.waiting = false ∧
      rq.inbound = true ∧
      (BitVec.extractLsb' 42 14 rq.ga).toNat = sR.fab.devNum.toNat ∧
      pageShut sR (sR.tile t0.val).ctx (reqLocal rq rq.doneLen) = false ∧
      readPage (viaTile t0.val (sR.tile t0.val).ctx) (reqLocal rq rq.doneLen) (transferAt rq rq.doneLen) sR = (Res.ok sRb, cachePut (viaTile 0 0).cache { ctx := (viaTile 0 0).ctx, page := reqLocal rq 0 / frameBytes, frame := bits (leNat (bytesAt 0 sR.hbm (bits (leNat (bytesAt 0 sR.hbm ((sR.ctx (viaTile 0 0).ctx).bttRoot + 8 * (reqLocal rq 0 / frameBytes / 1024)) 8)) 13 26 * 8192 + 8 * (reqLocal rq 0 / frameBytes % 1024)) 8)) 21 18, r := bit (leNat (bytesAt 0 sR.hbm (bits (leNat (bytesAt 0 sR.hbm ((sR.ctx (viaTile 0 0).ctx).bttRoot + 8 * (reqLocal rq 0 / frameBytes / 1024)) 8)) 13 26 * 8192 + 8 * (reqLocal rq 0 / frameBytes % 1024)) 8)) 1, w := bit (leNat (bytesAt 0 sR.hbm (bits (leNat (bytesAt 0 sR.hbm ((sR.ctx (viaTile 0 0).ctx).bttRoot + 8 * (reqLocal rq 0 / frameBytes / 1024)) 8)) 13 26 * 8192 + 8 * (reqLocal rq 0 / frameBytes % 1024)) 8)) 2, rmt := bit (leNat (bytesAt 0 sR.hbm (bits (leNat (bytesAt 0 sR.hbm ((sR.ctx (viaTile 0 0).ctx).bttRoot + 8 * (reqLocal rq 0 / frameBytes / 1024)) 8)) 13 26 * 8192 + 8 * (reqLocal rq 0 / frameBytes % 1024)) 8)) 3 } sR) ∧
      (cachePut (viaTile 0 0).cache { ctx := (viaTile 0 0).ctx, page := reqLocal rq 0 / frameBytes, frame := bits (leNat (bytesAt 0 sR.hbm (bits (leNat (bytesAt 0 sR.hbm ((sR.ctx (viaTile 0 0).ctx).bttRoot + 8 * (reqLocal rq 0 / frameBytes / 1024)) 8)) 13 26 * 8192 + 8 * (reqLocal rq 0 / frameBytes % 1024)) 8)) 21 18, r := bit (leNat (bytesAt 0 sR.hbm (bits (leNat (bytesAt 0 sR.hbm ((sR.ctx (viaTile 0 0).ctx).bttRoot + 8 * (reqLocal rq 0 / frameBytes / 1024)) 8)) 13 26 * 8192 + 8 * (reqLocal rq 0 / frameBytes % 1024)) 8)) 1, w := bit (leNat (bytesAt 0 sR.hbm (bits (leNat (bytesAt 0 sR.hbm ((sR.ctx (viaTile 0 0).ctx).bttRoot + 8 * (reqLocal rq 0 / frameBytes / 1024)) 8)) 13 26 * 8192 + 8 * (reqLocal rq 0 / frameBytes % 1024)) 8)) 2, rmt := bit (leNat (bytesAt 0 sR.hbm (bits (leNat (bytesAt 0 sR.hbm ((sR.ctx (viaTile 0 0).ctx).bttRoot + 8 * (reqLocal rq 0 / frameBytes / 1024)) 8)) 13 26 * 8192 + 8 * (reqLocal rq 0 / frameBytes % 1024)) 8)) 3 } sR).tile t0.val = sR.tile t0.val ∧
      (∀ e ∈ (sR.tile t0.val).tags, ∀ (q : StreamReq), e.2 = some q → q.waiting = false)) ∧
    (tagOf (sO.tile t0.val) ↑tag3 = some rqo ∧
      (sO.part (tilePart t0.val)).late = [] ∧
      (sO.tile t0.val).held = none ∧
      liveFor sO t0.val (sO.tile t0.val).launchId = true ∧
      rqo.waiting = false ∧
      rqo.inbound = false ∧
      rqo.discard = false ∧
      (BitVec.extractLsb' 42 14 rqo.ga).toNat = sO.fab.devNum.toNat ∧
      (∀ k ∈ transfersOf rqo, pageShut sO (sO.tile t0.val).ctx (reqLocal rqo k.1) = false) ∧
      writeTransfers t0.val (sO.tile t0.val).ctx rqo (transfersOf rqo) sO = (none, sO1) ∧
      sO1.tile t0.val = sO.tile t0.val ∧
      (∀ e ∈ (sO.tile t0.val).tags, ∀ (q : StreamReq), e.2 = some q → q.waiting = false)) ∧
    ((w15_1.tile t0.val).held = none ∧
      (List.findIdx? (fun f => f.acked && decide (f.tile = t0.val)) w15_1.spills = some 0) ∧
      w15_1.spills[0]? = some w15_2 ∧
      w15_2.rgen = (w15_1.part (tilePart t0.val)).rgen ∧
      w15_2.launch = (w15_1.tile t0.val).launchId) ∧
    (tagOf (sR.tile t0.val) ↑tag3 = some rq ∧
      sR.since rq.sentAt < 2000000) ∧
    (tagOf (w15_3.tile t0.val) ↑tag3 = some rq ∧
      rq.waiting = false ∧
      2000000 ≤ w15_3.since rq.sentAt) :=
  ⟨by decide +kernel, by decide +kernel, by decide +kernel, by decide +kernel, by decide +kernel⟩
/-! ControlRegisters -/
def tileR : Tile := { s := [(1, 0x12345678)], cycle := 5, sig := 0x123456789ABCDEF, fpstat := 0x3F, sigbase := 0x3FFFFFFFFFF, argp := 0x3FF00000001, tid := 3, crew := 2, ncrew := 4, tags := [(3, some rq)] }
def wCrR (i : Nat) : Word := wordS 0x1A 4 0 0 i
def w16_1 := (baseTile tileR (wCrR 20))
def w16_2 := (wCrR 20)
def w16_3 := (baseTile tileR (wCrR 18))
def w16_4 := (wCrR 18)
def wCrW (i : Nat) : Word := wordS 0x1A 0 1 0 (i + 128)
def w16_5 := (baseTile tileR (wCrW 12))
def w16_6 := (wCrW 12)
def w16_7 := (baseTile tileR (wCrW 18))
def w16_8 := (wCrW 18)
def w16_9 := (baseTile tileR (wCrW 19))
def w16_10 := (wCrW 19)
def w16_11 := (baseTile tileR (wCrR 21))
def w16_12 := (wCrR 21)
theorem witness_ControlRegisters :
    (Issues w16_1 t0.val Op.crRead w16_2 ∧
      (wImm8 w16_2 % 64 = 18 → (w16_1.tile t0.val).mma = [])) ∧
    (Issues w16_3 t0.val Op.crRead w16_4 ∧
      (wImm8 w16_4 % 64 = 18 → (w16_3.tile t0.val).mma = [])) ∧
    (Issues w16_5 t0.val Op.crWrite w16_6 ∧
      (wImm8 w16_6 % 64 = 18 → (w16_5.tile t0.val).mma = [])) ∧
    (Issues w16_7 t0.val Op.crWrite w16_8 ∧
      (wImm8 w16_8 % 64 = 18 → (w16_7.tile t0.val).mma = [])) ∧
    (mayIssue w16_9 (w16_9.tile t0.val) = true ∧
      Tbl.look (0#32) (w16_9.tile t0.val).pc.toNat (w16_9.tile t0.val).imem = w16_10 ∧
      Tbl.look EccErr.none (w16_9.tile t0.val).pc.toNat (w16_9.tile t0.val).imemErr = EccErr.none ∧
      classify w16_10 = some Op.crWrite ∧
      (w16_9.tile t0.val).preg (wG w16_10) = true ∧
      (if true = true then wImm8 w16_10 % 64 ∉ [12, 13, 14, 15, 18] else 20 < wImm8 w16_10 % 64)) ∧
    (mayIssue w16_11 (w16_11.tile t0.val) = true ∧
      Tbl.look (0#32) (w16_11.tile t0.val).pc.toNat (w16_11.tile t0.val).imem = w16_12 ∧
      Tbl.look EccErr.none (w16_11.tile t0.val).pc.toNat (w16_11.tile t0.val).imemErr = EccErr.none ∧
      classify w16_12 = some Op.crRead ∧
      (w16_11.tile t0.val).preg (wG w16_12) = true ∧
      (if false = true then wImm8 w16_12 % 64 ∉ [12, 13, 14, 15, 18] else 20 < wImm8 w16_12 % 64)) :=
  by and_intros <;> decide +kernel
/-! SynchronisationResults -/
def wS1B (i : Nat) : Word := wordS 0x1B 0 0 0 i
def w17_1 := (baseTile tileS (wS1B 2))
def w17_2 := (wS1B 2)
def w17_3 := (baseTile tileS (wS1B 252))
def w17_4 := (wS1B 252)
def w17_5 := (baseTile tileS (wS1B 13))
def w17_6 := (wS1B 13)
def bar1 : BarWait := { launch := true, id := 3, at_ := 0 }
def w17_7 := (baseTile {tileS with bar := some bar1, lbars := 1} 0)
def w17_8 := (((baseTile {tileS with bar := some bar1, lbars := 1} 0).setTile 3 {run := .running, job := .launch, launchId := 5, tid := 3}).modExec 0 fun e => {e with tiles := [(0,0,0),(0,3,3)]})
def wWaits : Word := wordS 0x1C 4 0 0 0
def w17_9 := (baseTile {tileS with s := []} wWaits)
def w17_10 := (baseTile {tileS with s := [(4, 1000000000)]} wWaits)
def w17_11 := (baseTile {tileS with s := [(4, 1000000001)]} wWaits)
def w17_12 := (baseTile {tileS with bar := some bar1, lbars := 1} 0)
def w17_13 := {baseTile {tileS with bar := some bar1, lbars := 1} 0 with stroke := {now := 10000000}}
theorem witness_SynchronisationResults :
    (Issues w17_1 t0.val Op.fence w17_2 ∧
      fenceClear (w17_1.tile t0.val) = true) ∧
    (Issues w17_3 t0.val Op.cbar w17_4 ∧
      fenceClear (w17_3.tile t0.val) = true) ∧
    (Issues w17_5 t0.val Op.lbar w17_6 ∧
      fenceClear (w17_5.tile t0.val) = true ∧
      pairOf w17_5 (w17_5.tile t0.val) = none) ∧
    ((w17_7.tile t0.val).bar = some bar1 ∧
      (w17_7.tile t0.val).run = TRun.running ∧
      (∀ e ∈ if bar1.launch = true then launchPeers w17_7 (w17_7.tile t0.val) else crewPeers w17_7 (w17_7.tile t0.val), arrivedAt bar1.launch (if bar1.launch = true then (w17_7.tile t0.val).lbars else (w17_7.tile t0.val).cbars) e.2 = true)) ∧
    ((w17_8.tile t0.val).bar = some bar1 ∧
      (w17_8.tile t0.val).run = TRun.running ∧
      (arrivedAt bar1.launch (if bar1.launch = true then (w17_8.tile t0.val).lbars else (w17_8.tile t0.val).cbars) { run := TRun.running, job := TJob.launch, tid := 3, launchId := 5 } = false)) ∧
    (Issues w17_9 t0.val Op.waits wWaits ∧
      ((w17_9.tile t0.val).spair (wRd wWaits)).toNat ≤ w17_9.now.toNat) ∧
    (Issues w17_10 t0.val Op.waits wWaits ∧
      w17_10.now.toNat < ((w17_10.tile t0.val).spair (wRd wWaits)).toNat ∧
      ((w17_10.tile t0.val).spair (wRd wWaits)).toNat ≤ w17_10.now.toNat + 1000000000) ∧
    (Issues w17_11 t0.val Op.waits wWaits ∧
      w17_11.now.toNat + 1000000000 < ((w17_11.tile t0.val).spair (wRd wWaits)).toNat) ∧
    ((w17_12.tile t0.val).bar = some bar1 ∧
      (w17_12.tile t0.val).run = TRun.running ∧
      w17_12.since bar1.at_ < 10000000) ∧
    ((w17_13.tile t0.val).bar = some bar1 ∧
      (w17_13.tile t0.val).run = TRun.running ∧
      10000000 ≤ w17_13.since bar1.at_) :=
  by and_intros <;> decide +kernel
/-! TileStartAndMiscellany -/
def sWait : State := (baseTile {argp := 99, tid := 4} 0).modTile 0 fun x => {x with run := .waitCode}
def sLd : State := sWait.modTile 0 fun x => {x with run := .loaded}
def launchC : Exec := { launchA with launch := { launchA.launch with desc := { launchA.launch.desc with flags := 2, catchCnt := 10 } } }
def w18_1 := (sLd.modExec 0 fun _ => launchC)
def wMisc (rd rs1 i : Nat) : Word := wordS 0x1E rd rs1 0 i
def w18_2 := (baseTile tileS (wMisc 0 0 0))
def w18_3 := (wMisc 0 0 0)
def w18_4 := (baseTile {tileS with v := [(3, 0x123456789)], sig := 3} (wMisc 3 6 32))
def w18_5 := (wMisc 3 6 32)
def w18_6 := (baseTile tileS (wMisc 4 6 64))
def w18_7 := (wMisc 4 6 64)
def w18_8 := (baseTile tileS (wMisc 0 0 48))
def w18_9 := (wMisc 0 0 48)
def w18_10 := (baseTile tileS (wMisc 4 0 49))
def w18_11 := (wMisc 4 0 49)
def w18_12 := (baseTile tileS (wordS 0x1F 0 0 0 7))
def w18_13 := (wordS 0x1F 0 0 0 7)
def w18_14 := (baseTile tileS (wMisc 0 0 16))
def w18_15 := (wMisc 0 0 16)
def w18_16 := ((baseTile tileS 0).modTile 0 fun x => {x with run := .halting})
def w18_17 := ((baseTile {tileS with eddyOut := 1} 0).modTile 0 fun x => {x with run := .halting})
def wRbn : Word := wMisc 4 0 80
def w18_18 := (baseTile {tileS with rbHead := 5, rbLen := 2} wRbn)
def w18_19 := (baseTile {tileS with rbHead := 5, rbLen := 0} wRbn)
def sTwo : State := ((baseTile tileS wRbn).setTile 3 { run := .running, job := .launch, launchId := 5, tid := 3, rbHead := 100, rbLen := 7 }).modExec 0 fun e => { e with tiles := [(0, 0, 0), (0, 3, 3)] }
def tile3 : Tile := { run := .running, job := .launch, launchId := 5, tid := 3, rbHead := 100, rbLen := 7 }
theorem witness_TileStartAndMiscellany :
    ((sWait.tile t0.val).run = TRun.waitCode ∧
      launchOf sWait (sWait.tile t0.val) = some launchA ∧
      1 ≠ 0) ∧
    ((sLd.tile t0.val).run = TRun.loaded ∧
      launchOf sLd (sLd.tile t0.val) = some launchA ∧
      (sLd.ctx (sLd.tile t0.val).ctx).abort = none ∧
      (launchA.launch.desc.isCatch = false ∨ launchA.slipped = true ∨ launchA.launch.desc.catchCnt ≤ sLd.now.toNat)) ∧
    ((w18_1.tile t0.val).run = TRun.loaded ∧
      launchOf w18_1 (w18_1.tile t0.val) = some launchC ∧
      (w18_1.ctx (w18_1.tile t0.val).ctx).abort = none ∧
      launchC.launch.desc.isCatch = true ∧
      launchC.slipped = false ∧
      w18_1.now.toNat < launchC.launch.desc.catchCnt) ∧
    (Issues w18_2 t0.val Op.nop w18_3) ∧
    (Issues w18_4 t0.val Op.sig w18_5) ∧
    (Issues w18_6 t0.val Op.rbinit w18_7) ∧
    (Issues w18_8 t0.val Op.wake w18_9 ∧
      BitVec.getLsbD w18_9 0 = false) ∧
    (Issues w18_10 t0.val Op.wake w18_11 ∧
      BitVec.getLsbD w18_11 0 = true ∧
      (w18_10.tile t0.val).job = TJob.launch ∧
      (w18_10.ctx (w18_10.tile t0.val).ctx).exec = some launchA) ∧
    (Issues w18_12 t0.val Op.trap w18_13) ∧
    (Issues w18_14 t0.val Op.halt w18_15 ∧
      haltClear (w18_14.tile t0.val) = true) ∧
    ((w18_16.tile t0.val).run = TRun.halting ∧
      haltClear (w18_16.tile t0.val) = true ∧
      (∀ e ∈ w18_16.tiles, e.2.job ≠ TJob.partner ∧ e.2.job ≠ TJob.triage)) ∧
    ((w18_17.tile t0.val).run = TRun.halting ∧
      haltClear (w18_17.tile t0.val) = false) ∧
    (Issues w18_18 t0.val Op.rbnext wRbn ∧
      (w18_18.tile t0.val).job = TJob.launch ∧
      pairOf w18_18 (w18_18.tile t0.val) = none ∧
      (∀ e ∈ w18_18.tiles, e.2.job ≠ TJob.partner ∧ e.2.job ≠ TJob.triage) ∧
      (w18_18.tile t0.val).rbLog = [] ∧
      peerTid (crewPeers w18_18 (w18_18.tile t0.val)) ((w18_18.tile t0.val).tid % 8) = some (t0.val, w18_18.tile t0.val) ∧
      (w18_18.tile t0.val).tid < 8 ∧
      (w18_18.tile t0.val).rbLen ≠ 0) ∧
    (Issues w18_19 t0.val Op.rbnext wRbn ∧
      (w18_19.tile t0.val).job = TJob.launch ∧
      pairOf w18_19 (w18_19.tile t0.val) = none ∧
      (∀ e ∈ w18_19.tiles, e.2.job ≠ TJob.partner ∧ e.2.job ≠ TJob.triage) ∧
      (w18_19.tile t0.val).rbLog = [] ∧
      (∀ j < 8, ∀ (e : Nat × Tile), peerTid (crewPeers w18_19 (w18_19.tile t0.val)) (((w18_19.tile t0.val).tid + j) % 8) = some e → e.2.rbLen = 0)) ∧
    (Issues sTwo t0.val Op.rbnext wRbn ∧
      (sTwo.tile t0.val).job = TJob.launch ∧
      pairOf sTwo (sTwo.tile t0.val) = none ∧
      (∀ e ∈ sTwo.tiles, e.2.job ≠ TJob.partner ∧ e.2.job ≠ TJob.triage) ∧
      (sTwo.tile t0.val).rbLog = [] ∧
      0 < 3 ∧
      3 < 8 ∧
      (∀ j < 3, ∀ (e : Nat × Tile), peerTid (crewPeers sTwo (sTwo.tile t0.val)) (((sTwo.tile t0.val).tid + j) % 8) = some e → e.2.rbLen = 0) ∧
      peerTid (crewPeers sTwo (sTwo.tile t0.val)) (((sTwo.tile t0.val).tid + 3) % 8) = some (3, tile3) ∧
      tile3.rbLen ≠ 0) :=
  by and_intros <;> decide +kernel
/-! DoorbellAndBerthResults -/
def bCr : State := { base with ump := { base.ump with crews := [(0, { tiles := List.range 8 }), (1, { tiles := [8,9,10,11,12,13,14,15], berth := some 0 }), (2, { tiles := [16,17], berth := some 3 })] } }
theorem witness_DoorbellAndBerthResults :
    (base.alive = true ∧
      base.rst.oos = false ∧
      (4 = 4 ∨ 4 = 8) ∧
      (BitVec.extractLsb' 0 12 0#64).toNat < 16 * 2 ^ (base.ctx c0.val).sqSize ∧
      (BitVec.extractLsb' 0 12 0#64).toNat < 16 * 2 ^ (base.ctx c0.val).cqSize ∧
      16 * 2 ^ (base.ctx c0.val).sqSize ≤ (BitVec.extractLsb' 0 12 18446744073709551615#64).toNat ∧
      16 * 2 ^ (base.ctx c0.val).cqSize ≤ (BitVec.extractLsb' 0 12 18446744073709551615#64).toNat) ∧
    (base.alive = true ∧
      base.rst.oos = false ∧
      2 ≠ 4 ∧
      2 ≠ 8) ∧
    (bCr.alive = true ∧
      bCr.rst.oos = false) ∧
    (bCr.alive = true ∧
      bCr.rst.oos = false) ∧
    (bCr.alive = true ∧
      bCr.rst.oos = false) :=
  ⟨by decide +kernel, by decide +kernel, by decide +kernel, by decide +kernel, by decide +kernel⟩
/-! ContextStates -/
def b0 (f : Ctx → Ctx) : State := base.modCtx 0 f
def v1 : BitVec 64 := 0x5_0020_0007#64
def w20_1 := (b0 fun k => { k with st := .disabled, en := false })
def w20_2 := ((b0 fun k => { k with st := .disabled, en := false }).modCtx 9 fun k => { k with jobid := 5 })
def v2 : BitVec 64 := 0x5_0020_0006#64
def bX (f : Exec → Exec) : State := (b0 fun k => { k with exec := some launchA }).modExec 0 f
def w20_3 := (bX id)
def w20_4 := (b0 fun k => { k with st := .stopped })
def w20_5 := (bX id)
def ab1 : Abort := { start := 0, quiesced := true, parts := [], stuck := [] }
def w20_6 := (b0 fun k => { k with st := .aborting, abort := some ab1 })
def ab0 : Abort := { ab1 with quiesced := false }
def w20_7 := (b0 fun k => { k with st := .aborting, abort := some ab0 })
theorem witness_ContextStates :
    (w20_1.alive = true ∧
      v1.getLsbD 0 = true ∧
      (w20_1.ctx c0.val).st = CState.disabled ∧
      ctxBusy (w20_1.ctx c0.val) = false ∧
      (¬(BitVec.extractLsb' 32 32 v1 ≠ 0#32 ∧ ∃ e ∈ w20_1.ctxs, e.1 ≠ c0.val ∧ e.2.jobid = BitVec.extractLsb' 32 32 v1))) ∧
    (w20_2.alive = true ∧
      v1.getLsbD 0 = true ∧
      (w20_2.ctx c0.val).st = CState.disabled ∧
      ctxBusy (w20_2.ctx c0.val) = false ∧
      (BitVec.extractLsb' 32 32 v1 ≠ 0#32 ∧ ∃ e ∈ w20_2.ctxs, e.1 ≠ c0.val ∧ e.2.jobid = BitVec.extractLsb' 32 32 v1)) ∧
    (base.alive = true ∧
      v2.getLsbD 0 = false ∧
      ctxBusy (base.ctx c0.val) = false ∧
      ((base.ctx c0.val).st = CState.running ∨ (base.ctx c0.val).st = CState.stopped)) ∧
    (w20_3.alive = true ∧
      v2.getLsbD 0 = false ∧
      ctxBusy (w20_3.ctx c0.val) = true) ∧
    (base.alive = true ∧
      (base.ctx c0.val).st ≠ CState.stopped) ∧
    (w20_4.alive = true ∧
      (w20_4.ctx c0.val).st = CState.stopped) ∧
    (w20_5.alive = true ∧
      (w20_5.ctx c0.val).st = CState.running ∧
      (w20_5.ctx c0.val).exec = some launchA ∧
      launchA.ending = none ∧
      (w20_5.ctx c0.val).abort = none) ∧
    ((w20_6.ctx c0.val).st = CState.aborting ∧
      (w20_6.ctx c0.val).abort = some ab1 ∧
      (ab1.quiesced = true ∧ ab1.parts = [] ∧ ab1.stuck = [] ∧ (w20_6.ctx c0.val).sweep = none ∧ (w20_6.ctx c0.val).exec = none) ∧
      (w20_6.ctx c0.val).en = true) ∧
    ((w20_7.ctx c0.val).st = CState.aborting ∧
      (w20_7.ctx c0.val).abort = some ab0 ∧
      (ab0.quiesced = false ∨ (w20_7.ctx c0.val).sweep ≠ none)) :=
  by and_intros <;> decide +kernel
/-! FlushAndQuiesceResults -/
def w21_1 := (b0 fun k => { k with st := .stopped, fetched := [launchA.launch], sqHead := 14, sqTail := 2 })
def end0 : Ending := { status := 0x10, csDetail := 0, at_ := 0 }
def launchE : Exec := { launchA with ending := some end0 }
def sEnd : State := b0 fun k => { k with st := .aborting, abort := some ab0, exec := some launchE }
def wj : WeirJob := { ctx := 0, launch := 5, cmdIx := 0, addr := 0, code := none, fadr := 0 }
def w21_2 := { sEnd with stroke := {now := 8000}, weir := [wj] }
theorem witness_FlushAndQuiesceResults :
    (w21_1.alive = true ∧
      (w21_1.ctx c0.val).st = CState.stopped ∧
      (w21_1.ctx c0.val).en = true ∧
      (w21_1.ctx c0.val).sqLoc = false ∧
      (w21_1.ctx c0.val).sqHead < 16 * 2 ^ (w21_1.ctx c0.val).sqSize ∧
      (w21_1.ctx c0.val).sqTail < 16 * 2 ^ (w21_1.ctx c0.val).sqSize) ∧
    ((sEnd.ctx c0.val).abort = some ab0 ∧
      (sEnd.ctx c0.val).exec = some launchE ∧
      launchE.ending = some end0 ∧
      ab0.quiesced = false ∧
      sEnd.since ab0.start < 8000) ∧
    ((w21_2.ctx c0.val).abort = some ab0 ∧
      (w21_2.ctx c0.val).exec = some launchE ∧
      launchE.ending = some end0 ∧
      ab0.quiesced = false ∧
      8000 ≤ w21_2.since ab0.start) :=
  ⟨by decide +kernel, by decide +kernel, by decide +kernel⟩
/-! FetchResults -/
def sFetch : State := { (b0 fun k => { k with sqTail := 1, sqBase := 0x1000 }) with hostMem := [(0x1000, 1), (0x1002,
  3), (0x103F, 9)] }
def w22_1 := (sFetch.modCtx 0 fun k => { k with exec := some launchA })
theorem witness_FetchResults :
    (mayFetch sFetch c0.val = true ∧
      (sFetch.ctx c0.val).sqLoc = false) ∧
    (mayFetch sFetch c0.val = true ∧
      (sFetch.ctx c0.val).sqLoc = false ∧
      (sFetch.ctx c0.val).exec = none) ∧
    (mayFetch w22_1 c0.val = true ∧
      (w22_1.ctx c0.val).sqLoc = false ∧
      (w22_1.ctx c0.val).exec ≠ none) :=
  ⟨by decide +kernel, by decide +kernel, by decide +kernel⟩
/-! AdmissionAndSchedulerResults -/
def lc (d : Desc) : Launch := { id := 7, sqIndex := 0, tArrive := 0, desc := d, admitted := false }
def sAdm (d : Desc) : State := bCr.modCtx 0 fun k => { k with fetched := [lc d] }
def dOk : Desc := { version := 1, ncrew := 1, codeWords := 2, entry := 0 }
def w23_1 := (sAdm dOk)
def w23_2 := (lc dOk)
def w23_3 := (sAdm { dOk with version := 2 })
def w23_4 := (lc { dOk with version := 2 })
def w23_5 := (sAdm { dOk with ncrew := 2 })
def w23_6 := (lc { dOk with ncrew := 2 })
def w23_7 := ((sAdm { dOk with flags := 2 }).modCtx 0 fun k => { k with jobid := 4 })
def w23_8 := (lc { dOk with flags := 2 })
def w23_9 := { ((sAdm { dOk with flags := 2 }).modCtx 0 fun k => { k with jobid := 4 }) with fab := { placed := true } }
def w23_10 := (lc { dOk with flags := 2 })
def w23_11 := (sAdm { dOk with deadline := 1, estFixed := 100 })
def w23_12 := (lc { dOk with deadline := 1, estFixed := 100 })
/-- The status that 06 Table 6-7 gives launch l of context 0, none where it is admitted. -/
def admStatus (s : State) (l : Launch) : Option Nat :=
  let late := l.desc.deadline ≠ 0 ∧ l.desc.deadline < startAt s l.desc (predAhead s 0 (s.ctx 0).fetched
    (execEnd (s.ctx 0))) + duration s l.desc (crewsFor s 0 l.desc)
  if malformed l.desc = true ∨ (l.desc.isCatch = true ∧ (s.ctx 0).jobid = 0#32) then some 0x03
  else if (berthOf s 0).length < l.desc.ncrew then some 0x02
  else if l.desc.isCatch = true ∧ s.fab.placed = false then some 0x04
  else if l.desc.isCatch = true ∧ l.desc.catchCnt < s.now.toNat + 50000 then some 0x05
  else if late then some 0x01 else none
def dSt : Desc := { dOk with cstream := 0x40 }
def lAdm : Launch := { lc dSt with admitted := true }
def sSched : State := { (bCr.modCtx 0 fun k => { k with fetched := [lAdm] }) with hbm := bCr.hbm ++ [(0x600040, 0x0F)] }
def w23_13 := (sSched.modCtx 0 fun k => { k with bttEn := false })
theorem witness_AdmissionAndSchedulerResults :
    (Mapped sSched c0.val lAdm.desc.cstream.toNat 3 false ∧
      LinesClean sSched (pageAddr 3 lAdm.desc.cstream.toNat) 16 ∧
      admitting sSched = true ∧
      (∀ k < 64, k ≠ c0.val → headOf (sSched.ctx k) = none) ∧
      (sSched.ctx c0.val).st = CState.running ∧
      (sSched.ctx c0.val).fetched = [lAdm] ∧
      lAdm.admitted = true ∧
      lAdm.desc.timed = false ∧
      recheckFails sSched c0.val lAdm = none ∧
      mayDispatch sSched c0.val lAdm = true ∧
      eligible sSched lAdm.desc (crewsFor sSched c0.val lAdm.desc) (duration sSched lAdm.desc (crewsFor sSched c0.val lAdm.desc)) = true ∧
      lAdm.desc.cstream.toNat % frameBytes + 16 ≤ frameBytes ∧
      leNat (bytesAt 0 sSched.hbm (pageAddr 3 lAdm.desc.cstream.toNat) 16) = 15) ∧
    (admitting w23_1 = true ∧
      (w23_1.ctx c0.val).st = CState.running ∧
      (w23_1.ctx c0.val).en = true ∧
      (w23_1.ctx c0.val).sweep = none ∧
      (List.findIdx? (fun l => !l.admitted) (w23_1.ctx c0.val).fetched = some 0) ∧
      (w23_1.ctx c0.val).fetched[0]? = some w23_2 ∧
      (admStatus w23_1 w23_2 = none)) ∧
    (admitting w23_3 = true ∧
      (w23_3.ctx c0.val).st = CState.running ∧
      (w23_3.ctx c0.val).en = true ∧
      (w23_3.ctx c0.val).sweep = none ∧
      (List.findIdx? (fun l => !l.admitted) (w23_3.ctx c0.val).fetched = some 0) ∧
      (w23_3.ctx c0.val).fetched[0]? = some w23_4 ∧
      (admStatus w23_3 w23_4 = some 3)) ∧
    (admitting w23_5 = true ∧
      (w23_5.ctx c0.val).st = CState.running ∧
      (w23_5.ctx c0.val).en = true ∧
      (w23_5.ctx c0.val).sweep = none ∧
      (List.findIdx? (fun l => !l.admitted) (w23_5.ctx c0.val).fetched = some 0) ∧
      (w23_5.ctx c0.val).fetched[0]? = some w23_6 ∧
      (admStatus w23_5 w23_6 = some 2)) ∧
    (admitting w23_7 = true ∧
      (w23_7.ctx c0.val).st = CState.running ∧
      (w23_7.ctx c0.val).en = true ∧
      (w23_7.ctx c0.val).sweep = none ∧
      (List.findIdx? (fun l => !l.admitted) (w23_7.ctx c0.val).fetched = some 0) ∧
      (w23_7.ctx c0.val).fetched[0]? = some w23_8 ∧
      (admStatus w23_7 w23_8 = some 4)) ∧
    (admitting w23_9 = true ∧
      (w23_9.ctx c0.val).st = CState.running ∧
      (w23_9.ctx c0.val).en = true ∧
      (w23_9.ctx c0.val).sweep = none ∧
      (List.findIdx? (fun l => !l.admitted) (w23_9.ctx c0.val).fetched = some 0) ∧
      (w23_9.ctx c0.val).fetched[0]? = some w23_10 ∧
      (admStatus w23_9 w23_10 = some 5)) ∧
    (admitting w23_11 = true ∧
      (w23_11.ctx c0.val).st = CState.running ∧
      (w23_11.ctx c0.val).en = true ∧
      (w23_11.ctx c0.val).sweep = none ∧
      (List.findIdx? (fun l => !l.admitted) (w23_11.ctx c0.val).fetched = some 0) ∧
      (w23_11.ctx c0.val).fetched[0]? = some w23_12 ∧
      (admStatus w23_11 w23_12 = some 1)) ∧
    (admitting w23_13 = true ∧
      (∀ k < 64, k ≠ c0.val → headOf (w23_13.ctx k) = none) ∧
      (w23_13.ctx c0.val).st = CState.running ∧
      (w23_13.ctx c0.val).fetched = [lAdm] ∧
      lAdm.admitted = true ∧
      lAdm.desc.timed = false ∧
      recheckFails w23_13 c0.val lAdm = none ∧
      mayDispatch w23_13 c0.val lAdm = true ∧
      eligible w23_13 lAdm.desc (crewsFor w23_13 c0.val lAdm.desc) (duration w23_13 lAdm.desc (crewsFor w23_13 c0.val lAdm.desc)) = true ∧
      lAdm.desc.cstream.toNat % frameBytes + 16 ≤ frameBytes ∧
      leNat (bytesAt 0 w23_13.hbm (pageAddr 3 lAdm.desc.cstream.toNat) 16) = 15 ∧
      (w23_13.ctx c0.val).bttEn = false ∧
      (w23_13.ctx c0.val).en = true ∧
      (w23_13.ctx c0.val).jobid = 0#32) ∧
    (admitting State.reset = false) :=
  ⟨⟨(mapped_of (by decide +kernel)), (linesClean_of (by decide +kernel)), by decide +kernel⟩,
   by decide +kernel, by decide +kernel, by decide +kernel, by decide +kernel, by decide +kernel, by decide +kernel, by decide +kernel, by decide +kernel⟩
/-! CommandStreamResults -/
def cmd (op : Nat) : Cmd := { op := op, imm := 7, addr := 0x40 }
def lCmd (op : Nat) : Exec := { launchA with stream := [cmd op] }
def sCmd (op : Nat) : State := b0 fun k => { k with exec := some (lCmd op) }
def w24_1 := (sCmd 1)
def w24_2 := (lCmd 1)
def w24_3 := (cmd 1)
def w24_4 := (sCmd 2)
def w24_5 := (lCmd 2)
def w24_6 := (cmd 2)
def w24_7 := { sCmd 2 with weir := [wj] }
def w24_8 := (lCmd 2)
def w24_9 := (cmd 2)
def lWt : Exec := { lCmd 4 with ranAt := some 0 }
def sWt : State := b0 fun k => { k with exec := some lWt }
def w24_10 := (cmd 4)
def w24_11 := (sWt.setTile 0 { run := .halted })
def w24_12 := (cmd 4)
def sWr1 : State := (writeLocal (viaDev 0) 0x40 (leBytes 4 7) (sCmd 5)).2
def w24_13 := (sCmd 5)
def w24_14 := (lCmd 5)
def w24_15 := (cmd 5)
def sSt1 : State := (writeLocal (viaDev 0) 0x40 (leBytes 8 0) (sCmd 6)).2
def w24_16 := (sCmd 6)
def w24_17 := (lCmd 6)
def w24_18 := (cmd 6)
def zeros8 : List Byte := List.replicate 8 0#8
def sRun1 : State := (readLocal (viaDev 0) 0 8 (sCmd 3)).2
def w24_19 := (sCmd 3)
def w24_20 := (lCmd 3)
def w24_21 := (cmd 3)
def lCat : Exec := { lCmd 3 with launch := { launchA.launch with desc := { launchA.launch.desc with flags := 2, catchCnt
  := 6001 } } }
def w24_22 := (b0 fun k => { k with exec := some lCat })
def w24_23 := (cmd 3)
def w24_24 := (sCmd 15)
def w24_25 := (lCmd 15)
def w24_26 := (cmd 15)
def w24_27 := { sCmd 15 with weir := [wj] }
def w24_28 := (lCmd 15)
def w24_29 := (cmd 15)
/-- An easy-all for the job has arrived in the count of END. -/
def w24_30 : State := { ((sCmd 15).modCtx 0 fun k => { k with jobid := 9 }) with fab := { arrived := [{
  port := some 0, esc := none, pkt := { pkt with ptype := .easyAll, jobid := 9, dest := 0 } }] } }
theorem witness_CommandStreamResults :
    (atCmd w24_1 c0.val 1 = some (w24_2, w24_3) ∧
      (weirNextUp (w24_1.modExec c0.val fun x => { x with weirWait := some (x.weirWait.getD w24_1.now) }) = some c0.val)) ∧
    (atCmd w24_4 c0.val 2 = some (w24_5, w24_6) ∧
      (∀ j ∈ w24_4.weir, ¬(j.ctx = c0.val ∧ j.launch = w24_5.launch.id))) ∧
    (atCmd w24_7 c0.val 2 = some (w24_8, w24_9) ∧
      (∃ j ∈ w24_7.weir, j.ctx = c0.val ∧ j.launch = w24_8.launch.id)) ∧
    (atCmd sWt c0.val 4 = some (lWt, w24_10) ∧
      lWt.ranAt.isSome = true ∧
      (∃ e ∈ lWt.tiles, (sWt.tile e.2.2).run ≠ TRun.halted)) ∧
    (atCmd w24_11 c0.val 4 = some (lWt, w24_12) ∧
      lWt.ranAt.isSome = true ∧
      (∀ e ∈ lWt.tiles, (w24_11.tile e.2.2).run = TRun.halted)) ∧
    (atCmd w24_13 c0.val 5 = some (w24_14, w24_15) ∧
      weirDone w24_13 c0.val w24_14 = true ∧
      tilesDone w24_13 w24_14 = true ∧
      pageShut w24_13 c0.val w24_15.addr.toNat = false ∧
      writeLocal (viaDev c0.val) w24_15.addr.toNat (leBytes 4 w24_15.imm.toNat) w24_13 = (Res.ok (), sWr1)) ∧
    (atCmd w24_16 c0.val 6 = some (w24_17, w24_18) ∧
      pageShut w24_16 c0.val w24_18.addr.toNat = false ∧
      writeLocal (viaDev c0.val) w24_18.addr.toNat (leBytes 8 w24_16.now.toNat) w24_16 = (Res.ok (), sSt1)) ∧
    (atCmd w24_19 c0.val 3 = some (w24_20, w24_21) ∧
      w24_20.launch.desc.isCatch = false ∧
      rangeShut w24_19 c0.val w24_20.launch.desc.code.toNat (4 * w24_20.launch.desc.codeWords) = false ∧
      readLocal (viaDev c0.val) w24_20.launch.desc.code.toNat (4 * w24_20.launch.desc.codeWords) w24_19 = (Res.ok zeros8, sRun1) ∧
      (sRun1.ctx c0.val).exec = some w24_20 ∧
      w24_20.pair = none) ∧
    (atCmd w24_22 c0.val 3 = some (lCat, w24_23) ∧
      lCat.launch.desc.isCatch = true ∧
      w24_22.now.toNat + 6000 < lCat.launch.desc.catchCnt) ∧
    (atCmd w24_24 c0.val 15 = some (w24_25, w24_26) ∧
      weirDone w24_24 c0.val w24_25 = true ∧
      tilesDone w24_24 w24_25 = true ∧
      w24_25.pair = none ∧
      (w24_24.ctx c0.val).wakeEn = false ∧
      (w24_24.ctx c0.val).en = true ∧
      easyAllHere w24_24 c0.val = false) ∧
    (atCmd w24_27 c0.val 15 = some (w24_28, w24_29) ∧
      (weirDone w24_27 c0.val w24_28 = false ∨ tilesDone w24_27 w24_28 = false ∨ easyAllHere w24_27 c0.val = true)) ∧
    (atCmd w24_30 c0.val 15 = some (w24_25, w24_26) ∧
      easyAllHere w24_30 c0.val = true) :=
  by and_intros <;> decide +kernel
/-! LaunchEndResults -/
def done1 : Done := { bytes := List.replicate 128 3#8 }
def sDone : State := b0 fun k => { k with done := [done1], cqBase := 0x2000, cqTail := 15, irqEn := true, cqHead := 3 }
def w25_1 := (sDone.modCtx 0 fun k => { k with cqHead := 0 })
def w25_2 := (sDone.modCtx 0 fun k => { k with cqHead := 0, cqHold := true })
def w25_3 := (bX id)
def w25_4 := { bX id with stroke := { now := 1000000001 } }
def lPin : Exec := { launchA with pinEnd := some 5 }
def w25_5 := { (b0 fun k => { k with exec := some lPin }) with stroke := { now := 5 } }
theorem witness_LaunchEndResults :
    (sDone.alive = true ∧
      (sDone.ctx c0.val).done = [done1] ∧
      (sDone.ctx c0.val).cqLoc = false ∧
      sDone.host.attached = true ∧
      ((sDone.ctx c0.val).cqTail + 1) % (16 * 2 ^ (sDone.ctx c0.val).cqSize) ≠ (sDone.ctx c0.val).cqHead ∧
      (0 < (sDone.ctx c0.val).cqBase + 128 * (sDone.ctx c0.val).cqTail ∨ (sDone.ctx c0.val).cqBase + 128 * (sDone.ctx c0.val).cqTail + done1.bytes.length ≤ 0)) ∧
    (w25_1.alive = true ∧
      (w25_1.ctx c0.val).done = [done1] ∧
      (w25_1.ctx c0.val).cqLoc = false ∧
      w25_1.host.attached = true ∧
      ((w25_1.ctx c0.val).cqTail + 1) % (16 * 2 ^ (w25_1.ctx c0.val).cqSize) = (w25_1.ctx c0.val).cqHead ∧
      (w25_1.ctx c0.val).cqHold = false) ∧
    (w25_2.alive = true ∧
      (w25_2.ctx c0.val).done = [done1] ∧
      (w25_2.ctx c0.val).cqLoc = false ∧
      w25_2.host.attached = true ∧
      ((w25_2.ctx c0.val).cqTail + 1) % (16 * 2 ^ (w25_2.ctx c0.val).cqSize) = (w25_2.ctx c0.val).cqHead ∧
      (w25_2.ctx c0.val).cqHold = true) ∧
    ((w25_3.ctx c0.val).exec = some launchA ∧
      launchA.ending = none ∧
      (w25_3.ctx c0.val).abort = none ∧
      ((w25_3.ctx c0.val).limitMs = 0 ∨ w25_3.since launchA.tDispatch ≤ (w25_3.ctx c0.val).limitMs * 1000000)) ∧
    ((w25_4.ctx c0.val).exec = some launchA ∧
      launchA.ending = none ∧
      (w25_4.ctx c0.val).abort = none ∧
      (w25_4.ctx c0.val).limitMs ≠ 0 ∧
      (w25_4.ctx c0.val).limitMs * 1000000 < w25_4.since launchA.tDispatch ∧
      launchA.began = true) ∧
    ((w25_5.ctx c0.val).exec = some lPin ∧
      lPin.pinEnd = some 5 ∧
      5 ≤ w25_5.now.toNat) :=
  by and_intros <;> decide +kernel
/-! FrameCommandResults -/
def sFree : State := { base with frames := base.frames ++ [(5, { st := .free, scrub := false })] }
theorem witness_FrameCommandResults :
    (base.alive = true ∧
      base.rst.oos = false ∧
      (0#18).toNat ≤ 196607) ∧
    (base.alive = true ∧
      base.rst.oos = false ∧
      (196607#18).toNat ≤ 196607) ∧
    (base.alive = true ∧
      base.rst.oos = false ∧
      (3#18).toNat ≤ 196607) ∧
    (sFree.alive = true ∧
      sFree.rst.oos = false ∧
      (5#18).toNat ≤ 196607) ∧
    (base.alive = true ∧
      base.rst.oos = false ∧
      196607 < (262143#18).toNat) :=
  ⟨by decide +kernel, by decide +kernel, by decide +kernel, by decide +kernel, by decide +kernel⟩
/-! SweepScrubAndInvalidation -/
def c0s (f : Ctx → Ctx) : State := base.modCtx 0 f
def w27_1 := (c0s fun x => { x with sweep := some 0 })
def w27_2 := { (c0s fun x => { x with sweep := some 0 }) with stroke := { now := 12288 } }
def sScrub : State := { base with frames := [(0, { st := .poisoned, scrub := false }), (1, { st := .free }), (2, { st := .poisoned }), (3, { st := .owned })], hbm := putBytes 0 (putBytes 0 [] 0x400010 [1, 2]) 0x600000 [3], stks := [(0, { trained := true })], lineErr := [(65537, .correctable)] }
def p0 : PartIx := 0
def w27_3 := (c0s fun x => { x with exec := some { launchA with launch := { launchA.launch with desc := { flags := 1 } }
  } })
def te (c p : Nat) : TEntry := { ctx := c, page := p, frame := 3, r := true, w := true, rmt := true }
def w27_4 := { base with tcache := [(0, [te 0 1, te 1 1, te 0 2]), (8, [te 0 2])] }
theorem witness_SweepScrubAndInvalidation :
    ((w27_1.ctx c0.val).sweep = some 0#64 ∧
      w27_1.since 0#64 < 12288) ∧
    ((w27_2.ctx c0.val).sweep = some 0#64 ∧
      12288 ≤ w27_2.since 0#64) ∧
    (timedRuns sScrub = false ∧
      (sScrub.part p0.val).reset = none ∧
      (sScrub.stk p0.val).trained = true ∧
      2 / 24576 = p0.val ∧
      (sScrub.frame 2).st = FState.poisoned ∧
      (sScrub.frame 2).scrub = true ∧
      (∀ g < 2, g / 24576 = p0.val → ¬((sScrub.frame g).st = FState.poisoned ∧ (sScrub.frame g).scrub = true)) ∧
      0 ≠ 2) ∧
    (timedRuns w27_3 = true) ∧
    (w27_4.alive = true ∧
      w27_4.btiGo = false ∧
      (9223372036854775872#64).getLsbD 63 = true) :=
  ⟨by decide +kernel, by decide +kernel, by decide +kernel, by decide +kernel, by decide +kernel⟩
/-! FillAndGatherResults -/
def pages : List Nat := [0, 1, 2, 3, 4, 5]
def sWeir (m : Tbl Byte) : State := { base with frames := [(0, { st := .system, scrub := false })] ++ pages.map (fun p
  => (3 + p, { st := .owned, scrub := false })), hbm := m, weir := [wj] }
def mem0 : Tbl Byte := [(0x4000, 1), (0x4001, 0x80)] ++ pages.flatMap fun p => [(0x8000 + 8 * p, 0xF), (0x8002 + 8 * p,
  BitVec.ofNat 8 ((3 + p) * 32)), (0x8003 + 8 * p, BitVec.ofNat 8 ((3 + p) * 32 / 256))]
def wdesc (op fmt row tbl idx offs dst cnt nseg nrows pat : Nat) : List Byte := leBytes 1 op ++ leBytes 1 fmt ++ leBytes
  2 0 ++ leBytes 4 row ++ leBytes 8 tbl ++ leBytes 8 idx ++ leBytes 8 offs ++ leBytes 8 dst ++ leBytes 4 cnt ++ leBytes
  4 nseg ++ leBytes 4 nrows ++ leBytes 4 pat ++ leBytes 8 0
def bFill : List Byte := wdesc 3 0 0 0 0 0 0x200040 2 0 0 0x11223344
def dFill : WDesc := parseWeir bFill
def w28_1 := (sWeir (putBytes 0 mem0 0x600000 bFill))
def bGather : List Byte := wdesc 0 0 64 0x600000 0x400000 0 0x200000 3 0 2 0
def sGather : State := sWeir (putBytes 0 (putBytes 0 (putBytes 0 mem0 0xC00000 ((List.range 128).map (BitVec.ofNat 8
  ·))) 0xA00000 (leBytes 4 1 ++ leBytes 4 7 ++ leBytes 4 0)) 0x600000 bGather)
def dGather : WDesc := parseWeir bGather
def bBad : List Byte := wdesc 0 0 63 0x600000 0x400000 0 0x200000 3 0 2 0
def w28_2 := (sWeir (putBytes 0 mem0 0x600000 bBad)).modCtx 0 fun k => { k with exec := some launchA }
theorem witness_FillAndGatherResults :
    (WeirReady w28_1 0 wj 3 dFill ∧
      Mapped w28_1 wj.ctx dFill.dst 4 false ∧
      dFill.op = 3 ∧
      dFill.dst % frameBytes + 64 * dFill.count ≤ frameBytes ∧
      (0 < pageAddr 4 dFill.dst ∨ pageAddr 4 dFill.dst + 64 * dFill.count ≤ 0) ∧
      0 < 64 * dFill.count) ∧
    (WeirReady sGather 0 wj 3 dGather ∧
      Mapped sGather wj.ctx dGather.dst 4 false ∧
      Mapped sGather wj.ctx dGather.idx 5 false ∧
      Mapped sGather wj.ctx dGather.table 6 false ∧
      LinesClean sGather (pageAddr 5 dGather.idx) (4 * dGather.count) ∧
      LinesClean sGather (pageAddr 6 dGather.table) (dGather.nrows * dGather.rowBytes) ∧
      dGather.op = 0 ∧
      dGather.dst % frameBytes + dGather.count * dGather.rowBytes ≤ frameBytes ∧
      dGather.idx % frameBytes + 4 * dGather.count ≤ frameBytes ∧
      dGather.table % frameBytes + dGather.nrows * dGather.rowBytes ≤ frameBytes ∧
      4 ≠ 5 ∧
      4 ≠ 6 ∧
      (0 < pageAddr 4 dGather.dst ∨ pageAddr 4 dGather.dst + dGather.count * dGather.rowBytes ≤ 0) ∧
      0 < dGather.count ∧
      0 < dGather.rowBytes) ∧
    ((∀ (k : Nat), (w28_2.part k).reset = none) ∧
      Mapped w28_2 wj.ctx wj.addr 3 false ∧
      LinesClean w28_2 (pageAddr 3 wj.addr) 64 ∧
      w28_2.weir[0]? = some wj ∧
      wj.code = none ∧
      (w28_2.ctx wj.ctx).abort = none ∧
      wj.addr % frameBytes + 64 ≤ frameBytes ∧
      weirOk (parseWeir (bytesAt 0 w28_2.hbm (pageAddr 3 wj.addr) 64)) = false ∧
      (w28_2.ctx wj.ctx).exec = some launchA ∧
      launchA.launch.id = wj.launch ∧
      launchA.ending = none ∧
      launchA.began = true) :=
  ⟨⟨(weirReady_of (by decide +kernel)), (mapped_of (by decide +kernel)), by decide +kernel⟩,
   ⟨(weirReady_of (by decide +kernel)), (mapped_of (by decide +kernel)), (mapped_of (by decide +kernel)), (mapped_of (by decide +kernel)), (linesClean_of (by decide +kernel)), (linesClean_of (by decide +kernel)), by decide +kernel⟩,
   ⟨(partsIdle_of (by decide +kernel)), (mapped_of (by decide +kernel)), (linesClean_of (by decide +kernel)), by decide +kernel⟩⟩
/-! AtomicAndSegmentSums -/
def one : List Byte := leBytes 4 0x3F800000
def bAtom : List Byte := wdesc 2 0 0 0 0x400000 0 0x200000 4 0 2 0
def sAtom : State := sWeir (putBytes 0 (putBytes 0 mem0 0xA00000 (leBytes 4 1 ++ one ++ leBytes 4 7 ++ one ++ leBytes 4
  0xFFFFFFFF ++ one ++ leBytes 4 1 ++ one)) 0x600000 bAtom)
def dAtom : WDesc := parseWeir bAtom
def bSeg : List Byte := wdesc 1 0 64 0x600000 0x400000 0x800000 0x200000 3 2 2 0
def sSeg : State := sWeir (putBytes 0 (putBytes 0 (putBytes 0 (putBytes 0 mem0 0xE00000 (leBytes 4 0 ++ leBytes 4 1 ++
  leBytes 4 3)) 0xC00000 ((List.range 32).flatMap fun i => leBytes 4 (0x3F800000 + i * 0x10000))) 0xA00000 (leBytes 4 1
  ++ leBytes 4 0 ++ leBytes 4 1)) 0x600000 bSeg)
def dSeg : WDesc := parseWeir bSeg
theorem witness_AtomicAndSegmentSums :
    (WeirReady sAtom 0 wj 3 dAtom ∧
      Mapped sAtom wj.ctx dAtom.dst 4 false ∧
      Mapped sAtom wj.ctx dAtom.idx 5 false ∧
      LinesClean sAtom (pageAddr 5 dAtom.idx) (8 * dAtom.count) ∧
      LinesClean sAtom (pageAddr 4 dAtom.dst) (4 * dAtom.nrows) ∧
      dAtom.op = 2 ∧
      dAtom.fmt = 0 ∧
      dAtom.dst % frameBytes + 4 * dAtom.nrows ≤ frameBytes ∧
      dAtom.idx % frameBytes + 8 * dAtom.count ≤ frameBytes ∧
      4 ≠ 5 ∧
      dAtom.nrows ≤ 4294967295 ∧
      (0 < pageAddr 4 dAtom.dst ∨ pageAddr 4 dAtom.dst + 4 * dAtom.nrows ≤ 0) ∧
      0 < dAtom.nrows) ∧
    (WeirReady sSeg 0 wj 3 dSeg ∧
      Mapped sSeg wj.ctx dSeg.dst 4 false ∧
      Mapped sSeg wj.ctx dSeg.idx 5 false ∧
      Mapped sSeg wj.ctx dSeg.offs 7 false ∧
      Mapped sSeg wj.ctx dSeg.table 6 false ∧
      LinesClean sSeg (pageAddr 5 dSeg.idx) (4 * dSeg.count) ∧
      LinesClean sSeg (pageAddr 7 dSeg.offs) (4 * (dSeg.nseg + 1)) ∧
      LinesClean sSeg (pageAddr 6 dSeg.table) (dSeg.nrows * dSeg.rowBytes) ∧
      LinesClean sSeg (pageAddr 4 dSeg.dst) (dSeg.nseg * (4 * (dSeg.rowBytes / segElem dSeg.fmt))) ∧
      dSeg.op = 1 ∧
      dSeg.dst % frameBytes + dSeg.nseg * (4 * (dSeg.rowBytes / segElem dSeg.fmt)) ≤ frameBytes ∧
      dSeg.idx % frameBytes + 4 * dSeg.count ≤ frameBytes ∧
      dSeg.offs % frameBytes + 4 * (dSeg.nseg + 1) ≤ frameBytes ∧
      dSeg.table % frameBytes + dSeg.nrows * dSeg.rowBytes ≤ frameBytes ∧
      4 ≠ 5 ∧
      4 ≠ 7 ∧
      4 ≠ 6 ∧
      dSeg.count ≠ 0 ∧
      (∀ g < dSeg.nseg, BitVec.toNat (wordAt sSeg (pageAddr 7 dSeg.offs + 4 * g)) ≤ BitVec.toNat (wordAt sSeg (pageAddr 7 dSeg.offs + 4 * (g + 1))) ∧ BitVec.toNat (wordAt sSeg (pageAddr 7 dSeg.offs + 4 * (g + 1))) ≤ dSeg.count) ∧
      (0 < pageAddr 4 dSeg.dst ∨ pageAddr 4 dSeg.dst + dSeg.nseg * (4 * (dSeg.rowBytes / segElem dSeg.fmt)) ≤ 0) ∧
      0 < dSeg.nseg ∧
      0 < dSeg.rowBytes / segElem dSeg.fmt) :=
  ⟨⟨(weirReady_of (by decide +kernel)), (mapped_of (by decide +kernel)), (mapped_of (by decide +kernel)), (linesClean_of (by decide +kernel)), (linesClean_of (by decide +kernel)), by decide +kernel⟩,
   ⟨(weirReady_of (by decide +kernel)), (mapped_of (by decide +kernel)), (mapped_of (by decide +kernel)), (mapped_of (by decide +kernel)), (mapped_of (by decide +kernel)), (linesClean_of (by decide +kernel)), (linesClean_of (by decide +kernel)), (linesClean_of (by decide +kernel)), (linesClean_of (by decide +kernel)), by decide +kernel⟩⟩
/-! SingleAtomsAndCompletion -/
def aq : AtomReq := { ctx := 0, loc := 0x200004, val := 0x3F800000, tile := some (0, 5, 5), pkt := none, rgen := 0, acked := false }
def w30_1 := { base with atoms := [aq] }
def pkt0 : Packet := { ptype := .atomAdd, dest := 0, src := 5, handle := 0, rgen := 0, reason := 0, jobid := 0, loc := 0x200004, stroke := 0, len := 0, value := 0x3F800000, data := [] }
def w30_2 := { base with atoms := [{ aq with tile := none, pkt := some pkt0 }] }
def w30_3 := { aq with tile := none, pkt := some pkt0 }
def w30_4 := (sWeir mem0)
def w30_5 := { sWeir mem0 with weir := [{ wj with code := some 0 }] }
def w30_6 := { wj with code := some 0 }
def wjF : WeirJob := { wj with code := some 9, fadr := 9 }
def w30_7 := { ((sWeir mem0).modCtx 0 fun x => { x with exec := some launchA }) with weir := [wjF] }
theorem witness_SingleAtomsAndCompletion :
    ((∀ (k : Nat), (w30_1.part k).reset = none) ∧
      Mapped w30_1 aq.ctx aq.loc 4 aq.tile.isNone ∧
      LinesClean w30_1 (pageAddr 4 aq.loc) 4 ∧
      w30_1.atoms[0]? = some aq ∧
      aq.acked = false ∧
      aq.loc % 4 = 0 ∧
      (0 < pageAddr 4 aq.loc ∨ pageAddr 4 aq.loc + 4 ≤ 0) ∧
      aq.tile.isSome = true) ∧
    ((∀ (k : Nat), (w30_2.part k).reset = none) ∧
      Mapped w30_2 w30_3.ctx w30_3.loc 4 w30_3.tile.isNone ∧
      LinesClean w30_2 (pageAddr 4 w30_3.loc) 4 ∧
      w30_2.atoms[0]? = some w30_3 ∧
      w30_3.acked = false ∧
      w30_3.loc % 4 = 0 ∧
      (0 < pageAddr 4 w30_3.loc ∨ pageAddr 4 w30_3.loc + 4 ≤ 0) ∧
      w30_3.tile = none ∧
      w30_3.pkt = some pkt0 ∧
      pkt0.src ≠ w30_2.devNo) ∧
    (w30_4.weir[0]? = some wj ∧
      wj.code = none) ∧
    (w30_5.weir[0]? = some w30_6 ∧
      w30_6.code ≠ none) ∧
    (w30_7.weir[0]? = some wjF ∧
      wjF.code ≠ none) :=
  ⟨⟨(partsIdle_of (by decide +kernel)), (mapped_of (by decide +kernel)), (linesClean_of (by decide +kernel)), by decide +kernel⟩,
   ⟨(partsIdle_of (by decide +kernel)), (mapped_of (by decide +kernel)), (linesClean_of (by decide +kernel)), by decide +kernel⟩,
   by decide +kernel, by decide +kernel, by decide +kernel⟩
/-! HeatResults -/
def sHot (b o : Nat) : State := { base with stks := [(0, { trained := true, band := b, conserv := decide (b = 3) })], parts := [(0, { band := o })] }
def w31_1 := (sHot 1 2)
def w31_2 := (sHot 1 2)
def w31_3 := (sHot 4 2)
def w31_4 := (sHot 1 2)
def g0 : Fin 10 := 0
def raws8 : List Int := [400, 401, 402, 403, 404, 405, 406, 407]
def sDio : State := { base with pwr := { base.pwr with diodes := (List.range 80).map (fun d => (d, { raw := 400, eff := 400, bad := if d = 3 then 49 else 0 })) } }
/-- Partitions 1 and 2 are blind. -/
def sBlind : State := { base with parts := [(1, { blind := true }), (2, { blind := true })] }
def rawsK : List Int := [400, 400, 400, 500, 400, 400, 400, 400]
theorem witness_HeatResults :
    ((∀ (d : Nat), d / 8 = g0.val → (diode base d).suspect = false ∧ (diode base d).bad < 49) ∧
      base.alive = true ∧
      g0.val < 8 ∧
      raws8.length = 8 ∧
      407 ∈ raws8 ∧
      (∀ r ∈ raws8, r ≤ 407) ∧
      0 < 8 ∧
      8 / 8 ≠ g0.val ∧
      1 ≠ g0.val) ∧
    (sBlind.alive = true ∧
      (∀ d : Nat, d / 8 = g0.val → (diode sBlind d).suspect = false ∧ (diode sBlind d).bad < 49) ∧
      1 = g0.val + 1 ∧
      (sBlind.part 1).blind = true ∧
      (∀ q < 8, q ≠ g0.val → (q = 1 + 1 ∨ 1 = q + 1) → (sBlind.part q).blind = true) ∧
      2 ≠ g0.val ∧
      (sBlind.part 3).blind = false) ∧
    ((∀ (d : Nat), d / 8 = g0.val → d ≠ 8 * g0.val + 3 → (diode sDio d).suspect = false ∧ (diode sDio d).bad < 49) ∧
      sDio.alive = true ∧
      g0.val < 8 ∧
      rawsK.length = 8 ∧
      3 < 8 ∧
      (diode sDio (8 * g0.val + 3)).suspect = false ∧
      (diode sDio (8 * g0.val + 3)).bad = 49 ∧
      Tbl.look 0 (8 * g0.val + 3) sDio.fuses.calib = 0 ∧
      (∀ j < 8, j ≠ 3 → rawsK.getD j 0 = 400) ∧
      (∀ d ∈ neighboursOf (8 * g0.val + 3), d / 8 ≠ g0.val → (diode sDio d).suspect = false ∧ (diode sDio d).raw = 400 ∧ (diode sDio d).eff = 400) ∧
      48 < (rawsK.getD 3 0 - 400).natAbs) ∧
    (w31_1.alive = true) ∧
    (w31_2.alive = true ∧
      (w31_2.stk p0.val).trained = true ∧
      (w31_2.part p0.val).reset = none ∧
      1 ≠ p0.val) ∧
    (w31_3.alive = true ∧
      (w31_3.stk p0.val).trained = true ∧
      (w31_3.part p0.val).reset = none ∧
      (w31_3.stk p0.val).conserv ≠ decide ((w31_3.stk p0.val).band = 4)) ∧
    (w31_4.alive = true ∧
      (w31_4.stk p0.val).trained = true ∧
      (w31_4.part p0.val).reset = none ∧
      (w31_4.stk p0.val).conserv = decide ((w31_4.stk p0.val).band = 4)) ∧
    (2 < 5) ∧
    (base.alive = true ∧
      base.card.input = true) :=
  ⟨⟨(diodesWell_of (by decide +kernel)), by decide +kernel⟩,
   ⟨by decide +kernel, (diodesWell_of (by decide +kernel)), by decide +kernel⟩,
   ⟨(otherDiodesWell_of (by decide +kernel)), by decide +kernel⟩,
   by decide +kernel, by decide +kernel, by decide +kernel, by decide +kernel, by decide +kernel, by decide +kernel⟩
/-! PlacementResults -/
def fb : Fabric := { placed := true, place := .placed, rack := 1, racks := 4, machine := 256, devNum := 64, start := some 0 }
def sFab : State := { base with fab := fb }
def sIdle : State := { base with fab := {} }
def sTrain (st : PState) (now : BitVec 64) : State := { base with fab := { fb with place := .training, placed := false, ports := (List.range 12).map fun n =>
  (n, { st := if n = 3 then st else .up, settled := n ≠ 3 || decide (st = .down) }) }, stroke := { now := now } }
def w32_1 := (sTrain .down 9)
def w32_2 := (sTrain .eq 9)
def w32_3 := (sTrain .eq 500000000)
/-- Port 3 has come up once and retrains. -/
def w32_4 : State := let s := sTrain .eq 9; s.modPort 3 (fun x => { x with settled := true })
/-- A card in tray 5, slot 2, whose rack has delivered RACK r and RACKS n. -/
def sRack (r : BitVec 8) (n : BitVec 9) : State := { sIdle with card := { base.card with
  rackPresent := true, delivered := true, tray := 5, slot := 2, rack := r, racks := n } }
/-- What a START refused or taken by an idle device needs. -/
def StartsAt (s : State) : Prop :=
  s.alive = true ∧ s.fab.start = none ∧ pastMaps s = true ∧ (s.card.rackPresent = true → s.card.delivered = true)
theorem witness_PlacementResults :
    (sFab.alive = true ∧
      (sFab.fab.start ≠ none ∨ 0#64 ≠ bringUp sFab)) ∧
    (sIdle.alive = true ∧
      sIdle.fab.start = none ∧
      (sIdle.fab.start ≠ none ∨ 0#64 ≠ bringUp sIdle)) ∧
    (StartsAt sIdle ∧
      sIdle.card.rackPresent = false) ∧
    (StartsAt (sRack 0 257) ∧
      256 < (sRack 0 257).card.racks.toNat) ∧
    (StartsAt (sRack 4 4) ∧
      (sRack 4 4).card.racks.toNat ≠ 0 ∧
      (sRack 4 4).card.racks.toNat ≤ 256 ∧
      (sRack 4 4).card.racks.toNat ≤ (sRack 4 4).card.rack.toNat) ∧
    (StartsAt (sRack 255 256) ∧
      (sRack 255 256).card.racks.toNat ≤ 256 ∧
      (sRack 255 256).card.rack.toNat < (sRack 255 256).card.racks.toNat) ∧
    (w32_1.fab.start = some 0#64 ∧
      w32_1.fab.place = Place.training ∧
      ((∀ n < 12, (w32_1.port n).settled = true) ∨ 500000000 ≤ w32_1.since 0#64)) ∧
    (w32_4.fab.start = some 0#64 ∧
      w32_4.fab.place = Place.training ∧
      ((∀ n < 12, (w32_4.port n).settled = true) ∨ 500000000 ≤ w32_4.since 0#64)) ∧
    (w32_2.fab.start = some 0#64 ∧
      w32_2.fab.place = Place.training ∧
      (∃ n < 12, (w32_2.port n).settled = false) ∧
      w32_2.since 0#64 < 500000000) ∧
    (w32_3.fab.start = some 0#64 ∧
      w32_3.fab.place = Place.training ∧
      ((∀ n < 12, (w32_3.port n).settled = true) ∨ 500000000 ≤ w32_3.since 0#64)) := by
  simp only [StartsAt]
  and_intros <;> decide +kernel
/-! PortTrainingResults -/
def sPort (x : Port) (now : BitVec 64) : State := { base with fab := { fb with ports := [(0, x)] }, stroke := { now :=
  now } }
def n0 : PortIx := 0
def w33_1 := (sPort { st := .detect } 10000000)
def w33_2 := (sPort { st := .rate, attempts := 1 } 1000000)
def w33_3 := (sPort { st := .eq, rate2 := true, attempts := 1 } 20000000)
def w33_4 := (sPort { st := .eq, attempts := 3, replay := [{ seq := 4, pkt := none, esc := none }] } 20000000)
def w33_5 := (sPort { st := .lanes, attempts := 1 } 1000000)
def w33_6 := (sPort { st := .lanes, attempts := 1 } 1000000)
def w33_7 := (sPort { st := .lanes, attempts := 3 } 1000000)
def idOk : Ident := { rack := 1, racks := 4, x := 1, y := 0, z := 0, port := 2 }
def w33_8 := (sPort { st := .ident, replay := [{ seq := 4, pkt := none, esc := none }] } 0)
def w33_9 := (sPort { st := .ident } 0)
def w33_10 := { idOk with x := 2 }
def w33_11 := (sPort { st := .ident } 0)
def w33_12 := { idOk with racks := 5 }
def sUp : State := sPort { st := .up, resends := [(0, 1001)], replay := [{ seq := 4, pkt := none, esc := none }] } 5
def w33_13 := (sPort { st := .up, retrains := [0, 0, 0], conserv := true } 5)
/-- Port 0 is UP and holds a request of another device and a data reply. -/
def w33_18 := (sPort { st := .up, replay := [{ seq := 4, pkt := some { pkt with dest := 65 }, esc := none }], ctlq := [{ pkt with ptype := .replyData, dest := 70 }] } 5)
def w33_14 := (sPort { st := .down } 5)
def w33_15 := (sPort { st := .off } 5)
def w33_16 := (sPort { st := .up, reeq := some 0 } 40000)
def w33_17 := (sPort { st := .up, reeq := some 0 } 39999)
def sReq : State := { base with fab := { fb with ports := [(0, { st := .up, conserv := true }), (1, { reeq := some 0 })]
  } }
theorem witness_PortTrainingResults :
    ((w33_1.port n0.val).st = PState.detect ∧
      w33_1.since (w33_1.port n0.val).since ≤ 10000000 ∧
      1 ≠ n0.val ∧
      notAfter (w33_1.port n0.val).since w33_1.now = true ∧
      10000000 ≤ w33_1.since (w33_1.port n0.val).since ∧
      w33_1.alive = true ∧
      (w33_1.port n0.val).st ≠ PState.down ∧
      (w33_1.port n0.val).st ≠ PState.off) ∧
    ((w33_2.port n0.val).st = PState.rate ∧
      1000000 ≤ w33_2.since (w33_2.port n0.val).since ∧
      1 ≠ n0.val ∧
      w33_2.alive = true ∧
      (w33_2.port n0.val).st ≠ PState.down ∧
      (w33_2.port n0.val).st ≠ PState.off) ∧
    ((w33_3.port n0.val).st = PState.eq ∧
      w33_3.since (w33_3.port n0.val).since ≤ 20000000 ∧
      1 ≠ n0.val ∧
      20000000 ≤ w33_3.since (w33_3.port n0.val).since ∧
      (w33_3.port n0.val).rate2 = true ∧
      w33_3.alive = true ∧
      (w33_3.port n0.val).st ≠ PState.down ∧
      (w33_3.port n0.val).st ≠ PState.off) ∧
    ((w33_4.port n0.val).st = PState.eq ∧
      w33_4.since (w33_4.port n0.val).since ≤ 20000000 ∧
      1 ≠ n0.val ∧
      20000000 ≤ w33_4.since (w33_4.port n0.val).since ∧
      (w33_4.port n0.val).rate2 = false ∧
      3 ≤ (w33_4.port n0.val).attempts ∧
      w33_4.alive = true ∧
      (w33_4.port n0.val).st ≠ PState.down ∧
      (w33_4.port n0.val).st ≠ PState.off) ∧
    ((w33_5.port n0.val).st = PState.lanes ∧
      1000000 ≤ w33_5.since (w33_5.port n0.val).since ∧
      BitVec.extractLsb' 0 4 255#8 = 15#4 ∧
      BitVec.extractLsb' 4 4 255#8 = 15#4 ∧
      1 ≠ n0.val) ∧
    ((w33_6.port n0.val).st = PState.lanes ∧
      1000000 ≤ w33_6.since (w33_6.port n0.val).since ∧
      (BitVec.extractLsb' 0 4 247#8 = 15#4 ∧ ¬BitVec.extractLsb' 4 4 247#8 = 15#4 ∨ BitVec.extractLsb' 4 4 247#8 = 15#4 ∧ ¬BitVec.extractLsb' 0 4 247#8 = 15#4) ∧
      1 ≠ n0.val) ∧
    ((w33_7.port n0.val).st = PState.lanes ∧
      1000000 ≤ w33_7.since (w33_7.port n0.val).since ∧
      (¬BitVec.extractLsb' 0 4 119#8 = 15#4) ∧
      (¬BitVec.extractLsb' 4 4 119#8 = 15#4) ∧
      3 ≤ (w33_7.port n0.val).attempts ∧
      1 ≠ n0.val) ∧
    ((w33_8.port n0.val).st = PState.ident ∧
      idOk.racks = w33_8.fab.racks ∧
      ((idOk.rack.toNat, idOk.x.toNat, idOk.y.toNat, idOk.z.toNat) = neighbour w33_8.fab n0.val ∧ ↑idOk.port = partnerPort n0.val) ∧
      (w33_8.port n0.val).ctlq = []) ∧
    ((w33_9.port n0.val).st = PState.ident ∧
      w33_10.racks = w33_9.fab.racks ∧
      (¬((w33_10.rack.toNat, w33_10.x.toNat, w33_10.y.toNat, w33_10.z.toNat) = neighbour w33_9.fab n0.val ∧ ↑w33_10.port = partnerPort n0.val))) ∧
    ((w33_11.port n0.val).st = PState.ident ∧
      w33_12.racks ≠ w33_11.fab.racks) ∧
    ((sUp.port n0.val).st = PState.up ∧
      (true = true ∨ 1000 < (List.map (fun e => e.2) (List.filter (fun e => decide (sUp.since e.1 ≤ 1000000)) (sUp.port n0.val).resends)).sum) ∧
      ((List.filter (fun a => decide (sUp.since a < 10000000000)) (sUp.port n0.val).retrains).length < 3) ∧
      sUp.alive = true ∧
      (sUp.port n0.val).st ≠ PState.down ∧
      (sUp.port n0.val).st ≠ PState.off) ∧
    ((w33_13.port n0.val).st = PState.up ∧
      (true = true ∨ 1000 < (List.map (fun e => e.2) (List.filter (fun e => decide (w33_13.since e.1 ≤ 1000000)) (w33_13.port n0.val).resends)).sum) ∧
      (3 ≤ (List.filter (fun a => decide (w33_13.since a < 10000000000)) (w33_13.port n0.val).retrains).length) ∧
      w33_13.alive = true ∧
      (w33_13.port n0.val).st ≠ PState.down ∧
      (w33_13.port n0.val).st ≠ PState.off ∧
      (w33_13.port n0.val).reeq = none ∧
      (w33_13.port n0.val).conserv ≠ wantConserv w33_13 ∧
      (w33_13.port (sibling n0.val)).reeq = none) ∧
    (w33_18.alive = true ∧
      (w33_18.port n0.val).st ≠ PState.off ∧
      (∀ q ∈ (w33_18.port n0.val).replay.filterMap (·.pkt) ++ (w33_18.port n0.val).ctlq, q.dest ≠ w33_18.devNo ∧
        (q.ptype = .read ∨ q.ptype = .write ∨ q.ptype = .replyData ∨ q.ptype = .replyAck ∨ q.ptype = .replyFault)) ∧
      0 < ((w33_18.port n0.val).replay.filterMap (·.pkt) ++ (w33_18.port n0.val).ctlq).length) ∧
    (w33_14.alive = true ∧
      (w33_14.port n0.val).st = PState.down ∧
      1 ≠ n0.val ∧
      (w33_14.port n0.val).st ≠ PState.off) ∧
    (w33_15.alive = true ∧
      (w33_15.port n0.val).st ≠ PState.down ∧
      (w33_15.port n0.val).st = PState.off) ∧
    ((w33_16.port n0.val).st = PState.up ∧
      (true = true ∨ 1000 < (List.map (fun e => e.2) (List.filter (fun e => decide (w33_16.since e.1 ≤ 1000000)) (w33_16.port n0.val).resends)).sum) ∧
      ((List.filter (fun a => decide (w33_16.since a < 10000000000)) (w33_16.port n0.val).retrains).length < 3) ∧
      w33_16.alive = true ∧
      (w33_16.port n0.val).st ≠ PState.down ∧
      (w33_16.port n0.val).st ≠ PState.off ∧
      (w33_16.port n0.val).reeq = some 0#64 ∧
      40000 ≤ w33_16.since 0#64 ∧
      (w33_16.port n0.val).ctlq = []) ∧
    ((w33_17.port n0.val).st = PState.up ∧
      (true = true ∨ 1000 < (List.map (fun e => e.2) (List.filter (fun e => decide (w33_17.since e.1 ≤ 1000000)) (w33_17.port n0.val).resends)).sum) ∧
      ((List.filter (fun a => decide (w33_17.since a < 10000000000)) (w33_17.port n0.val).retrains).length < 3) ∧
      w33_17.alive = true ∧
      (w33_17.port n0.val).st ≠ PState.down ∧
      (w33_17.port n0.val).st ≠ PState.off ∧
      (w33_17.port n0.val).reeq = some 0#64 ∧
      w33_17.since 0#64 < 40000) ∧
    ((sReq.port n0.val).st = PState.up ∧
      (true = true ∨ 1000 < (List.map (fun e => e.2) (List.filter (fun e => decide (sReq.since e.1 ≤ 1000000)) (sReq.port n0.val).resends)).sum) ∧
      ((List.filter (fun a => decide (sReq.since a < 10000000000)) (sReq.port n0.val).retrains).length < 3) ∧
      sReq.alive = true ∧
      (sReq.port n0.val).st ≠ PState.down ∧
      (sReq.port n0.val).st ≠ PState.off ∧
      (sReq.port (sibling n0.val)).reeq ≠ none) :=
  by and_intros <;> decide +kernel
/-! RetryResults -/
def sRx : State := sPort { st := .up, rxSeq := 7, replay := [fl 5, fl 6] } 5
def pk1 : Option Packet := some pkt
def pkt65 : Packet := { pkt with dest := 65 }
def pk2 : Option Packet := some pkt65
def noPk : Option Packet := none
theorem witness_RetryResults :
    ((sRx.port n0.val).carries = true ∧
      (sRx.port n0.val).nak = false ∧
      7#12 = (sRx.port n0.val).rxSeq ∧
      (sRx.port n0.val).ctlq = [] ∧
      pk1 = some pkt ∧
      (pkt.ptype = PType.easyAll ∨ pkt.ptype = PType.boot ∨ pkt.ptype = PType.atomAdd ∨ pkt.dest = sRx.devNo) ∧
      (List.findIdx? (fun f => decide (f.seq = 7#12)) (sRx.port n0.val).replay = none)) ∧
    ((sRx.port n0.val).carries = true ∧
      (sRx.port n0.val).nak = false ∧
      7#12 = (sRx.port n0.val).rxSeq ∧
      (sRx.port n0.val).ctlq = [] ∧
      pk2 = some pkt65 ∧
      (¬(pkt65.ptype = PType.easyAll ∨ pkt65.ptype = PType.boot ∨ pkt65.ptype = PType.atomAdd ∨ pkt65.dest = sRx.devNo)) ∧
      (List.findIdx? (fun f => decide (f.seq = 7#12)) (sRx.port n0.val).replay = none)) ∧
    ((sRx.port n0.val).carries = true ∧
      (sRx.port n0.val).nak = false ∧
      7#12 = (sRx.port n0.val).rxSeq ∧
      (sRx.port n0.val).ctlq = [] ∧
      noPk = none ∧
      (List.findIdx? (fun f => decide (f.seq = 7#12)) (sRx.port n0.val).replay = none)) ∧
    ((sRx.port n0.val).carries = true ∧
      (sRx.port n0.val).nak = false ∧
      6#12 ≠ (sRx.port n0.val).rxSeq ∧
      (List.findIdx? (fun f => decide (f.seq = 6#12)) (sRx.port n0.val).replay = some 1)) :=
  ⟨by decide +kernel, by decide +kernel, by decide +kernel, by decide +kernel⟩
/-! PacketRequestResults -/
def sArr (q : Packet) : State := { base with fab := { fb with arrived := [{ port := some 0, pkt := q, esc := none }] }, ctxs := base.ctxs.map fun e => (e.1, { e.2 with jobid := 9 }) }
def arr (q : Packet) : Arrival := { port := some 0, pkt := q, esc := none }
def w35_1 := (sArr { pkt with ptype := .atomAdd, jobid := 9 })
def w35_2 := (arr { pkt with ptype := .atomAdd, jobid := 9 })
def w35_3 := (sArr pkt)
def w35_4 := (arr pkt)
def w35_5 := { sArr pkt with fab := { (sArr pkt).fab with placed := false } }
def w35_6 := (arr pkt)
def pktW : Packet := { pkt with jobid := 9, ptype := .write, data := [1, 2, 3, 4] }
def sWr2 : State := (writeLocal (viaRemote 0) 0x200040 [1, 2, 3, 4] (takeArrival 0 (sArr pktW))).2
def w35_7 := (sArr pktW)
def w35_8 := (arr pktW)
def pktF : Packet := { pktW with loc := 0x40000000 }
def sWrF : State := (writeLocal (viaRemote 0) 0x40000000 [1, 2, 3, 4] (takeArrival 0 (sArr pktF))).2
def w35_9 := (sArr pktF)
def w35_10 := (arr pktF)
def pktR : Packet := { pkt with jobid := 9 }
def bRd : List Byte := List.replicate 0x140 0#8
def rRd : Res (List Byte) × State := readLocal (viaRemote 0) 0x200040 0x140 (takeArrival 0 (sArr pktR))
def sRd1 : State := rRd.2
def w35_11 := (sArr pktR)
def w35_12 := (arr pktR)
theorem witness_PacketRequestResults :
    (w35_1.fab.arrived[0]? = some w35_2 ∧
      w35_2.pkt.dest = w35_1.devNo ∧
      w35_2.pkt.src ≠ w35_1.devNo ∧
      w35_1.fab.placed = true ∧
      w35_1.rst.oos = false ∧
      ctxOfJob w35_1 w35_2.pkt.jobid = some 0 ∧
      w35_2.pkt.ptype = PType.atomAdd) ∧
    (w35_3.fab.arrived[0]? = some w35_4 ∧
      w35_4.pkt.dest = w35_3.devNo ∧
      w35_4.pkt.src ≠ w35_3.devNo ∧
      (w35_4.pkt.ptype = PType.read ∨ w35_4.pkt.ptype = PType.write ∨ w35_4.pkt.ptype = PType.atomAdd) ∧
      w35_3.fab.placed = true ∧
      w35_3.rst.oos = false ∧
      ctxOfJob w35_3 w35_4.pkt.jobid = none) ∧
    (w35_5.fab.arrived[0]? = some w35_6 ∧
      w35_6.pkt.dest = w35_5.devNo ∧
      w35_6.pkt.src ≠ w35_5.devNo ∧
      (w35_6.pkt.ptype = PType.read ∨ w35_6.pkt.ptype = PType.write ∨ w35_6.pkt.ptype = PType.atomAdd) ∧
      (w35_5.fab.placed = false ∨ w35_5.rst.oos = true)) ∧
    (w35_7.fab.arrived[0]? = some w35_8 ∧
      w35_8.pkt.dest = w35_7.devNo ∧
      w35_8.pkt.src ≠ w35_7.devNo ∧
      w35_7.fab.placed = true ∧
      w35_7.rst.oos = false ∧
      ctxOfJob w35_7 w35_8.pkt.jobid = some 0 ∧
      w35_8.pkt.ptype = PType.write ∧
      rangeShut w35_7 0 w35_8.pkt.loc.toNat w35_8.pkt.data.length = false ∧
      writeLocal (viaRemote 0) w35_8.pkt.loc.toNat w35_8.pkt.data (takeArrival 0 w35_7) = (Res.ok (), sWr2) ∧
      sWr2.fab = (takeArrival 0 w35_7).fab) ∧
    (w35_9.fab.arrived[0]? = some w35_10 ∧
      w35_10.pkt.dest = w35_9.devNo ∧
      w35_10.pkt.src ≠ w35_9.devNo ∧
      w35_9.fab.placed = true ∧
      w35_9.rst.oos = false ∧
      ctxOfJob w35_9 w35_10.pkt.jobid = some 0 ∧
      w35_10.pkt.ptype = PType.write ∧
      rangeShut w35_9 0 w35_10.pkt.loc.toNat w35_10.pkt.data.length = false ∧
      writeLocal (viaRemote 0) w35_10.pkt.loc.toNat w35_10.pkt.data (takeArrival 0 w35_9) = (Res.err MFault.xlate 1073741824, sWrF)) ∧
    (w35_11.fab.arrived[0]? = some w35_12 ∧
      w35_12.pkt.dest = w35_11.devNo ∧
      w35_12.pkt.src ≠ w35_11.devNo ∧
      w35_11.fab.placed = true ∧
      w35_11.rst.oos = false ∧
      ctxOfJob w35_11 w35_12.pkt.jobid = some 0 ∧
      w35_12.pkt.ptype = PType.read ∧
      rangeShut w35_11 0 w35_12.pkt.loc.toNat w35_12.pkt.len.toNat = false ∧
      readLocal (viaRemote 0) w35_12.pkt.loc.toNat w35_12.pkt.len.toNat (takeArrival 0 w35_11) = (Res.ok bRd, sRd1) ∧
      sRd1.fab = (takeArrival 0 w35_11).fab) :=
  by and_intros <;> decide +kernel
/-! PacketReplyResults -/
def sRep (q : Packet) (r : StreamReq) : State := { baseTile { tags := [(3, some r)] } 0 with fab := { fb with arrived :=
  [{ port := some 0, pkt := q, esc := none }] } }
def pRep : Packet := { pkt with ptype := .replyData, src := 5, handle := BitVec.ofNat 32 (3 + 5 * 2 ^ 17), data := List.replicate 64 6#8, loc := 0x200040 }
def rqIn : StreamReq := { inbound := true, sram := 512, ga := BitVec.ofNat 64 (5 * 2 ^ 42 + 0x200040), len := 128, pc := 4, sentAt := 0, waiting := false, order := 0, wake := none, refHit := false, doneLen := 0, data := [], rgen := 0, discard := false }
def w36_1 := (sRep pRep rqIn)
def w36_2 := (arr pRep)
def pAck : Packet := { pRep with ptype := .replyAck }
def rqOut : StreamReq := { rqIn with inbound := false, data := List.replicate 128 1#8 }
def w36_3 := (sRep pAck rqOut)
def w36_4 := (arr pAck)
def pFlt : Packet := { pRep with ptype := .replyFault, reason := 4 }
def w36_5 := (sRep pFlt rqOut)
def w36_6 := (arr pFlt)
def w36_7 := ((sRep pRep rqIn).setPart 0 { rgen := 1 })
def w36_8 := (arr pRep)
/-- A write of two packets at 4 TiB - 256, whose second part lies beyond 4 TiB - 1; the first is acknowledged. -/
def rqTop : StreamReq := { rqOut with ga := BitVec.ofNat 64 (5 * 2 ^ 42 + 0x3FFFFFFFF00), len := 320, data := List.replicate 320 1#8 }
def pTop : Packet := { pAck with loc := 0x3FFFFFFFF00 }
def w36_9 := (sRep pTop rqTop)
def w36_10 := (arr pTop)
theorem witness_PacketReplyResults :
    (w36_1.fab.arrived[0]? = some w36_2 ∧
      w36_2.pkt.dest = w36_1.devNo ∧
      w36_2.pkt.handle.toNat < 2 ^ 31 ∧
      (w36_1.part (tilePart (handleTile w36_2.pkt))).rgen = w36_2.pkt.rgen ∧
      repliesTo w36_1 w36_2.pkt = true ∧
      (w36_1.tile (handleTile w36_2.pkt)).held = none ∧
      w36_2.pkt.handle.toNat < 2 ^ 30 ∧
      replyReq w36_1 w36_2.pkt = some (3, rqIn) ∧
      (∀ e ∈ (w36_1.tile (handleTile w36_2.pkt)).tags, ∀ (z : StreamReq), e.2 = some z → z.waiting = false) ∧
      w36_2.pkt.ptype = PType.replyData ∧
      rqIn.inbound = true ∧
      reqLocal rqIn 0 ≤ w36_2.pkt.loc.toNat ∧
      w36_2.pkt.loc.toNat + w36_2.pkt.data.length ≤ reqLocal rqIn 0 + rqIn.len) ∧
    (w36_3.fab.arrived[0]? = some w36_4 ∧
      w36_4.pkt.dest = w36_3.devNo ∧
      w36_4.pkt.handle.toNat < 2 ^ 31 ∧
      (w36_3.part (tilePart (handleTile w36_4.pkt))).rgen = w36_4.pkt.rgen ∧
      repliesTo w36_3 w36_4.pkt = true ∧
      (w36_3.tile (handleTile w36_4.pkt)).held = none ∧
      w36_4.pkt.handle.toNat < 2 ^ 30 ∧
      replyReq w36_3 w36_4.pkt = some (3, rqOut) ∧
      (∀ e ∈ (w36_3.tile (handleTile w36_4.pkt)).tags, ∀ (z : StreamReq), e.2 = some z → z.waiting = false) ∧
      w36_4.pkt.ptype = PType.replyAck ∧
      rqOut.inbound = false ∧
      beyond rqOut = none ∧
      1 ≠ handleTile w36_4.pkt) ∧
    (w36_5.fab.arrived[0]? = some w36_6 ∧
      w36_6.pkt.dest = w36_5.devNo ∧
      w36_6.pkt.handle.toNat < 2 ^ 31 ∧
      (w36_5.part (tilePart (handleTile w36_6.pkt))).rgen = w36_6.pkt.rgen ∧
      repliesTo w36_5 w36_6.pkt = true ∧
      (w36_5.tile (handleTile w36_6.pkt)).held = none ∧
      w36_6.pkt.handle.toNat < 2 ^ 30 ∧
      replyReq w36_5 w36_6.pkt = some (3, rqOut) ∧
      (∀ e ∈ (w36_5.tile (handleTile w36_6.pkt)).tags, ∀ (z : StreamReq), e.2 = some z → z.waiting = false) ∧
      w36_6.pkt.ptype = PType.replyFault) ∧
    (w36_7.fab.arrived[0]? = some w36_8 ∧
      w36_8.pkt.dest = w36_7.devNo ∧
      w36_8.pkt.handle.toNat < 2 ^ 31 ∧
      (w36_8.pkt.ptype = PType.replyData ∨ w36_8.pkt.ptype = PType.replyAck ∨ w36_8.pkt.ptype = PType.replyFault) ∧
      (w36_7.part (tilePart (handleTile w36_8.pkt))).rgen ≠ w36_8.pkt.rgen) ∧
    (w36_9.fab.arrived[0]? = some w36_10 ∧
      w36_10.pkt.dest = w36_9.devNo ∧
      w36_10.pkt.handle.toNat < 2 ^ 30 ∧
      (w36_9.part (tilePart (handleTile w36_10.pkt))).rgen = w36_10.pkt.rgen ∧
      repliesTo w36_9 w36_10.pkt = true ∧
      (w36_9.tile (handleTile w36_10.pkt)).held = none ∧
      replyReq w36_9 w36_10.pkt = some (3, rqTop) ∧
      (∀ e ∈ (w36_9.tile (handleTile w36_10.pkt)).tags, ∀ (z : StreamReq), e.2 = some z → z.waiting = false) ∧
      w36_10.pkt.ptype = PType.replyAck ∧
      rqTop.inbound = false ∧
      (packetCuts rqTop).length ≤ rqTop.doneLen + 1 ∧
      beyond rqTop = some 256) :=
  ⟨by decide +kernel, by decide +kernel, by decide +kernel, by decide +kernel, by decide +kernel⟩
/-! RoutingResults -/
def sQ (q : Queued) (ports : Tbl Port) (now : BitVec 64) : State := { base with fab := { fb with queue := [q], ports := ports }, stroke := { now := now } }
def qd (d : BitVec 14) (e : Option (Nat × Bool)) : Queued := { pkt := { pkt with dest := d }, since := 0, esc := e }
def up4 : Tbl Port := [(0, { st := .up }), (1, { st := .up }), (2, { st := .up }), (3, { st := .up })]
def cr (l : List (Nat × Nat × Nat)) : List Credits := l.map fun c => { adaptive := c.1, esc0 := c.2.1, esc1 := c.2.2 }
def crA : List Credits := cr [(1, 0, 0), (2, 0, 0), (2, 0, 0), (0, 0, 0)]
def w37_1 := (sQ (qd 66 none) up4 5)
def w37_2 := (qd 66 none)
def qn : Queued := qd 65 none
def cr1 : List Credits := cr [(0, 1, 0), (0, 0, 0)]
def w37_4 := (sQ qn up4 5)
def cr2 : List Credits := cr [(0, 0, 0), (0, 1, 0)]
def w37_5 := (sQ qn up4 5)
def cr3 : List Credits := cr [(0, 0, 1), (0, 0, 1)]
def w37_6 := (sQ qn up4 5)
def w37_8 := (sQ qn up4 100000)
def w37_9 := (sQ qn [] 5)
def qr : Queued := { pkt := { pkt with ptype := .replyAck, dest := 65 }, since := 0, esc := none }
def w37_10 := (sQ qr up4 100001)
def cr0 : List Credits := cr [(0, 1, 0), (0, 1, 0)]
def qe : Queued := qd 65 (some (0, true))
theorem witness_RoutingResults :
    (w37_1.fab.queue[0]? = some w37_2 ∧
      w37_2.esc = none ∧
      1 ∈ productive w37_1.fab w37_2.pkt.dest.toNat ∧
      (w37_1.port 1).room w37_2.pkt = true ∧
      0 < (creditOf crA 1).adaptive ∧
      (∀ m ∈ productive w37_1.fab w37_2.pkt.dest.toNat, (w37_1.port m).room w37_2.pkt = true → (creditOf crA m).adaptive < (creditOf crA 1).adaptive ∨ (creditOf crA m).adaptive = (creditOf crA 1).adaptive ∧ 1 ≤ m)) ∧
    (w37_4.fab.queue[0]? = some qn ∧
      ((∀ m ∈ productive w37_4.fab qn.pkt.dest.toNat, (w37_4.port m).room qn.pkt = true → (creditOf cr1 m).adaptive = 0) ∨ qn.esc ≠ none) ∧
      escapePorts w37_4.fab qn.pkt.dest.toNat = some (0, [0, 1]) ∧
      ((w37_4.port 0).room qn.pkt = true ∧ 0 < if decide (qn.esc = some (0, true)) = true then (creditOf cr1 0).esc1 else (creditOf cr1 0).esc0) ∧
      (¬((w37_4.port 1).room qn.pkt = true ∧ 0 < if decide (qn.esc = some (0, true)) = true then (creditOf cr1 1).esc1 else (creditOf cr1 1).esc0))) ∧
    (w37_5.fab.queue[0]? = some qn ∧
      ((∀ m ∈ productive w37_5.fab qn.pkt.dest.toNat, (w37_5.port m).room qn.pkt = true → (creditOf cr2 m).adaptive = 0) ∨ qn.esc ≠ none) ∧
      escapePorts w37_5.fab qn.pkt.dest.toNat = some (0, [0, 1]) ∧
      (¬((w37_5.port 0).room qn.pkt = true ∧ 0 < if decide (qn.esc = some (0, true)) = true then (creditOf cr2 0).esc1 else (creditOf cr2 0).esc0)) ∧
      ((w37_5.port 1).room qn.pkt = true ∧ 0 < if decide (qn.esc = some (0, true)) = true then (creditOf cr2 1).esc1 else (creditOf cr2 1).esc0)) ∧
    (w37_6.fab.queue[0]? = some qn ∧
      ((∀ m ∈ productive w37_6.fab qn.pkt.dest.toNat, (w37_6.port m).room qn.pkt = true → (creditOf cr3 m).adaptive = 0) ∨ qn.esc ≠ none) ∧
      escapePorts w37_6.fab qn.pkt.dest.toNat = some (0, [0, 1]) ∧
      (¬((w37_6.port 0).room qn.pkt = true ∧ 0 < if decide (qn.esc = some (0, true)) = true then (creditOf cr3 0).esc1 else (creditOf cr3 0).esc0)) ∧
      (¬((w37_6.port 1).room qn.pkt = true ∧ 0 < if decide (qn.esc = some (0, true)) = true then (creditOf cr3 1).esc1 else (creditOf cr3 1).esc0))) ∧
    (w37_8.fab.queue[0]? = some qn ∧
      (∃ n ∈ productive w37_8.fab qn.pkt.dest.toNat, (w37_8.port n).st = PState.up) ∧
      w37_8.since qn.since ≤ 100000) ∧
    (w37_9.fab.queue[0]? = some qn ∧
      ((∀ n ∈ productive w37_9.fab qn.pkt.dest.toNat, (w37_9.port n).st ≠ PState.up) ∨ 100000 < w37_9.since qn.since) ∧
      isRequest qn.pkt.ptype = true ∧
      qn.pkt.src ≠ w37_9.devNo) ∧
    (w37_10.fab.queue[0]? = some qr ∧
      ((∀ n ∈ productive w37_10.fab qr.pkt.dest.toNat, (w37_10.port n).st ≠ PState.up) ∨ 100000 < w37_10.since qr.since) ∧
      isRequest qr.pkt.ptype = false) ∧
    ((sQ qn up4 5).fab.queue[0]? = some qn ∧
      ((∀ m ∈ productive (sQ qn up4 5).fab qn.pkt.dest.toNat, ((sQ qn up4 5).port m).room qn.pkt = true → (creditOf cr0 m).adaptive = 0) ∨ qn.esc ≠ none) ∧
      escapePorts (sQ qn up4 5).fab qn.pkt.dest.toNat = some (0, [0, 1]) ∧
      (((sQ qn up4 5).port 0).room qn.pkt = true ∧ 0 < if decide (qn.esc = some (0, true)) = true then (creditOf cr0 0).esc1 else (creditOf cr0 0).esc0) ∧
      (((sQ qn up4 5).port 1).room qn.pkt = true ∧ 0 < if decide (qn.esc = some (0, true)) = true then (creditOf cr0 1).esc1 else (creditOf cr0 1).esc0)) ∧
    ((sQ qe up4 5).fab.queue[0]? = some qe ∧
      ((∀ m ∈ productive (sQ qe up4 5).fab qe.pkt.dest.toNat, ((sQ qe up4 5).port m).room qe.pkt = true → (creditOf cr3 m).adaptive = 0) ∨ qe.esc ≠ none) ∧
      escapePorts (sQ qe up4 5).fab qe.pkt.dest.toNat = some (0, [0, 1]) ∧
      (((sQ qe up4 5).port 0).room qe.pkt = true ∧ 0 < if decide (qe.esc = some (0, true)) = true then (creditOf cr3 0).esc1 else (creditOf cr3 0).esc0) ∧
      (((sQ qe up4 5).port 1).room qe.pkt = true ∧ 0 < if decide (qe.esc = some (0, true)) = true then (creditOf cr3 1).esc1 else (creditOf cr3 1).esc0)) :=
  by and_intros <;> decide +kernel
/-! CombinerResults -/
def pA : Packet := { pkt with ptype := .atomAdd, dest := 65 }
def sC (c : List Comb) (en : Bool) : State := { base with fab := { fb with arrived := [arr pA], comb := c, combEn := en
  } }
def ce (n : Nat) (sl : Option Nat) : Comb := { dest := 65, jobid := 0, loc := 0x200040, value := 0x3F800000, recs := List.replicate n { src := 9, handle := 3, rgen := 1 }, slot := sl, entered := 0, esc := none }
def w38_1 := sC [ce 1 none] true
/-- The only entry of the key waits in an output queue. -/
def w38_2 : State := let s := sC [] true; { s with fab := { s.fab with
  queue := [qn, { pkt := pA, since := 0, esc := none, entry := some (ce 2 (some 5)) }] } }
def w38_4 := sC [ce 8 none] true
def w38_5 := sC [ce 3 none] false
def w38_7 := sC [] false
def sFull256 : State := sC (List.replicate 256 { ce 1 none with loc := 64 }) true
def sH (now : BitVec 64) : State := { base with fab := { fb with comb := [ce 2 (some 7)], holdNs := 100 }, stroke := {
  now := now } }
def w38_11 := (sH 99)
def w38_12 := (ce 2 (some 7))
def w38_13 := (sH 100)
def w38_14 := (ce 2 (some 7))
def aSlot : Arrival := arr { pkt with ptype := .replyAck, handle := 0x80000007 }
def ps : PendSlot := { recs := [{ src := 9, handle := 3, rgen := 1 }, { src := 10, handle := 4, rgen := 0 }], sent := 0
  }
def w38_15 := { base with fab := { fb with arrived := [aSlot], slots := [(7, some ps)] } }
def sSlot (now : BitVec 64) : State := { base with fab := { fb with slots := [(7, some ps)] }, stroke := { now := now }
  }
def k7 : Fin 512 := 7
def w38_16 := (sSlot 2000000)
def w38_17 := (sSlot 1999999)
theorem witness_CombinerResults :
    (∀ s ∈ [w38_1, w38_2, w38_4, w38_5, w38_7], s.fab.arrived[0]? = some (arr pA) ∧ pA.ptype = .atomAdd ∧ pA.dest ≠ s.devNo) ∧
    (w38_1.fab.comb.findIdx? (Comb.keyed pA) = some 0 ∧
      w38_1.fab.comb[0]? = some (ce 1 none) ∧
      w38_1.fab.combEn = true ∧
      (ce 1 none).recs.length < 8 ∧
      (if (ce 1 none).slot.isSome then (ce 1 none).slot else freeSlot w38_1.fab) = some 0) ∧
    (w38_2.fab.comb.findIdx? (Comb.keyed pA) = none ∧
      w38_2.fab.queue.findIdx? (fun w => w.entry.any (Comb.keyed pA)) = some 1 ∧
      (w38_2.fab.queue[1]?.bind (·.entry)) = some (ce 2 (some 5)) ∧
      w38_2.fab.combEn = true ∧
      (ce 2 (some 5)).recs.length < 8 ∧
      (if (ce 2 (some 5)).slot.isSome then (ce 2 (some 5)).slot else freeSlot w38_2.fab) = some 5) ∧
    ((entries w38_4.fab).find? (Comb.keyed pA) = some (ce 8 none) ∧
      8 ≤ (ce 8 none).recs.length) ∧
    ((entries w38_5.fab).find? (Comb.keyed pA) = some (ce 3 none) ∧
      w38_5.fab.combEn = false) ∧
    ((entries w38_7.fab).find? (Comb.keyed pA) = none ∧
      (entries w38_7.fab).length < 256) ∧
    ((entries sFull256.fab).find? (Comb.keyed pA) = none ∧
      256 ≤ (entries sFull256.fab).length ∧
      sFull256.fab.arrived[0]? = some (arr pA)) ∧
    (w38_11.fab.comb[0]? = some w38_12 ∧
      w38_11.since w38_12.entered < w38_11.fab.holdNs) ∧
    (w38_13.fab.comb[0]? = some w38_14 ∧
      w38_13.fab.holdNs ≤ w38_13.since w38_14.entered) ∧
    (w38_15.fab.arrived[0]? = some aSlot ∧
      (aSlot.pkt.ptype = PType.replyAck ∨ aSlot.pkt.ptype = PType.replyFault) ∧
      aSlot.pkt.dest = w38_15.devNo ∧
      aSlot.pkt.handle.toNat = 2 ^ 31 + 7 ∧
      Tbl.look none 7 w38_15.fab.slots = some ps ∧
      (∀ r ∈ ps.recs, r.src ≠ w38_15.devNo)) ∧
    (Tbl.look none k7.val w38_16.fab.slots = some ps ∧
      2000000 ≤ w38_16.since ps.sent) ∧
    (Tbl.look none k7.val w38_17.fab.slots = some ps ∧
      w38_17.since ps.sent < 2000000) :=
  by and_intros <;> decide +kernel
/-! EasyAllResults -/
def w39_1 := { base with fab := fb }
def pE : Packet := { pkt with ptype := .easyAll, jobid := 9, src := 70, stroke := 55, reason := 0x10, dest := 0 }
def sE (t : List Triple) : State := { base with fab := { fb with arrived := [arr pE], triples := t }, ctxs := base.ctxs.map fun e => (e.1, { e.2 with jobid := 9, exec := some launchA }) }
def tr : Triple := { job := 9, origin := 70, stroke := 55, boot := false, kept := 0 }
def w39_2 := (sE [tr])
def w39_3 := (arr pE)
def w39_4 := (sE [])
def w39_5 := (arr pE)
def w39_6 := ((sE []).modCtx 0 fun k => { k with exec := none })
def w39_7 := (arr pE)
def w39_8 := ((sE []).modCtx 0 fun k => { k with jobAt := 56 })
def w39_9 := (arr pE)
def sEnone : State := (sE []).modCtx 0 fun k => { k with exec := none }
def sElate : State := (sE []).modCtx 0 fun k => { k with jobAt := 56 }
theorem witness_EasyAllResults :
    (base.alive = true ∧
      0#32 = 0#32) ∧
    (w39_1.alive = true ∧
      7#32 ≠ 0#32) ∧
    (w39_2.fab.arrived[0]? = some w39_3 ∧
      w39_3.pkt.ptype = PType.easyAll ∧
      (∃ t ∈ w39_2.fab.triples, w39_2.since t.kept < 1000000 ∧ t.boot = false ∧ t.job = w39_3.pkt.jobid ∧ t.origin = w39_3.pkt.src ∧ t.stroke = w39_3.pkt.stroke)) ∧
    (w39_4.fab.arrived[0]? = some w39_5 ∧
      w39_5.pkt.ptype = PType.easyAll ∧
      (¬∃ t ∈ w39_4.fab.triples, w39_4.since t.kept < 1000000 ∧ t.boot = false ∧ t.job = w39_5.pkt.jobid ∧ t.origin = w39_5.pkt.src ∧ t.stroke = w39_5.pkt.stroke) ∧
      ctxOfJob w39_4 w39_5.pkt.jobid = some 0 ∧
      (w39_4.ctx 0).st = CState.running ∧
      notAfter (w39_4.ctx 0).jobAt w39_5.pkt.stroke = true ∧
      (w39_4.ctx 0).exec = some launchA ∧
      launchA.ending = none ∧
      launchA.began = true ∧
      (w39_4.ctx 0).abort = none) ∧
    (w39_6.fab.arrived[0]? = some w39_7 ∧
      w39_7.pkt.ptype = PType.easyAll ∧
      (¬∃ t ∈ w39_6.fab.triples, w39_6.since t.kept < 1000000 ∧ t.boot = false ∧ t.job = w39_7.pkt.jobid ∧ t.origin = w39_7.pkt.src ∧ t.stroke = w39_7.pkt.stroke) ∧
      ctxOfJob w39_6 w39_7.pkt.jobid = some 0 ∧
      (w39_6.ctx 0).st = CState.running ∧
      notAfter (w39_6.ctx 0).jobAt w39_7.pkt.stroke = true ∧
      (w39_6.ctx 0).exec = none ∧
      (w39_6.ctx 0).en = true) ∧
    (w39_8.fab.arrived[0]? = some w39_9 ∧
      w39_9.pkt.ptype = PType.easyAll ∧
      (¬∃ t ∈ w39_8.fab.triples, w39_8.since t.kept < 1000000 ∧ t.boot = false ∧ t.job = w39_9.pkt.jobid ∧ t.origin = w39_9.pkt.src ∧ t.stroke = w39_9.pkt.stroke) ∧
      ctxOfJob w39_8 w39_9.pkt.jobid = some 0 ∧
      (w39_8.ctx 0).st = CState.running ∧
      notAfter (w39_8.ctx 0).jobAt w39_9.pkt.stroke = false) ∧
    (sEnone.fab.arrived[0]? = some (arr pE) ∧
      (arr pE).pkt.ptype = .easyAll ∧
      (¬ ∃ t ∈ sEnone.fab.triples, sEnone.since t.kept < 1000000 ∧ t.boot = false ∧ t.job = pE.jobid ∧ t.origin = pE.src ∧ t.stroke = pE.stroke) ∧
      ctxOfJob sEnone pE.jobid = some 0 ∧
      (sEnone.ctx 0).st = .running ∧
      notAfter (sEnone.ctx 0).jobAt pE.stroke = true ∧
      (sEnone.ctx 0).exec = none ∧
      (sEnone.ctx 0).en = true) ∧
    (sElate.fab.arrived[0]? = some (arr pE) ∧
      (arr pE).pkt.ptype = .easyAll ∧
      (¬ ∃ t ∈ sElate.fab.triples, sElate.since t.kept < 1000000 ∧ t.boot = false ∧ t.job = pE.jobid ∧ t.origin = pE.src ∧ t.stroke = pE.stroke) ∧
      ctxOfJob sElate pE.jobid = some 0 ∧
      (sElate.ctx 0).st = .running ∧
      notAfter (sElate.ctx 0).jobAt pE.stroke = false) :=
  by and_intros <;> decide +kernel
/-! StrokeResults -/
def w40_1 := { base with card := { base.card with power := false } }
def sUpF (x : Port) (now : BitVec 64) (k : Stroke) : State := { base with fab := { fb with ports := [(0, x)] }, stroke
  := { k with now := now } }
def w40_2 := (sUpF { st := .up } 5 {})
def w40_3 := (sUpF { st := .up, markTx := some 5 } 8197 {})
def w40_4 := (sUpF { st := .up, markTx := some 5 } 8196 {})
def sM (run : Nat) : State := sUpF { st := .up, markTx := some 900, advert := some ad } 1100 { st := .acquire, ever := true, parent := some 0, run := run }
def mk : Marker := { sent := 1000, echo := some 900, master := 3, hops := 2, ann := 10 }
def w40_5 := (sM 14)
def w40_6 := (sM 15)
def w40_7 := { mk with sent := 1000 }
def w40_8 := (sUpF { st := .up, markTx := some 900, advert := some ad } 1000 { st := .acquire, ever := true, parent := some 0, run := 15 })
def w40_9 := (sUpF { st := .up, markRx := some 5 } 32773 { st := .locked, parent := some 0 })
def w40_10 := (sUpF { st := .up, markRx := some 5 } 32772 { st := .locked, parent := some 0 })
def w40_11 := { base with fab := fb, stroke := { st := .holdover } }
theorem witness_StrokeResults :
    (((w40_2.port n0.val).markTx = none ∨ ∃ a, (w40_2.port n0.val).markTx = some a ∧ 8192 ≤ w40_2.since a) ∧
      (w40_2.port n0.val).st = PState.up ∧
      1 ≠ n0.val) ∧
    (((w40_3.port n0.val).markTx = none ∨ ∃ a, (w40_3.port n0.val).markTx = some a ∧ 8192 ≤ w40_3.since a) ∧
      (w40_3.port n0.val).st = PState.up ∧
      1 ≠ n0.val) ∧
    ((w40_4.port n0.val).st = PState.up ∧
      (w40_4.port n0.val).markTx = some 5#64 ∧
      w40_4.since 5#64 < 8192) ∧
    ((∀ (k : Nat), k ≠ n0.val → (w40_5.port k).advert = none) ∧
      (w40_5.port n0.val).st = PState.up ∧
      (w40_5.port n0.val).markTx = some 900#64 ∧
      (w40_5.port n0.val).advert = some ad ∧
      ad.master = mk.master ∧
      mk.hops ≤ 1024 ∧
      0 < (mk.ann - ad.ann).toInt ∧
      mk.master.toNat < w40_5.devNo.toNat ∧
      w40_5.stroke.st = SState.acquire ∧
      w40_5.stroke.ever = true ∧
      w40_5.stroke.parent = some n0 ∧
      w40_5.stroke.run < 15) ∧
    ((∀ (k : Nat), k ≠ n0.val → (w40_6.port k).advert = none) ∧
      (w40_6.port n0.val).st = PState.up ∧
      (w40_6.port n0.val).markTx = some 900#64 ∧
      (w40_6.port n0.val).advert = some ad ∧
      ad.master = w40_7.master ∧
      w40_7.hops ≤ 1024 ∧
      0 < (w40_7.ann - ad.ann).toInt ∧
      w40_7.master.toNat < w40_6.devNo.toNat ∧
      w40_6.stroke.st = SState.acquire) ∧
    ((∀ (k : Nat), k ≠ n0.val → (w40_8.port k).advert = none) ∧
      (w40_8.port n0.val).st = PState.up ∧
      (w40_8.port n0.val).markTx = some 900#64 ∧
      (w40_8.port n0.val).advert = some ad ∧
      ad.master = mk.master ∧
      mk.hops ≤ 1024 ∧
      0 < (mk.ann - ad.ann).toInt ∧
      mk.master.toNat < w40_8.devNo.toNat ∧
      w40_8.stroke.st = SState.acquire ∧
      w40_8.stroke.ever = true ∧
      w40_8.stroke.parent = some n0 ∧
      w40_8.stroke.run = 15 ∧
      markerOffset w40_8 (w40_8.port n0.val) mk = some 0 ∧
      -32 ≤ (0 : Int) ∧
      (0 : Int) ≤ 32) ∧
    (((w40_9.port n0.val).st ≠ PState.up ∨ ∃ a, (w40_9.port n0.val).markRx = some a ∧ 32768 ≤ w40_9.since a) ∧
      w40_9.stroke.parent = some n0 ∧
      w40_9.stroke.st = SState.locked) ∧
    ((∀ (a : BitVec 64), (w40_10.port n0.val).markRx = some a → w40_10.since a < 32768) ∧
      w40_10.stroke.parent = some n0 ∧
      w40_10.stroke.st = SState.locked ∧
      (w40_10.port n0.val).st = PState.up) ∧
    (base.alive = true ∧
      (∀ e ∈ base.tiles, e.2.held = none)) ∧
    (w40_1.alive = false) ∧
    ((∀ n < 12, (w40_11.port n).advert = none) ∧
      w40_11.fab.placed = true ∧
      w40_11.stroke.st = SState.holdover) :=
  ⟨⟨.inl (by decide +kernel), by decide +kernel⟩,
   ⟨.inr ⟨5#64, by decide +kernel⟩, by decide +kernel⟩,
   by decide +kernel,
   ⟨(advertsAway_of (by decide +kernel)), by decide +kernel⟩,
   ⟨(advertsAway_of (by decide +kernel)), by decide +kernel⟩,
   ⟨(advertsAway_of (by decide +kernel)), by decide +kernel⟩,
   ⟨.inr ⟨5#64, by decide +kernel⟩, by decide +kernel⟩,
   ⟨(optAll_of (by decide +kernel)), by decide +kernel⟩,
   by decide +kernel, by decide +kernel, by decide +kernel⟩
/-! PowerSampleResults -/
def curHi : List Int := List.replicate 24 60000
def curLo : List Int := -2001 :: List.replicate 36 30000
def sPh : State := { base with pwr := { base.pwr with phases := [(0, { low := 2 })] } }
def curOp : List Int := 999 :: List.replicate 36 30000
def sPub : State := { base with pwr := { base.pwr with doms := [(0, { sumI := 100, sumV := 8500, n := 10 })] } }
theorem witness_PowerSampleResults :
    (base.alive = true ∧
      0 < 4 ∧
      (∀ i < 37, (phase base i).isOpen = false ∧ (phase base i).excl = false) ∧
      (↑(iLim base 0) < guarded (domCurrent base 0 (fun i => curHi.getD i 0)).1 (domCurrent base 0 (fun i => curHi.getD i 0)).2) ∧
      base.pwr.clamp < 3 ∧
      base.pwr.clamp = 0) ∧
    (base.alive = true ∧
      (∀ i < 37, (phase base i).isOpen = false ∧ (phase base i).excl = false) ∧
      (¬↑(iLim base 0) < guarded (domCurrent base 0 (fun i => curLo.getD i 0)).1 (domCurrent base 0 (fun i => curLo.getD i 0)).2 ∨ 3 ≤ base.pwr.clamp) ∧
      0 < 4 ∧
      0 ∈ goodPhases base 0 ∧
      curLo.getD 0 0 < -2000) ∧
    (sPh.alive = true ∧
      (∀ i < 37, (phase sPh i).isOpen = false ∧ (phase sPh i).excl = false) ∧
      (¬↑(iLim sPh 0) < guarded (domCurrent sPh 0 (fun i => curOp.getD i 0)).1 (domCurrent sPh 0 (fun i => curOp.getD i 0)).2 ∨ 3 ≤ sPh.pwr.clamp) ∧
      0 < 4 ∧
      0 ∈ goodPhases sPh 0 ∧
      (phase sPh 0).low = 2 ∧
      0 ≤ curOp.getD 0 0 ∧
      curOp.getD 0 0 < 1000 ∧
      (phase sPh 0).same < 99 ∧
      (10000 * ↑(goodPhases sPh 0).length < sumOf (fun i => curOp.getD i 0) (goodPhases sPh 0))) ∧
    (sPub.alive = true ∧
      0 < 4 ∧
      (dom sPub 0).n ≠ 0) :=
  ⟨by decide +kernel, by decide +kernel, by decide +kernel, by decide +kernel⟩
/-! GovernorResults -/
def w42_1 := { base with pwr := { base.pwr with short := true } }
def w42_2 := { base with boot := { base.boot with trained := false } }
def w42_3 := (base.setPart 0 { point := 15, nextPoint := some 3 })
def w42_4 := ((base.setPart 0 { point := 15, nextPoint := some 3 }).setPart 1 { nextPoint := some 4 })
/-- Out of service. -/
def w42_5 : State := { base with rst := { base.rst with oos := true } }
/-- A Cox restart after the governor's first pass. -/
def w42_6 : State := { base with rst := { base.rst with cox := some 0 }, pwr := { base.pwr with governed := true } }
theorem witness_GovernorResults :
    (base.alive = true ∧
      base.boot.cox = true ∧
      (base.rst.cox = none ∨ base.pwr.governed = false) ∧
      base.boot.trained = true ∧
      passIsDue base = true ∧
      0 < 8 ∧
      timedIn base 0 = false) ∧
    (w42_1.alive = true ∧
      w42_1.boot.cox = true ∧
      (w42_1.rst.cox = none ∨ w42_1.pwr.governed = false) ∧
      w42_1.boot.trained = true ∧
      passIsDue w42_1 = true ∧
      0 < 8 ∧
      timedIn w42_1 0 = false ∧
      w42_1.pwr.short = true) ∧
    (w42_5.alive = true ∧
      w42_5.boot.cox = true ∧
      (w42_5.rst.cox = none ∨ w42_5.pwr.governed = false) ∧
      w42_5.boot.trained = true ∧
      passIsDue w42_5 = true ∧
      timedIn w42_5 0 = false ∧
      w42_5.rst.oos = true) ∧
    (∀ s ∈ [w42_2, w42_6], s.alive = false ∨ s.boot.cox = false ∨ s.boot.trained = false ∨
      (s.rst.cox ≠ none ∧ s.pwr.governed = true)) ∧
    ((w42_3.part p0.val).nextPoint = some 3 ∧
      1 ≠ p0.val) ∧
    ((w42_4.part p0.val).nextPoint = some 3 ∧
      1 ≠ p0.val) ∧
    ((base.part p0.val).nextPoint = none) :=
  by and_intros <;> decide +kernel
/-! UmpireTrialResults -/
def w43_1 := { base with boot := { base.boot with cox := false } }
def sSw : State := { base with ump := { base.ump with tiles := (List.range 8).map (fun t => (t, { role := .enabled, ltile := t })), crews := [(0, { tiles := List.range 8, dueNom := true })], nCrews := [(0, 1)] }, boot := { base.boot with stage := .qualify, ready := false } }
def sWk (w : Work) : State := { sSw with ump := { sSw.ump with work := [w] } }
def wk0 : Work := { subject := .crew 0, margin := false, trial := 0, retry := none, isolation := false, power := 0, claimed := false, qsweeps := 4, clean := 3 }
def wkR : Work := { wk0 with retry := some [0] }
def wkM : Work := { wkR with margin := true }
/-- Tile 0 passes, or halts in time with another SIG. -/
def runOk : TrialRun := { tile := 0, halted := some 80000, trap := none, sig := 7, want := 7, ces := 0 }
def runBad : TrialRun := { runOk with sig := 6 }
/-- What TRIAL_COMPLETE looks at: the runs of its own tiles, and the tiles that failed. -/
def mineOf (w : Work) (l : List TrialRun) : List TrialRun := l.filter (fun r => (subjTiles (sWk w) w.subject).contains r.tile.val)
def hitOf (w : Work) (l : List TrialRun) : List Nat := ((mineOf w l).filter (fun r => !trialPass w.trial r)).map (·.tile.val)
/-- A quarantined tile of no crew, in an isolation sweep. -/
def wkI : Work := { wk0 with subject := .tile 900, isolation := true }
def sIso : State := let s := sWk wkI; s.setUtile 900 { role := .out, st := .quarantined, cause := 2 }
def runI : TrialRun := { runBad with tile := 900 }
theorem witness_UmpireTrialResults :
    (umpWorks w43_1 = false) ∧
    (umpWorks sSw = true ∧
      execs sSw = [] ∧
      (sSw.boot.stage = Stage.qualify ∨ sSw.boot.stage = Stage.ready) ∧
      (listMin (startBefore sSw) (List.filter (mayStart sSw) (allDue sSw))).isSome = true) ∧
    (∀ w ∈ [wk0, wkR, wkM], (sWk w).ump.work[0]? = some w ∧ umpWorks (sWk w) = true ∧ stale (sWk w) w = false) ∧
    (wk0.retry = none ∧
      hitOf wk0 [runOk] = [] ∧
      wk0.trial + 1 < wk0.subject.trials ∧
      stale (forList trialReport (mineOf wk0 [runOk]) (sWk wk0)) wk0 = false ∧
      mayGoOn (setResume wk0.subject (wk0.trial + 1) wk0.margin (forList trialReport (mineOf wk0 [runOk]) (sWk wk0))) wk0 = true) ∧
    (wk0.retry = none ∧
      hitOf wk0 [runBad] ≠ [] ∧
      wk0.isolation = false) ∧
    (sIso.ump.work[0]? = some wkI ∧
      umpWorks sIso = true ∧
      stale sIso wkI = false ∧
      wkI.retry = none ∧
      wkI.isolation = true ∧
      wkI.subject = .tile 900 ∧
      (subjTiles sIso wkI.subject).contains runI.tile.val = true ∧
      trialPass wkI.trial runI = false) ∧
    (∀ w ∈ [wkR, wkM], w.retry = some [0] ∧ w.subject = .crew 0 ∧ ((sWk w).utile 0).gcrew = 0 ∧
      ((sWk w).utile 0).role = .enabled ∧ ((sWk w).utile 0).st = .active ∧ ((sWk w).utile 0).wasCleared = false ∧
      w.trial + 1 < 22 ∧ 0 ∈ hitOf w [runBad] ∧ 0 ∉ hitOf w [runOk] ∧
      (∀ r ∈ mineOf w [runBad], r.ces = 0 ∧ r.trap = none) ∧ ∀ r ∈ mineOf w [runOk], r.ces = 0 ∧ r.trap = none) ∧
    (wkR.margin = false ∧
      wkM.margin = true) ∧
    (trialPass 0 runOk = true ∧
      trialPass 0 { runOk with halted := some 80001 } = false) := by
  and_intros <;> decide +kernel
/-! PairCheckResults -/
def xPr (p : Pair) : Exec := { launchA with tiles := (List.range 8).map (fun k => (0, k, k)), ranAt := some 0, pair := some p }
def sPr (p : Pair) (run : TRun) (sg : BitVec 64) : State := { (base.modCtx 0 fun k => { k with exec := some (xPr p) }) with tiles := (List.range 24).map (fun t => (t, { run := if t = 3 then run else .halted, sig := if t = 2 then sg else 7, job := .launch })), ump := { base.ump with crews := [(0, { tiles := List.range 8 }), (1, { tiles := (List.range 8).map (8 + ·), partnerOf := some 0 }), (2, { tiles := (List.range 8).map (16 + ·) })], tiles := (List.range 24).map (fun t => (t, { role := .enabled, gcrew := t / 8, ltile := t % 8 })) } }
def pr : Pair := { crew := 0, gChk := 0, gPart := some 1, gThird := none, pTiles := [8, 9, 10, 11, 12, 13, 14, 15], mism := [], power := 0 }
def xP : Exec := xPr pr
def w44_1 := (sPr pr .running 7)
def w44_2 := (sPr pr .halted 7)
def w44_3 := (sPr pr .halted 9)
def prT (g : Option (BitVec 64)) : Pair := { pr with gPart := none, gThird := some 2, mism := [(2, g)] }
def s7 : Option (BitVec 64) := some 7
def w44_4 := (sPr (prT s7) .halted 9)
def w44_5 := (xPr (prT s7))
def w44_6 := (prT s7)
def s8 : Option (BitVec 64) := some 8
def w44_7 := (sPr (prT s8) .halted 7)
def w44_8 := (xPr (prT s8))
def w44_9 := (prT s8)
def w44_10 := (sPr (prT s8) .halted 9)
def w44_11 := (xPr (prT s8))
def w44_12 := (prT s8)
theorem witness_PairCheckResults :
    ((w44_1.ctx c0.val).exec = some xP ∧
      xP.pair = some pr ∧
      pr.gPart ≠ none ∧
      umpWorks w44_1 = true ∧
      xP.ranAt.isSome = true ∧
      ((∃ k < 8, (w44_1.tile (chkTile xP pr k)).run ≠ TRun.halted) ∨ ∃ t ∈ pr.pTiles, replayOver w44_1 t = false)) ∧
    ((w44_2.ctx c0.val).exec = some xP ∧
      xP.pair = some pr ∧
      pr.gPart ≠ none ∧
      umpWorks w44_2 = true ∧
      xP.ranAt.isSome = true ∧
      (∀ k < 8, (w44_2.tile (chkTile xP pr k)).run = TRun.halted) ∧
      (∀ t ∈ pr.pTiles, replayOver w44_2 t = true) ∧
      (List.filter (fun e => decide (e.2 ≠ some (w44_2.tile (chkTile xP pr e.1)).sig)) (List.map (fun k => (k, replaySig w44_2 (pr.pTiles.getD k 0))) (List.range 8)) = [])) ∧
    ((w44_3.ctx c0.val).exec = some xP ∧
      xP.pair = some pr ∧
      pr.gPart ≠ none ∧
      umpWorks w44_3 = true ∧
      xP.ranAt.isSome = true ∧
      (∀ k < 8, (w44_3.tile (chkTile xP pr k)).run = TRun.halted) ∧
      (∀ t ∈ pr.pTiles, replayOver w44_3 t = true) ∧
      (List.filter (fun e => decide (e.2 ≠ some (w44_3.tile (chkTile xP pr e.1)).sig)) (List.map (fun k => (k, replaySig w44_3 (pr.pTiles.getD k 0))) (List.range 8)) ≠ [])) ∧
    ((w44_4.ctx c0.val).exec = some w44_5 ∧
      w44_5.pair = some w44_6 ∧
      w44_6.gThird = some 2 ∧
      w44_6.gPart = none ∧
      w44_6.mism = [(2, s7)] ∧
      umpWorks w44_4 = true ∧
      (∀ t ∈ (w44_4.crew 2).tiles, replayOver w44_4 t = true) ∧
      chkTile w44_5 w44_6 2 ≠ w44_6.pTiles.getD 2 0 ∧
      chkTile w44_5 w44_6 2 ≠ (w44_4.crew 2).tiles.getD 2 0 ∧
      w44_6.pTiles.getD 2 0 ≠ (w44_4.crew 2).tiles.getD 2 0 ∧
      ((w44_4.utile (chkTile w44_5 w44_6 2)).st = UState.active ∧ (w44_4.utile (chkTile w44_5 w44_6 2)).role = Role.enabled ∧ (w44_4.utile (chkTile w44_5 w44_6 2)).wasCleared = false) ∧
      ((w44_4.utile (w44_6.pTiles.getD 2 0)).st = UState.active ∧ (w44_4.utile (w44_6.pTiles.getD 2 0)).role = Role.enabled ∧ (w44_4.utile (w44_6.pTiles.getD 2 0)).wasCleared = false) ∧
      ((w44_4.utile ((w44_4.crew 2).tiles.getD 2 0)).st = UState.active ∧ (w44_4.utile ((w44_4.crew 2).tiles.getD 2 0)).role = Role.enabled ∧ (w44_4.utile ((w44_4.crew 2).tiles.getD 2 0)).wasCleared = false) ∧
      replaySig w44_4 ((w44_4.crew 2).tiles.getD 2 0) ≠ some (w44_4.tile (chkTile w44_5 w44_6 2)).sig ∧
      replaySig w44_4 ((w44_4.crew 2).tiles.getD 2 0) ≠ none ∧
      replaySig w44_4 ((w44_4.crew 2).tiles.getD 2 0) = s7) ∧
    ((w44_7.ctx c0.val).exec = some w44_8 ∧
      w44_8.pair = some w44_9 ∧
      w44_9.gThird = some 2 ∧
      w44_9.gPart = none ∧
      w44_9.mism = [(2, s8)] ∧
      umpWorks w44_7 = true ∧
      (∀ t ∈ (w44_7.crew 2).tiles, replayOver w44_7 t = true) ∧
      chkTile w44_8 w44_9 2 ≠ w44_9.pTiles.getD 2 0 ∧
      chkTile w44_8 w44_9 2 ≠ (w44_7.crew 2).tiles.getD 2 0 ∧
      w44_9.pTiles.getD 2 0 ≠ (w44_7.crew 2).tiles.getD 2 0 ∧
      ((w44_7.utile (chkTile w44_8 w44_9 2)).st = UState.active ∧ (w44_7.utile (chkTile w44_8 w44_9 2)).role = Role.enabled ∧ (w44_7.utile (chkTile w44_8 w44_9 2)).wasCleared = false) ∧
      ((w44_7.utile (w44_9.pTiles.getD 2 0)).st = UState.active ∧ (w44_7.utile (w44_9.pTiles.getD 2 0)).role = Role.enabled ∧ (w44_7.utile (w44_9.pTiles.getD 2 0)).wasCleared = false) ∧
      ((w44_7.utile ((w44_7.crew 2).tiles.getD 2 0)).st = UState.active ∧ (w44_7.utile ((w44_7.crew 2).tiles.getD 2 0)).role = Role.enabled ∧ (w44_7.utile ((w44_7.crew 2).tiles.getD 2 0)).wasCleared = false) ∧
      replaySig w44_7 ((w44_7.crew 2).tiles.getD 2 0) = some (w44_7.tile (chkTile w44_8 w44_9 2)).sig) ∧
    ((w44_10.ctx c0.val).exec = some w44_11 ∧
      w44_11.pair = some w44_12 ∧
      w44_12.gThird = some 2 ∧
      w44_12.gPart = none ∧
      w44_12.mism = [(2, s8)] ∧
      umpWorks w44_10 = true ∧
      (∀ t ∈ (w44_10.crew 2).tiles, replayOver w44_10 t = true) ∧
      chkTile w44_11 w44_12 2 ≠ w44_12.pTiles.getD 2 0 ∧
      chkTile w44_11 w44_12 2 ≠ (w44_10.crew 2).tiles.getD 2 0 ∧
      w44_12.pTiles.getD 2 0 ≠ (w44_10.crew 2).tiles.getD 2 0 ∧
      ((w44_10.utile (chkTile w44_11 w44_12 2)).st = UState.active ∧ (w44_10.utile (chkTile w44_11 w44_12 2)).role = Role.enabled ∧ (w44_10.utile (chkTile w44_11 w44_12 2)).wasCleared = false) ∧
      ((w44_10.utile (w44_12.pTiles.getD 2 0)).st = UState.active ∧ (w44_10.utile (w44_12.pTiles.getD 2 0)).role = Role.enabled ∧ (w44_10.utile (w44_12.pTiles.getD 2 0)).wasCleared = false) ∧
      ((w44_10.utile ((w44_10.crew 2).tiles.getD 2 0)).st = UState.active ∧ (w44_10.utile ((w44_10.crew 2).tiles.getD 2 0)).role = Role.enabled ∧ (w44_10.utile ((w44_10.crew 2).tiles.getD 2 0)).wasCleared = false) ∧
      (replaySig w44_10 ((w44_10.crew 2).tiles.getD 2 0) = none ∨ replaySig w44_10 ((w44_10.crew 2).tiles.getD 2 0) ≠ some (w44_10.tile (chkTile w44_11 w44_12 2)).sig ∧ replaySig w44_10 ((w44_10.crew 2).tiles.getD 2 0) ≠ s8)) :=
  by and_intros <;> decide +kernel
/-! SwapAndUmpireCommands -/
def crewU (f : UmpTile → UmpTile) : State := { base with ump := { base.ump with tiles := (List.range 8).map (fun t => (tileOf 0 t, { (if t = 0 then f { role := .enabled } else { role := .enabled } : UmpTile) with ltile := t })) ++ [(tileOf 0 9, { role := .spare, sweptNom := true, sweptMar := true }), (tileOf 0 10, { role := .spare })], crews := [(0, { tiles := (List.range 8).map (tileOf 0) })], nCrews := [(0, 1)] } }
def sSwap : State := crewU fun u => { u with st := .suspect, cause := 9, pending := some 0 }
def tS : TileIx := ⟨tileOf 0 0, by decide⟩
def w45_1 := (tileOf 0 9)
def sNoSpare : State := { sSwap with ump := { sSwap.ump with tiles := (List.range 576).map (fun k => (tileOf 0 k, if k <
  8 then { role := .enabled, ltile := k, pending := if k = 0 then some 0 else none } else { role := .out })) } }
def me : MapEntry := { ptile := 5, kind := 1, cause := 2, boots := 3 }
def sFl : State := { base with ump := { base.ump with toFlash := [me] } }
def noMe : List MapEntry := []
def sU : State := { base with ump := { base.ump with tiles := [(0, { role := .enabled }), (1, { role := .spare }), (2, { st := .retired, role := .out })], crews := [(0, { tiles := [0] })] } }
theorem witness_SwapAndUmpireCommands :
    (umpWorks sSwap = true ∧
      swapReady sSwap ↑tS = true ∧
      (∀ e ∈ sSwap.ump.tiles, e.1 < ↑tS → e.2.pending = none ∨ swapReady sSwap e.1 = false) ∧
      sparePool sSwap (tilePart ↑tS) ≠ [] ∧
      nearest (sSwap.crew (sSwap.utile ↑tS).gcrew).tiles (sSwap.utile ↑tS).ltile (List.filter (sweptBoth sSwap) (sparePool sSwap (tilePart ↑tS))) = some w45_1 ∧
      w45_1 ≠ ↑tS) ∧
    (umpWorks sNoSpare = true ∧
      swapReady sNoSpare ↑tS = true ∧
      (∀ e ∈ sNoSpare.ump.tiles, e.1 < ↑tS → e.2.pending = none ∨ swapReady sNoSpare e.1 = false) ∧
      sparePool sNoSpare (tilePart ↑tS) = [] ∧
      (sNoSpare.utile ↑tS).gcrew / 64 = tilePart ↑tS) ∧
    ((umpWorks base = false ∨ swapReady base ↑tS = false)) ∧
    (sFl.alive = true ∧
      sFl.coxRuns = true ∧
      sFl.ump.toFlash = me :: noMe ∧
      sFl.ump.flashFail = none) ∧
    (sU.alive = true ∧
      (sU.utile (0#13).toNat).st = UState.active ∧
      ((if 4607 < (0#13).toNat then 1 else if (sU.utile (0#13).toNat).st = UState.fused ∨ (sU.utile (0#13).toNat).st = UState.retired then 2 else 0) = 0) ∧
      (sU.utile (0#13).toNat).role = Role.enabled) ∧
    (sU.alive = true ∧
      (sU.utile (1#13).toNat).st = UState.active ∧
      ((if 4607 < (1#13).toNat then 1 else if (sU.utile (1#13).toNat).st = UState.fused ∨ (sU.utile (1#13).toNat).st = UState.retired then 2 else 0) = 0) ∧
      (sU.utile (1#13).toNat).role = Role.spare ∧
      (sU.utile (1#13).toNat).wasCleared = false) ∧
    (sU.alive = true ∧
      ((if 4607 < (2#13).toNat then 1 else if (sU.utile (2#13).toNat).st = UState.fused ∨ (sU.utile (2#13).toNat).st = UState.retired then 2 else 0) ≠ 0)) ∧
    (sU.alive = true ∧
      ((if 4607 < (4608#13).toNat then 1 else if (sU.utile (4608#13).toNat).st = UState.fused ∨ (sU.utile (4608#13).toNat).st = UState.retired then 2 else 0) ≠ 0)) ∧
    (sU.alive = true) :=
  by and_intros <;> decide +kernel
/-! PartitionResetResults -/
def clk (f : Resets → Resets) : State := { (base.modCtx 0 fun k => { k with exec := some launchA }) with rst := f { base.rst with mclk := true, sclk := true, pclk := true }, parts := [(0, { tclk := true })], stks := [(0, { hclk := true, trained := true })], tiles := [(0, { run := .running, job := .launch, launchId := 5 })], ump := { base.ump with crews := [(0, { tiles := List.range 8, berth := some 0, heldBy := some 0 })] } }
def sClk : State := clk id
def pr0 : PReset := { start := 0, cause := 4, counted := true }
def sRs (now : BitVec 64) (b : Bool) : State := { sClk with parts := [(0, { tclk := b, reset := some pr0 })], stroke :=
  { now := now } }
def w46_1 := (sRs 34999 true)
def w46_2 := (sRs 35000 true)
def w46_3 := (sRs 35000 false)
def w46_4 : State := { w46_2 with rst := { w46_2.rst with escDue := some 0 } }
/-- TCLK was lost at the count a. -/
def sLost (a now : BitVec 64) : State := let s := sRs now false; s.modPart 0 (fun x => { x with lostAt := some a })
def w46_5 := sLost 1 100000
def w46_6 := sLost 0 100000
def w46_7 : State := { w46_2 with stks := [(0, { hclk := false, trained := true })] }
def sOos : State := clk (fun r => { r with oos := true })
theorem witness_PartitionResetResults :
    (sOos.up = true ∧
      (sOos.part p0.val).reset = none ∧
      sOos.rst.oos = true ∧
      (sOos.part p0.val).tclk = true ∧
      (sOos.stk p0.val).hclk = true) ∧
    (sClk.up = true ∧
      sClk.rst.oos = false ∧
      (sClk.part p0.val).reset = none ∧
      sClk.rst.cox = none ∧
      tilePart 0 = p0.val ∧
      tilePart 63 ≠ p0.val ∧
      sClk.rst.log.items.length < 16 ∧
      (sClk.ctx 0).exec = some launchA ∧
      launchA.ending = none ∧
      launchA.began = true ∧
      (∃ g ∈ launchA.crews, g / 64 = p0.val) ∧
      (sClk.part p0.val).tclk = true ∧
      (sClk.stk p0.val).hclk = true) ∧
    (sClk.up = true ∧
      sClk.rst.oos = false ∧
      sClk.rst.mclk = true ∧
      sClk.rst.sclk = true ∧
      (sClk.port 0).st ≠ PState.up) ∧
    (base.up = true ∧
      base.rst.oos = false ∧
      base.rst.sclk = false ∧
      (base.port 0).st ≠ PState.up) ∧
    (w46_1.up = true ∧
      (w46_1.part p0.val).reset = some pr0 ∧
      w46_1.since pr0.start < 35000) ∧
    (∀ s ∈ [w46_2, w46_3, w46_4, w46_5, w46_6, w46_7], s.up = true ∧ (s.part p0.val).reset = some pr0 ∧
      35000 ≤ s.since pr0.start) ∧
    ((w46_2.part p0.val).tclk = true ∧
      (w46_2.stk p0.val).hclk = true ∧
      w46_2.rst.escDue ≠ some p0.val) ∧
    ((w46_4.part p0.val).tclk = true ∧
      (w46_4.stk p0.val).hclk = true ∧
      w46_4.rst.escDue = some p0.val) ∧
    ((w46_3.part p0.val).tclk = false ∧
      (w46_3.part p0.val).lostAt = none) ∧
    ((w46_5.part p0.val).tclk = false ∧
      (w46_5.part p0.val).lostAt = some 1#64 ∧
      w46_5.since 1#64 < 100000) ∧
    ((w46_6.part p0.val).tclk = false ∧
      (w46_6.part p0.val).lostAt = some 0#64 ∧
      100000 ≤ w46_6.since 0#64) ∧
    ((w46_7.part p0.val).tclk = true ∧
      (w46_7.stk p0.val).hclk = false) := by
  and_intros <;> decide +kernel
/-! CoxAndDeviceResetResults -/
def w47_1 := (2 : Fin 4)
def sBeat (now : BitVec 64) : State := { sClk with rst := { sClk.rst with armed := true }, stroke := { now := now } }
def w47_2 := (sBeat 500001)
def w47_3 := (sBeat 500000)
def sCox : State := { base with
  rst := { base.rst with cox := some 0, coxTimes := [0] }, pwr := { base.pwr with governed := true }
  boot := { base.boot with ready := false, coxSha := sha384 base.boot.coxMem } }
/-- The copy of COX in management memory is damaged. -/
def sCoxBad : State := { sCox with boot := { sCox.boot with coxMem := [1] } }
theorem witness_CoxAndDeviceResetResults :
    (base.up = true ∧
      base.boot.cox = true ∧
      0 ≠ ↑w47_1) ∧
    (w47_2.up = true ∧
      w47_2.boot.cox = true ∧
      w47_2.rst.cox = none ∧
      w47_2.rst.oos = false ∧
      0 < 8 ∧
      0 < 64 ∧
      (w47_2.ctx 0).exec = some launchA ∧
      launchA.ending = none ∧
      launchA.began = true ∧
      watching w47_2 = true ∧
      (∃ k < 4, 500000 < w47_2.since (Tbl.look 0 k w47_2.rst.beats))) ∧
    (w47_3.up = true ∧
      w47_3.boot.cox = true ∧
      w47_3.rst.cox = none ∧
      w47_3.rst.oos = false ∧
      0 < 8 ∧
      0 < 64 ∧
      (w47_3.ctx 0).exec = some launchA ∧
      launchA.ending = none ∧
      launchA.began = true ∧
      (∀ k < 4, w47_3.since (Tbl.look 0 k w47_3.rst.beats) ≤ 500000)) ∧
    (base.rst.cox = none) ∧
    (sCox.up = true ∧
      sCox.rst.cox = some 0#64 ∧
      sCox.rst.oos = false ∧
      ((List.filter (fun a => decide (span a 0#64 ≤ 60000000000)) sCox.rst.coxTimes).length < 3) ∧
      sha384 sCox.boot.coxMem = sCox.boot.coxSha ∧
      (∀ p < 8, (sCox.part p).reset = none) ∧
      (∀ e ∈ sCox.ctxs, abortOver e.2 = true) ∧
      sCox.pwr.governed = true ∧
      sCox.rst.escDue = none ∧
      0 < 4 ∧
      0 < 64 ∧
      (sCox.ctx 0).st = CState.running) ∧
    (sCoxBad.up = true ∧
      sCoxBad.rst.cox = some 0#64 ∧
      sCoxBad.rst.oos = false ∧
      (true = false ∨ sha384 sCoxBad.boot.coxMem ≠ sCoxBad.boot.coxSha)) ∧
    (sClk.up = true ∧
      sClk.alive = true) ∧
    (212#16 ≠ 213#16 ∧
      sClk.up = true ∧
      sClk.alive = true) ∧
    (State.reset.alive = true ∧
      State.reset.up = false) :=
  by and_intros <;> decide +kernel
/-! BootStageResults -/
def be48 (n : Nat) : List Byte := (leBytes 48 n).reverse
def hdrKey : List Byte := be48
  0x7ae9e1db1160794c70c1ef071be5191f6c66240f4608fbe8a44ecd36c3ed5db97500f2e4d84e3fb45850fd6f4303302b ++ be48
  0xd8ac21444cd80d241538d8034b399a0dee3636eb5cb00b9499d061a571db0f14bb47ed79453948ed63f3a6ccbbf6e74f
def putFlash (b : Bool) (h : List Byte) (s : State) : State := { s with flash := putBytes 0xFF (putBytes 0xFF s.flash (slotBase b) h) (slotBase b + 4088) (leBytes 8 sealWord), fuses := { s.fuses with keyHash := sha384 hdrKey } }
def hdrGood : List Byte := leBytes 4 1 ++ leBytes 4 5 ++ leBytes 4 0 ++ leBytes 4 4096 ++ be48
  0x9761a6cc8f381514125bd5461b11a17a721703fb2179ddf15348b6276b47fe93bbca565060bdb425c99cae93fbd68d84 ++ List.replicate
  24 0#8 ++ (sha384 []).take 8 ++ hdrKey ++ be48
  0x283c1d7365ce4788f29f8ebf234edffead6fe997fbea5ffa2d58cc9dfa7b1c508b05526f55b9ebb2040f05b48fb6d0e1 ++ be48
  0xe5f8b743b4531dbfcb4273e9db35715f011991633e9dc14c81a6f52d5eff2d726265e8a81a9786facd6d5069a17e67f3 ++ (sha384 []).drop
  8
def stg (g : Stage) : State := { base with boot := { base.boot with stage := g, ready := false, trained := false, mcodeDone := false } }
def sMaps : State := putFlash false hdrGood { stg .maps with ump := { base.ump with tiles := (List.range 8).map fun t =>
  (t, { role := .enabled }) } }
def bad1 : List TileIx := [1, 2]
def bad2 : List TileIx := [2, 3]
def noF : List HbmFail := []
def w48_1 := (stg .train)
def someF : List HbmFail := [{ stack := 3, channel := 5, reason := 2 }]
def w48_2 := (stg .train)
def w48_3 := { stg .qualify with pwr := { base.pwr with governed := true } }
def w48_4 := (stg .qualify)
theorem witness_BootStageResults :
    (sMaps.alive = true ∧
      sMaps.coxRuns = true ∧
      sMaps.boot.stage = Stage.maps ∧
      sha384 sMaps.boot.mcode = hdrMcodeSha (slotHeader sMaps sMaps.boot.slot) ∧
      0 < 4608 ∧
      (sMaps.utile 0).st = UState.active ∧
      (sMaps.utile 0).wasCleared = false ∧
      (0 ∉ List.map (fun x => ↑x) bad1 ∨ 0 ∉ List.map (fun x => ↑x) bad2) ∧
      2 < 4608 ∧
      (sMaps.utile 2).st = UState.active ∧
      (sMaps.utile 2).wasCleared = false ∧
      (2 ∈ List.map (fun x => ↑x) bad1) ∧
      (2 ∈ List.map (fun x => ↑x) bad2)) ∧
    (w48_1.alive = true ∧
      w48_1.coxRuns = true ∧
      w48_1.boot.stage = Stage.train ∧
      (∀ f ∈ noF, f.stack ≠ p0) ∧
      noF = [] ∧
      w48_1.rst.oos = false) ∧
    (w48_2.alive = true ∧
      w48_2.coxRuns = true ∧
      w48_2.boot.stage = Stage.train ∧
      (∀ f ∈ someF, f.stack ≠ p0) ∧
      someF ≠ [] ∧
      w48_2.rst.oos = false) ∧
    (w48_3.alive = true ∧
      w48_3.coxRuns = true ∧
      w48_3.boot.stage = Stage.qualify ∧
      w48_3.rst.oos = false ∧
      qualified w48_3 = true ∧
      w48_3.pwr.governed = true) ∧
    (w48_4.alive = true ∧
      w48_4.coxRuns = true ∧
      w48_4.boot.stage = Stage.qualify ∧
      w48_4.rst.oos = false ∧
      (qualified w48_4 = false ∨ w48_4.pwr.governed = false)) ∧
    (base.alive = true ∧
      base.boot.stage ≠ Stage.maps ∧
      base.boot.stage ≠ Stage.train ∧
      base.boot.stage ≠ Stage.qualify) :=
  by and_intros <;> decide +kernel
/-! FirmwareCommandResults -/
def w49_1 := { base with boot := { base.boot with record := { base.boot.record with trial := true }, trial := true } }
def sGood : State := putFlash true hdrGood base
def sBadS : State := { sGood with fuses := { sGood.fuses with keyHash := [] } }
def dl0 : Download := { maxXfer := 4096, began := false, header := [], nextOff := 0, total := 0, sealed := false }
def w49_2 := { base with boot := { base.boot with download := some dl0 } }
def w49_3 := (stg .train)
def sTrl (n : BitVec 64) (m : Nat) : State := { base with boot := { base.boot with trial := true, record := {
  base.boot.record with trial := true, trialMin := m } }, stroke := { now := n } }
def w49_4 := (sTrl 59999999999 3)
def w49_5 := (sTrl 60000000000 28)
def w49_6 := (sTrl 60000000000 29)
/-- The flash refuses a write of the boot record. -/
def noFlash (s : State) : State := { s with card := { s.card with flashFails := true } }
/-- The last minute of a trial has passed at the count 0; context 0 still executes where b. -/
def sExp (b : Bool) (n : BitVec 64) : State :=
  let s : State := { base with boot := { base.boot with expireAt := some 0, ready := false }, stroke := { now := n } }
  if b then s.modCtx 0 (fun k => { k with exec := some launchA }) else s
theorem witness_FirmwareCommandResults :
    (fwAccepts w49_1 = true ∧
      w49_1.boot.trial = true ∧
      w49_1.boot.record.trial = true ∧
      w49_1.boot.record.active = w49_1.boot.slot ∧
      w49_1.download = none) ∧
    (fwAccepts base = true ∧
      base.boot.record.trial = false ∧
      (slotState base !base.boot.record.active) = 0 ∧
      base.boot.trial = false ∧
      base.download = none) ∧
    (fwAccepts sGood = true ∧
      sGood.boot.record.trial = false ∧
      (slotState sGood !sGood.boot.record.active) ≠ 0 ∧
      sGood.boot.trial = false ∧
      sGood.download = none ∧
      1#32 ≠ 0#32 ∧
      (slotState sGood !sGood.boot.record.active) = 1) ∧
    (fwAccepts sBadS = true ∧
      sBadS.boot.record.trial = false ∧
      (slotState sBadS !sBadS.boot.record.active) ≠ 0 ∧
      sBadS.boot.trial = false ∧
      sBadS.download = none ∧
      1#32 ≠ 0#32 ∧
      (slotState sBadS !sBadS.boot.record.active) = 1) ∧
    (fwAccepts w49_2 = true ∧
      w49_2.boot.record.trial = false ∧
      (slotState w49_2 !w49_2.boot.record.active) = 0 ∧
      w49_2.boot.trial = false ∧
      w49_2.download = some dl0) ∧
    (fwAccepts w49_3 = false) ∧
    (mgmtUp w49_4 = true ∧
      w49_4.boot.expireAt = none ∧
      w49_4.boot.trial = true ∧
      w49_4.boot.ready = true ∧
      w49_4.since w49_4.boot.minuteAt < 60000000000) ∧
    (mgmtUp w49_5 = true ∧
      w49_5.boot.expireAt = none ∧
      w49_5.boot.trial = true ∧
      w49_5.boot.ready = true ∧
      60000000000 ≤ w49_5.since w49_5.boot.minuteAt ∧
      w49_5.boot.record.trialMin < 29) ∧
    (mgmtUp w49_6 = true ∧
      w49_6.boot.expireAt = none ∧
      w49_6.boot.trial = true ∧
      w49_6.boot.ready = true ∧
      60000000000 ≤ w49_6.since w49_6.boot.minuteAt ∧
      w49_6.boot.record.trialMin = 29) ∧
    (∀ s ∈ [w49_1, base, sGood, sBadS, w49_5, w49_6], s.card.flashFails = false) ∧
    (fwAccepts (noFlash sGood) = true ∧
      (noFlash sGood).card.flashFails = true ∧
      (noFlash sGood).boot.record.trial = false ∧
      slotState (noFlash sGood) (!(noFlash sGood).boot.record.active) ≠ 0) ∧
    (mgmtUp (noFlash w49_5) = true ∧
      (noFlash w49_5).boot.expireAt = none ∧
      (noFlash w49_5).boot.trial = true ∧
      (noFlash w49_5).boot.ready = true ∧
      (noFlash w49_5).card.flashFails = true ∧
      60000000000 ≤ (noFlash w49_5).since (noFlash w49_5).boot.minuteAt ∧
      (noFlash w49_5).boot.record.trialMin < 29) ∧
    (∀ s ∈ [sExp true 99999999, sExp true 100000000, sExp false 0], mgmtUp s = true ∧ s.boot.expireAt = some 0#64) ∧
    (execs (sExp true 99999999) ≠ [] ∧
      (sExp true 99999999).since 0#64 < 100000000 ∧
      100000000 ≤ (sExp true 100000000).since 0#64 ∧
      execs (sExp false 0) = []) := by
  refine ⟨?_, ?_, ?_, ?_, ?_, ?_, ?_, ?_, ?_, ?_, ?_, ?_, ?_, ?_⟩ <;> decide +kernel
/-! FirmwareTransferResults -/
def sd (k : Nat) : Seeding := { session := 7, n := 2, sent := k, lastAt := 0 }
def sSd (k : Nat) (n : BitVec 64) : State := { base with boot := { base.boot with seeding := some (sd k) }, stroke := {
  now := n } }
def w50_1 := (sSd 1 19999)
def w50_2 := (sd 1)
def w50_3 := (sSd 1 20000)
def w50_4 := (sd 1)
def w50_5 := (sSd 0 0)
def w50_6 := (sd 0)
def pB : Packet := { ptype := .boot, dest := 0, src := 64, handle := 16, rgen := 0, reason := 0, jobid := 9, loc := 0, stroke := 0, len := 0, value := 20, data := List.replicate 256 5#8 }
def sBp : State := { base with fab := { placed := true, place := .placed, rack := 1, racks := 4, machine := 256, devNum := 65, arrived := [arr pB] } }
def w50_7 := (arr pB)
def rx0 : Session := { id := 9, n := 20, chunks := [1], head := [], lastAt := 0 }
def sRxI (n : BitVec 64) : State := { base with boot := { base.boot with rx := some rx0 }, stroke := { now := n } }
def w50_8 := (sRxI 99999999)
def w50_9 := (sRxI 100000000)
def w50_10 := { base with boot := { base.boot with download := some dl0 } }
def sDl (d : Download) : State := { base with boot := { base.boot with download := some d } }
def dl1 (o : Nat) (h : List Byte) (b : Bool) : Download := { maxXfer := 16, began := true, header := h, nextOff := o, total := 8192, sealed := b }
def by16 : List Byte := List.replicate 16 3#8
def w50_12 := (sDl (dl1 8176 [] false))
def w50_13 := (dl1 8176 [] false)
def w50_14 := (sDl (dl1 0 [] false))
def w50_15 := (dl1 0 [] false)
def h4080 : List Byte := List.replicate 4080 1#8
def w50_16 := (sDl (dl1 4080 h4080 false))
def w50_17 := (dl1 4080 h4080 false)
def w50_18 := (sDl (dl1 4096 [] true))
def w50_19 := (dl1 4096 [] true)
def w50_20 := (sDl (dl1 4096 [] false))
def w50_21 := (dl1 4096 [] false)
def w50_22 := { sDl (dl1 4096 [] false) with boot := { (sDl (dl1 4096 [] false)).boot with record := { base.boot.record
  with trial := true } } }
def w50_23 := (dl1 4096 [] false)
def sTrialRec : State := { base with boot := { base.boot with record := { base.boot.record with trial := true } } }
/-- The slots of s with a download that is sealed. -/
def withDl (s : State) : State := { s with boot := { s.boot with download := some (dl1 4096 [] true) } }
/-- A download that the update agent has left for 60 s. -/
def sLeft : State := { withDl base with stroke := { now := 60000000001 } }
theorem witness_FirmwareTransferResults :
    (w50_1.boot.seeding = some w50_2 ∧
      w50_1.up = true ∧
      w50_1.coxRuns = true ∧
      w50_2.sent ≠ 0 ∧
      w50_1.since w50_2.lastAt < 20000) ∧
    (w50_3.boot.seeding = some w50_4 ∧
      w50_3.up = true ∧
      w50_3.coxRuns = true ∧
      (w50_4.sent = 0 ∨ 20000 ≤ w50_3.since w50_4.lastAt)) ∧
    (w50_5.boot.seeding = some w50_6 ∧
      w50_5.up = true ∧
      w50_5.coxRuns = true ∧
      (w50_6.sent = 0 ∨ 20000 ≤ w50_5.since w50_6.lastAt)) ∧
    (sBp.fab.arrived[0]? = some w50_7 ∧
      w50_7.pkt.ptype = PType.boot ∧
      sBp.fab.triples = [] ∧
      sBp.fab.rack.toNat = w50_7.pkt.src.toNat / 64 ∧
      sBp.coxRuns = true ∧
      sBp.boot.record.trial = false ∧
      sBp.download = none ∧
      w50_7.pkt.jobid ≠ sBp.boot.session ∧
      16 ≤ w50_7.pkt.handle.toNat ∧
      w50_7.pkt.handle.toNat < w50_7.pkt.value.toNat ∧
      256 * w50_7.pkt.value.toNat ≤ 25165824 ∧
      w50_7.pkt.data.length = 256) ∧
    (w50_8.boot.rx = some rx0 ∧
      w50_8.coxRuns = true ∧
      w50_8.since rx0.lastAt < 100000000) ∧
    (w50_9.boot.rx = some rx0 ∧
      w50_9.coxRuns = true ∧
      100000000 ≤ w50_9.since rx0.lastAt) ∧
    (mgmtUp base = true ∧
      inRecovery base = false ∧
      base.boot.record.trial = false ∧
      base.download = none ∧
      base.boot.rx = none) ∧
    (mgmtUp w50_10 = true ∧
      inRecovery w50_10 = false ∧
      w50_10.download = some dl0 ∧
      dl0.began = false ∧
      4096 < 4097 ∧
      4097 ≤ 25165824 ∧
      1 ≤ dl0.maxXfer ∧
      dl0.maxXfer ≤ 4096) ∧
    (mgmtUp w50_12 = true ∧
      inRecovery w50_12 = false ∧
      w50_12.download = some w50_13 ∧
      w50_13.began = true ∧
      w50_13.sealed = false ∧
      8176 = w50_13.nextOff ∧
      by16.length = wantLen w50_13 ∧
      4096 ≤ 8176 ∧
      by16 ≠ []) ∧
    (mgmtUp w50_14 = true ∧
      inRecovery w50_14 = false ∧
      w50_14.download = some w50_15 ∧
      w50_15.began = true ∧
      w50_15.sealed = false ∧
      0 = w50_15.nextOff ∧
      by16.length = wantLen w50_15 ∧
      0 + by16.length < 4096) ∧
    (mgmtUp w50_16 = true ∧
      inRecovery w50_16 = false ∧
      w50_16.download = some w50_17 ∧
      w50_17.began = true ∧
      w50_17.sealed = false ∧
      4080 = w50_17.nextOff ∧
      by16.length = wantLen w50_17 ∧
      4080 < 4096 ∧
      4080 + by16.length = 4096 ∧
      w50_17.header.length = 4080 ∧
      (w50_16.boot.record.rej !w50_16.boot.record.active) = false) ∧
    (mgmtUp w50_18 = true ∧
      w50_18.download = some w50_19 ∧
      inRecovery w50_18 = false ∧
      w50_19.sealed = true) ∧
    (mgmtUp w50_20 = true ∧
      w50_20.download = some w50_21 ∧
      inRecovery w50_20 = false ∧
      w50_21.sealed = false) ∧
    (mgmtUp w50_22 = true ∧
      w50_22.download = some w50_23 ∧
      inRecovery w50_22 = false ∧
      w50_23.sealed = false ∧
      fwAccepts w50_22 = true ∧
      w50_22.boot.record.trial = true) ∧
    (mgmtUp sTrialRec = true ∧
      inRecovery sTrialRec = false ∧
      sTrialRec.boot.record.trial = true) ∧
    (∀ s ∈ [withDl base, withDl sGood, withDl sBadS], mgmtUp s = true ∧ s.download = some (dl1 4096 [] true) ∧
      inRecovery s = false ∧ fwAccepts s = true ∧ s.boot.record.trial = false ∧ s.card.flashFails = false) ∧
    (slotState (withDl base) (!(withDl base).boot.record.active) = 0 ∧
      slotState (withDl sGood) (!(withDl sGood).boot.record.active) ≠ 0 ∧
      slotState (withDl sBadS) (!(withDl sBadS).boot.record.active) ≠ 0) ∧
    (∀ s ∈ [base, sLeft], mgmtUp s = true ∧ fwAccepts s = true ∧ s.download = none) :=
  by and_intros <;> decide +kernel
/-! HostMemoryResults -/
def sHm : State := { base with frames := base.frames ++ [(5, { st := .free, scrub := false }), (6, { st := .poisoned })], lineErr := [(3 * 32768, .uncorrectable), (4 * 32768, .correctable)] }
/-- BAR2's window opens on the last GiB of HBM. -/
def sTop : State := { sHm with host := { sHm.host with bar2 := 383 } }
def by16K : List Byte := List.replicate 16 1#8
def by64 : List Byte := List.replicate 64 1#8
def by8 : List Byte := List.replicate 8 1#8
theorem witness_HostMemoryResults :
    ((∀ (k : Nat), (sTop.part k).reset = none) ∧
      pathOpen sTop .bar2 = true ∧
      inBar sTop .bar2 1073741816 16 = true ∧
      sTop.host.d3hot = false ∧
      0 < 16 ∧
      execs sTop = [] ∧
      412316860416 < hostPa sTop .bar2 1073741816 + 16 ∧
      by16K.length = 16) ∧
    ((∀ (k : Nat), (sHm.part k).reset = none) ∧
      pathOpen sHm HostPath.bar2 = true ∧
      0 < 64 ∧
      execs sHm = [] ∧
      inBar sHm .bar2 10485760 64 = true ∧
      sHm.host.d3hot = false ∧
      hostPa sHm HostPath.bar2 10485760 + 64 ≤ 412316860416 ∧
      hostPa sHm HostPath.bar2 10485760 % 2097152 + 64 ≤ 2097152 ∧
      sHm.frameNow (hostPa sHm HostPath.bar2 10485760 / 2097152) = FState.free ∧
      (sHm.frameNow (hostPa sHm HostPath.bar2 10485760 / 2097152) = FState.free ∨ sHm.frameNow (hostPa sHm HostPath.bar2 10485760 / 2097152) = FState.poisoned) ∧
      by64.length = 64) ∧
    ((∀ (k : Nat), (sHm.part k).reset = none) ∧
      pathOpen sHm HostPath.bar2 = true ∧
      0 < 64 ∧
      execs sHm = [] ∧
      inBar sHm .bar2 12582912 64 = true ∧
      sHm.host.d3hot = false ∧
      hostPa sHm HostPath.bar2 12582912 + 64 ≤ 412316860416 ∧
      hostPa sHm HostPath.bar2 12582912 % 2097152 + 64 ≤ 2097152 ∧
      sHm.frameNow (hostPa sHm HostPath.bar2 12582912 / 2097152) = FState.poisoned ∧
      (sHm.frameNow (hostPa sHm HostPath.bar2 12582912 / 2097152) = FState.free ∨ sHm.frameNow (hostPa sHm HostPath.bar2 12582912 / 2097152) = FState.poisoned) ∧
      by64.length = 64) ∧
    ((∀ (k : Nat), (base.part k).reset = none) ∧
      LinesClean base (hostPa base HostPath.bar2 8388600) 8 ∧
      pathOpen base HostPath.bar2 = true ∧
      0 < 8 ∧
      execs base = [] ∧
      inBar base .bar2 8388600 8 = true ∧
      base.host.d3hot = false ∧
      hostPa base HostPath.bar2 8388600 + 8 ≤ 412316860416 ∧
      hostPa base HostPath.bar2 8388600 % 2097152 + 8 ≤ 2097152 ∧
      (base.frameNow (hostPa base HostPath.bar2 8388600 / 2097152) = FState.owned ∨ base.frameNow (hostPa base HostPath.bar2 8388600 / 2097152) = FState.system) ∧
      by8.length = 8) ∧
    ((∀ (k : Nat), (sHm.part k).reset = none) ∧
      pathOpen sHm HostPath.bar2 = true ∧
      0 < 64 ∧
      execs sHm = [] ∧
      inBar sHm .bar2 6291456 64 = true ∧
      sHm.host.d3hot = false ∧
      hostPa sHm HostPath.bar2 6291456 + 64 ≤ 412316860416 ∧
      hostPa sHm HostPath.bar2 6291456 % 2097152 + 64 ≤ 2097152 ∧
      (sHm.frameNow (hostPa sHm HostPath.bar2 6291456 / 2097152) = FState.owned ∨ sHm.frameNow (hostPa sHm HostPath.bar2 6291456 / 2097152) = FState.system) ∧
      by64.length = 64 ∧
      sHm.frameNow (hostPa sHm HostPath.bar2 6291456 / 2097152) = FState.owned ∧
      Tbl.look LineErr.none (hostPa sHm HostPath.bar2 6291456 / 64) sHm.lineErr = LineErr.uncorrectable) ∧
    ((∀ (k : Nat), (sHm.part k).reset = none) ∧
      (∀ (l : Nat), hostPa sHm HostPath.bar2 8388608 / 64 < l → l ≤ (hostPa sHm HostPath.bar2 8388608 + 64 - 1) / 64 → Tbl.look LineErr.none l sHm.lineErr = LineErr.none) ∧
      pathOpen sHm HostPath.bar2 = true ∧
      0 < 64 ∧
      execs sHm = [] ∧
      inBar sHm .bar2 8388608 64 = true ∧
      sHm.host.d3hot = false ∧
      hostPa sHm HostPath.bar2 8388608 + 64 ≤ 412316860416 ∧
      hostPa sHm HostPath.bar2 8388608 % 2097152 + 64 ≤ 2097152 ∧
      (sHm.frameNow (hostPa sHm HostPath.bar2 8388608 / 2097152) = FState.owned ∨ sHm.frameNow (hostPa sHm HostPath.bar2 8388608 / 2097152) = FState.system) ∧
      by64.length = 64 ∧
      sHm.frameNow (hostPa sHm HostPath.bar2 8388608 / 2097152) = FState.owned ∧
      Tbl.look LineErr.none (hostPa sHm HostPath.bar2 8388608 / 64) sHm.lineErr = LineErr.correctable) ∧
    (sHm.host.aperture * 2 ^ 30 < 64 * 2 ^ 30 - 15 + 16 ∧
      by16K.length = 16) :=
  ⟨⟨(partsIdle_of (by decide +kernel)), by decide +kernel⟩,
   ⟨(partsIdle_of (by decide +kernel)), by decide +kernel⟩,
   ⟨(partsIdle_of (by decide +kernel)), by decide +kernel⟩,
   ⟨(partsIdle_of (by decide +kernel)), (linesClean_of (by decide +kernel)), by decide +kernel⟩,
   ⟨(partsIdle_of (by decide +kernel)), by decide +kernel⟩,
   ⟨(partsIdle_of (by decide +kernel)), (clean_of (by decide +kernel)), by decide +kernel⟩,
   by decide +kernel⟩
/-! HostRegisterResults -/
def w52_1 := { base with cntAdmitted := 77 }
def w52_2 := (base.modCtx 0 fun k => { k with exec := some launchA })
def w52_3 := { base with host := {} }
def w52_4 := (base.modCtx 0 fun k => { k with exec := some launchA })
/-- Event ring on; BTT of context 0 held by its launch. -/
def w52_5 := { base with host := { base.host with evtEn := true } }
theorem witness_HostRegisterResults :
    (base.alive = true ∧
      base.host.d3hot = false ∧
      (base.ctx 0).exec = none ∧
      (4 ≠ 8 ∨ 0 % 8 ≠ 0) ∧
      (8 ≠ 8 ∨ 4 % 8 ≠ 0) ∧
      (1#64).getLsbD 0 = true ∧
      0xB0000 ≤ 0xB0000) ∧
    (w52_4.alive = true ∧
      w52_4.host.d3hot = false ∧
      (w52_4.ctx 0).exec ≠ none) ∧
    (Bar.bar4 = .bar4 ∧
      (4 ≠ 8 ∨ 8 % 8 ≠ 0)) ∧
    (w52_1.alive = true ∧
      w52_1.host.d3hot = false ∧
      w52_1.cntAdmitted < 2 ^ 48) ∧
    (base.up = true ∧
      (∀ o ∈ [(6, 16, true), (5, 8, false), (1, 1, false)], 1 ≤ o.1 ∧ o.1 ≤ 6 ∧ o.2.1 ∈ [1, 2, 4, 8, 16] ∧
        (o.2.2 = true ↔ o.1 = 6)) ∧
      (∀ o ∈ [(0, 16, false), (7, 16, true), (5, 12, false), (6, 16, false), (5, 16, true)],
        o.1 = 0 ∨ 6 < o.1 ∨ o.2.1 ∉ [1, 2, 4, 8, 16] ∨ ¬ (o.2.2 = true ↔ o.1 = 6))) ∧
    (w52_2.alive = true ∧
      w52_2.host.attached = true ∧
      (w52_2.ctx 0).exec = some launchA ∧
      launchA.ending = none ∧
      launchA.began = true ∧
      (w52_2.ctx 63).exec = none ∧
      (w52_2.ctx 63).abort = none ∧
      (Detach.flr = .flr ∨ Detach.flr = .cxlReset) ∧
      Detach.dlDown ≠ Detach.flr ∧
      Detach.dlDown ≠ Detach.cxlReset) ∧
    (w52_3.host.attached = false ∧
      Detach.dlDown ≠ Detach.pclkLoss ∧
      w52_3.alive = true) ∧
    (base.alive = true ∧
      base.host.heldLost = 0 ∧
      base.host.evtEn = false ∧
      (0x12345671#64).getLsbD 4 = true ∧
      (0x12345661#64).getLsbD 4 = false) ∧
    (w52_5.alive = true ∧
      w52_5.host.heldLost = 0 ∧
      w52_5.host.evtEn = true) := by
  and_intros <;> decide +kernel
/-! ManagementResults -/
def w53_1 := { base with ump := { base.ump with tiles := [(7, { role := .enabled, gcrew := 3 })], crews := [(3, { tiles
  := [7] })] } }
def sSh (z : List Byte) (now : BitVec 64) : State := { base with host := { base.host with shadow := z, misRun := 2 }, stroke := { now := now } }
def zsh : List Byte := List.replicate 4800 0#8
def w53_2 := (sSh zsh 0)
def w53_3 := (sSh zsh 0)
def w53_4 := (sSh zsh 999999999)
def sPubK : State := match execShadowPublish true (sSh zsh 0) with | .next s => s | _ => base
/-- The published table, with the next comparison due. -/
def w53_5 : State := { sPubK with stroke := { now := 1000000000 } }
def qTile : Tbl UmpTile := [(5, { st := .quarantined, role := .enabled })]
def w53_6 : State := { w53_5 with ump := { w53_5.ump with tiles := qTile } }
def w53_7 : State := { w53_6 with host := { w53_6.host with misRun := 1 } }
/-- The map has changed 1,999,999 counts ago; a publication is under way. -/
def w53_8 : State := { w53_5 with host := { w53_5.host with mapAt := 998000001 } }
def w53_9 : State := { w53_5 with host := { w53_5.host with shadow := listSet w53_5.host.shadow 4 1 } }
/-- The table is of another epoch. -/
def w53_10 : State := { w53_5 with ump := { w53_5.ump with epoch := 3 } }
def w53_11 : State := { w53_10 with host := { w53_10.host with misRun := 0 } }
/-- Status of a tile command with epoch e on tile t, the first check that fails deciding (13 Table 13-9). -/
def refusalOf (s : State) (e : BitVec 32) (t : Nat) : Nat :=
  if s.rst.oos then 5 else if !s.boot.ready then 3 else if e ≠ s.ump.epoch then 1
  else if 4607 < t ∨ (s.utile t).st = .fused ∨ (s.utile t).st = .retired then 2 else 0
theorem witness_ManagementResults :
    (mgmtUp base = true ∧
      0 < 1024 ∧
      1024 ≤ 1024 ∧
      3776 + 1024 ≤ 4800) ∧
    (mgmtUp base = true ∧
      (1025 = 0 ∨ 1024 < 1025)) ∧
    (mgmtUp base = true) ∧
    (mgmtUp w53_1 = true ∧
      (refusalOf w53_1 0 7 = 0) ∧
      (w53_1.utile 7).st = UState.active ∧
      (w53_1.utile 7).role = Role.enabled) ∧
    (mgmtUp base = true ∧
      (refusalOf base 1 7 ≠ 0)) ∧
    (mgmtUp base = true ∧
      (refusalOf base 0 4608 ≠ 0)) ∧
    (mgmtUp w53_2 = true ∧
      w53_2.host.shadow.length = 4800) ∧
    (mgmtUp w53_3 = true ∧
      w53_3.host.shadow.length = 4800 ∧
      false = false) ∧
    (∀ s ∈ [w53_4, w53_5, w53_6, w53_7, w53_8, w53_9, w53_10, w53_11], mgmtUp s = true ∧ s.host.shadow.length = 4800) ∧
    (w53_4.now.toNat < w53_4.host.recDue.toNat) ∧
    (∀ s ∈ [w53_5, w53_6, w53_7, w53_8, w53_9, w53_10, w53_11], s.host.recDue.toNat ≤ s.now.toNat) ∧
    (w53_8.since w53_8.host.mapAt < 2000000 ∧
      shadowSeq w53_9 % 2 = 1) ∧
    (∀ s ∈ [w53_5, w53_6, w53_7, w53_10, w53_11], 2000000 ≤ s.since s.host.mapAt ∧ shadowSeq s % 2 = 0) ∧
    (shadowEpoch w53_5 = w53_5.ump.epoch.toNat ∧
      divergent w53_5 = 0) ∧
    (divergent w53_6 ≠ 0 ∧
      w53_6.host.misRun = 2) ∧
    (divergent w53_7 ≠ 0 ∧
      w53_7.host.misRun < 2) ∧
    (shadowEpoch w53_10 ≠ w53_10.ump.epoch.toNat ∧
      w53_10.host.misRun = 2 ∧
      shadowEpoch w53_11 ≠ w53_11.ump.epoch.toNat ∧
      w53_11.host.misRun < 2) ∧
    (mgmtUp base = true ∧
      sensorReading base 1 = some 0) ∧
    (mgmtUp base = true) ∧
    (mgmtUp base = true) :=
  by and_intros <;> decide +kernel
/-! SecurityAndAddressResults -/
def w54_1 := { base with host := { base.host with spdm := true } }
def w54_2 := { base with host := { base.host with i3c := some 8 } }
theorem witness_SecurityAndAddressResults :
    (mgmtUp base = true ∧
      base.host.spdm = false) ∧
    (mgmtUp w54_1 = true ∧
      w54_1.host.spdm = true ∧
      0 < (certChain w54_1).length ∧
      1 ≠ 0) ∧
    (base.up = true ∧
      base.coxRuns = true ∧
      base.host.i3c = none) ∧
    (w54_2.up = true ∧
      w54_2.coxRuns = true ∧
      w54_2.host.i3c ≠ none) ∧
    (base.coxRuns = true ∧
      base.host.speed ≠ 0) ∧
    (w52_3.up = true ∧
      w52_3.host.speed = 0) :=
  by and_intros <;> decide +kernel
/-! CardRackAndLampResults -/
def off (k t : Nat) : State := { base with card := { base.card with power := false, offCode := k, offAt := 0, time := t, supplies := [.stby] } }
def w55_1 := (off 2 0)
def w55_2 := (off 1 9999999999)
def w55_3 := (off 1 10000000000)
def w55_4 := (off 6 0)
def w55_5 := { base with rack := { base.rack with trayOn := false } }
def w55_6 := { base with rack := { base.rack with coolant := true, shelves := 4 } }
def w55_7 := (off 1 0)
def w55_8 := { base with rst := { base.rst with oos := true } }
def w55_9 := { base with boot := { base.boot with cox := false } }
def w55_10 := { base with card := { base.card with phaseOpen := true, time := 4000000001, lamps := [(0, { measured := some 0, st := .ok }), (1, { measured := some 1, st := .ok })] } }
def sLm (d f : Nat) (ff : Bool) : State := { base with card := { base.card with duty := d, lamps := [(0, { drive := 1, fails := f, st := .ok, flickerFree := ff })] } }
def w55_11 := (sLm 39 0 true)
def w55_12 := (sLm 40 1 true)
def w55_13 := (sLm 40 1 false)
def w55_14 := (sLm 40 0 false)
def sLow (t : Nat) : State := { base with rack := { base.rack with lowFlow := some 0 }, card := { base.card with time :=
  t } }
def w55_15 := (sLow 10000000000)
def w55_16 := (sLow 9999999999)
def ceK : CardEntry := { code := 2, secs := 0, mv := 0, watts := 0 }
def w55_17 := { base with card := { base.card with log := List.replicate 1024 ceK } }
/-- A fault of code 6 was recorded at the card time 0, at which power went. -/
def sTwice (k : Nat) : State := { base with card := { base.card with
  power := false, offCode := k, logAt := some 0, log := [ceK, { ceK with code := k }] } }
/-- A lengthened pulse of the green lamp began at the card time 1000. -/
def sPulse (t : Nat) : State := { base with card := { base.card with
  duty := 39, time := t, lamps := [(0, { drive := 1, st := .ok, pulseAt := some 1000 })] } }
/-- The dim green lamp was lengthened 2 s ago, the dim amber one may not be. -/
def sDim : State := { base with card := { base.card with
  duty := 1, time := 2000001000, phaseOpen := true
  lamps := [(0, { drive := 1, pulseAt := some 1000 }), (1, { flickerFree := true, measured := some 2000001000, st := .ok })] } }
def lampsOf (s : State) : List Nat := match exec .lampPoll s with
  | .next s' => (List.range 3).map (fun i => (lampAt s' i).drive)
  | _ => []
theorem witness_CardRackAndLampResults :
    (base.card.power = true ∧
      base.card.input = true ∧
      base.card.logAt ≠ some base.card.time ∧
      base.card.log.length < 1024) ∧
    (w55_17.card.power = true ∧
      w55_17.card.input = true ∧
      w55_17.card.logAt ≠ some w55_17.card.time ∧
      w55_17.card.log.length = 1024) ∧
    (∀ k ∈ [5, 6], (sTwice k).card.power = false ∧ (sTwice k).card.input = true ∧
      (sTwice k).card.offAt = (sTwice k).card.time ∧ (sTwice k).card.logAt = some (sTwice k).card.time ∧
      (sTwice k).card.log = [ceK] ++ [{ ceK with code := k }] ∧ k = (sTwice k).card.offCode) ∧
    (5 < 6 ∧
      5 ≤ 5) ∧
    (∀ s ∈ [w55_1, w55_2, w55_3, w55_4], s.card.supplies = supplyOrder.take 1) ∧
    (w55_1.card.power = false ∧
      w55_1.card.input = true ∧
      w55_1.card.offCode = 2 ∧
      (w55_1.card.offCode = 2 ∨ w55_1.card.offCode = 1 ∧ true = false)) ∧
    (w55_2.card.power = false ∧
      w55_2.card.input = true ∧
      w55_2.card.offCode = 1 ∧
      w55_2.card.time < w55_2.card.offAt + 10000000000 ∧
      (w55_2.card.offCode ∈ [3, 4, 5, 6] ∨ w55_2.card.offCode = 1 ∧ true = true) ∧
      (w55_2.card.offCode = 2 ∨ w55_2.card.offCode = 1 ∧ false = false)) ∧
    (w55_3.card.power = false ∧
      w55_3.card.input = true ∧
      w55_3.card.offCode = 1 ∧
      w55_3.card.offAt + 10000000000 ≤ w55_3.card.time ∧
      (w55_3.card.offCode ∈ [3, 4, 5, 6] ∨ w55_3.card.offCode = 1 ∧ true = true) ∧
      (w55_3.card.offCode = 2 ∨ w55_3.card.offCode = 1 ∧ false = false)) ∧
    (w55_4.card.power = false ∧
      w55_4.card.input = true ∧
      w55_4.card.offCode ∈ [3, 4, 5, 6] ∧
      (w55_4.card.offCode ∈ [3, 4, 5, 6] ∨ w55_4.card.offCode = 1 ∧ true = true)) ∧
    (base.rack.trayOn = true) ∧
    (w55_5.rack.trayOn = false ∧
      w55_5.card.supplies = supplyOrder.take supplyOrder.length) ∧
    (mgmtUp base = true ∧
      base.rack.coolant = false ∧
      (40000 < 40001 ∨ 48000 < 96000) ∧
      48000 ≤ 48000) ∧
    (mgmtUp w55_6 = true ∧
      w55_6.rack.coolant = true ∧
      w55_6.rack.shelves = 4 ∧
      (40000 < 40001 ∨ 48000 < 96000) ∧
      48000 ≤ 48000) ∧
    (base.card.input = true ∧
      base.card.power = true ∧
      mgmtUp base = true ∧
      base.rst.oos = false) ∧
    (w55_7.card.input = true ∧
      w55_7.card.power = false ∧
      w55_7.card.offCode ∈ [1, 3, 4, 5, 6]) ∧
    (w55_8.card.input = true ∧
      w55_8.card.power = true ∧
      mgmtUp w55_8 = true ∧
      w55_8.rst.oos = true) ∧
    (w55_9.card.input = true ∧
      w55_9.card.power = true ∧
      mgmtUp w55_9 = false) ∧
    (w55_10.card.input = true ∧
      w55_10.card.power = true ∧
      mgmtUp w55_10 = true ∧
      w55_10.rst.oos = false ∧
      (w55_10.card.phaseOpen = true ∨ bit (BitVec.toNat ((shadowBytes w55_10).getD 20 0#8)) 1 = true) ∧
      0 < 3 ∧
      (lampAt w55_10 0).measured = some 0 ∧
      0 + 4000000000 < w55_10.card.time ∧
      1 < 3 ∧
      (lampAt w55_10 1).measured = some 1 ∧
      w55_10.card.time ≤ 1 + 4000000000 ∧
      (lampAt w55_10 1).flickerFree = false) ∧
    (w55_11.card.input = true ∧
      onTime w55_11 0 < 40 ∧
      (lampAt w55_11 0).flickerFree = true ∧
      onTime base 0 = 0) ∧
    ((sPulse 20999).card.input = true ∧
      onTime (sPulse 20999) 0 < 40 ∧
      (lampAt (sPulse 20999) 0).pulseAt = some 1000 ∧
      (sPulse 20999).card.time < 1000 + 20000) ∧
    (∀ e ∈ [(w55_12, 1), (w55_13, 1), (w55_14, 0)], e.1.card.input = true ∧ 40 ≤ onTime e.1 0 ∧
      e.1.card.logAt ≠ some e.1.card.time ∧ (lampAt e.1 0).fails = e.2 ∧ (lampAt e.1 0).st = .ok) ∧
    (∀ t ∈ [21000, 41000], (sPulse t).card.input = true ∧ onTime (sPulse t) 0 ≠ 0 ∧ (lampAt (sPulse t) 0).flickerFree = false ∧
      (lampAt (sPulse t) 0).pulseAt = some 1000 ∧ 1000 + 20000 ≤ (sPulse t).card.time ∧ (sPulse t).card.time ≤ 1000 + 40000 ∧
      (sPulse t).card.logAt ≠ some (sPulse t).card.time) ∧
    (2000 ≤ 2000 ∧
      1200 ≤ 1200 ∧
      (1999 < 2000 ∨ 1200 < 1200) ∧
      (2000 < 2000 ∨ 1199 < 1200)) ∧
    (sDim.card.input = true ∧
      sDim.card.testUntil = none ∧
      lampsOf sDim = [1, 1, 0] ∧
      0 < sDim.card.duty ∧
      sDim.card.duty < 40 ∧
      (lampAt sDim 0).flickerFree = false ∧
      (lampAt sDim 0).pulseAt = some 1000 ∧
      1000 + 2000000000 ≤ sDim.card.time ∧
      (lampAt sDim 1).flickerFree = true) ∧
    (base.card.input = true ∧
      pulsing base = false ∧
      (sPulse 60999).card.input = true ∧
      pulsing (sPulse 60999) = true ∧
      pulsing (sPulse 61000) = false) ∧
    (mgmtUp w55_15 = true ∧
      w55_15.rack.coolant = false ∧
      47999 < 48000 ∧
      w55_15.rack.lowFlow = some 0 ∧
      0 ≤ w55_15.card.time ∧
      w55_15.rack.trayOn = true ∧
      0 + 10000000000 ≤ w55_15.card.time) ∧
    (mgmtUp w55_16 = true ∧
      w55_16.rack.coolant = false ∧
      47999 < 48000 ∧
      w55_16.rack.lowFlow = some 0 ∧
      0 ≤ w55_16.card.time ∧
      w55_16.rack.trayOn = true ∧
      w55_16.card.time < 0 + 10000000000) ∧
    (mgmtUp base = true ∧
      base.rack.coolant = false ∧
      40000 ≤ 40000 ∧
      96000 ≤ 96000) :=
  by and_intros <;> decide +kernel
/-! TrapAndErrorEffects -/
def wTrap : Word := wordS 0x1F 0 0 0 7
def w56_1 := (baseTile {} wTrap)
def fo : FaultOf := { frec := { w0 := 0, w1 := 0, w2 := 0, w3 := 0 }, ptile := 1, stroke := 5, crew := 0, tid := 1, cause := 4, pc := 0 }
def lFo : Exec := { launchA with faults := [fo], ending := some { status := 0x10, csDetail := 0, at_ := 5 } }
def w56_2 := { ((baseTile {} wTrap).modCtx 0 fun k => { k with exec := some lFo }) with stroke := { now := 9 } }
def wLw : Word := wordI 0xA 7 3 (4 * 1024)
def w56_3 := (baseTile { tileA with sramErr := [(8, .single)] } wLw)
def w56_4 := (baseTile { tileA with sramErr := [(8, .double 3)] } wLw)
theorem witness_TrapAndErrorEffects :
    (Issues w56_1 t0.val Op.trap wTrap ∧
      (w56_1.tile t0.val).job = TJob.launch ∧
      (w56_1.ctx (w56_1.tile t0.val).ctx).exec = some launchA ∧
      launchA.launch.id = (w56_1.tile t0.val).launchId ∧
      launchA.began = true ∧
      launchA.pair = none ∧
      (w56_1.part (tilePart t0.val)).faults.items.length < 16 ∧
      launchA.faults = [] ∧
      launchA.ending = none ∧
      (w56_1.ctx (w56_1.tile t0.val).ctx).abort = none ∧
      (w56_1.ctx (w56_1.tile t0.val).ctx).jobid = 0) ∧
    (Issues w56_2 t0.val Op.trap wTrap ∧
      (w56_2.tile t0.val).job = TJob.launch ∧
      (w56_2.ctx (w56_2.tile t0.val).ctx).exec = some lFo ∧
      lFo.launch.id = (w56_2.tile t0.val).launchId ∧
      lFo.began = true ∧
      lFo.pair = none ∧
      (w56_2.part (tilePart t0.val)).faults.items.length < 16 ∧
      lFo.faults = [fo] ∧
      fo.stroke ≠ w56_2.now ∧
      lFo.ending ≠ none) ∧
    (Issues w56_3 t0.val Op.lw wLw ∧
      effAddr (w56_3.tile t0.val) wLw 4 % 4 = 0 ∧
      effAddr (w56_3.tile t0.val) wLw 4 + 4 ≤ 98304 ∧
      unitBusy (w56_3.tile t0.val) (effAddr (w56_3.tile t0.val) wLw 4 / 64) = false ∧
      Tbl.look EccErr.none (effAddr (w56_3.tile t0.val) wLw 4 / 8) (w56_3.tile t0.val).sramErr = EccErr.single ∧
      wRd wLw ≠ 0 ∧
      (ceHour w56_3 (w56_3.utile t0.val)).length + 1 < w56_3.ump.ceLimit) ∧
    (Issues w56_4 t0.val Op.lw wLw ∧
      effAddr (w56_4.tile t0.val) wLw 4 % 4 = 0 ∧
      effAddr (w56_4.tile t0.val) wLw 4 + 4 ≤ 98304 ∧
      unitBusy (w56_4.tile t0.val) (effAddr (w56_4.tile t0.val) wLw 4 / 64) = false ∧
      Tbl.look EccErr.none (effAddr (w56_4.tile t0.val) wLw 4 / 8) (w56_4.tile t0.val).sramErr = EccErr.double 3) :=
  ⟨by decide +kernel, by decide +kernel, by decide +kernel, by decide +kernel⟩
/-! ### Ill-formed commands: one for each check of Instr.wf -/

def shortPacket : Packet := { blankPacket .write with len := 2, data := [1] }
def longPacket : Packet := { blankPacket .write with len := 257, data := List.replicate 257 0 }
def loadedRead : Packet := { blankPacket .read with len := 1, data := [1] }
def loadedAdd : Packet := { blankPacket .atomAdd with data := [1] }

theorem test_wf_sqTail : (Instr.sqTail 0 2 0).wf = false := by decide
theorem test_wf_cqHead : (Instr.cqHead 0 1 0).wf = false := by decide
theorem test_wf_quiesceCheck : (Instr.quiesceCheck 0 [3, 3]).wf = false := by decide
theorem test_wf_assignOwned : (Instr.assignOwned 196608 0).wf = false := by decide
theorem test_wf_assignSystem : (Instr.assignSystem 196608).wf = false := by decide
theorem test_wf_releaseFrame : (Instr.releaseFrame 196608).wf = false := by decide
theorem test_wf_queryFrame : (Instr.queryFrame 196608).wf = false := by decide
theorem test_wf_flitReceive_short : (Instr.flitReceive 0 0 true (some shortPacket) 0 none).wf = false := by decide
theorem test_wf_flitReceive_long : (Instr.flitReceive 0 0 true (some longPacket) 0 none).wf = false := by decide +kernel
theorem test_wf_flitReceive_read : (Instr.flitReceive 0 0 true (some loadedRead) 0 none).wf = false := by decide
theorem test_wf_flitReceive_add : (Instr.flitReceive 0 0 true (some loadedAdd) 0 none).wf = false := by decide
theorem test_wf_routePacket : (Instr.routePacket 0 []).wf = false := by decide
theorem test_wf_pwrSample : (Instr.pwrSample (List.replicate 36 0) (List.replicate 4 0)).wf = false := by decide
theorem test_wf_pwrSample_volts : (Instr.pwrSample (List.replicate 37 0) (List.replicate 3 0)).wf = false := by decide
theorem test_wf_pwrPublish : (Instr.pwrPublish (List.replicate 7 0)).wf = false := by decide
theorem test_wf_governorPass : (Instr.governorPass (List.replicate 9 0) 0).wf = false := by decide
theorem test_wf_thermSample : (Instr.thermSample 8 (List.replicate 8 0)).wf = false := by decide
theorem test_wf_trialComplete : (Instr.trialComplete 0 [runOk, runBad]).wf = false := by decide
theorem test_wf_trialComplete_cause : (Instr.trialComplete 0 [{ runBad with trap := some 256 }]).wf = false := by decide
theorem test_wf_mcodeBroadcast : (Instr.mcodeBroadcast [1, 1] []).wf = false := by decide
theorem test_wf_mcodeBroadcast_twice : (Instr.mcodeBroadcast [] [1, 1]).wf = false := by decide
theorem test_wf_hostMemRead : (Instr.hostMemRead .bar2 0 0).wf = false := by decide
theorem test_wf_hostMemWrite : (Instr.hostMemWrite .bar2 0 []).wf = false := by decide
theorem test_wf_regWrite : (Instr.regWrite .bar0 0 3 0).wf = false := by decide
theorem test_wf_rcRead : (Instr.rcRead .bar0 0 3).wf = false := by decide
theorem test_wf_challenge : (Instr.challenge 0 []).wf = false := by decide
theorem test_wf_getMeasurements : (Instr.getMeasurements 0 []).wf = false := by decide
theorem test_wf_duty : (Instr.duty 1001 0).wf = false := by decide

/-! ### Words of the manual's worked kernel (03 Table 3-15) and what one step of each does -/

theorem test_word_addi : classify 0x080C0008#32 = some .addi := by decide
theorem test_word_aclr : classify 0x44000002#32 = some .aclr := by decide
theorem test_word_mma : classify 0x44042800#32 = some .mma := by decide
theorem test_word_loop : classify 0x300C7FFD#32 = some .loop := by decide
theorem test_word_aget : classify 0x40180303#32 = some .aget := by decide
theorem test_word_vst : classify 0x2C04D001#32 = some .vst := by decide
theorem test_word_halt : classify 0x78000010#32 = some .halt := by decide

/-- The next state of a command, or the reset state where there is none. -/
def after (i : Instr) (s : State) : State :=
  match exec i s with
  | .next s' => s'
  | _ => .reset

/-- ADDI s3, s0, 8: the first word of the kernel. -/
theorem test_addi : ((after (.addi t0) (runTile {} 0x080C0008#32)).tile 0).sreg 3 = 8 := by decide +kernel
/-- ADDI s4, s4, 128 with the source the destination, at the top of the range: 0xFFFF_FFF0 + 128 = 0x70. -/
theorem test_addi_wraps :
    ((after (.addi t0) (runTile { s := [(4, 0xFFFFFFF0)] } 0x08108080#32)).tile 0).sreg 4 = 0x70 := by decide +kernel
/-- LOOP s3, -3 at PC 8 with s3 = 8: s3 becomes 7 and the next PC is 8 + 1 - 3 - 1 = 5 (03 Table 3-16). -/
theorem test_loop_taken :
    let y := (after (.loop t0) (runTile { s := [(3, 8)], pc := 8 } 0x300C7FFD#32)).tile 0
    y.sreg 3 = 7 ∧ y.pc = 5 := by decide +kernel
/-- LOOP s3, -3 at PC 8 with s3 = 1: s3 becomes 0 and the loop ends. -/
theorem test_loop_ends :
    let y := (after (.loop t0) (runTile { s := [(3, 1)], pc := 8 } 0x300C7FFD#32)).tile 0
    y.sreg 3 = 0 ∧ y.pc = 9 := by decide +kernel
/-- VST v1, [s6 + 16] with s6 = 0x1_7FE0 stores the last 16 bytes of the SRAM; the lowest byte lies lowest. -/
theorem test_vst_top :
    let y := (after (.vst t0) (runTile { s := [(6, 0x17FE0)], v := [(1, 0x0102)] } 0x2C04D001#32)).tile 0
    Tbl.look 0#8 0x17FF0 y.sram = 2 ∧ Tbl.look 0#8 0x17FF1 y.sram = 1 := by decide +kernel
/-- The manual's first variation: with s6 = 0x1_7FF8 the first VST traps ALIGN (cause 5), not SRAM_RANGE, at its PC. -/
theorem test_vst_align :
    ((after (.vst t0) (baseTile { s := [(6, 0x17FF8)], pc := 0xD } 0x2C00D000#32)).part 0).faults.items.map
      (fun r => (bits r.w1.toNat 0 9, bits r.w1.toNat 48 12, r.w3)) = [(5, 0xD, 0x17FF8)] := by decide +kernel
end Sys2Proof.Tests
end

/-!
O60. What every command keeps: the rest of the queue, the fuses, and the canonical form of HBM, card flash and host
memory. `Kept` says it of one state, and each state operation of the model has one lemma, under the operation's name,
in the model's order; `exec_kept` gathers them, one line per command.
-/

namespace Sys2Proof.Machine

section Kept

/-- What every command keeps of a state: q waits in the queue, the fuses are z, and the three byte memories are in
canonical form (log 8, log 9). -/
structure Kept (q : List Instr) (z : Fuses) (s : State) : Prop where
  pending : s.pending = q
  fuses : s.fuses = z
  hbm : Tbl.wf 0#8 s.hbm = true
  flash : Tbl.wf 0xFF#8 s.flash = true
  hostMem : Tbl.wf 0#8 s.hostMem = true

/-- The state in which an instruction's own part leaves the machine, however it ends. -/
def Did.state : Did → State
  | .retire _ _ _ s | .jump _ _ _ s | .hold s | .trap _ s | .stop s => s

variable {q : List Instr} {z : Fuses} {s : State}

/-- A change of any fields but the queue, the fuses and the byte memories. -/
theorem kept_update
    {freeIx} {tiles} {tileCe} {tileUe} {parts} {ctxs} {stks} {lineErr} {frames} {fcResult} {fcState} {fcScrub}
    {fcOwner} {btiCtx} {btiPage} {btiAll} {btiGo} {btiNow} {tcache} {wfCtx} {wfCode} {wfAddr} {weir} {atoms}
    {spills} {berthResult} {berthQuery} {passMark} {defCrewMw} {passUs} {cntInfeasible} {cntAdmitted}
    {cntOverrun} {fab} {stroke} {pwr} {ump} {rst} {boot} {host} {card} {rack} {evLogNext} {hostData} {msix}
    {sent} {naks} {markers} {mgmt} {cardOut} {rackLimits} {platform} {snoops}
    (h : Kept q z s) : Kept q z { s with
      freeIx := freeIx, tiles := tiles, tileCe := tileCe, tileUe := tileUe, parts := parts, ctxs := ctxs
      stks := stks, lineErr := lineErr, frames := frames, fcResult := fcResult, fcState := fcState
      fcScrub := fcScrub, fcOwner := fcOwner, btiCtx := btiCtx, btiPage := btiPage, btiAll := btiAll
      btiGo := btiGo, btiNow := btiNow, tcache := tcache, wfCtx := wfCtx, wfCode := wfCode, wfAddr := wfAddr
      weir := weir, atoms := atoms, spills := spills, berthResult := berthResult, berthQuery := berthQuery
      passMark := passMark, defCrewMw := defCrewMw, passUs := passUs, cntInfeasible := cntInfeasible
      cntAdmitted := cntAdmitted, cntOverrun := cntOverrun, fab := fab, stroke := stroke, pwr := pwr
      ump := ump, rst := rst, boot := boot, host := host, card := card, rack := rack, evLogNext := evLogNext
      hostData := hostData, msix := msix, sent := sent, naks := naks, markers := markers, mgmt := mgmt
      cardOut := cardOut, rackLimits := rackLimits, platform := platform, snoops := snoops } :=
  ⟨h.pending, h.fuses, h.hbm, h.flash, h.hostMem⟩

theorem kept_ite {c : Prop} [Decidable c] {a b : State} (ha : Kept q z a) (hb : Kept q z b) :
    Kept q z (if c then a else b) := by
  split
  · exact ha
  · exact hb

/-- A step taken only under a condition. -/
theorem kept_when {c : Prop} [Decidable c] {a : State} (h : Kept q z s) (ha : Kept q z s → Kept q z a) :
    Kept q z (if c then a else s) := kept_ite (ha h) h

theorem kept_unless {c : Prop} [Decidable c] {a : State} (h : Kept q z s) (ha : Kept q z s → Kept q z a) :
    Kept q z (if c then s else a) := kept_ite h (ha h)

theorem kept_of_eq {α : Type} {a : α} {r : α × State} (e : r = (a, s)) (h : Kept q z r.2) : Kept q z s := by
  rw [e] at h
  exact h

theorem kept_ite_snd {α : Type} {c : Prop} [Decidable c] {a b : α × State} (ha : Kept q z a.2) (hb : Kept q z b.2) :
    Kept q z (if c then a else b).2 := by
  split
  · exact ha
  · exact hb

theorem kept_of_eq_fst {β : Type} {b : β} {r : State × β} (e : r = (s, b)) (h : Kept q z r.1) : Kept q z s := by
  rw [e] at h
  exact h

theorem kept_of_eq₂ {α β : Type} {a : α} {b : β} {r : α × β × State} (e : r = (a, b, s)) (h : Kept q z r.2.2) :
    Kept q z s := by
  rw [e] at h
  exact h

theorem kept_fst {β : Type} {b : β} (h : Kept q z s) : Kept q z (s, b).1 := h

theorem retire_kept {cost dest lat} (h : Kept q z s) : Kept q z (Did.retire cost dest lat s).state := h

theorem hold_kept (h : Kept q z s) : Kept q z (Did.hold s).state := h

theorem trap_kept {tr} (h : Kept q z s) : Kept q z (Did.trap tr s).state := h

theorem stop_kept (h : Kept q z s) : Kept q z (Did.stop s).state := h

theorem forUp_kept {f : Nat → State → State} {k n : Nat} (h : Kept q z s)
    (hf : ∀ i s, Kept q z s → Kept q z (f i s)) : Kept q z (forUp f k n s) := by
  induction n generalizing k s with
  | zero => exact h
  | succ n ih => exact ih (hf k s h)

theorem forList_kept {α : Type} {f : α → State → State} {l : List α} (h : Kept q z s)
    (hf : ∀ a s, Kept q z s → Kept q z (f a s)) : Kept q z (forList f l s) := by
  induction l generalizing s with
  | nil => exact h
  | cons a l ih => exact ih (hf a s h)

theorem foldl_fst_kept {α β : Type} {f : State × β → α → State × β} {l : List α} {r : State × β} (h : Kept q z r.1)
    (hf : ∀ r a, Kept q z r.1 → Kept q z (f r a).1) : Kept q z (l.foldl f r).1 := by
  induction l generalizing r with
  | nil => exact h
  | cons a l ih => exact ih (hf r a h)

/-! ### Ops -/

theorem free_kept (h : Kept q z s) : Kept q z s.free.2 := kept_update h

theorem freeBelow_kept {n : Nat} (h : Kept q z s) : Kept q z (s.freeBelow n).2 := kept_update h

theorem freeBytes_kept {n : Nat} (h : Kept q z s) : Kept q z (s.freeBytes n).2 := kept_update h

theorem setTile_kept {t x} (h : Kept q z s) : Kept q z (s.setTile t x) := kept_update h

theorem modTile_kept {t f} (h : Kept q z s) : Kept q z (s.modTile t f) := setTile_kept h

theorem setPart_kept {p x} (h : Kept q z s) : Kept q z (s.setPart p x) := kept_update h

theorem modPart_kept {p f} (h : Kept q z s) : Kept q z (s.modPart p f) := setPart_kept h

theorem setCtx_kept {c x} (h : Kept q z s) : Kept q z (s.setCtx c x) := kept_update h

theorem modCtx_kept {c f} (h : Kept q z s) : Kept q z (s.modCtx c f) := setCtx_kept h

theorem setStk_kept {k x} (h : Kept q z s) : Kept q z (s.setStk k x) := kept_update h

theorem modStk_kept {k f} (h : Kept q z s) : Kept q z (s.modStk k f) := setStk_kept h

theorem setFrame_kept {f x} (h : Kept q z s) : Kept q z (s.setFrame f x) := kept_update h

theorem setPort_kept {n x} (h : Kept q z s) : Kept q z (s.setPort n x) := kept_update h

theorem modPort_kept {n f} (h : Kept q z s) : Kept q z (s.modPort n f) := setPort_kept h

theorem modFab_kept {f} (h : Kept q z s) : Kept q z (s.modFab f) := kept_update h

theorem modStroke_kept {f} (h : Kept q z s) : Kept q z (s.modStroke f) := kept_update h

theorem modPwr_kept {f} (h : Kept q z s) : Kept q z (s.modPwr f) := kept_update h

theorem modUmp_kept {f} (h : Kept q z s) : Kept q z (s.modUmp f) := kept_update h

theorem modRst_kept {f} (h : Kept q z s) : Kept q z (s.modRst f) := kept_update h

theorem modBoot_kept {f} (h : Kept q z s) : Kept q z (s.modBoot f) := kept_update h

theorem modHost_kept {f} (h : Kept q z s) : Kept q z (s.modHost f) := kept_update h

theorem modCard_kept {f} (h : Kept q z s) : Kept q z (s.modCard f) := kept_update h

theorem setUtile_kept {t x} (h : Kept q z s) : Kept q z (s.setUtile t x) := kept_update h

theorem modUtile_kept {t f} (h : Kept q z s) : Kept q z (s.modUtile t f) := setUtile_kept h

theorem setCrew_kept {g x} (h : Kept q z s) : Kept q z (s.setCrew g x) := kept_update h

theorem modCrew_kept {g f} (h : Kept q z s) : Kept q z (s.modCrew g f) := setCrew_kept h

theorem umpCount_kept {i} (h : Kept q z s) : Kept q z (s.umpCount i) := modUmp_kept h

theorem modExec_kept {c f} (h : Kept q z s) : Kept q z (s.modExec c f) := modCtx_kept h

theorem modWake_kept {c n f} (h : Kept q z s) : Kept q z (s.modWake c n f) := modExec_kept h

/-! ### Events -/

theorem evtRingWrite_kept {e} (h : Kept q z s) : Kept q z (evtRingWrite e s) := by
  unfold evtRingWrite
  extract_lets _ size nxt flags
  split
  · exact h
  · split
    · exact kept_update h
    · exact ⟨h.pending, h.fuses, h.hbm, h.flash, putBytes_wf _ _ _ _ h.hostMem⟩

theorem pldmEvent_kept {e} (h : Kept q z s) : Kept q z (pldmEvent e s) := by
  unfold pldmEvent
  extract_lets +onlyGivenNames m
  split <;> exact kept_update h

theorem flashEvent_kept {e} (h : Kept q z s) : Kept q z (flashEvent e s) := by
  unfold flashEvent
  extract_lets g a fl
  have hfl : Tbl.wf 0xFF#8 fl = true := by
    unfold fl
    split
    · exact Tbl.wf_clear _ _ _ _ h.flash
    · exact h.flash
  split
  · exact h
  · exact ⟨h.pending, h.fuses, h.hbm, putBytes_wf _ _ _ _ hfl, h.hostMem⟩

theorem deliver_kept {e} (h : Kept q z s) : Kept q z (deliver e s) := by
  unfold deliver
  exact flashEvent_kept (pldmEvent_kept (evtRingWrite_kept h))

theorem raise_kept {code unit detail} (h : Kept q z s) : Kept q z (raise code unit detail s) := by
  unfold raise
  exact kept_ite (deliver_kept h) (kept_ite (kept_update h) (kept_update h))

theorem settleHeldLost_kept (h : Kept q z s) : Kept q z (settleHeldLost s) := by
  unfold settleHeldLost
  exact kept_ite (kept_update h) h

theorem deliverHeld_kept (h : Kept q z s) : Kept q z (deliverHeld s) := by
  unfold deliverHeld
  exact forList_kept (settleHeldLost_kept (kept_update h)) fun _ _ h => deliver_kept h

/-! ### FabCore -/

theorem putFlit_kept {n pkt esc} (h : Kept q z s) : Kept q z (putFlit n pkt esc s) := by
  unfold putFlit
  exact kept_update (setPort_kept h)

theorem sendFlit_kept {n pkt} (h : Kept q z s) : Kept q z (sendFlit n pkt s) := by
  unfold sendFlit
  exact kept_ite (putFlit_kept h) (setPort_kept h)

theorem flood_kept {ok pkt} (h : Kept q z s) : Kept q z (flood ok pkt s) := by
  unfold flood
  exact forUp_kept h (fun _ _ h => kept_ite (sendFlit_kept h) h)

theorem keepTriple_kept {t} (h : Kept q z s) : Kept q z (keepTriple t s) := by
  unfold keepTriple
  exact modFab_kept h

theorem easyAllLog_kept {job origin stroke cause} (h : Kept q z s) :
    Kept q z (easyAllLog job origin stroke cause s) := by
  unfold easyAllLog
  exact modFab_kept h

theorem easyAllOriginate_kept {job cause origin} (h : Kept q z s) :
    Kept q z (easyAllOriginate job cause origin s) := by
  unfold easyAllOriginate
  exact raise_kept (flood_kept (easyAllLog_kept (keepTriple_kept h)))

theorem routerPut_kept {pkt} (h : Kept q z s) : Kept q z (routerPut pkt s) := by
  unfold routerPut
  exact kept_ite (modFab_kept h) (modFab_kept h)

theorem combOut_kept {i} (h : Kept q z s) : Kept q z (combOut i s) := by
  unfold combOut
  split
  · exact h
  · exact modFab_kept h

theorem leaveQueue_kept {i q0} (h : Kept q z s) : Kept q z (leaveQueue i q0 s) := by
  unfold leaveQueue
  extract_lets +onlyGivenNames s1
  have h1 : Kept q z s1 := modFab_kept h
  split
  · exact h1
  · exact modFab_kept h1

theorem combFlush_kept {job n} (h : Kept q z s) : Kept q z (combFlush job n s) := by
  induction n generalizing s with
  | zero => exact h
  | succ n ih =>
    unfold combFlush
    split
    · exact h
    · exact ih (combOut_kept h)

theorem faultReply_kept {q0 reason} (h : Kept q z s) : Kept q z (faultReply q0 reason s) := by
  unfold faultReply
  exact routerPut_kept (modFab_kept h)

/-! ### Mem -/

theorem memUe_kept {line} (h : Kept q z s) : Kept q z (memUe line s) := by
  unfold memUe
  exact kept_when (setStk_kept h) (fun h => raise_kept (setFrame_kept h))

theorem memCe_kept {line} (h : Kept q z s) : Kept q z (memCe line s) := by
  unfold memCe
  exact kept_when (setStk_kept (kept_update h)) raise_kept

theorem scanLines_kept {line n} (h : Kept q z s) : Kept q z (scanLines line n s).2 := by
  induction n generalizing line s with
  | zero => exact h
  | succ n ih =>
    unfold scanLines
    split
    · exact ih h
    · exact ih (memCe_kept h)
    · exact memUe_kept h

theorem hbmRead_kept {pa len} (h : Kept q z s) : Kept q z (hbmRead pa len s).2 := by
  unfold hbmRead
  split <;> exact kept_of_eq ‹_› (scanLines_kept h)

theorem backInvalidate_kept {line} (h : Kept q z s) : Kept q z (backInvalidate line s) := by
  unfold backInvalidate
  exact kept_ite (kept_update (setStk_kept h)) h

theorem writeLines_kept {host n pa bs} (h : Kept q z s) : Kept q z (writeLines host n pa bs s).2 := by
  induction n generalizing pa bs s with
  | zero => exact h
  | succ n ih =>
    unfold writeLines
    extract_lets line k now s1 e s2
    have h1 : Kept q z s1 := kept_ite h (backInvalidate_kept h)
    have h2 : Kept q z s2 := kept_ite (memCe_kept h1) h1
    split
    · exact ih ⟨h1.pending, h1.fuses, putBytes_wf _ _ _ _ h1.hbm, h1.flash, h1.hostMem⟩
    · split
      · exact memUe_kept h1
      · exact ih ⟨h2.pending, h2.fuses, putBytes_wf _ _ _ _ h2.hbm, h2.flash, h2.hostMem⟩

theorem hbmWrite_kept {pa bs} (h : Kept q z s) : Kept q z (hbmWrite pa bs s).2 := by
  unfold hbmWrite
  exact writeLines_kept h

theorem devRead_kept {ag pa len} (h : Kept q z s) : Kept q z (devRead ag pa len s).2 := by
  unfold devRead
  split
  · exact h
  · exact hbmRead_kept h

theorem devWrite_kept {ag pa bs} (h : Kept q z s) : Kept q z (devWrite ag pa bs s).2 := by
  unfold devWrite
  split
  · exact h
  · exact hbmWrite_kept h

theorem tableRead_kept {pa} (h : Kept q z s) : Kept q z (tableRead pa s).2 := by
  unfold tableRead
  split <;> exact kept_of_eq ‹_› (devRead_kept h)

theorem walkTable_kept {c page} (h : Kept q z s) : Kept q z (walkTable c page s).2 := by
  unfold walkTable
  split
  · exact kept_of_eq ‹_› (tableRead_kept h)
  · split
    · exact kept_of_eq ‹_› (tableRead_kept h)
    · split <;> exact kept_of_eq ‹_› (tableRead_kept (kept_of_eq ‹_› (tableRead_kept h)))

theorem cachePut_kept {k e} (h : Kept q z s) : Kept q z (cachePut k e s) := kept_update h

theorem lookupPage_kept {k c page} (h : Kept q z s) : Kept q z (lookupPage k c page s).2 := by
  unfold lookupPage
  extract_lets fresh
  have hfresh : ∀ s, Kept q z s → Kept q z (fresh s).2 := by
    intro s h
    unfold fresh
    split
    · exact kept_of_eq ‹_› (walkTable_kept h)
    · exact cachePut_kept (kept_of_eq ‹_› (walkTable_kept h))
  split
  · exact hfresh s h
  · split
    · exact cachePut_kept h
    · split
      rename_i s1 e1
      have h1 : Kept q z s1 := kept_of_eq e1 (freeBelow_kept h)
      split
      · exact cachePut_kept h1
      · exact hfresh s1 h1

theorem translate_kept {v write loc} (h : Kept q z s) : Kept q z (translate v write loc s).2 := by
  unfold translate
  split
  · exact h
  · split
    · exact kept_of_eq ‹_› (lookupPage_kept h)
    · rename_i s1 e1
      have h1 : Kept q z s1 := kept_of_eq e1 (lookupPage_kept h)
      extract_lets pa
      split
      · split
        · exact h1
        · split <;> exact h1
      · split
        · exact h1
        · split <;> exact h1

theorem readPage_kept {v loc len} (h : Kept q z s) : Kept q z (readPage v loc len s).2 := by
  unfold readPage
  split
  · exact kept_of_eq ‹_› (translate_kept h)
  · split
    · exact kept_of_eq ‹_› (hbmRead_kept (kept_of_eq ‹_› (translate_kept h)))
    · exact hbmRead_kept (kept_of_eq ‹_› (translate_kept h))

theorem writePage_kept {v loc bs} (h : Kept q z s) : Kept q z (writePage v loc bs s).2 := by
  unfold writePage
  split
  · exact kept_of_eq ‹_› (translate_kept h)
  · split
    · exact kept_of_eq ‹_› (hbmWrite_kept (kept_of_eq ‹_› (translate_kept h)))
    · exact hbmWrite_kept (kept_of_eq ‹_› (translate_kept h))

theorem readPages_kept {v n loc len} (h : Kept q z s) : Kept q z (readPages v n loc len s).2 := by
  induction n generalizing loc len s with
  | zero => exact h
  | succ n ih =>
    unfold readPages
    extract_lets k
    split
    · exact h
    · split
      · exact kept_of_eq ‹_› (readPage_kept h)
      · have h1 := kept_of_eq ‹_› (readPage_kept (v := v) (loc := loc) (len := k) h)
        split
        · exact kept_of_eq ‹_› (ih h1)
        · exact kept_of_eq ‹_› (ih h1)

theorem readLocal_kept {v loc len} (h : Kept q z s) : Kept q z (readLocal v loc len s).2 := by
  unfold readLocal
  exact readPages_kept h

theorem writePages_kept {v n loc bs} (h : Kept q z s) : Kept q z (writePages v n loc bs s).2 := by
  induction n generalizing loc bs s with
  | zero => exact h
  | succ n ih =>
    unfold writePages
    extract_lets k
    split
    · exact h
    · split
      · exact kept_of_eq ‹_› (writePage_kept h)
      · exact ih (kept_of_eq ‹_› (writePage_kept h))

theorem writeLocal_kept {v loc bs} (h : Kept q z s) : Kept q z (writeLocal v loc bs s).2 := by
  unfold writeLocal
  exact writePages_kept h

theorem dropTranslations_kept {c} (h : Kept q z s) : Kept q z (dropTranslations c s) := by
  unfold dropTranslations
  exact forUp_kept h fun _ _ h => kept_update h

theorem dropCache_kept {k} (h : Kept q z s) : Kept q z (dropCache k s) := kept_update h

/-! ### PowerModel -/

theorem disturb_kept {p} (h : Kept q z s) : Kept q z (disturb p s) := by
  unfold disturb
  exact forList_kept h (fun _ _ h => kept_ite (modExec_kept h) h)

theorem reEstimate_kept (h : Kept q z s) : Kept q z (reEstimate s) := by
  unfold reEstimate
  exact forUp_kept h fun _ _ h => modPart_kept h

theorem settleVoltage_kept (h : Kept q z s) : Kept q z (settleVoltage s) := by
  unfold settleVoltage
  exact modPwr_kept h

theorem toP15_kept {p} (h : Kept q z s) : Kept q z (toP15 p s) := by
  unfold toP15
  exact modPart_kept (kept_ite (disturb_kept h) h)

theorem allToP15_kept (h : Kept q z s) : Kept q z (allToP15 s) := by
  unfold allToP15
  exact reEstimate_kept (settleVoltage_kept (forUp_kept h (fun _ _ h => toP15_kept h)))

/-! ### UmpCore -/

theorem umpLog_kept {pt old new cause l} (h : Kept q z s) : Kept q z (umpLog pt old new cause l s) := by
  unfold umpLog
  extract_lets +onlyGivenNames w1 w2
  split
  exact kept_when (kept_update h) raise_kept

theorem sparesLow_kept {p before} (h : Kept q z s) : Kept q z (sparesLow p before s) := by
  unfold sparesLow
  exact kept_ite (raise_kept h) h

theorem toFlash_kept {pt kind cause} (h : Kept q z s) : Kept q z (toFlash pt kind cause s) := kept_update h

theorem changeTile_kept {t new cause ev l} (h : Kept q z s) : Kept q z (changeTile t new cause ev l s) := by
  unfold changeTile
  extract_lets +onlyGivenNames u p before role s1 s2 s3 s4 s5
  have h1 : Kept q z s1 := setUtile_kept h
  have h3 : Kept q z s3 := kept_update h1
  have h4 : Kept q z s4 := umpLog_kept h3
  have h5 : Kept q z s5 := kept_ite h4 (raise_kept h4)
  extract_lets +onlyGivenNames s6
  have h6 : Kept q z s6 := by
    unfold s6
    split
    · exact h5
    · exact toFlash_kept h5
  exact kept_ite (sparesLow_kept h6) h6

theorem quarantine_kept {t cause ev l} (h : Kept q z s) : Kept q z (quarantine t cause ev l s) := by
  unfold quarantine
  exact kept_when (modUtile_kept (changeTile_kept h)) changeTile_kept

theorem setPending_kept {t cause l} (h : Kept q z s) : Kept q z (setPending t cause l s) := by
  unfold setPending
  exact kept_update (modUtile_kept h)

theorem umpTrigger_kept {t cause l} (h : Kept q z s) : Kept q z (umpTrigger t cause l s) := by
  unfold umpTrigger
  extract_lets +onlyGivenNames u
  split
  · exact h
  · exact h
  · exact h
  · exact kept_ite (changeTile_kept h) (quarantine_kept h)
  · exact kept_ite (kept_ite h (setPending_kept h)) (quarantine_kept h)
  · exact kept_ite (kept_ite h (setPending_kept h)) (changeTile_kept h)

theorem countCe_kept {t} (h : Kept q z s) : Kept q z (countCe t s) := by
  unfold countCe
  exact kept_when (setUtile_kept (raise_kept (kept_update (setTile_kept h)))) umpTrigger_kept

theorem countUe_kept {t l} (h : Kept q z s) : Kept q z (countUe t l s) := by
  unfold countUe
  exact umpTrigger_kept (kept_update h)

/-! ### EngineCore -/

theorem noteFull_kept {c} (h : Kept q z s) : Kept q z (noteFull c s) := by
  unfold noteFull
  extract_lets +onlyGivenNames x
  split
  · exact h
  · exact kept_ite h (raise_kept (setCtx_kept h))

theorem pushDone_kept {c bs} (h : Kept q z s) : Kept q z (pushDone c bs s) := by
  unfold pushDone
  exact kept_ite (noteFull_kept (modCtx_kept h)) h

theorem enterStopped_kept {c} (h : Kept q z s) : Kept q z (enterStopped c s) := by
  unfold enterStopped
  exact raise_kept (modCtx_kept h)

theorem refuseLaunch_kept {c status l} (h : Kept q z s) : Kept q z (refuseLaunch c status l s) := by
  unfold refuseLaunch
  exact kept_when (kept_update (kept_when (pushDone_kept h) kept_update)) easyAllOriginate_kept

theorem commitPower_kept {p n} (h : Kept q z s) : Kept q z (commitPower p n s) := by
  unfold commitPower
  exact modUmp_kept h

theorem releasePower_kept {p n} (h : Kept q z s) : Kept q z (releasePower p n s) := by
  unfold releasePower
  exact modUmp_kept h

theorem gateCrew_kept {g} (h : Kept q z s) : Kept q z (gateCrew g s) := by
  unfold gateCrew
  exact forList_kept h fun _ _ h => setTile_kept h

theorem endPair_kept {c p} (h : Kept q z s) : Kept q z (endPair c p s) := by
  unfold endPair
  exact modExec_kept (forList_kept h (fun _ _ h => releasePower_kept (modCrew_kept (gateCrew_kept h))))

theorem voidPair_kept {c} (h : Kept q z s) : Kept q z (voidPair c s) := by
  unfold voidPair
  split
  · exact h
  · split
    · exact h
    · exact umpCount_kept (endPair_kept h)

theorem noteCycles_kept {c n} (h : Kept q z s) : Kept q z (noteCycles c n s) := by
  unfold noteCycles
  exact modExec_kept h

theorem noteStop_kept {c n} (h : Kept q z s) : Kept q z (noteStop c n s) := by
  unfold noteStop
  split
  exact noteCycles_kept (kept_of_eq ‹_› (free_kept h))

theorem launchDone_kept {c} (h : Kept q z s) : Kept q z (launchDone c s) := by
  unfold launchDone
  split
  · exact h
  · split
    · exact h
    · extract_lets fault r s1 s2 s3 s4 s5 s6 s7 k
      have h2 : Kept q z s2 := forList_kept (pushDone_kept h) fun _ _ h => modCrew_kept h
      have h4 : Kept q z s4 := modCtx_kept (forList_kept h2 fun _ _ h => modTile_kept h)
      have h6 : Kept q z s6 := kept_when (kept_update h4) kept_update
      exact kept_when (kept_when h6 raise_kept) enterStopped_kept

theorem contextAbort_kept {c} (h : Kept q z s) : Kept q z (contextAbort c s) := by
  unfold contextAbort
  exact kept_ite h (setCtx_kept h)

theorem decideEnd_kept {c status csDetail origin} (h : Kept q z s) :
    Kept q z (decideEnd c status csDetail origin s) := by
  unfold decideEnd
  split
  · exact h
  · refine kept_ite (modExec_kept h) (kept_ite h ?_)
    extract_lets k s1 s2 stops s3 s4
    have h2 : Kept q z s2 := modExec_kept (voidPair_kept h)
    have h3 : Kept q z s3 := kept_ite (modCtx_kept h2) h2
    have h4 : Kept q z s4 := kept_ite (easyAllOriginate_kept h3) h3
    exact kept_ite (contextAbort_kept h4) (launchDone_kept h4)

theorem refuseFetched_kept {c status} (h : Kept q z s) : Kept q z (refuseFetched c status s) := by
  unfold refuseFetched
  exact forList_kept (modCtx_kept h) fun _ _ h => refuseLaunch_kept h

theorem demote_kept {c f} (h : Kept q z s) : Kept q z (demote c f s) := by
  unfold demote
  exact modExec_kept (modPart_kept h)

theorem pushFault_kept {p r} (h : Kept q z s) : Kept q z (pushFault p r s) := by
  unfold pushFault
  split
  exact kept_when (modPart_kept h) raise_kept

theorem trapLaunch_kept {t x tr e} (h : Kept q z s) : Kept q z (trapLaunch t x tr e s) := by
  unfold trapLaunch
  extract_lets +onlyGivenNames old first r s1 s2 s3 f s4 s5
  have h1 : Kept q z s1 := by
    unfold s1
    clear_value old
    split
    · exact kept_ite (demote_kept h) h
    · exact h
  have h2 : Kept q z s2 := pushFault_kept h1
  have h3 : Kept q z s3 := raise_kept h2
  have h4 : Kept q z s4 := modExec_kept h3
  have h5 : Kept q z s5 := kept_ite (noteStop_kept h4) (noteCycles_kept h4)
  exact decideEnd_kept h5

theorem trapTile_kept {t tr} (h : Kept q z s) : Kept q z (trapTile t tr s) := by
  unfold trapTile
  extract_lets +onlyGivenNames x
  split
  · exact h
  · extract_lets +onlyGivenNames s1 ue s2
    have h1 : Kept q z s1 := setTile_kept h
    have h2 : Kept q z s2 := by
      unfold s2
      split
      · exact trapLaunch_kept h1
      · exact h1
    exact kept_ite (countUe_kept h2) h2

theorem countOor_kept {c} (h : Kept q z s) : Kept q z (countOor c s) := by
  unfold countOor
  exact modExec_kept (modCtx_kept h)

theorem countOors_kept {c n} (h : Kept q z s) : Kept q z (countOors c n s) := by
  unfold countOors
  exact forUp_kept h fun _ _ h => countOor_kept h

/-! ### UmpSched -/

theorem voidWork_kept {f} (h : Kept q z s) : Kept q z (voidWork f s) := by
  unfold voidWork
  exact forList_kept (modUmp_kept h) fun _ _ h => releasePower_kept h

theorem voidCrewWork_kept {g} (h : Kept q z s) : Kept q z (voidCrewWork g s) := by
  unfold voidCrewWork
  extract_lets +onlyGivenNames s1
  have h1 : Kept q z s1 := voidWork_kept h
  split
  · exact voidPair_kept h1
  · exact h1

/-! ### MapBuild -/

theorem setRmapHash_kept (h : Kept q z s) : Kept q z (setRmapHash s) := by
  unfold setRmapHash
  exact modUmp_kept h

theorem writeHalf_kept {i seq boots l} (h : Kept q z s) : Kept q z (writeHalf i seq boots l s) :=
  ⟨h.pending, h.fuses, h.hbm, putBytes_wf _ _ _ _ (putBytes_wf _ _ _ _ (putBytes_wf _ _ _ _
    (Tbl.wf_clear _ _ _ _ h.flash))), h.hostMem⟩

theorem rewriteMap_kept (h : Kept q z s) : Kept q z (rewriteMap s) := by
  unfold rewriteMap
  split <;> exact writeHalf_kept h

theorem appendStamp_kept (h : Kept q z s) : Kept q z (appendStamp s) := by
  unfold appendStamp
  split
  · exact rewriteMap_kept h
  · extract_lets n
    split
    · exact ⟨h.pending, h.fuses, h.hbm, putBytes_wf _ _ _ _ h.flash, h.hostMem⟩
    · exact rewriteMap_kept h

theorem appendEntry_kept {e} (h : Kept q z s) : Kept q z (appendEntry e s) := by
  unfold appendEntry
  extract_lets full s1
  have h1 : Kept q z s1 := kept_ite (rewriteMap_kept h) h
  split
  · exact h1
  · exact ⟨h1.pending, h1.fuses, h1.hbm, putBytes_wf _ _ _ _ h1.flash, h1.hostMem⟩

theorem bindTile_kept {g i t} (h : Kept q z s) : Kept q z (bindTile g i t s) := by
  unfold bindTile
  exact modUtile_kept h

theorem bindCrew_kept {g l} (h : Kept q z s) : Kept q z (bindCrew g l s) := by
  unfold bindCrew
  exact forList_kept (modCrew_kept h) fun _ _ h => bindTile_kept h

theorem subGrade_kept {p} (h : Kept q z s) : Kept q z (subGrade p s) := by
  unfold subGrade
  exact kept_ite h (raise_kept (modUmp_kept h))

theorem buildMap_kept (h : Kept q z s) : Kept q z (buildMap s) := by
  unfold buildMap
  extract_lets hist latest out bad s1 s2
  have h1 : Kept q z s1 := forList_kept h fun _ _ h => setUtile_kept h
  have h2 : Kept q z s2 := forUp_kept h1 fun _ _ h => modUmp_kept (forUp_kept
    (forList_kept h fun _ _ h => bindCrew_kept (modCrew_kept h)) fun _ _ h => modUtile_kept h)
  exact forUp_kept (modHost_kept h2) fun _ _ h => subGrade_kept h

theorem epochStep_kept (h : Kept q z s) : Kept q z (epochStep s) := by
  unfold epochStep
  exact forList_kept (raise_kept (modHost_kept (modUmp_kept h))) (fun _ _ h => kept_ite (raise_kept
    (modExec_kept h)) h)

theorem leaveCrew_kept {t} (h : Kept q z s) : Kept q z (leaveCrew t s) := by
  unfold leaveCrew
  exact kept_unless (setUtile_kept (modUmp_kept h)) (fun h => kept_ite (changeTile_kept h) (quarantine_kept h))

theorem rebind_kept {g i t x} (h : Kept q z s) : Kept q z (rebind g i t x s) := by
  unfold rebind
  exact sparesLow_kept (leaveCrew_kept (epochStep_kept (bindTile_kept (modCrew_kept (voidWork_kept
    (voidCrewWork_kept h))))))

theorem withdraw_kept {g} (h : Kept q z s) : Kept q z (withdraw g s) := by
  unfold withdraw
  extract_lets p n last gone before s1 k s2 s3 s4 s5 s6 s7 s8
  have h3 : Kept q z s3 := kept_unless (setCrew_kept (voidCrewWork_kept h)) setCrew_kept
  have h4 : Kept q z s4 := kept_unless h3 fun h => forList_kept h fun _ _ h => modUtile_kept h
  have h6 : Kept q z s6 := forList_kept (modUmp_kept h4) fun _ _ h => modExec_kept h
  exact sparesLow_kept (subGrade_kept (forList_kept (epochStep_kept h6) fun _ _ h => leaveCrew_kept h))

/-! ### FwSlots -/

theorem eraseHeader_kept {b} (h : Kept q z s) : Kept q z (eraseHeader b s) :=
  ⟨h.pending, h.fuses, h.hbm, Tbl.wf_clear _ _ _ _ h.flash, h.hostMem⟩

theorem slotWrite_kept {b off bs} (h : Kept q z s) : Kept q z (slotWrite b off bs s) :=
  ⟨h.pending, h.fuses, h.hbm, putBytes_wf _ _ _ _ h.flash, h.hostMem⟩

theorem writeRecord_kept {r prior} (h : Kept q z s) : Kept q z (writeRecord r prior s) :=
  ⟨h.pending, h.fuses, h.hbm, putBytes_wf _ _ _ _ (Tbl.wf_clear _ _ _ _ (putBytes_wf _ _ _ _
    (Tbl.wf_clear _ _ _ _ h.flash))), h.hostMem⟩

theorem updateRecord_kept {f} (h : Kept q z s) : Kept q z (updateRecord f s) := by
  unfold updateRecord
  exact writeRecord_kept h

theorem failRecord_kept {f} (h : Kept q z s) : Kept q z (failRecord f s) := by
  unfold failRecord
  extract_lets old new
  split
  rename_i s1 e1
  have h1 : Kept q z s1 := kept_of_eq e1 (freeBelow_kept h)
  split
  rename_i s2 e2
  have h2 : Kept q z s2 := kept_of_eq e2 (freeBytes_kept h1)
  split
  · exact ⟨h2.pending, h2.fuses, h2.hbm, putBytes_wf _ _ _ _ (Tbl.wf_clear _ _ _ _ h2.flash), h2.hostMem⟩
  · exact ⟨h2.pending, h2.fuses, h2.hbm, putBytes_wf _ _ _ _ (Tbl.wf_clear _ _ _ _ (putBytes_wf _ _ _ _
      (Tbl.wf_clear _ _ _ _ h2.flash))), h2.hostMem⟩

theorem commitRecord_kept {f} (h : Kept q z s) : Kept q z (commitRecord f s) := by
  unfold commitRecord
  exact kept_ite (modBoot_kept (failRecord_kept h)) (updateRecord_kept h)

theorem resolveRecord_kept (h : Kept q z s) : Kept q z (resolveRecord s).1 := by
  unfold resolveRecord
  extract_lets c0 c1 v0 v1 found
  clear_value found
  split
  · exact h
  · split
    · exact kept_fst (modBoot_kept h)
    · exact raise_kept (modBoot_kept (writeRecord_kept h))

theorem setReason_kept {b r} (h : Kept q z s) : Kept q z (setReason b r s) := by
  unfold setReason
  exact modBoot_kept h

theorem slotEvent_kept {code b} (h : Kept q z s) : Kept q z (slotEvent code b s) := by
  unfold slotEvent
  exact raise_kept h

theorem sealSlot_kept {b h0} (h : Kept q z s) : Kept q z (sealSlot b h0 s) := by
  unfold sealSlot
  exact slotEvent_kept (kept_when (slotWrite_kept h) commitRecord_kept)

/-! ### WeirOps -/

theorem wRead_kept {c loc len k} (h : Kept q z s) (hk : ∀ a s, Kept q z s → Kept q z (k a s).2) :
    Kept q z (wRead c loc len k s).2 := by
  unfold wRead
  split
  · exact h
  · split
    · exact kept_of_eq ‹_› (readLocal_kept h)
    · exact hk _ _ (kept_of_eq ‹_› (readLocal_kept h))

theorem wWrite_kept {c loc bs} (h : Kept q z s) : Kept q z (wWrite c loc bs s).2 := by
  unfold wWrite
  split
  · exact h
  · split <;> exact kept_of_eq ‹_› (writeLocal_kept h)

theorem wFor_kept {f i n} (h : Kept q z s) (hf : ∀ i s, Kept q z s → Kept q z (f i s).2) :
    Kept q z (wFor f i n s).2 := by
  induction n generalizing i s with
  | zero => exact h
  | succ n ih =>
    unfold wFor
    split
    · exact ih (kept_of_eq ‹_› (hf i s h))
    · exact hf i s h

theorem gatherBytes_kept {d loc bs} (h : Kept q z s) : Kept q z (gatherBytes d loc bs s).2 := by
  unfold gatherBytes
  split
  · split
    exact kept_of_eq ‹_› (freeBytes_kept h)
  · exact h

theorem gatherWrite_kept {c d i bs} (h : Kept q z s) : Kept q z (gatherWrite c d i bs s).2 := by
  unfold gatherWrite
  extract_lets +onlyGivenNames dst
  split
  exact wWrite_kept (kept_of_eq ‹_› (gatherBytes_kept h))

theorem weirGather_kept {c d} {s0 : State} (h0 : Kept q z s0) : Kept q z (weirGather c d s0).2 := by
  unfold weirGather
  refine wFor_kept ?_ ?_
  · exact h0
  · intro i s h
    refine wRead_kept ?_ ?_
    · exact h
    · intro a s h
      extract_lets +onlyGivenNames x
      split
      · exact gatherWrite_kept (countOor_kept h)
      · exact wRead_kept h fun _ _ h => gatherWrite_kept h

theorem weirFill_kept {c d} (h : Kept q z s) : Kept q z (weirFill c d s).2 := by
  unfold weirFill
  exact wFor_kept h fun _ _ h => wWrite_kept h

theorem segRows_kept {c d n i k p} (h : Kept q z s) : Kept q z (segRows c d n i k p s).1.2 := by
  induction k generalizing i p s with
  | zero => exact h
  | succ k ih =>
    unfold segRows
    split
    · rename_i s1 e
      have h1 : Kept q z s1 := kept_of_eq e (wRead_kept h fun _ _ h => h)
      split
      · exact ih (countOor_kept h1)
      · extract_lets loc
        split
        · exact h1
        · split
          · exact kept_of_eq ‹_› (readLocal_kept h1)
          · exact ih (kept_of_eq ‹_› (readLocal_kept h1))
    · rename_i e
      exact kept_of_eq e (wRead_kept h fun _ _ h => h)

theorem segOne_kept {c d g} (h : Kept q z s) : Kept q z (segOne c d g s).2 := by
  unfold segOne
  refine wRead_kept h fun ob s h => ?_
  extract_lets a b n
  have hrows : Kept q z (segRows c d n a (b - a) [] s).1.2 := segRows_kept h
  split
  · exact h
  · split
    · rename_i e
      rw [e] at hrows
      exact wWrite_kept hrows
    · rename_i e
      rw [e] at hrows
      exact hrows

theorem weirSegsum_kept {c d} (h : Kept q z s) : Kept q z (weirSegsum c d s).2 := by
  unfold weirSegsum
  exact wFor_kept h fun _ _ h => segOne_kept h

theorem atomAdd_kept {v bf loc val} (h : Kept q z s) : Kept q z (atomAdd v bf loc val s).2 := by
  unfold atomAdd
  split
  · exact kept_of_eq ‹_› (translate_kept h)
  · split
    · exact kept_of_eq ‹_› (hbmRead_kept (kept_of_eq ‹_› (translate_kept h)))
    · split <;> exact kept_of_eq ‹_› (hbmWrite_kept (kept_of_eq ‹_› (hbmRead_kept (kept_of_eq ‹_›
        (translate_kept h)))))

theorem atomRec_kept {c d r} (h : Kept q z s) : Kept q z (atomRec c d r s).2 := by
  unfold atomRec
  refine wRead_kept ?_ ?_
  · exact h
  · intro a s h
    extract_lets +onlyGivenNames k
    split
    · exact h
    · split
      · exact countOor_kept h
      · extract_lets +onlyGivenNames bf loc
        split
        · exact h
        · split <;> exact kept_of_eq ‹_› (atomAdd_kept h)

theorem weirAtoms_kept {c d} (h : Kept q z s) : Kept q z (weirAtoms c d s).2 := by
  unfold weirAtoms
  exact wFor_kept h fun _ _ h => atomRec_kept h

theorem weirRun_kept {c d} (h : Kept q z s) : Kept q z (weirRun c d s).2 := by
  unfold weirRun
  split
  · exact h
  · split
    · exact weirGather_kept h
    · split
      · exact weirSegsum_kept h
      · split
        · exact weirAtoms_kept h
        · exact weirFill_kept h

/-! ### WeirCore -/

theorem advance_kept {c} (h : Kept q z s) : Kept q z (advance c s) := by
  unfold advance
  exact modExec_kept h

theorem issueWeir_kept {c} (h : Kept q z s) : Kept q z (issueWeir c s) := by
  unfold issueWeir
  split
  · exact h
  · split
    · exact h
    · exact advance_kept (modExec_kept (kept_update h))

theorem issueWaiting_kept (h : Kept q z s) : Kept q z (issueWaiting s) := by
  unfold issueWaiting
  split
  · exact h
  · exact issueWeir_kept h

theorem weirEnds_kept {i code addr} (h : Kept q z s) : Kept q z (weirEnds i code addr s) := by
  unfold weirEnds
  split
  · exact h
  · extract_lets +onlyGivenNames s1
    have h1 : Kept q z s1 := kept_update h
    split
    · exact h1
    · extract_lets +onlyGivenNames s2
      have h2 : Kept q z s2 := raise_kept (kept_update h1)
      split
      · exact kept_ite (decideEnd_kept h2) h2
      · exact h2

theorem weirStops_kept {p i j} (h : Kept q z s) : Kept q z (weirStops p i j s) := by
  unfold weirStops
  extract_lets r
  split
  rename_i n s1 e1
  have h1 : Kept q z s1 := kept_of_eq e1 (free_kept h)
  split
  rename_i e s2 e2
  have h2 : Kept q z s2 := by
    refine kept_of_eq e2 (wRead_kept (modPart_kept h1) fun bs s h => ?_)
    extract_lets d
    split
    · exact weirRun_kept h
    · exact h
  extract_lets s3
  have h3 : Kept q z s3 := modPart_kept h2
  split
  · exact weirEnds_kept h3
  · exact weirEnds_kept h3

theorem weirReset_kept {p} (h : Kept q z s) : Kept q z (weirReset p s) := by
  unfold weirReset
  refine forList_kept ?_ ?_
  · exact h
  · intro a s h
    split
    · exact h
    · split
      exact kept_unless (kept_of_eq ‹_› (freeBelow_kept h)) weirStops_kept

theorem weirFree_kept {c id} (h : Kept q z s) : Kept q z (weirFree c id s) := kept_update h

/-! ### ResetCore -/

theorem resetLog_kept {p cause n} (h : Kept q z s) : Kept q z (resetLog p cause n s) := by
  unfold resetLog
  extract_lets +onlyGivenNames w1
  split
  · extract_lets +onlyGivenNames e
    split
    exact kept_when (modRst_kept h) raise_kept

theorem escalate_kept {who} (h : Kept q z s) : Kept q z (escalate who s) := by
  unfold escalate
  exact kept_when (modRst_kept h) modRst_kept

theorem escalatePart_kept {p} (h : Kept q z s) : Kept q z (escalatePart p s) := by
  unfold escalatePart
  exact kept_ite h (escalate_kept h)

theorem escalateCox_kept (h : Kept q z s) : Kept q z (escalateCox s) := by
  unfold escalateCox
  exact kept_ite (modRst_kept h) (escalate_kept h)

theorem clearTiles_kept {p} (h : Kept q z s) : Kept q z (clearTiles p s) := by
  unfold clearTiles
  exact kept_update (modPart_kept (forList_kept h (fun _ _ h => kept_ite (noteStop_kept h) h)))

theorem holdCtx_kept {c p} (h : Kept q z s) : Kept q z (holdCtx c p s) := by
  unfold holdCtx
  exact modCtx_kept h

theorem abortIn_kept {p status} (h : Kept q z s) : Kept q z (abortIn p status s) := by
  unfold abortIn
  exact forList_kept h (fun _ _ h => kept_ite (holdCtx_kept (decideEnd_kept h)) h)

theorem voidUmpIn_kept {p} (h : Kept q z s) : Kept q z (voidUmpIn p s) := by
  unfold voidUmpIn
  extract_lets +onlyGivenNames s1
  have h1 : Kept q z s1 := voidWork_kept h
  refine forList_kept ?_ ?_
  · exact h1
  · intro a s h
    split
    · exact kept_ite (voidPair_kept h) h
    · exact h

theorem startReset_kept {p cause counted named status} (h : Kept q z s) :
    Kept q z (startReset p cause counted named status s) := by
  unfold startReset
  split
  · exact kept_when (resetLog_kept h) (fun h => escalatePart_kept (modPart_kept h))
  · exact weirReset_kept (dropCache_kept (clearTiles_kept (abortIn_kept (voidUmpIn_kept (kept_when (raise_kept
      (resetLog_kept (modPart_kept h))) escalatePart_kept)))))

theorem settleAbort_kept {c} (h : Kept q z s) : Kept q z (settleAbort c s) := by
  unfold settleAbort
  exact kept_ite (setCtx_kept h) h

theorem ctxStopped_kept {c} (h : Kept q z s) : Kept q z (ctxStopped c s) := by
  unfold ctxStopped
  exact kept_ite (kept_unless (enterStopped_kept (setCtx_kept h)) modCtx_kept) h

theorem enterOos_kept {cause} (h : Kept q z s) : Kept q z (enterOos cause s) := by
  unfold enterOos
  refine kept_ite h ?_
  extract_lets s1 s2 s3 s4 s5 s6
  have h2 : Kept q z s2 := forUp_kept (modRst_kept h) fun _ _ h => kept_ite h (startReset_kept h)
  have h4 : Kept q z s4 := forList_kept (allToP15_kept h2) fun _ _ h => decideEnd_kept h
  exact raise_kept (voidWork_kept (forUp_kept h4 fun _ _ h => refuseFetched_kept h))

/-! ### Ctx -/

theorem ctxCfgWrite_kept {c v} (h : Kept q z s) : Kept q z (ctxCfgWrite c v s) := by
  unfold ctxCfgWrite
  exact setCtx_kept h

theorem doorbell_kept {c tail width v} (h : Kept q z s) : Kept q z (doorbell c tail width v s) := by
  unfold doorbell
  exact kept_ite h (kept_ite (raise_kept h) (kept_ite (setCtx_kept h) (setCtx_kept h)))

theorem readSq_kept {c i} (h : Kept q z s) : Kept q z (readSq c i s).2 := by
  unfold readSq
  extract_lets +onlyGivenNames x
  split
  · exact devRead_kept h
  · exact h

theorem dmaFault_kept {c kind addr} (h : Kept q z s) : Kept q z (dmaFault c kind addr s) := by
  unfold dmaFault
  exact kept_unless (raise_kept (kept_update h)) (fun h => kept_ite (enterStopped_kept h) (setCtx_kept h))

theorem flushOne_kept {c} (h : Kept q z s) : Kept q z (flushOne c s) := by
  unfold flushOne
  extract_lets x
  split
  rename_i d s1 e1
  have h1 : Kept q z s1 := by
    refine kept_of_eq e1 ?_
    split
    · exact kept_of_eq ‹_› (readSq_kept h)
    · exact dmaFault_kept (kept_of_eq ‹_› (readSq_kept h))
  exact refuseLaunch_kept (modCtx_kept h1)

theorem flushCtx_kept {c} (h : Kept q z s) : Kept q z (flushCtx c s) := by
  unfold flushCtx
  exact kept_ite h (forUp_kept (refuseFetched_kept h) (fun _ _ h => flushOne_kept h))

theorem resumeCtx_kept {c} (h : Kept q z s) : Kept q z (resumeCtx c s) := by
  unfold resumeCtx
  exact kept_ite (setCtx_kept h) h

theorem abortCtx_kept {c} (h : Kept q z s) : Kept q z (abortCtx c s) := by
  unfold abortCtx
  exact kept_ite (decideEnd_kept h) h

theorem clearLaunchTiles_kept {c x} (h : Kept q z s) : Kept q z (clearLaunchTiles c x s) := by
  unfold clearLaunchTiles
  exact forList_kept h (fun _ _ h => kept_ite (setTile_kept (kept_ite (noteStop_kept h) h)) (kept_ite
    (noteStop_kept h) h))

theorem quiesce_kept {c stuck} (h : Kept q z s) : Kept q z (quiesce c stuck s) := by
  unfold quiesce
  extract_lets +onlyGivenNames k
  split
  · exact kept_ite h (kept_when (modCtx_kept (dropTranslations_kept (weirFree_kept (clearLaunchTiles_kept
      (forList_kept h (fun _ _ h => startReset_kept (raise_kept h))))))) (fun h => settleAbort_kept
      (launchDone_kept h)))
  · exact h

theorem berthCmd_kept {op c g n} (h : Kept q z s) : Kept q z (berthCmd op c g n s) := by
  unfold berthCmd
  exact kept_ite h (kept_unless (kept_update h) (fun h => kept_ite (forList_kept h (fun _ _ h => kept_ite
    (modCrew_kept h) h)) (forUp_kept h (fun _ _ h => modCrew_kept h))))

/-! ### Launch -/

theorem fetchDesc_kept {c} (h : Kept q z s) : Kept q z (fetchDesc c s) := by
  unfold fetchDesc
  extract_lets +onlyGivenNames x
  split
  · exact h
  · split
    · exact dmaFault_kept (kept_of_eq ‹_› (readSq_kept h))
    · exact modCtx_kept (kept_of_eq ‹_› (readSq_kept h))

theorem fetchFails_kept {c k} (h : Kept q z s) : Kept q z (fetchFails c k s) := by
  unfold fetchFails
  exact kept_ite (dmaFault_kept h) h

theorem takeLaunch_kept {c i} (h : Kept q z s) : Kept q z (takeLaunch c i s) := by
  unfold takeLaunch
  exact modCtx_kept h

theorem admitOldest_kept {c} (h : Kept q z s) : Kept q z (admitOldest c s) := by
  unfold admitOldest
  extract_lets +onlyGivenNames x
  split
  · exact h
  · split
    · exact h
    · split
      · exact h
      · split
        · exact refuseLaunch_kept (takeLaunch_kept h)
        · exact kept_update (modCtx_kept h)

theorem readStream_kept {c base n i ran} (h : Kept q z s) : Kept q z (readStream c base n i ran s).2 := by
  induction n generalizing i ran s with
  | zero => exact h
  | succ n ih =>
    unfold readStream
    split
    · exact kept_of_eq ‹_› (readLocal_kept h)
    · rename_i bs s1 e1
      have h1 : Kept q z s1 := kept_of_eq e1 (readLocal_kept h)
      split
      · exact h1
      · extract_lets cmd
        split
        · exact h1
        · split
          · exact kept_of_eq ‹_› (ih h1)
          · exact kept_of_eq ‹_› (ih h1)

theorem beginPin_kept {c d} (h : Kept q z s) : Kept q z (beginPin c d s) := by
  unfold beginPin
  exact kept_ite h (modExec_kept h)

theorem beginPair_kept {c x} (h : Kept q z s) : Kept q z (beginPair c x s) := by
  unfold beginPair
  extract_lets +onlyGivenNames k
  split
  · exact h
  · split
    · exact h
    · exact modExec_kept (umpCount_kept (commitPower_kept (modCrew_kept (modUmp_kept h))))

theorem samplePair_kept {c x} (h : Kept q z s) : Kept q z (samplePair c x s) := by
  unfold samplePair
  exact kept_ite h (kept_when (modUmp_kept h) beginPair_kept)

theorem dispatch_kept {c l crews dur} (h : Kept q z s) : Kept q z (dispatch c l crews dur s) := by
  have hread : ∀ {c a n i ran s}, Kept q z s → Kept q z (readStream c a n i ran s).2 := readStream_kept
  unfold dispatch
  generalize readStream = read at hread ⊢
  extract_lets +onlyGivenNames x s1 s2 s3
  have h3 : Kept q z s3 := beginPin_kept (forList_kept (modCtx_kept h) fun _ _ h => modCrew_kept
    (voidCrewWork_kept h))
  clear_value s3
  generalize e4 : (if l.desc.timed = true then _ else _) = s4
  have h4 : Kept q z s4 := by
    have hd : Kept q z (dropTranslations c s3) := dropTranslations_kept h3
    rw [← e4]
    exact kept_ite (kept_ite hd (combFlush_kept hd)) h3
  extract_lets s5 s6
  have h6 : Kept q z s6 := samplePair_kept h4
  split
  · exact modExec_kept (kept_of_eq ‹_› (hread h6))
  · exact decideEnd_kept (kept_of_eq ‹_› (hread h6))

theorem recheckAll_kept {l} (h : Kept q z s) : Kept q z (recheckAll l s).2 := by
  induction l generalizing s with
  | nil => exact h
  | cons c r ih =>
    unfold recheckAll
    extract_lets x
    split
    · exact ih h
    · split
      · exact ih (refuseLaunch_kept (takeLaunch_kept h))
      · exact ih h

theorem schedulerPass_kept (h : Kept q z s) : Kept q z (schedulerPass s) := by
  unfold schedulerPass
  split
  · exact h
  · split
    exact forList_kept (kept_of_eq ‹_› (recheckAll_kept h)) (fun _ _ h => kept_ite (dispatch_kept h) h)

theorem passesFrom_kept {k n} (h : Kept q z s) : Kept q z (passesFrom k n s) := by
  induction k generalizing n s with
  | zero => exact h
  | succ k ih => exact kept_ite h (ih (schedulerPass_kept h))

theorem thenPass_kept {f} (h : Kept q z s) (hf : ∀ s, Kept q z s → Kept q z (f s)) : Kept q z (thenPass f s) := by
  unfold thenPass
  exact passesFrom_kept (hf _ h)

/-! ### Link -/

theorem strokeEvent_kept {code} (h : Kept q z s) : Kept q z (strokeEvent code s) := by
  unfold strokeEvent
  exact raise_kept h

theorem becomeMaster_kept (h : Kept q z s) : Kept q z (becomeMaster s) := by
  unfold becomeMaster
  exact strokeEvent_kept (modStroke_kept h)

theorem placeDevice_kept {num size} (h : Kept q z s) : Kept q z (placeDevice num size s) := by
  unfold placeDevice
  exact raise_kept (modFab_kept h)

theorem portTo_kept {n st} (h : Kept q z s) : Kept q z (portTo n st s) := by
  unfold portTo
  exact modPort_kept h

theorem fabBegin_kept (h : Kept q z s) : Kept q z (fabBegin s) := by
  unfold fabBegin
  exact kept_ite (becomeMaster_kept (placeDevice_kept h)) (kept_ite (becomeMaster_kept (raise_kept (modFab_kept h)))
    (kept_ite (becomeMaster_kept (modFab_kept h)) (forUp_kept (modStroke_kept (modFab_kept h)) (fun _ _ h =>
    portTo_kept (modPort_kept h)))))

theorem fabCfgWrite_kept {v} (h : Kept q z s) : Kept q z (fabCfgWrite v s) := by
  unfold fabCfgWrite
  exact kept_ite h (kept_when (modFab_kept h) (fun h => fabBegin_kept (modFab_kept h)))

theorem fabPlaced_kept (h : Kept q z s) : Kept q z (fabPlaced s) := by
  unfold fabPlaced
  extract_lets +onlyGivenNames settled
  split
  · exact h
  · exact kept_ite (kept_when (placeDevice_kept h) becomeMaster_kept) h

theorem linkEvent_kept {code n} (h : Kept q z s) : Kept q z (linkEvent code n s) := by
  unfold linkEvent
  exact raise_kept h

theorem takeBack_kept {n q0} (h : Kept q z s) : Kept q z (takeBack n q0 s) := by
  unfold takeBack
  split
  · exact flood_kept h
  · exact flood_kept h
  · exact modFab_kept h
  · exact routerPut_kept h

theorem goDown_kept {n} (h : Kept q z s) : Kept q z (goDown n s) := by
  unfold goDown
  exact forList_kept (portTo_kept (setPort_kept h)) fun _ _ h => takeBack_kept h

theorem attemptEnd_kept {n reason} (h : Kept q z s) : Kept q z (attemptEnd n reason s) := by
  unfold attemptEnd
  exact kept_ite (portTo_kept (modPort_kept (modPort_kept h))) (linkEvent_kept (goDown_kept (modPort_kept h)))

theorem toEq_kept {n} (h : Kept q z s) : Kept q z (toEq n s) := by
  unfold toEq
  exact portTo_kept (modPort_kept h)

theorem detectSignal_kept {n} (h : Kept q z s) : Kept q z (detectSignal n s) := by
  unfold detectSignal
  exact kept_ite (portTo_kept h) h

theorem detectTimeout_kept {n} (h : Kept q z s) : Kept q z (detectTimeout n s) := by
  unfold detectTimeout
  exact kept_ite (setPort_kept h) h

theorem rateExchange_kept {n reach2} (h : Kept q z s) : Kept q z (rateExchange n reach2 s) := by
  unfold rateExchange
  exact kept_ite (toEq_kept (setPort_kept h)) h

theorem eqDone_kept {n ok} (h : Kept q z s) : Kept q z (eqDone n ok s) := by
  unfold eqDone
  exact kept_ite h (kept_ite (kept_ite (portTo_kept h) h) (kept_ite h (kept_ite (toEq_kept (setPort_kept h))
    (attemptEnd_kept h))))

theorem lanesCheck_kept {n mask} (h : Kept q z s) : Kept q z (lanesCheck n mask s) := by
  unfold lanesCheck
  extract_lets x m s1
  have h1 : Kept q z s1 := setPort_kept h
  exact kept_ite h (kept_ite (portTo_kept (modPort_kept h1))
    (kept_ite (portTo_kept (modPort_kept h1)) (attemptEnd_kept h1)))

theorem waitedOnResend_kept {q0 dev} (h : Kept q z s) : Kept q z (waitedOnResend q0 dev s) := by
  unfold waitedOnResend
  extract_lets +onlyGivenNames h1 x
  split
  · exact h
  · split
    · exact modWake_kept h
    · exact h

theorem resend_kept {n l} (h : Kept q z s) : Kept q z (resend n l s) := by
  unfold resend
  extract_lets +onlyGivenNames ack s1 s2
  have h1 : Kept q z s1 := modPort_kept h
  have h2 : Kept q z s2 := kept_update h1
  refine forList_kept ?_ ?_
  · exact h2
  · intro a s h
    split
    · exact kept_ite (waitedOnResend_kept h) h
    · exact h

theorem drainCtl_kept {n k} (h : Kept q z s) : Kept q z (drainCtl n k s) := by
  induction k generalizing s with
  | zero => exact h
  | succ k ih =>
    unfold drainCtl
    extract_lets x
    split
    · exact h
    · exact kept_ite (ih (putFlit_kept (setPort_kept h))) h

theorem drainPort_kept {n} (h : Kept q z s) : Kept q z (drainPort n s) := by
  unfold drainPort
  exact drainCtl_kept h

theorem identify_kept {n who} (h : Kept q z s) : Kept q z (identify n who s) := by
  unfold identify
  refine kept_ite h (kept_ite (linkEvent_kept (goDown_kept (setPort_kept h)))
    (kept_ite (linkEvent_kept (goDown_kept (setPort_kept h))) ?_))
  extract_lets s1 s2 s3 s4
  have h2 : Kept q z s2 := linkEvent_kept (portTo_kept (setPort_kept h))
  have h3 : Kept q z s3 := kept_ite (linkEvent_kept h2) h2
  exact drainPort_kept (kept_ite h3 (resend_kept h3))

theorem linkRetrain_kept {n lockLost} (h : Kept q z s) : Kept q z (linkRetrain n lockLost s) := by
  unfold linkRetrain
  exact kept_ite h (kept_ite (linkEvent_kept (goDown_kept (modPort_kept (linkEvent_kept (setPort_kept h)))))
    (toEq_kept (linkEvent_kept (setPort_kept h))))

theorem portTrain_kept {n} (h : Kept q z s) : Kept q z (portTrain n s) := by
  unfold portTrain
  exact kept_ite (portTo_kept (setPort_kept h)) h

theorem portDown_kept {n} (h : Kept q z s) : Kept q z (portDown n s) := by
  unfold portDown
  exact kept_ite (goDown_kept (setPort_kept h)) h

theorem deliverPacket_kept {n pkt esc} (h : Kept q z s) : Kept q z (deliverPacket n pkt esc s) := by
  unfold deliverPacket
  exact kept_ite (modFab_kept h) (modFab_kept h)

theorem flitReceive_kept {n seq crcOk pkt ack esc} (h : Kept q z s) :
    Kept q z (flitReceive n seq crcOk pkt ack esc s) := by
  unfold flitReceive
  extract_lets +onlyGivenNames x
  split
  · exact h
  · split
    · exact kept_when (setPort_kept h) kept_update
    · split
      · exact kept_ite (setPort_kept h) h
      · extract_lets +onlyGivenNames s1 s2
        have h1 : Kept q z s1 := setPort_kept h
        have h2 : Kept q z s2 := by
          unfold s2
          split
          · exact deliverPacket_kept (kept_ite (waitedOnResend_kept h1) h1)
          · exact h1
        exact drainPort_kept h2

theorem nakReceive_kept {n seq} (h : Kept q z s) : Kept q z (nakReceive n seq s) := by
  unfold nakReceive
  extract_lets +onlyGivenNames x
  split
  · exact h
  · split
    · exact h
    · exact resend_kept h

theorem portReequalise_kept {n} (h : Kept q z s) : Kept q z (portReequalise n s) := by
  unfold portReequalise
  exact kept_ite (setPort_kept h) h

theorem portReeqDone_kept {n} (h : Kept q z s) : Kept q z (portReeqDone n s) := by
  unfold portReeqDone
  extract_lets +onlyGivenNames x
  split
  · exact h
  · exact kept_ite (drainPort_kept (setPort_kept h)) h

/-! ### TileOps -/

theorem unitNew_kept {t u r} (h : Kept q z s) : Kept q z (unitNew t u r s).2 := by
  unfold unitNew
  split
  · extract_lets +onlyGivenNames c loc
    split
    · exact h
    · split <;> exact kept_update h
  · split
    exact kept_of_eq ‹_› (freeBytes_kept h)

theorem checkWord_kept {e} (h : Kept q z s) : Kept q z (checkWord e s).2 := by
  unfold checkWord
  split
  · exact h
  · exact h
  · exact h
  · split
    exact kept_of_eq ‹_› (freeBelow_kept h)

theorem sramWord_kept {t i} (h : Kept q z s) : Kept q z (sramWord t i s).2 := by
  unfold sramWord
  extract_lets +onlyGivenNames e
  split
  · exact kept_of_eq ‹_› (checkWord_kept h)
  · exact countCe_kept (modTile_kept (kept_of_eq ‹_› (checkWord_kept h)))
  · exact kept_of_eq ‹_› (checkWord_kept h)
  · split
    · extract_lets +onlyGivenNames s1
      have h1 : Kept q z s1 := modTile_kept (kept_of_eq ‹_› (freeBytes_kept (kept_of_eq ‹_› (checkWord_kept h))))
      split
      · exact countCe_kept (modTile_kept h1)
      · exact h1

theorem sramWords_kept {t i n} (h : Kept q z s) : Kept q z (sramWords t i n s).2 := by
  induction n generalizing i s with
  | zero => exact h
  | succ n ih => exact ih (sramWord_kept h)

theorem sramCheck_kept {t k a n} (h : Kept q z s) : Kept q z (sramCheck t k a n s).2 := by
  induction k generalizing a n s with
  | zero => exact h
  | succ k ih =>
    unfold sramCheck
    extract_lets m
    split
    · exact h
    · split
      · exact ih (kept_of_eq ‹_› (sramWords_kept h))
      · exact sramWords_kept h

theorem overlayUnit_kept {t a u bs} (h : Kept q z s) : Kept q z (overlayUnit t a u bs s).2 := by
  unfold overlayUnit
  split
  · exact h
  · split
    · split
      · exact kept_of_eq ‹_› (freeBelow_kept h)
      · split <;> exact kept_of_eq ‹_› (unitNew_kept (kept_of_eq ‹_› (freeBelow_kept h)))

theorem overlayUnits_kept {t a u n bs} (h : Kept q z s) : Kept q z (overlayUnits t a u n bs s).2 := by
  induction n generalizing u bs s with
  | zero => exact h
  | succ n ih => exact ih (overlayUnit_kept h)

theorem sramRead_kept {t a n} (h : Kept q z s) : Kept q z (sramRead t a n s).2 := by
  unfold sramRead
  split
  · exact h
  · split
    · exact kept_of_eq ‹_› (sramCheck_kept h)
    · split
      exact kept_of_eq ‹_› (overlayUnits_kept (kept_of_eq ‹_› (sramCheck_kept h)))

theorem sramPut_kept {t a bs} (h : Kept q z s) : Kept q z (sramPut t a bs s) := by
  unfold sramPut
  exact modTile_kept h

theorem sramStore_kept {t a bs} (h : Kept q z s) : Kept q z (sramStore t a bs s).2 := by
  unfold sramStore
  split
  · exact sramPut_kept h
  · extract_lets +onlyGivenNames b
    split
    · exact kept_of_eq ‹_› (sramRead_kept h)
    · exact sramPut_kept (kept_of_eq ‹_› (sramRead_kept h))

theorem finish_kept {t start atc cost pc dest lat} (h : Kept q z s) :
    Kept q z (finish t start atc cost pc dest lat s) := by
  unfold finish
  exact modTile_kept h

theorem perform_kept {t op w body} (h : Kept q z s)
    (hbody : ∀ t w atc s, Kept q z s → Kept q z (body t w atc s).state) : Kept q z (perform t op w body s) := by
  unfold perform
  extract_lets x atc
  have hd : Kept q z (body t w atc s).state := hbody t w atc s h
  generalize body t w atc s = d at hd ⊢
  cases d with
  | retire cost dest lat s1 => exact finish_kept hd
  | jump cost pc dest s1 => exact finish_kept hd
  | hold s1 => exact modTile_kept hd
  | trap tr s1 => exact trapTile_kept (modTile_kept hd)
  | stop s1 => exact hd

theorem fetch_kept {t} (h : Kept q z s) : Kept q z (fetch t s).2.2 := by
  unfold fetch
  extract_lets x i w fix
  have hc : Kept q z (checkWord (Tbl.look EccErr.none i x.imemErr) s).2 := checkWord_kept h
  split
  · exact kept_of_eq ‹_› hc
  · exact countCe_kept (modTile_kept (kept_of_eq ‹_› hc))
  · exact kept_of_eq ‹_› hc
  · split
    exact kept_when (modTile_kept (kept_of_eq ‹_› (freeBytes_kept (kept_of_eq ‹_› hc))))
      fun h => countCe_kept (modTile_kept h)

theorem earlyTrap_kept {t cause addr detail} (h : Kept q z s) : Kept q z (earlyTrap t cause addr detail s) := by
  unfold earlyTrap
  exact trapTile_kept h

theorem skip_kept {t w} (h : Kept q z s) : Kept q z (skip t w s) := by
  unfold skip
  exact finish_kept h

theorem mcodeCheck_kept {t l} (h : Kept q z s) : Kept q z (mcodeCheck t l s).2 := by
  induction l generalizing s with
  | nil => exact h
  | cons e r ih =>
    unfold mcodeCheck
    split
    rename_i b s1 e1
    have h1 : Kept q z s1 := kept_of_eq e1 (freeBelow_kept h)
    extract_lets fixed
    have hfixed : ∀ s, Kept q z s → Kept q z (fixed s) := fun s h => countCe_kept (modBoot_kept h)
    split
    · exact ih h1
    · split
      · exact ih (kept_of_eq ‹_› (checkWord_kept h1))
      · exact ih (hfixed _ (kept_of_eq ‹_› (checkWord_kept h1)))
      · exact kept_of_eq ‹_› (checkWord_kept h1)
      · rename_i e2
        have h2 := kept_of_eq e2 (checkWord_kept h1)
        exact ih (kept_ite (hfixed _ h2) h2)

theorem runOp_kept {t op w body} (h : Kept q z s)
    (hbody : ∀ t w atc s, Kept q z s → Kept q z (body t w atc s).state) :
    Kept q z (runOp t op w body s) := by
  unfold runOp
  split
  · split
    · exact earlyTrap_kept (kept_of_eq ‹_› (mcodeCheck_kept h))
    · exact perform_kept (kept_of_eq ‹_› (mcodeCheck_kept h)) (fun _ _ _ _ h => hbody _ _ _ _ h)
  · exact perform_kept h (fun _ _ _ _ h => hbody _ _ _ _ h)

theorem issue_kept {t op body} (h : Kept q z s)
    (hbody : ∀ t w atc s, Kept q z s → Kept q z (body t w atc s).state) : Kept q z (issue t op body s) := by
  unfold issue
  extract_lets x
  split
  · exact h
  · split
    · exact earlyTrap_kept (kept_of_eq₂ ‹_› (fetch_kept h))
    · rename_i w s1 e1
      have h1 : Kept q z s1 := kept_of_eq₂ e1 (fetch_kept h)
      split
      · exact earlyTrap_kept h1
      · extract_lets go
        exact kept_ite h (kept_ite (earlyTrap_kept h1)
          (kept_ite (earlyTrap_kept h1) (kept_ite (runOp_kept h1 hbody) (skip_kept h1))))

theorem regOp_kept {cost lat dest f t w atc} (h : Kept q z s) :
    Kept q z (regOp cost lat dest f t w atc s).state := by
  unfold regOp
  exact modTile_kept h

theorem sOp_kept {lat f t w atc} (h : Kept q z s) : Kept q z (sOp lat f t w atc s).state := by
  unfold sOp
  exact regOp_kept h

theorem cmpOp_kept {f t w atc} (h : Kept q z s) : Kept q z (cmpOp f t w atc s).state := by
  unfold cmpOp
  exact regOp_kept h

theorem fcmpOp_kept {f t w atc} (h : Kept q z s) : Kept q z (fcmpOp f t w atc s).state := by
  unfold fcmpOp
  exact regOp_kept h

theorem pOp_kept {f t w atc} (h : Kept q z s) : Kept q z (pOp f t w atc s).state := by
  unfold pOp
  exact regOp_kept h

theorem iOp_kept {f t w atc} (h : Kept q z s) : Kept q z (iOp f t w atc s).state := by
  unfold iOp
  exact regOp_kept h

theorem voidIfPaired_kept {t} (h : Kept q z s) : Kept q z (voidIfPaired t s) := by
  unfold voidIfPaired
  split
  · exact voidPair_kept h
  · exact h

theorem unlessGated_kept {t k} (h : Kept q z s) (hk : ∀ s, Kept q z s → Kept q z (k s).state) :
    Kept q z (unlessGated t s k).state := by
  unfold unlessGated
  split
  · exact h
  · exact hk _ h

/-! ### Eddy -/

theorem eddyCheck_kept {t i} (h : Kept q z s) : Kept q z (eddyCheck t i s).2 := by
  unfold eddyCheck
  extract_lets fix
  have hc : Kept q z (checkWord (Tbl.look EccErr.none i (s.tile t).eddyErr) s).2 := checkWord_kept h
  split
  · exact kept_of_eq ‹_› hc
  · exact countCe_kept (modTile_kept (kept_of_eq ‹_› hc))
  · exact kept_of_eq ‹_› hc
  · split
    exact kept_when (modTile_kept (kept_of_eq ‹_› (freeBytes_kept (kept_of_eq ‹_› hc))))
      fun h => countCe_kept (modTile_kept h)

theorem eddyChecks_kept {t l} (h : Kept q z s) : Kept q z (eddyChecks t l s).2 := by
  induction l generalizing s with
  | nil => exact h
  | cons i r ih => exact ih (eddyCheck_kept h)

theorem sendLine_kept {t l} (h : Kept q z s) : Kept q z (sendLine t l s) := by
  unfold sendLine
  exact kept_update (setTile_kept h)

theorem laneChecks_kept {t extent n l} (h : Kept q z s) : Kept q z (laneChecks t extent n l s).2 := by
  induction l generalizing n s with
  | nil => exact h
  | cons k r ih =>
    unfold laneChecks
    split
    · exact ih h
    · split
      · exact kept_of_eq ‹_› (eddyChecks_kept h)
      · exact ih (kept_of_eq ‹_› (eddyChecks_kept h))

theorem eaddAll_kept {cost ps t w atc} (h : Kept q z s) : Kept q z (eaddAll cost ps t w atc s).state := by
  unfold eaddAll
  extract_lets +onlyGivenNames x
  split
  · exact h
  · split
    · exact kept_of_eq ‹_› (laneChecks_kept h)
    · extract_lets +onlyGivenNames y r
      split
      · exact h
      · exact unlessGated_kept (kept_when (countOors_kept (setTile_kept (kept_of_eq ‹_›
          (laneChecks_kept h)))) voidIfPaired_kept) (fun _ h => h)

theorem bodyEadd_kept {t w atc} (h : Kept q z s) : Kept q z (bodyEadd t w atc s).state := by
  unfold bodyEadd
  exact eaddAll_kept h

theorem bodyEaddv_kept {t w atc} (h : Kept q z s) : Kept q z (bodyEaddv t w atc s).state := by
  unfold bodyEaddv
  exact eaddAll_kept h

theorem afterDrain_kept {b t w atc} (h : Kept q z s) (hb : ∀ t w atc s, Kept q z s → Kept q z (b t w atc s).state) :
    Kept q z (afterDrain b t w atc s).state := by
  unfold afterDrain
  split
  · exact h
  · exact hb _ _ _ _ h

theorem bodyEcfg_kept {t w atc} (h : Kept q z s) : Kept q z (bodyEcfg t w atc s).state := by
  unfold bodyEcfg
  exact afterDrain_kept h (fun _ _ _ _ h => retire_kept (modTile_kept h))

theorem bodyEcount_kept {t w atc} (h : Kept q z s) : Kept q z (bodyEcount t w atc s).state := by
  unfold bodyEcount
  exact afterDrain_kept h (fun _ _ _ _ h => retire_kept (modTile_kept h))

theorem startDrain_kept {base t atc} (h : Kept q z s) : Kept q z (startDrain base t atc s).state := by
  unfold startDrain
  exact unlessGated_kept (voidIfPaired_kept h) (fun _ h => retire_kept (modTile_kept h))

theorem bodyEspill_kept {t w atc} (h : Kept q z s) : Kept q z (bodyEspill t w atc s).state := by
  unfold bodyEspill
  exact afterDrain_kept h fun _ _ _ _ h => startDrain_kept h

theorem bodyEmerge_kept {t w atc} (h : Kept q z s) : Kept q z (bodyEmerge t w atc s).state := by
  unfold bodyEmerge
  refine afterDrain_kept ?_ ?_
  · exact h
  · intro t w atc s h
    extract_lets +onlyGivenNames base
    split
    · exact h
    · split
      · exact h
      · exact startDrain_kept h

theorem sendAtom_kept {t base pc e} (h : Kept q z s) : Kept q z (sendAtom t base pc e s) := by
  unfold sendAtom
  exact kept_ite (kept_update (setTile_kept h)) (modFab_kept (modTile_kept (setTile_kept h)))

theorem sendLines_kept {t n} (h : Kept q z s) : Kept q z (sendLines t n s) := by
  induction n generalizing s with
  | zero => exact h
  | succ n ih =>
    unfold sendLines
    extract_lets x
    split
    · exact h
    · exact ih (sendLine_kept (setTile_kept h))

theorem drainOne_kept {t i d} (h : Kept q z s) : Kept q z (drainOne t i d s) := by
  unfold drainOne
  extract_lets +onlyGivenNames x
  split
  · exact h
  · extract_lets +onlyGivenNames s1
    have h1 : Kept q z s1 := setTile_kept h
    split
    · exact modTile_kept h1
    · exact sendAtom_kept h1

theorem drainEnds_kept {d n spilled} (h : Kept q z s) : Kept q z (drainEnds d n spilled s).2 := by
  unfold drainEnds
  split
  · split
    exact kept_of_eq ‹_› (free_kept h)
  · exact h

theorem drainAll_kept {t d l} (h : Kept q z s) : Kept q z (drainAll t d l s).2 := by
  induction l generalizing s with
  | nil => exact h
  | cons i r ih =>
    unfold drainAll
    split
    · exact kept_of_eq ‹_› (eddyCheck_kept h)
    · exact ih (drainOne_kept (kept_of_eq ‹_› (eddyCheck_kept h)))

theorem drainDone_kept {t} (h : Kept q z s) : Kept q z (drainDone t s) := by
  unfold drainDone
  extract_lets +onlyGivenNames x
  split
  · exact h
  · split
    · exact h
    · split
      · exact trapTile_kept (sendLines_kept (kept_of_eq ‹_› (drainAll_kept h)))
      · extract_lets +onlyGivenNames s1
        have h1 : Kept q z s1 := sendLines_kept (modTile_kept (kept_of_eq ‹_› (drainAll_kept h)))
        split
        exact modTile_kept (kept_of_eq ‹_› (drainEnds_kept h1))

theorem spillHigh_kept {c} (h : Kept q z s) : Kept q z (spillHigh c s) := by
  unfold spillHigh
  exact kept_ite (raise_kept (setCtx_kept h)) h

theorem eddyTrap_kept {t launch pc cause addr} (h : Kept q z s) : Kept q z (eddyTrap t launch pc cause addr s) := by
  unfold eddyTrap
  exact kept_ite (trapTile_kept h) h

theorem spillWrite_kept {i} (h : Kept q z s) : Kept q z (spillWrite i s) := by
  unfold spillWrite
  split
  · exact h
  · extract_lets +onlyGivenNames k adr
    split
    · exact h
    · extract_lets +onlyGivenNames gone
      have hgone : Kept q z gone := kept_update h
      split
      · exact eddyTrap_kept hgone
      · split
        · exact eddyTrap_kept (kept_update (kept_of_eq ‹_› (writePage_kept h)))
        · exact spillHigh_kept (kept_update (modCtx_kept (kept_of_eq ‹_› (writePage_kept h))))

/-! ### Stream -/

theorem digestWake_kept {c n ga bs} (h : Kept q z s) : Kept q z (digestWake c n ga bs s) := by
  unfold digestWake
  exact modWake_kept h

theorem sendPackets_kept {t tag r} (h : Kept q z s) : Kept q z (sendPackets t tag r s) := by
  unfold sendPackets
  exact forList_kept h fun _ _ h => routerPut_kept h

theorem sendReq_kept {t tag r} (h : Kept q z s) : Kept q z (sendReq t tag r s) := by
  unfold sendReq
  exact kept_ite (setTile_kept h) (kept_ite (sendPackets_kept (setTile_kept h)) (setTile_kept h))

theorem sendWaiting_kept {t} (h : Kept q z s) : Kept q z (sendWaiting t s) := by
  unfold sendWaiting
  exact forList_kept h (fun _ _ h => kept_ite h (sendReq_kept h))

theorem bodyStream_kept {t w atc} (h : Kept q z s) : Kept q z (bodyStream t w atc s).state := by
  unfold bodyStream
  extract_lets +onlyGivenNames x ga a len tag outb
  split
  · exact h
  · split
    · exact h
    · extract_lets +onlyGivenNames r
      split
      · exact sendReq_kept h
      · split
        · exact kept_of_eq ‹_› (sramRead_kept h)
        · extract_lets +onlyGivenNames s1 s2
          have h1 : Kept q z s1 := modTile_kept (kept_of_eq ‹_› (sramRead_kept h))
          have h2 : Kept q z s2 := by
            unfold s2
            split
            · exact kept_ite (digestWake_kept h1) h1
            · exact h1
          exact sendReq_kept h2

theorem bodySwaitt_kept {t w atc} (h : Kept q z s) : Kept q z (bodySwaitt t w atc s).state := by
  unfold bodySwaitt
  extract_lets +onlyGivenNames x
  split <;> exact h

theorem completeTag_kept {t tag} (h : Kept q z s) : Kept q z (completeTag t tag s) := by
  unfold completeTag
  exact sendWaiting_kept (modTile_kept h)

theorem streamTrap_kept {t tag cause off r} (h : Kept q z s) : Kept q z (streamTrap t tag cause off r s) := by
  unfold streamTrap
  exact trapTile_kept h

theorem staleReply_kept {p} (h : Kept q z s) : Kept q z (staleReply p s) := by
  unfold staleReply
  exact kept_when (setPart_kept h) (fun h => raise_kept (modPart_kept h))

theorem lateReply_kept {t tag s'} (e : lateReply t tag s = some s') (h : Kept q z s) : Kept q z s' := by
  obtain ⟨i, -, rfl⟩ := Option.map_eq_some_iff.1 e
  exact staleReply_kept (modPart_kept h)

theorem streamData_kept {t tag off bs} (h : Kept q z s) : Kept q z (streamData t tag off bs s) := by
  unfold streamData
  split
  · exact h
  · exact kept_ite (completeTag_kept (sramPut_kept h)) (modTile_kept (sramPut_kept h))

theorem serveReply_kept {t tag} (h : Kept q z s) : Kept q z (serveReply t tag s) := by
  unfold serveReply
  extract_lets x
  split
  · exact lateReply_kept ‹_› h
  · split
    · exact h
    · split
      · exact h
      · split
        · split
          · exact streamTrap_kept h
          · exact h
        · split
          · exact h
          · split
            · exact streamTrap_kept (kept_of_eq ‹_› (readPage_kept h))
            · exact streamData_kept (kept_of_eq ‹_› (readPage_kept h))

theorem writeTransfers_kept {t c r l} (h : Kept q z s) : Kept q z (writeTransfers t c r l s).2 := by
  induction l generalizing s with
  | nil => exact h
  | cons e l ih =>
    unfold writeTransfers
    split
    · exact kept_of_eq ‹_› (writePage_kept h)
    · exact ih (kept_of_eq ‹_› (writePage_kept h))

theorem ackStream_kept {t tag} (h : Kept q z s) : Kept q z (ackStream t tag s) := by
  unfold ackStream
  extract_lets x
  split
  · exact lateReply_kept ‹_› h
  · split
    · exact h
    · split
      · exact h
      · split
        · exact completeTag_kept h
        · split
          · split
            · exact streamTrap_kept h
            · exact h
          · split
            · exact h
            · split
              · exact streamTrap_kept (kept_of_eq ‹_› (writeTransfers_kept h))
              · exact completeTag_kept (kept_of_eq ‹_› (writeTransfers_kept h))

theorem ackEddy_kept {t} (h : Kept q z s) : Kept q z (ackEddy t s) := by
  unfold ackEddy
  extract_lets +onlyGivenNames p mine
  split
  · split
    · exact kept_ite (staleReply_kept (kept_update h)) (modTile_kept (kept_update h))
    · exact h
  · split
    · split
      · exact kept_ite (staleReply_kept (kept_update h)) (modTile_kept (kept_update h))
      · exact h
    · exact h

theorem streamTimeout_kept {t tag} (h : Kept q z s) : Kept q z (streamTimeout t tag s) := by
  unfold streamTimeout
  split
  · exact h
  · exact kept_ite (streamTrap_kept h) h

/-! ### Sync -/

theorem bodyCrRead_kept {t w atc} (h : Kept q z s) : Kept q z (bodyCrRead t w atc s).state := by
  unfold bodyCrRead
  extract_lets +onlyGivenNames x n
  split
  · exact h
  · exact setTile_kept h

theorem bodyCrWrite_kept {t w atc} (h : Kept q z s) : Kept q z (bodyCrWrite t w atc s).state := by
  unfold bodyCrWrite
  extract_lets +onlyGivenNames x n
  split
  · exact h
  · exact setTile_kept h

theorem flushLine_kept {t} (h : Kept q z s) : Kept q z (flushLine t s) := by
  unfold flushLine
  exact kept_ite h (voidIfPaired_kept (setTile_kept h))

theorem fenced_kept {k t w atc} (h : Kept q z s) (hk : ∀ a b s, Kept q z s → Kept q z (k a b s).state) :
    Kept q z (fenced k t w atc s).state := by
  unfold fenced
  extract_lets +onlyGivenNames s1
  have h1 : Kept q z s1 := flushLine_kept h
  refine unlessGated_kept ?_ ?_
  · exact h1
  · intro s h
    split
    · exact hk _ _ _ h
    · exact h

theorem bodyFence_kept {t w atc} (h : Kept q z s) : Kept q z (bodyFence t w atc s).state := by
  unfold bodyFence
  exact fenced_kept h (fun _ _ _ h => h)

theorem arrive_kept {launch t w} (h : Kept q z s) : Kept q z (arrive launch t w s).state := by
  unfold arrive
  exact stop_kept (modTile_kept h)

theorem bodyCbar_kept {t w atc} (h : Kept q z s) : Kept q z (bodyCbar t w atc s).state := by
  unfold bodyCbar
  exact fenced_kept h fun _ _ _ h => arrive_kept h

theorem bodyLbar_kept {t w atc} (h : Kept q z s) : Kept q z (bodyLbar t w atc s).state := by
  unfold bodyLbar
  exact fenced_kept h (fun _ _ _ h => unlessGated_kept (voidIfPaired_kept h) (fun _ h => arrive_kept h))

theorem barrierDone_kept {t} (h : Kept q z s) : Kept q z (barrierDone t s) := by
  unfold barrierDone
  extract_lets +onlyGivenNames x
  split
  · exact h
  · extract_lets +onlyGivenNames peers n
    split
    · refine forList_kept ?_ ?_
      · exact h
      · intro a s h
        split
        · exact h
        · split
          · split
            exact modTile_kept (kept_of_eq ‹_› (free_kept h))
          · exact h
    · exact h

theorem syncTimeout_kept {t} (h : Kept q z s) : Kept q z (syncTimeout t s) := by
  unfold syncTimeout
  extract_lets +onlyGivenNames x
  split
  · exact h
  · split
    · split
      exact trapTile_kept (modTile_kept (kept_of_eq ‹_› (free_kept h)))
    · exact h

theorem bodyWaits_kept {t w atc} (h : Kept q z s) : Kept q z (bodyWaits t w atc s).state := by
  unfold bodyWaits
  extract_lets +onlyGivenNames target
  split
  · exact h
  · split <;> exact h

/-! ### Misc -/

theorem bodyNop_kept {t w atc} (h : Kept q z s) : Kept q z (bodyNop t w atc s).state := by
  unfold bodyNop
  exact h

theorem bodyHalt_kept {t w atc} (h : Kept q z s) : Kept q z (bodyHalt t w atc s).state := by
  unfold bodyHalt
  refine unlessGated_kept (flushLine_kept h) fun s h => ?_
  extract_lets x
  split
  · exact h
  · split
    rename_i k s1 e1
    refine stop_kept (modTile_kept (kept_of_eq e1 ?_))
    split
    · exact h
    · exact free_kept h

theorem bodySig_kept {t w atc} (h : Kept q z s) : Kept q z (bodySig t w atc s).state := by
  unfold bodySig
  exact retire_kept (modTile_kept h)

theorem openWake_kept {c n} (h : Kept q z s) : Kept q z (openWake c n s) := by
  unfold openWake
  split
  · exact h
  · exact kept_ite h (kept_when (modExec_kept h) raise_kept)

theorem bodyWake_kept {t w atc} (h : Kept q z s) : Kept q z (bodyWake t w atc s).state := by
  unfold bodyWake
  extract_lets +onlyGivenNames x
  split
  · exact kept_when (setTile_kept h) openWake_kept
  · exact setTile_kept h

theorem bodyRbinit_kept {t w atc} (h : Kept q z s) : Kept q z (bodyRbinit t w atc s).state := by
  unfold bodyRbinit
  exact retire_kept (modTile_kept h)

theorem giveIndex_kept {t w v cost} (h : Kept q z s) : Kept q z (giveIndex t w v cost s).state := by
  unfold giveIndex
  exact unlessGated_kept (kept_when (kept_ite (modTile_kept h) h) voidIfPaired_kept) (fun _ h => retire_kept
    (modTile_kept h))

theorem queueWait_kept {t} (h : Kept q z s) : Kept q z (queueWait t s).2 := by
  unfold queueWait
  extract_lets +onlyGivenNames n
  split
  · exact h
  · exact freeBelow_kept h

theorem bodyRbnext_kept {t w atc} (h : Kept q z s) : Kept q z (bodyRbnext t w atc s).state := by
  unfold bodyRbnext
  extract_lets +onlyGivenNames x
  split
  · split
    · split
      · exact giveIndex_kept (setTile_kept (kept_of_eq ‹_› (queueWait_kept h)))
      · exact giveIndex_kept (kept_of_eq ‹_› (queueWait_kept h))
  · split
    · exact giveIndex_kept h
    · split
      · exact giveIndex_kept h
      · split
        · exact giveIndex_kept h
        · exact h

theorem bodyTrap_kept {t w atc} (h : Kept q z s) : Kept q z (bodyTrap t w atc s).state := by
  unfold bodyTrap
  exact h

/-! ### Vector -/

theorem vOp_kept {lat f t w atc} (h : Kept q z s) : Kept q z (vOp lat f t w atc s).state := by
  unfold vOp
  exact regOp_kept h

theorem vBin_kept {f t w atc} (h : Kept q z s) : Kept q z (vBin f t w atc s).state := by
  unfold vBin
  exact vOp_kept h

theorem vUn_kept {lat f t w atc} (h : Kept q z s) : Kept q z (vUn lat f t w atc s).state := by
  unfold vUn
  exact vOp_kept h

theorem divUnit_kept {b t w atc} (h : Kept q z s) (hb : ∀ t w atc s, Kept q z s → Kept q z (b t w atc s).state) :
    Kept q z (divUnit b t w atc s).state := by
  unfold divUnit
  exact hb _ _ _ _ (modTile_kept h)

theorem expUnit_kept {b t w atc} (h : Kept q z s) (hb : ∀ t w atc s, Kept q z s → Kept q z (b t w atc s).state) :
    Kept q z (expUnit b t w atc s).state := by
  unfold expUnit
  exact hb _ _ _ _ (modTile_kept h)

theorem vMove_kept {f t w atc} (h : Kept q z s) : Kept q z (vMove f t w atc s).state := by
  unfold vMove
  exact regOp_kept h

theorem bodyAget_kept {t w atc} (h : Kept q z s) : Kept q z (bodyAget t w atc s).state := by
  unfold bodyAget
  extract_lets +onlyGivenNames x
  split
  · exact hold_kept h
  · exact retire_kept (modTile_kept h)

theorem bodyAput_kept {t w atc} (h : Kept q z s) : Kept q z (bodyAput t w atc s).state := by
  unfold bodyAput
  extract_lets +onlyGivenNames x
  split
  · exact hold_kept h
  · exact retire_kept (modTile_kept h)

/-! ### Matrix -/

theorem readLoads_kept {t l} (h : Kept q z s) : Kept q z (readLoads t l s).2 := by
  induction l generalizing s with
  | nil => exact h
  | cons e r ih =>
    unfold readLoads
    split
    · exact kept_of_eq ‹_› (sramRead_kept h)
    · rename_i e1
      have h1 := kept_of_eq e1 (sramRead_kept h)
      split
      · exact kept_of_eq ‹_› (ih h1)
      · exact kept_of_eq ‹_› (ih h1)

theorem bodyMma_kept {zero t w atc} (h : Kept q z s) : Kept q z (bodyMma zero t w atc s).state := by
  unfold bodyMma
  extract_lets +onlyGivenNames x
  split
  · exact hold_kept h
  · extract_lets +onlyGivenNames f la lb lc
    split
    · exact trap_kept h
    · split
      · exact trap_kept (kept_of_eq ‹_› (readLoads_kept h))
      · exact retire_kept (modTile_kept (kept_of_eq ‹_› (readLoads_kept h)))

theorem bodyAclr_kept {t w atc} (h : Kept q z s) : Kept q z (bodyAclr t w atc s).state := by
  unfold bodyAclr
  extract_lets +onlyGivenNames x
  split
  · exact hold_kept h
  · exact retire_kept (modTile_kept h)

theorem mmaEnd_kept {t} (h : Kept q z s) : Kept q z (mmaEnd t s) := by
  unfold mmaEnd
  extract_lets +onlyGivenNames x
  split
  · exact h
  · exact setTile_kept h

theorem bodyNzmap_kept {t w atc} (h : Kept q z s) : Kept q z (bodyNzmap t w atc s).state := by
  unfold bodyNzmap
  extract_lets +onlyGivenNames x e l
  split
  · exact trap_kept h
  · split
    · exact trap_kept (kept_of_eq ‹_› (readLoads_kept h))
    · exact retire_kept (modTile_kept (kept_of_eq ‹_› (readLoads_kept h)))

/-! ### Walker -/

theorem portBLost_kept {x n} (h : Kept q z s) : Kept q z (portBLost x n s).2 := by
  unfold portBLost
  split
  · exact freeBelow_kept h
  · exact h

/-! ### ? -/

theorem bind_kept {α β : Type} {r : WalkRes α} {f : α → State → WalkRes β} (h : Kept q z r.2)
    (hf : ∀ a s, Kept q z s → Kept q z (f a s).2) : Kept q z (r.bind f).2 := by
  obtain ⟨_ | a, s1⟩ := r
  · exact h
  · exact hf a s1 h

theorem walkRead_kept {t daddr panelEnd n0 a n} (h : Kept q z s) :
    Kept q z (walkRead t daddr panelEnd n0 a n s).2 := by
  have hsram : Kept q z (sramRead t a n s).2 := sramRead_kept h
  unfold walkRead
  generalize sramRead t a n s = r at hsram ⊢
  refine kept_ite_snd h (kept_ite_snd h (kept_ite_snd h ?_))
  split <;> exact hsram

theorem planBlock_kept {d v c p} (h : Kept q z s) : Kept q z (planBlock d v c p s).2 :=
  bind_kept (walkRead_kept h) fun _ _ h => bind_kept (walkRead_kept h) fun _ _ h => h

theorem planBitmap_kept {d v c p} (h : Kept q z s) : Kept q z (planBitmap d v c p s).2 :=
  bind_kept (walkRead_kept h) fun _ _ h => bind_kept (walkRead_kept h) fun _ _ h =>
    bind_kept (walkRead_kept h) fun _ _ h => bind_kept (walkRead_kept h) fun _ _ h => h

theorem planBlocks_kept {d v c n p} (h : Kept q z s) : Kept q z (planBlocks d v c n p s).2 := by
  induction n generalizing c p s with
  | zero => exact h
  | succ n ih =>
    unfold planBlocks
    split
    · refine bind_kept ?_ fun _ _ h => ih h
      split
      · exact planBlock_kept h
      · exact planBitmap_kept h
    · exact ih h

theorem planPaired_kept {d v} (h : Kept q z s) : Kept q z (planPaired d v s).2 :=
  bind_kept (walkRead_kept h) fun _ _ h => bind_kept (walkRead_kept h) fun _ _ h => h

theorem planIndexed_kept {d v} (h : Kept q z s) : Kept q z (planIndexed d v s).2 :=
  bind_kept (walkRead_kept h) fun _ _ h => bind_kept (walkRead_kept h) fun _ _ h =>
    bind_kept (walkRead_kept h) fun _ _ h => h

theorem planOf_kept {d v} (h : Kept q z s) : Kept q z (planOf d v s).2 := by
  unfold planOf
  split
  · exact planBlocks_kept h
  · split
    · exact planPaired_kept h
    · exact planIndexed_kept h

theorem readCols_kept {d n0 j n} (h : Kept q z s) : Kept q z (readCols d n0 j n s).2 := by
  induction n generalizing j s with
  | zero => exact h
  | succ n ih => exact bind_kept (walkRead_kept h) fun _ _ h => bind_kept (ih h) fun _ _ h => h

theorem walkDesc_kept {t w} (h : Kept q z s) : Kept q z (walkDesc t w s).2 := by
  unfold walkDesc
  extract_lets a loads
  have hloads : Kept q z (readLoads t loads s).2 := readLoads_kept h
  split
  · exact h
  · generalize readLoads t loads s = r at hloads ⊢
    split
    · exact hloads
    · extract_lets d ok
      split <;> exact hloads

theorem walkHeader_kept {d} (h : Kept q z s) : Kept q z (walkHeader d s).2 := by
  refine bind_kept (walkRead_kept h) fun _ _ h => ?_
  extract_lets len ok
  split <;> exact h

theorem walk_kept {t w} (h : Kept q z s) : Kept q z (walk t w s).2 :=
  bind_kept (walkDesc_kept h) fun _ _ h => bind_kept (walkHeader_kept h) fun _ _ h =>
    bind_kept (planOf_kept h) fun _ _ h => bind_kept (readCols_kept h) fun _ _ h =>
      bind_kept (walkRead_kept h) fun _ _ h => h

/-! ### Walker -/

theorem bodySwalk_kept {t w atc} (h : Kept q z s) : Kept q z (bodySwalk t w atc s).state := by
  unfold bodySwalk
  extract_lets x
  split
  · exact h
  · split
    · rename_i e1
      have h1 := kept_of_eq e1 (walk_kept h)
      split
      exact trap_kept (kept_of_eq ‹_› (portBLost_kept h1))
    · rename_i e1
      have h1 := kept_of_eq e1 (walk_kept h)
      extract_lets res fl s1 s2
      have h2 : Kept q z s2 := countOors_kept (modTile_kept h1)
      split
      exact retire_kept (kept_of_eq ‹_› (portBLost_kept h2))

/-! ### ? -/

theorem heldBody_kept {o body} (e : heldBody o = some body) :
    ∀ t w atc s, Kept q z s → Kept q z (body t w atc s).state := by
  intro t w atc s h
  unfold heldBody at e
  split at e <;> cases e
  · exact bodyAget_kept h
  · exact bodyAput_kept h
  · exact bodyMma_kept h
  · exact bodyMma_kept h
  · exact bodyAclr_kept h
  · exact bodySwalk_kept h
  · exact bodyEcfg_kept h
  · exact bodyEadd_kept h
  · exact bodyEaddv_kept h
  · exact bodyEspill_kept h
  · exact bodyEmerge_kept h
  · exact bodyEcount_kept h
  · exact bodyStream_kept h
  · exact bodySwaitt_kept h
  · exact bodyCrRead_kept h
  · exact bodyCrWrite_kept h
  · exact bodyCbar_kept h
  · exact bodyLbar_kept h
  · exact bodyFence_kept h
  · exact bodyWaits_kept h
  · exact bodyHalt_kept h
  · exact bodyRbnext_kept h

/-! ### TileEvents -/

theorem resume_kept {t} (h : Kept q z s) : Kept q z (resume t s) := by
  unfold resume
  extract_lets x s0
  have h0 : Kept q z s0 := setTile_kept h
  split
  · exact h
  · split
    · exact h
    · split
      · exact h
      · rename_i w _ _ o _ _ body e
        have hbody : ∀ t w atc s, Kept q z s → Kept q z (body t w atc s).state := heldBody_kept e
        have hd : Kept q z (body t w (issueAt x o w) s0).state := hbody t w (issueAt x o w) s0 h0
        generalize body t w (issueAt x o w) s0 = d at hd ⊢
        split
        · exact modTile_kept hd
        · have hp : Kept q z (perform t o w body s0) := perform_kept h0 hbody
          split
          on_goal 15 => exact perform_kept (modTile_kept (kept_update h0)) hbody
          all_goals exact hp

theorem resumeReplayers_kept {t} (h : Kept q z s) : Kept q z (resumeReplayers t s) := by
  unfold resumeReplayers
  exact kept_ite (forList_kept h (fun _ _ h => resume_kept h)) h

theorem haltRetire_kept {t} (h : Kept q z s) : Kept q z (haltRetire t s) := by
  unfold haltRetire
  exact kept_ite (resumeReplayers_kept (kept_when (setTile_kept h) noteCycles_kept)) h

theorem spillSend_kept {t} (h : Kept q z s) : Kept q z (spillSend t s) := by
  unfold spillSend
  extract_lets +onlyGivenNames x
  split
  · exact h
  · extract_lets +onlyGivenNames s1
    have h1 : Kept q z s1 := sendLines_kept h
    split
    · split
      exact resume_kept (modTile_kept (kept_of_eq ‹_› (free_kept h1)))
    · exact resume_kept h1

theorem codeArrive_kept {t} (h : Kept q z s) : Kept q z (codeArrive t s) := by
  unfold codeArrive
  extract_lets +onlyGivenNames x
  split
  · exact h
  · split
    · exact h
    · exact setTile_kept h

theorem execBegin_kept {t} (h : Kept q z s) : Kept q z (execBegin t s) := by
  unfold execBegin
  extract_lets +onlyGivenNames x
  split
  · exact h
  · exact kept_ite h (setTile_kept h)

/-! ### CStream -/

theorem cmdFault_kept {c ix reason fetch} (h : Kept q z s) : Kept q z (cmdFault c ix reason fetch s) := by
  unfold cmdFault
  exact decideEnd_kept (modExec_kept h)

theorem cmdWeir_kept {c} (h : Kept q z s) : Kept q z (cmdWeir c s) := by
  unfold cmdWeir
  split
  · exact h
  · exact kept_when (modExec_kept h) issueWeir_kept

theorem cmdRun_kept {c} (h : Kept q z s) : Kept q z (cmdRun c s) := by
  unfold cmdRun
  split
  · exact h
  · extract_lets +onlyGivenNames d len
    split
    · exact h
    · extract_lets +onlyGivenNames late s1
      have h1 : Kept q z s1 := kept_ite (raise_kept (modStroke_kept h)) h
      split
      · exact cmdFault_kept (kept_of_eq ‹_› (readLocal_kept h1))
      · exact advance_kept (modExec_kept (forList_kept (kept_of_eq ‹_› (readLocal_kept h1)) (fun _ _ h =>
          setTile_kept h)))

theorem cmdWaitw_kept {c} (h : Kept q z s) : Kept q z (cmdWaitw c s) := by
  unfold cmdWaitw
  split
  · exact h
  · exact kept_ite (advance_kept h) h

theorem cmdWaitt_kept {c} (h : Kept q z s) : Kept q z (cmdWaitt c s) := by
  unfold cmdWaitt
  split
  · exact h
  · exact kept_ite (advance_kept h) h

theorem cmdStore_kept {c x k bs} (h : Kept q z s) : Kept q z (cmdStore c x k bs s) := by
  unfold cmdStore
  split
  · exact h
  · split
    · exact cmdFault_kept (kept_of_eq ‹_› (writeLocal_kept h))
    · exact advance_kept (kept_of_eq ‹_› (writeLocal_kept h))

theorem cmdWrite_kept {c} (h : Kept q z s) : Kept q z (cmdWrite c s) := by
  unfold cmdWrite
  split
  · exact h
  · exact kept_ite (cmdStore_kept h) h

theorem cmdStamp_kept {c} (h : Kept q z s) : Kept q z (cmdStamp c s) := by
  unfold cmdStamp
  split
  · exact h
  · exact cmdStore_kept h

theorem writeWakes_kept {c x} (h : Kept q z s) : Kept q z (writeWakes c x s) := by
  unfold writeWakes
  split
  · exact h
  · refine forList_kept ?_ ?_
    · exact h
    · intro a s h
      split
      · exact kept_of_eq ‹_› (writeLocal_kept h)
      · exact raise_kept (kept_of_eq ‹_› (writeLocal_kept h))

theorem cmdEnd_kept {c} (h : Kept q z s) : Kept q z (cmdEnd c s) := by
  unfold cmdEnd
  split
  · exact h
  · exact kept_ite h (launchDone_kept (modExec_kept (writeWakes_kept (kept_when (voidPair_kept h) umpCount_kept))))

theorem timeLimit_kept {c} (h : Kept q z s) : Kept q z (timeLimit c s) := by
  unfold timeLimit
  split
  · exact h
  · exact kept_ite (decideEnd_kept h) h

theorem pinExpired_kept {c} (h : Kept q z s) : Kept q z (pinExpired c s) := by
  unfold pinExpired
  exact modExec_kept h

theorem cqAdvance_kept {c} (h : Kept q z s) : Kept q z (cqAdvance c s) := by
  unfold cqAdvance
  exact modCtx_kept h

theorem cqInterrupt_kept {c} (h : Kept q z s) : Kept q z (cqInterrupt c s) := by
  unfold cqInterrupt
  exact kept_ite (kept_update h) h

theorem recordWrite_kept {c} (h : Kept q z s) : Kept q z (recordWrite c s) := by
  unfold recordWrite
  extract_lets x
  split
  · exact h
  · extract_lets a
    split
    · exact h
    · split
      · exact noteFull_kept h
      · split
        · split
          · exact h
          · split
            · exact noteFull_kept (dmaFault_kept (cqAdvance_kept (kept_of_eq ‹_› (devWrite_kept h))))
            · exact noteFull_kept (cqInterrupt_kept (cqAdvance_kept (kept_of_eq ‹_› (devWrite_kept h))))
        · split
          · exact noteFull_kept (cqInterrupt_kept (cqAdvance_kept
              ⟨h.pending, h.fuses, h.hbm, h.flash, putBytes_wf _ _ _ _ h.hostMem⟩))
          · exact h

/-! ### Weir -/

theorem frameCmd_kept {op f c} (h : Kept q z s) : Kept q z (frameCmd op f c s) := by
  unfold frameCmd
  exact kept_ite h (kept_unless (kept_update (kept_ite (setFrame_kept h) h)) kept_update)

theorem sweepDone_kept {c} (h : Kept q z s) : Kept q z (sweepDone c s) := by
  unfold sweepDone
  split
  · exact h
  · exact kept_ite h (settleAbort_kept (raise_kept (modCtx_kept (forList_kept h (fun _ _ h => kept_ite
      (setFrame_kept h) h)))))

theorem scrubDone_kept {k} (h : Kept q z s) : Kept q z (scrubDone k s) := by
  unfold scrubDone
  split
  · exact h
  · split
    · exact h
    · exact setFrame_kept ⟨h.pending, h.fuses, Tbl.wf_clear _ _ _ _ h.hbm, h.flash, h.hostMem⟩

theorem bttWrite_kept {v} (h : Kept q z s) : Kept q z (bttWrite v s) := by
  unfold bttWrite
  exact kept_ite h (kept_update h)

theorem bttDone_kept (h : Kept q z s) : Kept q z (bttDone s) := by
  unfold bttDone
  exact kept_ite h (kept_update (forUp_kept h (fun _ _ h => kept_update h)))

theorem weirPerform_kept {op i} (h : Kept q z s) : Kept q z (weirPerform op i s) := by
  unfold weirPerform
  split
  · exact h
  · split
    · exact h
    · extract_lets r
      have hr : Kept q z r.2 := by
        refine wRead_kept h fun bs s1 h1 => ?_
        extract_lets d
        split
        · exact h1
        · split
          · exact h1
          · exact weirRun_kept h1
      clear_value r
      obtain ⟨_ | _ | _, s1⟩ := r
      · exact weirEnds_kept hr
      · exact weirEnds_kept hr
      · exact h

theorem weirComplete_kept {i} (h : Kept q z s) : Kept q z (weirComplete i s) := by
  unfold weirComplete
  split
  · exact h
  · exact kept_ite h (issueWaiting_kept (kept_update h))

theorem singleAtom_kept {i} (h : Kept q z s) : Kept q z (singleAtom i s) := by
  unfold singleAtom
  split
  · exact h
  · split
    · exact h
    · split
      · split
        · exact eddyTrap_kept (kept_update (kept_of_eq ‹_› (atomAdd_kept h)))
        · exact kept_update (kept_of_eq ‹_› (atomAdd_kept h))
      · split
        · exact kept_update h
        · split
          · extract_lets +onlyGivenNames s1
            have h1 : Kept q z s1 := kept_update (kept_of_eq ‹_› (atomAdd_kept h))
            split
            · exact faultReply_kept h1
            · exact routerPut_kept h1

/-! ### Packets -/

theorem leave_kept {i n q0 esc} (h : Kept q z s) : Kept q z (leave i n q0 esc s) := by
  unfold leave
  exact putFlit_kept (leaveQueue_kept h)

theorem routePacket_kept {i credits} (h : Kept q z s) : Kept q z (routePacket i credits s) := by
  unfold routePacket
  split
  · exact h
  · extract_lets +onlyGivenNames dest usable adaptive
    clear_value adaptive
    split
    · exact leave_kept h
    · split
      · exact h
      · extract_lets +onlyGivenNames ch free l
        clear_value l
        split
        · exact h
        · exact leave_kept h
        · split
          exact leave_kept (kept_of_eq ‹_› (freeBelow_kept h))

theorem unroutable_kept {i} (h : Kept q z s) : Kept q z (unroutable i s) := by
  unfold unroutable
  split
  · exact h
  · exact kept_ite h (kept_when (kept_when (modFab_kept (leaveQueue_kept h)) raise_kept) faultReply_kept)

theorem absorbFirst_kept {q0} (h : Kept q z s) : Kept q z (absorbFirst q0 s) := by
  unfold absorbFirst
  extract_lets +onlyGivenNames slot s1
  have h1 : Kept q z s1 := modFab_kept h
  split
  · exact modFab_kept h1
  · split
    · exact modFab_kept h1
    · exact h1

theorem combine_kept {a} (h : Kept q z s) : Kept q z (combine a s) := by
  unfold combine
  extract_lets +onlyGivenNames q1
  split
  · exact kept_ite (absorbFirst_kept h) (modFab_kept h)
  · exact kept_ite (modFab_kept h) (modFab_kept h)

theorem combExpire_kept {i} (h : Kept q z s) : Kept q z (combExpire i s) := by
  unfold combExpire
  split
  · exact h
  · exact kept_ite (combOut_kept h) h

theorem slotReply_kept {i} (h : Kept q z s) : Kept q z (slotReply i s) := by
  unfold slotReply
  split
  · exact h
  · extract_lets +onlyGivenNames q1 k
    split
    · exact h
    · extract_lets +onlyGivenNames s1
      have h1 : Kept q z s1 := modFab_kept h
      split
      · exact h1
      · exact forList_kept (modFab_kept h1) fun _ _ h => routerPut_kept h

theorem slotTimeout_kept {k} (h : Kept q z s) : Kept q z (slotTimeout k s) := by
  unfold slotTimeout
  split
  · exact h
  · exact kept_ite (modFab_kept h) h

theorem takeArrival_kept {i} (h : Kept q z s) : Kept q z (takeArrival i s) := by
  unfold takeArrival
  exact modFab_kept h

theorem dataReplies_kept {p n loc bs} (h : Kept q z s) : Kept q z (dataReplies p n loc bs s) := by
  induction n generalizing loc bs s with
  | zero => exact h
  | succ n ih => exact kept_ite h (ih (routerPut_kept h))

theorem packetRead_kept {i} (h : Kept q z s) : Kept q z (packetRead i s) := by
  unfold packetRead
  split
  · exact h
  · split
    · exact faultReply_kept (takeArrival_kept h)
    · extract_lets +onlyGivenNames c
      split
      · exact h
      · split
        · exact faultReply_kept (kept_of_eq ‹_› (readLocal_kept (takeArrival_kept h)))
        · exact dataReplies_kept (kept_of_eq ‹_› (readLocal_kept (takeArrival_kept h)))

theorem packetWrite_kept {i} (h : Kept q z s) : Kept q z (packetWrite i s) := by
  unfold packetWrite
  split
  · exact h
  · split
    · exact faultReply_kept (takeArrival_kept h)
    · extract_lets +onlyGivenNames c
      split
      · exact h
      · split
        · exact faultReply_kept (kept_of_eq ‹_› (writeLocal_kept (takeArrival_kept h)))
        · exact routerPut_kept (kept_of_eq ‹_› (writeLocal_kept (takeArrival_kept h)))

theorem packetAtomadd_kept {i} (h : Kept q z s) : Kept q z (packetAtomadd i s) := by
  unfold packetAtomadd
  split
  · exact h
  · split
    · exact h
    · split
      · exact combine_kept (takeArrival_kept h)
      · split
        · exact faultReply_kept (takeArrival_kept h)
        · exact kept_update (takeArrival_kept h)

theorem atEdge_kept {i q0 act} (h : Kept q z s) (hact : ∀ a s, Kept q z s → Kept q z (act a s)) :
    Kept q z (atEdge i q0 act s) := by
  unfold atEdge
  exact kept_ite h (kept_ite (staleReply_kept (takeArrival_kept h)) (kept_when (takeArrival_kept h) (fun h =>
    hact _ _ h)))

theorem replyData_kept {i} (h : Kept q z s) : Kept q z (replyData i s) := by
  unfold replyData
  split
  · exact h
  · refine atEdge_kept ?_ ?_
    · exact h
    · intro a s h
      split
      · exact h
      · exact kept_ite (resume_kept (streamData_kept h)) h

theorem replyAck_kept {i} (h : Kept q z s) : Kept q z (replyAck i s) := by
  unfold replyAck
  split
  · exact h
  · refine atEdge_kept ?_ ?_
    · exact h
    · intro a s h
      extract_lets +onlyGivenNames x
      split
      · split
        · exact h
        · exact resume_kept (setTile_kept h)
      · split
        · exact h
        · split
          · exact h
          · split
            · split
              · exact streamTrap_kept h
              · exact resume_kept (completeTag_kept h)
            · exact setTile_kept h

theorem replyFault_kept {i} (h : Kept q z s) : Kept q z (replyFault i s) := by
  unfold replyFault
  split
  · exact h
  · extract_lets +onlyGivenNames cause
    refine atEdge_kept ?_ ?_
    · exact h
    · intro a s h
      extract_lets +onlyGivenNames x
      split
      · split
        · exact h
        · split
          · exact h
          · exact eddyTrap_kept h
      · split
        · exact h
        · exact streamTrap_kept h

/-! ### EasyAll -/

theorem easyallSend_kept {job} (h : Kept q z s) : Kept q z (easyallSend job s) := by
  unfold easyallSend
  exact kept_ite (easyAllOriginate_kept h) h

theorem easyAllAct_kept {c} (h : Kept q z s) : Kept q z (easyAllAct c s) := by
  unfold easyAllAct
  refine kept_ite h ?_
  extract_lets busy s1 s2 l s3 s4
  have h2 : Kept q z s2 := kept_when (decideEnd_kept h) modCtx_kept
  have h4 : Kept q z s4 := forList_kept (modCtx_kept h2) fun _ _ h => refuseLaunch_kept h
  exact kept_ite h4 (enterStopped_kept h4)

theorem easyAllReceive_kept {i} (h : Kept q z s) : Kept q z (easyAllReceive i s) := by
  unfold easyAllReceive
  split
  · exact h
  · extract_lets +onlyGivenNames q1
    split
    · exact h
    · extract_lets +onlyGivenNames s1 kept
      have h1 : Kept q z s1 := takeArrival_kept h
      split
      · exact h1
      · extract_lets +onlyGivenNames s2 s3 s4 s5
        have h2 : Kept q z s2 := keepTriple_kept h1
        have h3 : Kept q z s3 := flood_kept h2
        have h4 : Kept q z s4 := easyAllLog_kept h3
        have h5 : Kept q z s5 := raise_kept h4
        split
        · exact h5
        · exact kept_ite (easyAllAct_kept h5) h5

theorem tripleExpire_kept (h : Kept q z s) : Kept q z (tripleExpire s) := by
  unfold tripleExpire
  exact modFab_kept h

/-! ### Lamps -/

theorem setLamp_kept {i x} (h : Kept q z s) : Kept q z (setLamp i x s) := by
  unfold setLamp
  exact modCard_kept h

theorem lampTo_kept {i st} (h : Kept q z s) : Kept q z (lampTo i st s) := by
  unfold lampTo
  exact kept_ite h (kept_update (setLamp_kept h))

theorem lampStale_kept {i} (h : Kept q z s) : Kept q z (lampStale i s) := by
  unfold lampStale
  exact kept_ite (lampTo_kept h) h

theorem lampPulse_kept {i} (h : Kept q z s) : Kept q z (lampPulse i s) := by
  unfold lampPulse
  exact kept_ite (setLamp_kept h) h

theorem lampAct_kept {m} (h : Kept q z s) : Kept q z (lampAct m s) := by
  unfold lampAct
  extract_lets +onlyGivenNames s1
  have h1 : Kept q z s1 := by
    unfold s1
    split
    · exact setLamp_kept (modCard_kept h)
    · exact forUp_kept (modCard_kept h) fun _ _ h => setLamp_kept h
    · exact modCard_kept h
  exact forUp_kept h1 fun _ _ h => lampStale_kept h

theorem lampCmd_kept {m} (h : Kept q z s) : Kept q z (lampCmd m s) := by
  unfold lampCmd
  exact kept_ite h (kept_ite (modCard_kept h) (lampAct_kept h))

theorem lampsGoOn_kept (h : Kept q z s) : Kept q z (lampsGoOn s) := by
  unfold lampsGoOn
  exact kept_ite h (forList_kept (modCard_kept h) (fun _ _ h => lampAct_kept h))

/-! ### StrokeUnit -/

theorem masterChange_kept (h : Kept q z s) : Kept q z (masterChange s) := by
  unfold masterChange
  exact strokeEvent_kept (modStroke_kept h)

theorem takeParent_kept {e st} (h : Kept q z s) : Kept q z (takeParent e st s) := by
  unfold takeParent
  exact modStroke_kept h

theorem nameSelf_kept (h : Kept q z s) : Kept q z (nameSelf s) := by
  unfold nameSelf
  split
  · exact becomeMaster_kept (masterChange_kept (modStroke_kept h))
  · exact becomeMaster_kept (masterChange_kept (modStroke_kept h))
  · exact kept_ite (becomeMaster_kept h) (modStroke_kept h)
  · exact h

theorem chooseMaster_kept (h : Kept q z s) : Kept q z (chooseMaster s) := by
  unfold chooseMaster
  split
  · exact h
  · extract_lets +onlyGivenNames l
    split
    · exact nameSelf_kept h
    · extract_lets +onlyGivenNames here
      split
      · exact h
      · extract_lets +onlyGivenNames other
        split
        · exact h
        · exact masterChange_kept (takeParent_kept h)
        · exact takeParent_kept h
        · exact kept_ite (masterChange_kept (takeParent_kept h)) (takeParent_kept h)
        · exact kept_ite (masterChange_kept (takeParent_kept h)) (takeParent_kept h)

theorem keepAclk_kept {v} (h : Kept q z s) : Kept q z (keepAclk v s) := by
  unfold keepAclk
  exact forUp_kept (modRst_kept (modHost_kept h)) fun _ _ h => modPart_kept h

theorem stepCounter_kept {d} (h : Kept q z s) : Kept q z (stepCounter d s) := by
  unfold stepCounter
  exact forUp_kept (modFab_kept (modStroke_kept (keepAclk_kept h))) fun _ _ h => modPort_kept h

theorem newRate_kept (h : Kept q z s) : Kept q z (newRate s) := by
  unfold newRate
  split
  exact modStroke_kept (kept_of_eq ‹_› (freeBelow_kept h))

theorem measured_kept {off} (h : Kept q z s) : Kept q z (measured off s) := by
  unfold measured
  split
  · exact newRate_kept (modStroke_kept h)
  · exact kept_ite (stepCounter_kept (modStroke_kept h)) (kept_when (newRate_kept (modStroke_kept h)) (fun h =>
      strokeEvent_kept (modStroke_kept h)))
  · exact h

theorem markerSend_kept {n} (h : Kept q z s) : Kept q z (markerSend n s) := by
  unfold markerSend
  exact kept_ite (kept_update (setPort_kept h)) h

theorem markerReceive_kept {n m} (h : Kept q z s) : Kept q z (markerReceive n m s) := by
  unfold markerReceive
  extract_lets +onlyGivenNames x
  split
  · exact h
  · extract_lets +onlyGivenNames off s1 s2
    have h1 : Kept q z s1 := setPort_kept h
    have h2 : Kept q z s2 := chooseMaster_kept h1
    split
    · clear_value off
      split
      · exact measured_kept h2
      · exact h2
    · exact h2

theorem holdover_kept (h : Kept q z s) : Kept q z (holdover s) := by
  unfold holdover
  split
  · exact h
  · exact kept_ite (modStroke_kept (strokeEvent_kept (modStroke_kept h))) h

theorem wakeWaits_kept (h : Kept q z s) : Kept q z (wakeWaits s) := by
  unfold wakeWaits
  refine forList_kept ?_ ?_
  · exact h
  · intro a s h
    split
    · exact kept_ite (resume_kept h) h
    · exact h

theorem strokeTick_kept (h : Kept q z s) : Kept q z (strokeTick s) := by
  unfold strokeTick
  exact kept_unless (lampsGoOn_kept (modCard_kept h)) (fun h => wakeWaits_kept (kept_when
    (modStroke_kept h) modStroke_kept))

/-! ### DeviceCore -/

theorem cleared_kept (h : Kept q z s) : Kept q z (cleared s) := kept_update h

theorem cardLog_kept {code mv watts} (h : Kept q z s) : Kept q z (cardLog code mv watts s) := by
  unfold cardLog
  extract_lets +onlyGivenNames c e
  split
  · exact kept_ite h (kept_update h)
  · exact kept_update h

theorem deviceOff_kept (h : Kept q z s) : Kept q z (deviceOff s) :=
  cleared_kept ⟨h.pending, h.fuses, rfl, h.flash, h.hostMem⟩

theorem supplyOff_kept (h : Kept q z s) : Kept q z (supplyOff s) := by
  unfold supplyOff
  exact deviceOff_kept (modCard_kept h)

theorem sameFault_kept {code mv watts} (h : Kept q z s) : Kept q z (sameFault code mv watts s) := by
  unfold sameFault
  exact kept_ite h (modCard_kept (cardLog_kept h))

theorem removePower_kept {code mv watts} (h : Kept q z s) : Kept q z (removePower code mv watts s) := by
  unfold removePower
  exact kept_ite (sameFault_kept h) (supplyOff_kept (modCard_kept (cardLog_kept h)))

/-! ### Umpire -/

theorem corrupt_kept {t cause l} (h : Kept q z s) : Kept q z (corrupt t cause l s) := by
  unfold corrupt
  extract_lets u s1 held who s2 s3 s4
  have h1 : Kept q z s1 := umpCount_kept (modUtile_kept h)
  have h3 : Kept q z s3 := modUmp_kept (quarantine_kept h1)
  have h4 : Kept q z s4 := by
    unfold s4
    clear_value held s3
    split
    · exact decideEnd_kept h3
    · exact h3
  exact kept_ite h (kept_ite (quarantine_kept h1) (voidCrewWork_kept h4))

theorem setResume_kept {sub n margin} (h : Kept q z s) : Kept q z (setResume sub n margin s) := by
  unfold setResume
  split
  · exact modCrew_kept h
  · exact modCrew_kept h
  · exact modUtile_kept h
  · exact modUtile_kept h

theorem beginSweep_kept {d} (h : Kept q z s) : Kept q z (beginSweep d s) := by
  unfold beginSweep
  exact commitPower_kept (modUmp_kept h)

theorem startTriage_kept {c} (h : Kept q z s) : Kept q z (startTriage c s) := by
  unfold startTriage
  split
  · exact h
  · split
    · exact h
    · split
      · exact h
      · split
        · exact h
        · exact modExec_kept (forList_kept (commitPower_kept (modCrew_kept h)) (fun _ _ h => setTile_kept h))

theorem sweepStart_kept (h : Kept q z s) : Kept q z (sweepStart s) := by
  unfold sweepStart
  split
  · exact h
  · extract_lets +onlyGivenNames s1
    have h1 : Kept q z s1 := forList_kept h fun _ _ h => startTriage_kept h
    split
    · exact h1
    · split
      · exact h1
      · exact beginSweep_kept h1

theorem dropWork_kept {i w} (h : Kept q z s) : Kept q z (dropWork i w s) := by
  unfold dropWork
  extract_lets +onlyGivenNames s1
  have h1 : Kept q z s1 := releasePower_kept (modUmp_kept h)
  split
  · exact kept_ite (modCrew_kept h1) h1
  · exact h1

theorem noteFail_kept {margin t} (h : Kept q z s) : Kept q z (noteFail margin t s) := by
  unfold noteFail
  exact modUtile_kept (raise_kept (umpCount_kept h))

theorem classFail_kept {margin again t} (h : Kept q z s) : Kept q z (classFail margin again t s) := by
  unfold classFail
  split
  · exact corrupt_kept h
  · exact umpTrigger_kept h
  · exact umpTrigger_kept h
  · exact h

theorem tileSwept_kept {w t} (h : Kept q z s) : Kept q z (tileSwept w t s) := by
  unfold tileSwept
  extract_lets +onlyGivenNames margin u s1
  have h1 : Kept q z s1 := setUtile_kept h
  split
  · exact h1
  · extract_lets +onlyGivenNames s2 round s3
    have h3 : Kept q z s3 := modUtile_kept (modUtile_kept h1)
    split
    · split
      · exact h3
      · extract_lets s4
        have h4 : Kept q z s4 := modUtile_kept h3
        exact kept_ite h4 (kept_ite (changeTile_kept (modUtile_kept h4)) (changeTile_kept (modUtile_kept h4)))
    · exact kept_ite (kept_ite (changeTile_kept (modUtile_kept h3)) (modUtile_kept h3)) h3

theorem endSweep_kept {w} (h : Kept q z s) : Kept q z (endSweep w s) := by
  unfold endSweep
  extract_lets +onlyGivenNames now s1 s2
  have h1 : Kept q z s1 := setResume_kept (umpCount_kept h)
  have h2 : Kept q z s2 := by
    unfold s2
    split
    · exact modCrew_kept h1
    · exact modCrew_kept h1
    · exact modUtile_kept h1
    · exact modUtile_kept h1
  exact forList_kept h2 fun _ _ h => tileSwept_kept h

theorem nextTrial_kept {i w} (h : Kept q z s) : Kept q z (nextTrial i w s) := by
  unfold nextTrial
  split
  · exact h
  · exact kept_ite h (kept_ite (dropWork_kept h) (kept_ite (endSweep_kept (dropWork_kept h)) (kept_ite (modUmp_kept
      (setResume_kept h)) (dropWork_kept (setResume_kept h)))))

theorem trialReport_kept {r} (h : Kept q z s) : Kept q z (trialReport r s) := by
  unfold trialReport
  extract_lets +onlyGivenNames t s1
  have h1 : Kept q z s1 := forUp_kept h fun _ _ h => countCe_kept h
  split
  · exact kept_ite (countUe_kept h1) h1
  · exact h1

theorem trialComplete_kept {i runs} (h : Kept q z s) : Kept q z (trialComplete i runs s) := by
  unfold trialComplete
  split
  · exact h
  · split
    · exact h
    · split
      · exact dropWork_kept h
      · extract_lets +onlyGivenNames f s1
        have h1 : Kept q z s1 := forList_kept h fun _ _ h => trialReport_kept h
        split
        · refine kept_ite (nextTrial_kept h1) ?_
          extract_lets s2
          have h2 : Kept q z s2 := forList_kept h1 fun _ _ h => noteFail_kept h
          refine kept_ite (forList_kept (setResume_kept (dropWork_kept h2)) fun _ _ h => ?_) (modUmp_kept h2)
          exact changeTile_kept (modUtile_kept h)
        · exact nextTrial_kept (forList_kept h1 fun _ _ h => classFail_kept h)

theorem freePartner_kept {c p} (h : Kept q z s) : Kept q z (freePartner c p s) := by
  unfold freePartner
  exact modExec_kept (forList_kept h (fun _ _ h => releasePower_kept (modCrew_kept (gateCrew_kept h))))

theorem pairCompare_kept {c} (h : Kept q z s) : Kept q z (pairCompare c s) := by
  unfold pairCompare
  split
  · exact h
  · split
    · exact h
    · exact kept_ite h (kept_ite (endPair_kept h) (startTriage_kept (modExec_kept (raise_kept (umpCount_kept
        (freePartner_kept h))))))

theorem triageTile_kept {x c p third sigs own e} (h : Kept q z s) :
    Kept q z (triageTile x c p third sigs own e s) := by
  unfold triageTile
  extract_lets +onlyGivenNames who a b
  split
  · exact kept_ite (umpTrigger_kept h) (kept_ite (corrupt_kept h) (forList_kept h (fun _ _ h => umpTrigger_kept h)))
  · exact forList_kept h fun _ _ h => umpTrigger_kept h

theorem triageVerdict_kept {c} (h : Kept q z s) : Kept q z (triageVerdict c s) := by
  unfold triageVerdict
  split
  · exact h
  · split
    · exact h
    · split
      · exact h
      · exact kept_ite h (kept_when (forList_kept (endPair_kept h) (fun _ _ h => triageTile_kept h)) raise_kept)

theorem swap_kept {t} (h : Kept q z s) : Kept q z (swap t s) := by
  unfold swap
  extract_lets +onlyGivenNames u first
  split
  · exact h
  · extract_lets +onlyGivenNames pool
    split
    · exact withdraw_kept h
    · split
      · exact rebind_kept h
      · exact h

theorem mapWrite_kept {ok} (h : Kept q z s) : Kept q z (mapWrite ok s) := by
  unfold mapWrite
  split
  · exact h
  · exact kept_ite h (kept_ite (setRmapHash_kept (appendEntry_kept (modUmp_kept h))) (raise_kept (modUmp_kept h)))

theorem sweepNow_kept {t} (h : Kept q z s) : Kept q z (sweepNow t s) := by
  unfold sweepNow
  exact kept_ite (modCrew_kept h) (kept_ite (setUtile_kept h) h)

theorem umpCmd_kept {op t} (h : Kept q z s) : Kept q z (umpCmd op t s) := by
  unfold umpCmd
  exact kept_unless (modUmp_kept h) (fun h => kept_ite (sweepNow_kept h) (umpTrigger_kept h))

/-! ### Boot -/

theorem lockPlls_kept (h : Kept q z s) : Kept q z (lockPlls s) := by
  unfold lockPlls
  exact modRst_kept (forUp_kept h (fun _ _ h => modStk_kept (modPart_kept h)))

theorem commitFallback_kept {reason code} (h : Kept q z s) : Kept q z (commitFallback reason code s) := by
  unfold commitFallback
  exact slotEvent_kept (setReason_kept (commitRecord_kept h))

theorem countTrialBoot_kept (h : Kept q z s) : Kept q z (countTrialBoot s) := by
  unfold countTrialBoot
  exact kept_ite h (kept_ite (commitFallback_kept h) (kept_ite (commitFallback_kept h) (commitRecord_kept h)))

theorem loadSlot_kept {b} (h : Kept q z s) : Kept q z (loadSlot b s) := by
  unfold loadSlot
  exact modBoot_kept h

theorem enterRecovery_kept (h : Kept q z s) : Kept q z (enterRecovery s) := by
  unfold enterRecovery
  exact modBoot_kept h

theorem selectSlot_kept (h : Kept q z s) : Kept q z (selectSlot s).1 := by
  unfold selectSlot
  extract_lets +onlyGivenNames s1 r
  have h1 : Kept q z s1 := countTrialBoot_kept h
  split
  · exact loadSlot_kept h1
  · split
    · exact loadSlot_kept (commitFallback_kept h1)
    · exact enterRecovery_kept h1

theorem coxStart_kept (h : Kept q z s) : Kept q z (coxStart s) := by
  unfold coxStart
  exact deliverHeld_kept (modRst_kept (modBoot_kept (forUp_kept h (fun _ _ h => modRst_kept h))))

theorem buildMaps_kept (h : Kept q z s) : Kept q z (buildMaps s) := by
  unfold buildMaps
  exact setRmapHash_kept (buildMap_kept (modBoot_kept (appendStamp_kept (kept_when (modUmp_kept h) raise_kept))))

theorem startDevice_kept (h : Kept q z s) : Kept q z (startDevice s) := by
  unfold startDevice
  extract_lets s1 s2
  have h2 : Kept q z s2 := modBoot_kept (lockPlls_kept h)
  split
  rename_i s3 found e3
  have h3 : Kept q z s3 := kept_of_eq_fst e3 (resolveRecord_kept h2)
  split
  · exact enterRecovery_kept h3
  · split
    rename_i s4 loaded e4
    have h4 : Kept q z s4 := kept_of_eq_fst e4 (selectSlot_kept h3)
    split
    · exact buildMaps_kept (coxStart_kept h4)
    · exact h4

theorem fullReset_kept (h : Kept q z s) : Kept q z (fullReset s) := by
  unfold fullReset
  exact startDevice_kept (cleared_kept h)

theorem startAgain_kept (h : Kept q z s) : Kept q z (startAgain s) := by
  unfold startAgain
  exact startDevice_kept (modHost_kept (cleared_kept h))

theorem powerGood_kept (h : Kept q z s) : Kept q z (powerGood s) := by
  unfold powerGood
  exact kept_ite (fullReset_kept h) h

theorem mcodeBroadcast_kept {bad bad2} (h : Kept q z s) : Kept q z (mcodeBroadcast bad bad2 s) := by
  unfold mcodeBroadcast
  exact kept_ite h (forList_kept (modBoot_kept h) (fun _ _ h => corrupt_kept h))

theorem trainStack_kept {k} (h : Kept q z s) : Kept q z (trainStack k s) := by
  unfold trainStack
  exact modStk_kept h

theorem trainFail_kept {f} (h : Kept q z s) : Kept q z (trainFail f s) := by
  unfold trainFail
  exact raise_kept (modBoot_kept h)

theorem hbmTrainDone_kept {fails} (h : Kept q z s) : Kept q z (hbmTrainDone fails s) := by
  unfold hbmTrainDone
  refine kept_ite h ?_
  extract_lets s1
  have h1 : Kept q z s1 := forUp_kept h fun _ _ h => kept_ite h (trainStack_kept h)
  exact kept_ite (modBoot_kept h1) (enterOos_kept (modBoot_kept (forList_kept h1 fun _ _ h => trainFail_kept h)))

theorem bootReady_kept (h : Kept q z s) : Kept q z (bootReady s) := by
  unfold bootReady
  exact kept_ite h (kept_ite (modBoot_kept h) (slotEvent_kept (modUmp_kept (modBoot_kept h))))

theorem bringFabric_kept {v} (h : Kept q z s) : Kept q z (bringFabric v s) := by
  unfold bringFabric
  exact kept_ite h (fabCfgWrite_kept (modBoot_kept h))

/-! ### Branch -/

theorem goTo_kept {t cost target dest f} (h : Kept q z s) : Kept q z (goTo t cost target dest f s).state := by
  unfold goTo
  split
  · exact modTile_kept h
  · exact h

theorem bodyBr_kept {t w atc} (h : Kept q z s) : Kept q z (bodyBr t w atc s).state := by
  unfold bodyBr
  extract_lets +onlyGivenNames x
  split <;> exact goTo_kept h

theorem bodyCall_kept {t w atc} (h : Kept q z s) : Kept q z (bodyCall t w atc s).state := by
  unfold bodyCall
  extract_lets +onlyGivenNames x
  split <;> exact goTo_kept h

theorem bodyJr_kept {t w atc} (h : Kept q z s) : Kept q z (bodyJr t w atc s).state := by
  unfold bodyJr
  extract_lets +onlyGivenNames x
  split <;> exact goTo_kept h

theorem bodyLoop_kept {t w atc} (h : Kept q z s) : Kept q z (bodyLoop t w atc s).state := by
  unfold bodyLoop
  extract_lets +onlyGivenNames x v dec
  split <;> exact goTo_kept h

/-! ### HostCore -/

theorem linkUp_kept {speed width flit cxl} (h : Kept q z s) : Kept q z (linkUp speed width flit cxl s) := by
  unfold linkUp
  exact kept_ite h (kept_when (modHost_kept (modRst_kept h)) raise_kept)

theorem detachCtx_kept {c} (h : Kept q z s) : Kept q z (detachCtx c s) := by
  unfold detachCtx
  exact modCtx_kept (refuseFetched_kept (decideEnd_kept (setCtx_kept h)))

theorem hostDetach_kept {why} (h : Kept q z s) : Kept q z (hostDetach why s) := by
  unfold hostDetach
  extract_lets +onlyGivenNames s1
  have h1 : Kept q z s1 := kept_when h modRst_kept
  refine kept_ite h1 ?_
  extract_lets s2 s3 s4 s5 s6
  have h4 : Kept q z s4 := kept_when (kept_when (modHost_kept h1) raise_kept) modHost_kept
  exact kept_unless (raise_kept (forUp_kept h4 fun _ _ h => detachCtx_kept h)) modHost_kept

/-! ### Shadow -/

theorem publishWhole_kept (h : Kept q z s) : Kept q z (publishWhole s) := by
  unfold publishWhole
  exact modHost_kept h

theorem publishMap_kept (h : Kept q z s) : Kept q z (publishMap s) := by
  unfold publishMap
  exact modHost_kept h

/-! ### Resets -/

theorem clkLoss_kept {k} (h : Kept q z s) : Kept q z (clkLoss k s) := by
  unfold clkLoss
  split
  · exact h
  · split
    · exact kept_ite h (startReset_kept (raise_kept (reEstimate_kept (settleVoltage_kept (modPart_kept
        (toP15_kept h))))))
    · exact kept_ite h (startReset_kept (raise_kept (modStk_kept h)))
    · exact kept_ite h (enterOos_kept (raise_kept (modRst_kept h)))
    · exact kept_ite h (enterOos_kept (raise_kept (modRst_kept h)))
    · exact linkRetrain_kept h
    · exact thenPass_kept h fun _ h => hostDetach_kept h

theorem freeCtx_kept {p c} (h : Kept q z s) : Kept q z (freeCtx p c s) := by
  unfold freeCtx
  extract_lets +onlyGivenNames drop
  split
  · exact h
  · exact kept_when (modCtx_kept h) (fun h => settleAbort_kept (launchDone_kept h))

theorem freeCtxs_kept {p} (h : Kept q z s) : Kept q z (freeCtxs p s) := by
  unfold freeCtxs
  exact forUp_kept h fun _ _ h => freeCtx_kept h

theorem partResetDone_kept {p clockOk} (h : Kept q z s) : Kept q z (partResetDone p clockOk s) := by
  unfold partResetDone
  split
  · exact h
  · have hf : Kept q z (freeCtxs p s) := freeCtxs_kept h
    exact kept_ite h (kept_ite (kept_ite (enterOos_kept hf) h) (kept_ite (enterOos_kept hf)
      (kept_when (freeCtxs_kept (raise_kept (modStk_kept (modPart_kept h)))) enterOos_kept)))

theorem hostPartReset_kept {p} (h : Kept q z s) : Kept q z (hostPartReset p s) := by
  unfold hostPartReset
  exact kept_ite (startReset_kept h) h

theorem coxBegin_kept (h : Kept q z s) : Kept q z (coxBegin s) := by
  unfold coxBegin
  extract_lets mask s1 s2 s3 s4 s5 s6 s7
  have h4 : Kept q z s4 := escalateCox_kept (raise_kept (modHost_kept (modBoot_kept (modRst_kept h))))
  have h5 : Kept q z s5 := forList_kept h4 fun _ _ h => decideEnd_kept h
  have h6 : Kept q z s6 := forUp_kept h5 fun _ _ h => refuseFetched_kept h
  have h7 : Kept q z s7 := forUp_kept h6 fun _ _ h => kept_ite h (startReset_kept h)
  exact voidWork_kept (modPwr_kept (allToP15_kept h7))

theorem hostCoxRestart_kept (h : Kept q z s) : Kept q z (hostCoxRestart s) := by
  unfold hostCoxRestart
  exact kept_ite (coxBegin_kept h) h

theorem heartbeat_kept {k} (h : Kept q z s) : Kept q z (heartbeat k s) := by
  unfold heartbeat
  exact kept_ite (modRst_kept h) h

theorem coxHang_kept (h : Kept q z s) : Kept q z (coxHang s) := by
  unfold coxHang
  exact kept_ite (coxBegin_kept h) h

theorem coxFail_kept (h : Kept q z s) : Kept q z (coxFail s) := by
  unfold coxFail
  exact enterOos_kept (deliverHeld_kept (modRst_kept h))

theorem coxDone_kept (h : Kept q z s) : Kept q z (coxDone s) := by
  unfold coxDone
  extract_lets now s1 s2 s3 s4 s5 s6 s7
  have h2 : Kept q z s2 := forUp_kept (modRst_kept h) fun _ _ h => modRst_kept h
  have h5 : Kept q z s5 := resolveRecord_kept (publishWhole_kept (modHost_kept (deliverHeld_kept (modBoot_kept h2))))
  have h6 : Kept q z s6 := forUp_kept h5 fun _ _ h => kept_ite (enterStopped_kept h) (ctxStopped_kept h)
  exact kept_when (raise_kept h6) enterOos_kept

theorem coxRestarted_kept {shaOk mask} (h : Kept q z s) : Kept q z (coxRestarted shaOk mask s) := by
  unfold coxRestarted
  split
  · exact h
  · exact kept_ite h (kept_ite (coxFail_kept h) (kept_ite h (kept_ite h (coxDone_kept h))))

/-! ### Firmware -/

theorem setResult_kept {r} (h : Kept q z s) : Kept q z (setResult r s) := by
  unfold setResult
  exact modBoot_kept h

theorem tryUpdate_kept {flashOk f} (h : Kept q z s) : Kept q z (tryUpdate flashOk f s) := by
  unfold tryUpdate
  exact kept_ite (commitRecord_kept h) (setResult_kept (failRecord_kept h))

theorem activate_kept {flashOk} (h : Kept q z s) : Kept q z (activate flashOk s) := by
  unfold activate
  exact kept_ite (setResult_kept h) (kept_ite (setResult_kept h)
    (kept_ite (slotEvent_kept (setReason_kept (tryUpdate_kept (setResult_kept h))))
      (kept_when (tryUpdate_kept (setResult_kept h)) slotEvent_kept)))

theorem confirm_kept {flashOk} (h : Kept q z s) : Kept q z (confirm flashOk s) := by
  unfold confirm
  exact kept_ite (setResult_kept h) (kept_ite (slotEvent_kept (modBoot_kept (tryUpdate_kept (setResult_kept h))))
    (tryUpdate_kept (setResult_kept h)))

theorem setDownload_kept {d} (h : Kept q z s) : Kept q z (setDownload d s) := by
  unfold setDownload
  exact modBoot_kept h

theorem abortDownload_kept (h : Kept q z s) : Kept q z (abortDownload s) := by
  unfold abortDownload
  split
  · exact setResult_kept h
  · exact setResult_kept (modBoot_kept h)

theorem broadcast_kept {session} (h : Kept q z s) : Kept q z (broadcast session s) := by
  unfold broadcast
  exact kept_ite (setResult_kept h) (kept_ite (setResult_kept h) (kept_ite (setResult_kept h) (setResult_kept
    (modBoot_kept h))))

theorem fwCmd_kept {op session flashOk} (h : Kept q z s) : Kept q z (fwCmd op session flashOk s) := by
  unfold fwCmd
  split
  · exact h
  · split
    · exact activate_kept h
    · exact confirm_kept h
    · exact abortDownload_kept h
    · exact broadcast_kept h
    · exact setResult_kept h

theorem floodRack_kept {from_ q0} (h : Kept q z s) : Kept q z (floodRack from_ q0 s) := by
  unfold floodRack
  exact flood_kept h

theorem chunkSend_kept (h : Kept q z s) : Kept q z (chunkSend s) := by
  unfold chunkSend
  split
  · exact h
  · exact kept_ite h (kept_ite (modBoot_kept (floodRack_kept (keepTriple_kept h))) (slotEvent_kept (modBoot_kept
      (floodRack_kept (keepTriple_kept h)))))

theorem sessionDone_kept {rx} (h : Kept q z s) : Kept q z (sessionDone rx s) := by
  unfold sessionDone
  exact sealSlot_kept (modBoot_kept h)

theorem takeChunk_kept {q0} (h : Kept q z s) : Kept q z (takeChunk q0 s) := by
  unfold takeChunk
  extract_lets +onlyGivenNames i n
  split
  · exact h
  · extract_lets +onlyGivenNames fresh s1
    have h1 : Kept q z s1 := kept_ite (modBoot_kept (eraseHeader_kept h)) h
    split
    · exact h1
    · exact kept_ite h1 (kept_when (modBoot_kept (kept_ite (slotWrite_kept h1) h1)) sessionDone_kept)

theorem bootPacket_kept {i} (h : Kept q z s) : Kept q z (bootPacket i s) := by
  unfold bootPacket
  split
  · exact h
  · exact kept_ite h (kept_unless (takeArrival_kept h) (fun h => takeChunk_kept (floodRack_kept (keepTriple_kept h))))

theorem bcastIncomplete_kept (h : Kept q z s) : Kept q z (bcastIncomplete s) := by
  unfold bcastIncomplete
  split
  · exact h
  · exact kept_ite h (slotEvent_kept (modBoot_kept h))

theorem pldmOut_kept {code} (h : Kept q z s) : Kept q z (pldmOut code s) := kept_update h

theorem requestUpdate_kept {maxXfer} (h : Kept q z s) : Kept q z (requestUpdate maxXfer s) := by
  unfold requestUpdate
  exact kept_ite h (kept_ite (pldmOut_kept h) (kept_ite (pldmOut_kept h) (kept_ite (pldmOut_kept h) (pldmOut_kept
    (setDownload_kept h)))))

theorem ask_kept {d} (h : Kept q z s) : Kept q z (ask d s) := kept_update h

theorem updateComponent_kept {size} (h : Kept q z s) : Kept q z (updateComponent size s) := by
  unfold updateComponent
  split
  · exact h
  · split
    · exact pldmOut_kept h
    · exact kept_ite (pldmOut_kept h) (kept_ite (pldmOut_kept h) (ask_kept (pldmOut_kept (setDownload_kept
        (eraseHeader_kept h)))))

theorem downloadDone_kept {d} (h : Kept q z s) : Kept q z (downloadDone d s) := by
  unfold downloadDone
  extract_lets +onlyGivenNames s1
  have h1 : Kept q z s1 := setDownload_kept h
  refine kept_ite (sealSlot_kept h1) ?_
  extract_lets s2
  have h2 : Kept q z s2 := slotEvent_kept (slotWrite_kept h1)
  exact kept_ite h2 (startAgain_kept (kept_ite h2 (writeRecord_kept h2)))

theorem firmwareData_kept {off data} (h : Kept q z s) : Kept q z (firmwareData off data s) := by
  unfold firmwareData
  split
  · exact h
  · exact kept_ite h (kept_ite (ask_kept (setDownload_kept (slotWrite_kept h))) (kept_ite (downloadDone_kept
      (setDownload_kept h)) (ask_kept (setDownload_kept h))))

theorem reportSealed_kept (h : Kept q z s) : Kept q z (reportSealed s) := by
  unfold reportSealed
  split
  · exact h
  · exact kept_ite (pldmOut_kept (setDownload_kept h)) h

theorem reportVerify_kept (h : Kept q z s) : Kept q z (reportVerify s) := by
  unfold reportVerify
  split
  · exact h
  · exact kept_ite (pldmOut_kept (setDownload_kept h)) h

theorem activatedOut_kept {code} (h : Kept q z s) : Kept q z (activatedOut code s) := kept_update h

theorem activateFirmware_kept {how} (h : Kept q z s) : Kept q z (activateFirmware how s) := by
  unfold activateFirmware
  split
  · exact h
  · split
    · exact pldmOut_kept h
    · exact pldmOut_kept (setDownload_kept h)
    · exact activatedOut_kept (fwCmd_kept (modBoot_kept h))

theorem cancelUpdate_kept (h : Kept q z s) : Kept q z (cancelUpdate s) := by
  unfold cancelUpdate
  split
  · exact h
  · split
    · exact pldmOut_kept h
    · exact pldmOut_kept (abortDownload_kept h)

theorem trialExpired_kept {flashOk} (h : Kept q z s) : Kept q z (trialExpired flashOk s) := by
  unfold trialExpired
  exact slotEvent_kept (modBoot_kept (kept_when (tryUpdate_kept h) (fun h => slotEvent_kept (setReason_kept h))))

theorem trialMinute_kept {flashOk} (h : Kept q z s) : Kept q z (trialMinute flashOk s) := by
  unfold trialMinute
  split
  · exact h
  · split
    · exact kept_ite (fullReset_kept h) h
    · split
      · exact h
      · extract_lets s1 more last
        have h1 : Kept q z s1 := modBoot_kept h
        split
        rename_i second s2 e2
        have h2 : Kept q z s2 := by
          refine kept_of_eq e2 ?_
          split
          · exact freeBelow_kept h1
          · exact h1
        have hu : Kept q z (updateRecord more s2) := updateRecord_kept h2
        exact kept_ite (trialExpired_kept hu) (kept_ite (tryUpdate_kept h2) (kept_ite (trialExpired_kept hu) hu))

/-! ### PowerMon -/

theorem setPhase_kept {i x} (h : Kept q z s) : Kept q z (setPhase i x s) := by
  unfold setPhase
  exact modPwr_kept h

theorem setDom_kept {d x} (h : Kept q z s) : Kept q z (setDom d x s) := by
  unfold setDom
  exact modPwr_kept h

theorem checkShort_kept {d i} (h : Kept q z s) : Kept q z (checkShort d i s) := by
  unfold checkShort
  exact kept_ite h (enterOos_kept (forUp_kept (forUp_kept (allToP15_kept (raise_kept (modPwr_kept h))) (fun _ _ h =>
    disturb_kept h)) (fun _ _ h => modPart_kept h)))

theorem clampUp_kept (h : Kept q z s) : Kept q z (clampUp s) := by
  unfold clampUp
  exact kept_ite h (voidWork_kept (forUp_kept (kept_when (modPwr_kept h) raise_kept) (fun _ _ h => disturb_kept h)))

theorem judgeDomain_kept {d cur} (h : Kept q z s) : Kept q z (judgeDomain d cur s).1 := by
  unfold judgeDomain
  exact foldl_fst_kept h fun _ _ h => setPhase_kept h

theorem declare_kept {e} (h : Kept q z s) : Kept q z (declare e s) := by
  unfold declare
  split
  exact kept_ite (raise_kept (setPhase_kept h)) (checkShort_kept (modPwr_kept (raise_kept
    (setPhase_kept h))))

theorem pwrSample_kept {currents volts} (h : Kept q z s) : Kept q z (pwrSample currents volts s) := by
  unfold pwrSample
  split
  · exact h
  · extract_lets cur dc above s1
    have h1 : Kept q z s1 := forUp_kept h fun _ _ h => setDom_kept h
    split
    rename_i s2 found e2
    have h2 : Kept q z s2 := kept_of_eq_fst e2 (foldl_fst_kept h1 fun _ _ h => judgeDomain_kept h)
    extract_lets s3 s4
    have h4 : Kept q z s4 := forUp_kept (forList_kept h2 fun _ _ h => declare_kept h) fun _ _ h => setDom_kept h
    exact kept_ite (clampUp_kept h4) h4

theorem crackSample_kept {p drop} (h : Kept q z s) : Kept q z (crackSample p drop s) := by
  unfold crackSample
  exact kept_when (setPart_kept h) raise_kept

theorem pwrPublish_kept {drops} (h : Kept q z s) : Kept q z (pwrPublish drops s) := by
  unfold pwrPublish
  exact kept_ite h (forUp_kept (forUp_kept h (fun _ _ h => kept_ite h (setDom_kept h))) (fun _ _ h =>
    crackSample_kept h))

/-! ### Thermal -/

theorem setDiode_kept {d x} (h : Kept q z s) : Kept q z (setDiode d x s) := by
  unfold setDiode
  exact modPwr_kept h

theorem judgeDiode_kept {g d} (h : Kept q z s) : Kept q z (judgeDiode g d s) := by
  unfold judgeDiode
  exact kept_ite h (kept_ite (raise_kept (setDiode_kept h)) (kept_ite (raise_kept (setDiode_kept h))
    (setDiode_kept h)))

theorem setEff_kept {d} (h : Kept q z s) : Kept q z (setEff d s) := by
  unfold setEff
  extract_lets +onlyGivenNames x
  split
  · exact setDiode_kept h
  · split
    · exact setDiode_kept h
    · exact h

theorem setStackBand_kept {k} (h : Kept q z s) : Kept q z (setStackBand k s) := by
  unfold setStackBand
  exact modStk_kept h

theorem toBand_kept {p b} (h : Kept q z s) : Kept q z (toBand p b s) := by
  unfold toBand
  exact kept_ite h (setStackBand_kept (raise_kept (modPart_kept h)))

theorem followBlind_kept {p} (h : Kept q z s) : Kept q z (followBlind p s) := by
  unfold followBlind
  extract_lets +onlyGivenNames near
  split
  · exact kept_ite (modPart_kept h) h
  · exact h

theorem partitionHeat_kept {p} (h : Kept q z s) : Kept q z (partitionHeat p s) := by
  unfold partitionHeat
  exact toBand_kept (kept_when (forUp_kept (modPart_kept h) (fun _ _ h => followBlind_kept h)) raise_kept)

theorem thermSample_kept {g raws} (h : Kept q z s) : Kept q z (thermSample g raws s) := by
  unfold thermSample
  refine kept_ite h ?_
  extract_lets ds s1 s2 s3 s4 hi now iv s5 s6
  have h1 : Kept q z s1 := forList_kept h fun _ _ h => setDiode_kept h
  have h2 : Kept q z s2 := forList_kept h1 fun _ _ h => judgeDiode_kept h
  have h3 : Kept q z s3 := forList_kept h2 fun _ _ h => setEff_kept h
  have h4 : Kept q z s4 := forList_kept h3 fun _ _ h => setEff_kept h
  exact kept_when (kept_when (modPwr_kept h4) raise_kept) partitionHeat_kept

theorem thermtrip_kept (h : Kept q z s) : Kept q z (thermtrip s) := by
  unfold thermtrip
  split
  · exact h
  · split
    split
    exact removePower_kept (kept_of_eq ‹_› (free_kept (kept_of_eq ‹_› (free_kept h))))

theorem waitedOnRefresh_kept {c w} (h : Kept q z s) : Kept q z (waitedOnRefresh c w s).2 := by
  unfold waitedOnRefresh
  split
  · split
    · exact kept_of_eq ‹_› (freeBelow_kept h)
    · exact modWake_kept (kept_of_eq ‹_› (freeBelow_kept h))

theorem refreshReq_kept {st ch t tag r} (h : Kept q z s) : Kept q z (refreshReq st ch t tag r s) := by
  unfold refreshReq
  extract_lets +onlyGivenNames x
  split
  · exact h
  · split
    · exact h
    · split
      exact modTile_kept (kept_of_eq ‹_› (waitedOnRefresh_kept h))

theorem refreshAtom_kept {st ch a} (h : Kept q z s) : Kept q z (refreshAtom st ch a s).2 := by
  unfold refreshAtom
  split
  · exact h
  · split
    · exact h
    · split
      exact kept_of_eq ‹_› (waitedOnRefresh_kept h)

theorem refreshSpill_kept {f} (h : Kept q z s) : Kept q z (refreshSpill f s).2 := by
  unfold refreshSpill
  split
  · exact h
  · split
    · exact h
    · split
      exact kept_of_eq ‹_› (waitedOnRefresh_kept h)

theorem mapState_kept {α : Type} {f : α → State → α × State} {l : List α} (h : Kept q z s)
    (hf : ∀ a s, Kept q z s → Kept q z (f a s).2) : Kept q z (mapState f l s).2 := by
  induction l generalizing s with
  | nil => exact h
  | cons a l ih => exact ih (hf a s h)

theorem refreshHits_kept {st ch} (h : Kept q z s) : Kept q z (refreshHits st ch s) := by
  unfold refreshHits
  extract_lets s1
  have h1 : Kept q z s1 := by
    refine forList_kept h fun e s h => forList_kept h fun tg s h => ?_
    split
    · exact h
    · exact refreshReq_kept h
  split
  rename_i atoms s2 e2
  have h2 : Kept q z s2 := kept_of_eq e2 (mapState_kept h1 fun _ _ h => refreshAtom_kept h)
  split
  rename_i spills s3 e3
  exact kept_update (kept_of_eq e3 (mapState_kept h2 fun _ _ h => refreshSpill_kept h))

theorem hbmRefresh_kept {st ch} (h : Kept q z s) : Kept q z (hbmRefresh st ch s) := by
  unfold hbmRefresh
  exact kept_ite h (refreshHits_kept (modStk_kept h))

theorem memPresetChange_kept {st} (h : Kept q z s) : Kept q z (memPresetChange st s) := by
  unfold memPresetChange
  exact kept_ite h (raise_kept (setStk_kept h))

theorem stackReport_kept {st t} (h : Kept q z s) : Kept q z (stackReport st t s) := by
  unfold stackReport
  exact kept_ite h (setStk_kept h)

/-! ### RegRead -/

theorem clearReg_kept {a} (h : Kept q z s) : Kept q z (clearReg a s) := by
  unfold clearReg
  extract_lets +onlyGivenNames o
  split
  · split
    · exact modCtx_kept h
    · clear_value o
      split
      · exact kept_update h
      · exact kept_update h
      · exact kept_update h
      · exact h
  · split
    · exact h
    · split
      · exact kept_update h
      · exact modPart_kept h
      · exact h
  · exact kept_ite (modUmp_kept h) h
  · exact kept_ite (kept_ite (modPart_kept h) h) (kept_ite (modPwr_kept h) h)
  · split
    · exact h
    · split
      · exact modStk_kept h
      · exact modStk_kept h
      · exact h
  · split
    · split
      · exact modPort_kept h
      · exact modPort_kept h
      · exact h
    · clear_value o
      split
      · exact modFab_kept h
      · exact modFab_kept h
      · exact h
  · clear_value o
    split
    · exact modStroke_kept h
    · exact modStroke_kept h
    · exact h
  · clear_value o
    split
    · exact modHost_kept h
    · exact modHost_kept h
    · exact modHost_kept h
    · exact h
  · exact h

theorem regRead_kept {bar off width} (h : Kept q z s) : Kept q z (regRead bar off width s) := by
  unfold regRead
  exact kept_ite h (kept_ite (kept_update (modHost_kept h)) (kept_update (kept_ite (clearReg_kept h) h)))

/-! ### Mgmt -/

theorem vendorOut_kept {status data} (h : Kept q z s) : Kept q z (vendorOut status data s) := kept_update h

theorem refuseMgmt_kept {status} (h : Kept q z s) : Kept q z (refuseMgmt status s) := by
  unfold refuseMgmt
  exact vendorOut_kept (raise_kept (modHost_kept h))

theorem getShadow_kept {off len} (h : Kept q z s) : Kept q z (getShadow off len s) := by
  unfold getShadow
  exact kept_ite h (kept_ite (refuseMgmt_kept h) (vendorOut_kept h))

theorem setMgmtLimit_kept {watts} (h : Kept q z s) : Kept q z (setMgmtLimit watts s) := by
  unfold setMgmtLimit
  exact modPwr_kept h

theorem tileCmd_kept {act epoch t} (h : Kept q z s) (hact : ∀ a s, Kept q z s → Kept q z (act a s)) :
    Kept q z (tileCmd act epoch t s) := by
  unfold tileCmd
  split
  · exact h
  · split
    · exact refuseMgmt_kept h
    · exact kept_ite (vendorOut_kept (hact _ _ h)) (refuseMgmt_kept h)

theorem powerCmd_kept {watts} (h : Kept q z s) : Kept q z (powerCmd watts s) := by
  unfold powerCmd
  split
  · exact h
  · split
    · exact refuseMgmt_kept h
    · exact vendorOut_kept (setMgmtLimit_kept h)

theorem repairShadow_kept (h : Kept q z s) : Kept q z (repairShadow s) := by
  unfold repairShadow
  exact modHost_kept h

theorem recAfter_kept {d} (h : Kept q z s) : Kept q z (recAfter d s) := by
  unfold recAfter
  exact modHost_kept h

theorem reconcile_kept (h : Kept q z s) : Kept q z (reconcile s) := by
  unfold reconcile
  refine kept_ite h (kept_ite (recAfter_kept h) ?_)
  extract_lets +onlyGivenNames ep n s1
  have h1 : Kept q z s1 := recAfter_kept (modHost_kept h)
  refine kept_ite (modHost_kept h1) ?_
  extract_lets s2 s3
  have h3 : Kept q z s3 := modHost_kept (raise_kept (repairShadow_kept h1))
  exact kept_ite h3 (coxBegin_kept (raise_kept (modHost_kept h3)))

theorem sensorRead_kept {id} (h : Kept q z s) : Kept q z (sensorRead id s) := by
  unfold sensorRead
  split
  · exact h
  · split
    · exact kept_update h
    · exact pldmOut_kept h

theorem effecterSet_kept {id watts} (h : Kept q z s) : Kept q z (effecterSet id watts s) := by
  unfold effecterSet
  exact kept_ite h (kept_ite (pldmOut_kept (setMgmtLimit_kept h)) (pldmOut_kept h))

theorem setReceiver_kept {eid} (h : Kept q z s) : Kept q z (setReceiver eid s) := by
  unfold setReceiver
  exact kept_ite h (pldmOut_kept (kept_update (modHost_kept h)))

theorem setEid_kept {b eid} (h : Kept q z s) : Kept q z (setEid b eid s) := by
  unfold setEid
  exact kept_ite (modHost_kept h) h

theorem assignAddr_kept {a} (h : Kept q z s) : Kept q z (assignAddr a s) := by
  unfold assignAddr
  exact kept_ite (modHost_kept h) h

theorem rstdaa_kept (h : Kept q z s) : Kept q z (rstdaa s) := by
  unfold rstdaa
  exact kept_ite (modHost_kept h) h

theorem spdmOut_kept {l} (h : Kept q z s) : Kept q z (spdmOut l s) := kept_update h

theorem spdmErr_kept (h : Kept q z s) : Kept q z (spdmErr s) := kept_update h

theorem spdmAfter_kept {k} (h : Kept q z s) (hk : ∀ s, Kept q z s → Kept q z (k s)) : Kept q z (spdmAfter s k) := by
  unfold spdmAfter
  exact kept_ite h (kept_ite (hk _ h) (spdmErr_kept h))

theorem spdmVersion_kept (h : Kept q z s) : Kept q z (spdmVersion s) := by
  unfold spdmVersion
  exact kept_ite h (spdmOut_kept (modHost_kept h))

theorem spdmCaps_kept (h : Kept q z s) : Kept q z (spdmCaps s) := by
  unfold spdmCaps
  split
  · exact h
  · split
    exact spdmOut_kept (kept_of_eq ‹_› (freeBytes_kept h))

theorem spdmAlgs_kept {offered} (h : Kept q z s) : Kept q z (spdmAlgs offered s) := by
  unfold spdmAlgs
  exact kept_ite h (kept_ite (spdmErr_kept h) (spdmOut_kept (modHost_kept h)))

theorem spdmDigests_kept (h : Kept q z s) : Kept q z (spdmDigests s) := by
  unfold spdmDigests
  exact spdmAfter_kept h fun _ h => spdmOut_kept h

theorem spdmCert_kept {slot off len} (h : Kept q z s) : Kept q z (spdmCert slot off len s) := by
  unfold spdmCert
  exact spdmAfter_kept h (fun _ h => kept_ite (spdmErr_kept h) (spdmOut_kept h))

theorem spdmSigned_kept {code p1 p2 body nonce} (h : Kept q z s) : Kept q z (spdmSigned code p1 p2 body nonce s) := by
  unfold spdmSigned
  split
  exact spdmOut_kept (kept_of_eq ‹_› (freeBytes_kept h))

theorem spdmChallenge_kept {slot nonce} (h : Kept q z s) : Kept q z (spdmChallenge slot nonce s) := by
  unfold spdmChallenge
  exact spdmAfter_kept h (fun _ h => kept_ite (spdmErr_kept h) (spdmSigned_kept h))

theorem spdmMeas_kept {ix nonce} (h : Kept q z s) : Kept q z (spdmMeas ix nonce s) := by
  unfold spdmMeas
  exact spdmAfter_kept h (fun _ h => kept_ite (spdmErr_kept h) (spdmSigned_kept h))

/-! ### CardRack -/

theorem supplyOn_kept (h : Kept q z s) : Kept q z (supplyOn s) := by
  unfold supplyOn
  exact modCard_kept h

theorem powerOn_kept (h : Kept q z s) : Kept q z (powerOn s) := by
  unfold powerOn
  exact kept_ite h (supplyOn_kept h)

theorem inputRestored_kept {rackPresent} (h : Kept q z s) : Kept q z (inputRestored rackPresent s) := by
  unfold inputRestored
  exact kept_unless (modCard_kept h) (fun h => kept_when h supplyOn_kept)

theorem cardPhaseOpen_kept {mv watts} (h : Kept q z s) : Kept q z (cardPhaseOpen mv watts s) := by
  unfold cardPhaseOpen
  exact kept_ite h (modCard_kept (cardLog_kept h))

theorem trayEnable_kept {rack racks} (h : Kept q z s) : Kept q z (trayEnable rack racks s) := by
  unfold trayEnable
  exact kept_unless (modCard_kept h) (fun h => supplyOn_kept (kept_update (modCard_kept h)))

theorem supplyDown_kept (h : Kept q z s) : Kept q z (supplyDown s) := by
  unfold supplyDown
  exact forList_kept h fun _ _ h => modCard_kept h

theorem trayOff_kept (h : Kept q z s) : Kept q z (trayOff s) := by
  unfold trayOff
  exact kept_ite h (kept_update (kept_when (supplyDown_kept h) (fun h => deviceOff_kept (modCard_kept h))))

theorem sendLimit_kept (h : Kept q z s) : Kept q z (sendLimit s) := by
  unfold sendLimit
  exact powerCmd_kept (kept_update h)

theorem shelfLoss_kept (h : Kept q z s) : Kept q z (shelfLoss s) := by
  unfold shelfLoss
  exact sendLimit_kept (kept_update h)

theorem shelfRestored_kept (h : Kept q z s) : Kept q z (shelfRestored s) := by
  unfold shelfRestored
  exact sendLimit_kept (kept_update h)

theorem coolantMonitor_kept {inlet flow} (h : Kept q z s) : Kept q z (coolantMonitor inlet flow s) := by
  unfold coolantMonitor
  extract_lets hot low rack s1 s2
  have h1 : Kept q z s1 := kept_update h
  have h2 : Kept q z s2 := kept_ite (sendLimit_kept h1) h1
  clear_value s2 low
  split
  · exact h2
  · exact kept_ite (trayOff_kept h2) h2

theorem lampPoll_kept (h : Kept q z s) : Kept q z (lampPoll s) := by
  unfold lampPoll
  exact kept_ite h (forUp_kept (forUp_kept (forUp_kept (kept_ite h (modCard_kept h)) (fun _ _ h => setLamp_kept h))
    (fun _ _ h => lampStale_kept h)) (fun _ _ h => lampPulse_kept h))

theorem lampMeasure_kept {i ua mv} (h : Kept q z s) : Kept q z (lampMeasure i ua mv s) := by
  unfold lampMeasure
  extract_lets +onlyGivenNames x
  split
  · exact h
  · extract_lets +onlyGivenNames now bad
    split
    · exact lampTo_kept (setLamp_kept h)
    · extract_lets +onlyGivenNames s1 st
      have h1 : Kept q z s1 := setLamp_kept h
      split
      · exact h1
      · split
        split
        exact cardLog_kept (lampTo_kept (kept_of_eq ‹_› (free_kept (kept_of_eq ‹_›
          (free_kept h1)))))

/-! ### Governor -/

theorem addEnergy_kept {dt p} (h : Kept q z s) : Kept q z (addEnergy dt p s) := by
  unfold addEnergy
  exact forList_kept (modPart_kept h) (fun _ _ h => kept_ite h (modExec_kept h))

theorem releaseClamp_kept {ilim other} (h : Kept q z s) : Kept q z (releaseClamp ilim other s) := by
  unfold releaseClamp
  exact kept_ite (kept_when (forUp_kept (modPwr_kept h) (fun _ _ h => disturb_kept h)) (fun h => raise_kept
    (modPwr_kept h))) h

theorem applyPlan_kept {t share b l th p} (h : Kept q z s) : Kept q z (applyPlan t share b l th p s) := by
  unfold applyPlan
  exact modPart_kept (kept_ite (disturb_kept h) h)

theorem setMaxpt_kept {p} (h : Kept q z s) : Kept q z (setMaxpt p s) := by
  unfold setMaxpt
  exact modPart_kept h

theorem fullPass_kept {act other} (h : Kept q z s) : Kept q z (fullPass act other s) := by
  unfold fullPass
  extract_lets +onlyGivenNames dt other1 caps s1 s2 low k start
  have h1 : Kept q z s1 := forUp_kept h (fun _ _ h => setMaxpt_kept (modPart_kept h))
  have h2 : Kept q z s2 := forUp_kept h1 fun _ _ h => addEnergy_kept h
  split
  exact releaseClamp_kept (reEstimate_kept (settleVoltage_kept (modPwr_kept (forUp_kept h2 (fun _ _ h =>
    applyPlan_kept h)))))

theorem thermalPass_kept {p} (h : Kept q z s) : Kept q z (thermalPass p s) := by
  unfold thermalPass
  exact settleVoltage_kept (modPart_kept h)

theorem governorPass_kept {act other} (h : Kept q z s) : Kept q z (governorPass act other s) := by
  unfold governorPass
  exact kept_ite h (kept_ite (thenPass_kept h (fun _ h => schedulerPass_kept (fullPass_kept h))) (kept_ite h
    (thenPass_kept h (fun _ h => schedulerPass_kept (forList_kept h (fun _ _ h => thermalPass_kept h))))))

theorem clockPointApply_kept {p} (h : Kept q z s) : Kept q z (clockPointApply p s) := by
  unfold clockPointApply
  split
  · exact h
  · exact voidWork_kept (reEstimate_kept (settleVoltage_kept (modPart_kept h)))

/-! ### HostMem -/

theorem disturbTimed_kept (h : Kept q z s) : Kept q z (disturbTimed s) := by
  unfold disturbTimed
  exact forList_kept h (fun _ _ h => kept_ite (modExec_kept h) h)

theorem snoopEnter_kept {line} (h : Kept q z s) : Kept q z (snoopEnter line s) := by
  unfold snoopEnter
  extract_lets +onlyGivenNames k st
  split
  · exact h
  · split
    · exact setStk_kept h
    · exact kept_when (setStk_kept h) kept_update

theorem snoopRead_kept {path pa len} (h : Kept q z s) : Kept q z (snoopRead path pa len s) := by
  unfold snoopRead
  exact kept_ite (forUp_kept h (fun _ _ h => snoopEnter_kept h)) h

theorem unsupported_kept (h : Kept q z s) : Kept q z (unsupported s) := by
  unfold unsupported
  exact kept_update (modHost_kept h)

theorem hostReadFrame_kept {path pa len} (h : Kept q z s) : Kept q z (hostReadFrame path pa len s).2 := by
  unfold hostReadFrame
  split
  · exact snoopRead_kept h
  · exact h
  · split
    · exact snoopRead_kept (kept_of_eq ‹_› (hbmRead_kept h))
    · exact kept_of_eq ‹_› (hbmRead_kept h)

theorem hostReadFrames_kept {path k pa len} (h : Kept q z s) : Kept q z (hostReadFrames path k pa len s).2 := by
  induction k generalizing pa len s with
  | zero => exact h
  | succ k ih =>
    unfold hostReadFrames
    extract_lets n
    split
    rename_i a s1 e1
    have h1 : Kept q z s1 := kept_of_eq e1 (hostReadFrame_kept h)
    split
    · exact h1
    · exact ih h1

theorem hostRead_kept {path addr len} (h : Kept q z s) : Kept q z (hostRead path addr len s) := by
  unfold hostRead
  extract_lets +onlyGivenNames pa
  split
  · exact h
  · split
    · exact unsupported_kept h
    · split
      · exact h
      · split
        exact kept_update (kept_of_eq ‹_› (hostReadFrames_kept (disturbTimed_kept h)))

theorem dropWrite_kept (h : Kept q z s) : Kept q z (dropWrite s) := by
  unfold dropWrite
  exact kept_unless (modHost_kept h) (fun h => raise_kept (modHost_kept h))

theorem hostWriteFrame_kept {pa bs} (h : Kept q z s) : Kept q z (hostWriteFrame pa bs s) := by
  unfold hostWriteFrame
  split
  · exact dropWrite_kept h
  · exact dropWrite_kept h
  · split
    · exact dropWrite_kept (memUe_kept h)
    · exact writeLines_kept h

theorem hostWriteFrames_kept {k pa bs} (h : Kept q z s) : Kept q z (hostWriteFrames k pa bs s) := by
  induction k generalizing pa bs s with
  | zero => exact h
  | succ k ih => exact kept_ite (hostWriteFrame_kept h) (ih (hostWriteFrame_kept h))

theorem hostWrite_kept {path addr bs} (h : Kept q z s) : Kept q z (hostWrite path addr bs s) := by
  unfold hostWrite
  exact kept_ite h (kept_ite (modHost_kept h) (hostWriteFrames_kept (disturbTimed_kept h)))

/-! ### Imm -/

theorem ldOp_kept {f t w atc} (h : Kept q z s) : Kept q z (ldOp f t w atc s).state := by
  unfold ldOp
  exact regOp_kept h

/-! ### LoadStore -/

theorem loadOp_kept {size dest f t w atc} (h : Kept q z s) : Kept q z (loadOp size dest f t w atc s).state := by
  unfold loadOp
  extract_lets +onlyGivenNames ea
  split
  · exact h
  · split
    · exact kept_of_eq ‹_› (sramRead_kept h)
    · exact modTile_kept (kept_of_eq ‹_› (sramRead_kept h))

theorem loadS_kept {size f t w atc} (h : Kept q z s) : Kept q z (loadS size f t w atc s).state := by
  unfold loadS
  exact loadOp_kept h

theorem loadV_kept {size t w atc} (h : Kept q z s) : Kept q z (loadV size t w atc s).state := by
  unfold loadV
  exact loadOp_kept h

theorem storeOp_kept {size f t w atc} (h : Kept q z s) : Kept q z (storeOp size f t w atc s).state := by
  unfold storeOp
  extract_lets +onlyGivenNames x ea
  split
  · exact h
  · split <;> exact kept_of_eq ‹_› (sramStore_kept h)

/-! ### RegWrite -/

theorem evtCfgWrite_kept {n} (h : Kept q z s) : Kept q z (evtCfgWrite n s) := by
  unfold evtCfgWrite
  exact kept_when (kept_update h) settleHeldLost_kept

theorem evtHeadWrite_kept {n} (h : Kept q z s) : Kept q z (evtHeadWrite n s) := by
  unfold evtHeadWrite
  exact kept_ite h (modHost_kept h)

theorem ctxCmd_kept {c op} (h : Kept q z s) : Kept q z (ctxCmd c op s) := by
  unfold ctxCmd
  split
  · exact resumeCtx_kept h
  · exact flushCtx_kept h
  · exact abortCtx_kept h
  · exact h

theorem unlessExec_kept {c f} (h : Kept q z s) : Kept q z (unlessExec c f s) := by
  unfold unlessExec
  exact kept_ite h (modCtx_kept h)

theorem whileDisabled_kept {c f} (h : Kept q z s) : Kept q z (whileDisabled c f s) := by
  unfold whileDisabled
  exact kept_ite (modCtx_kept h) h

theorem writeCtx_kept {c o n} (h : Kept q z s) : Kept q z (writeCtx c o n s) := by
  unfold writeCtx
  split
  · exact ctxCfgWrite_kept h
  · exact whileDisabled_kept h
  · exact whileDisabled_kept h
  · exact ctxCmd_kept h
  · exact h

theorem rstCmd_kept {n} (h : Kept q z s) : Kept q z (rstCmd n s) := by
  unfold rstCmd
  split
  · exact hostPartReset_kept h
  · exact hostCoxRestart_kept h
  · exact kept_ite (fullReset_kept h) h
  · exact h

theorem writeDevice_kept {o n} (h : Kept q z s) : Kept q z (writeDevice o n s) := by
  unfold writeDevice
  split
  · exact rstCmd_kept h
  · exact modRst_kept h
  · exact modRst_kept h
  · exact kept_ite (modRst_kept h) h
  · exact h

theorem writeEngine_kept {o n} (h : Kept q z s) : Kept q z (writeEngine o n s) := by
  unfold writeEngine
  split
  · exact writeCtx_kept h
  · split
    · exact unlessExec_kept h
    · split
      · exact unlessExec_kept h
      · split
        · exact unlessExec_kept h
        · split
          · exact berthCmd_kept h
          · exact kept_update h
          · exact kept_update h
          · exact h

theorem writePart_kept {p o n} (h : Kept q z s) : Kept q z (writePart p o n s) := by
  unfold writePart
  split
  · exact modPart_kept h
  · exact modPart_kept h
  · exact kept_ite (modPart_kept h) h
  · exact h

theorem writeUmpire_kept {o n} (h : Kept q z s) : Kept q z (writeUmpire o n s) := by
  unfold writeUmpire
  split
  · exact modUmp_kept h
  · exact modUmp_kept h
  · exact modUmp_kept h
  · exact modUmp_kept h
  · exact umpCmd_kept h
  · exact modUmp_kept h
  · exact modUmp_kept h
  · exact kept_ite (modUmp_kept h) h
  · exact h

theorem writePower_kept {o n} (h : Kept q z s) : Kept q z (writePower o n s) := by
  unfold writePower
  split
  · exact kept_ite (modPart_kept h) h
  · split
    · exact modPwr_kept h
    · exact modPwr_kept h
    · exact h

theorem writeMemory_kept {o n} (h : Kept q z s) : Kept q z (writeMemory o n s) := by
  unfold writeMemory
  split
  · exact unlessExec_kept h
  · split
    · exact frameCmd_kept h
    · exact bttWrite_kept h
    · exact h

theorem portCmd_kept {n op} (h : Kept q z s) : Kept q z (portCmd n op s) := by
  unfold portCmd
  split
  · exact portTrain_kept h
  · exact portDown_kept h
  · exact h

theorem writeFabric_kept {o n} (h : Kept q z s) : Kept q z (writeFabric o n s) := by
  unfold writeFabric
  split
  · exact kept_ite (portCmd_kept h) h
  · split
    · exact fabCfgWrite_kept h
    · exact modFab_kept h
    · exact easyallSend_kept h
    · exact h

theorem writeStroke_kept {o n} (h : Kept q z s) : Kept q z (writeStroke o n s) := by
  unfold writeStroke
  exact kept_ite (unlessExec_kept h) h

theorem writeBoot_kept {o n} (h : Kept q z s) : Kept q z (writeBoot o n s) := by
  unfold writeBoot
  split
  · split
    exact fwCmd_kept (kept_of_eq ‹_› (freeBelow_kept h))
  · exact h

theorem writeHost_kept {o n} (h : Kept q z s) : Kept q z (writeHost o n s) := by
  unfold writeHost
  split
  · exact modHost_kept h
  · exact evtCfgWrite_kept h
  · exact evtHeadWrite_kept h
  · exact h

theorem writeReg_kept {a n} (h : Kept q z s) : Kept q z (writeReg a n s) := by
  unfold writeReg
  extract_lets +onlyGivenNames o
  split
  · exact writeDevice_kept h
  · exact writeEngine_kept h
  · exact kept_ite (writePart_kept h) h
  · exact writeUmpire_kept h
  · exact writePower_kept h
  · exact writeMemory_kept h
  · exact writeFabric_kept h
  · exact writeStroke_kept h
  · exact writeBoot_kept h
  · exact writeHost_kept h
  · exact h

theorem writeBell_kept {a width n} (h : Kept q z s) : Kept q z (writeBell a width n s) := by
  unfold writeBell
  split
  · exact h
  · split
    · exact doorbell_kept h
    · exact doorbell_kept h
    · exact h

theorem hostRegWrite_kept {bar off width v} (h : Kept q z s) : Kept q z (hostRegWrite bar off width v s) := by
  unfold hostRegWrite
  split
  · exact h
  · split
    · exact modHost_kept h
    · split
      · exact kept_ite (writeReg_kept h) h
      · exact writeBell_kept h

/-! ### Scalar -/

theorem uOp_kept {f t w atc} (h : Kept q z s) : Kept q z (uOp f t w atc s).state := by
  unfold uOp
  exact regOp_kept h

/-! ### Every command -/

theorem exec_kept (c : Instr) (h : Kept q z s) : ∃ s', exec c s = .next s' ∧ Kept q z s' := by
  cases c with
  | add _ | sub _ | and _ | or _ | xor _ | sll _ | srl _ | sra _ | mul _ | mulh _ | mulhu _ | min _ | max _
  | minu _ | maxu _ => exact ⟨_, rfl, issue_kept h fun _ _ _ _ h => sOp_kept h⟩
  | clz _ | popc _ => exact ⟨_, rfl, issue_kept h fun _ _ _ _ h => uOp_kept h⟩
  | ceq _ | cne _ | clt _ | cltu _ | cge _ | cgeu _ => exact ⟨_, rfl, issue_kept h fun _ _ _ _ h => cmpOp_kept h⟩
  | flt _ | feq _ => exact ⟨_, rfl, issue_kept h fun _ _ _ _ h => fcmpOp_kept h⟩
  | pand _ | por _ | pxor _ | pandn _ => exact ⟨_, rfl, issue_kept h fun _ _ _ _ h => pOp_kept h⟩
  | addi _ | andi _ | ori _ | xori _ | shi _ => exact ⟨_, rfl, issue_kept h fun _ _ _ _ h => iOp_kept h⟩
  | lui _ | llo _ => exact ⟨_, rfl, issue_kept h fun _ _ _ _ h => ldOp_kept h⟩
  | lb _ | lbu _ | lh _ | lhu _ | lw _ => exact ⟨_, rfl, issue_kept h fun _ _ _ _ h => loadS_kept h⟩
  | vld8 _ | vld _ => exact ⟨_, rfl, issue_kept h fun _ _ _ _ h => loadV_kept h⟩
  | sb _ | sh _ | sw _ | vst8 _ | vst _ => exact ⟨_, rfl, issue_kept h fun _ _ _ _ h => storeOp_kept h⟩
  | br _ => exact ⟨_, rfl, issue_kept h fun _ _ _ _ h => bodyBr_kept h⟩
  | call _ => exact ⟨_, rfl, issue_kept h fun _ _ _ _ h => bodyCall_kept h⟩
  | jr _ => exact ⟨_, rfl, issue_kept h fun _ _ _ _ h => bodyJr_kept h⟩
  | loop _ => exact ⟨_, rfl, issue_kept h fun _ _ _ _ h => bodyLoop_kept h⟩
  | vadd _ | vsub _ | vmul _ => exact ⟨_, rfl, issue_kept h fun _ _ _ _ h => vBin_kept h⟩
  | vfma _ => exact ⟨_, rfl, issue_kept h fun _ _ _ _ h => vOp_kept h⟩
  | vmin _ | vmax _ => exact ⟨_, rfl, issue_kept h fun _ _ _ _ h => vBin_kept h⟩
  | vdiv _ => exact ⟨_, rfl, issue_kept h (fun _ _ _ _ h => divUnit_kept h (fun _ _ _ _ h => vOp_kept h))⟩
  | vsqrt _ => exact ⟨_, rfl, issue_kept h (fun _ _ _ _ h => divUnit_kept h (fun _ _ _ _ h => vUn_kept h))⟩
  | vexp2 _ | vlog2 _ => exact ⟨_, rfl, issue_kept h (fun _ _ _ _ h => expUnit_kept h (fun _ _ _ _ h => vUn_kept h))⟩
  | vabs _ | vneg _ => exact ⟨_, rfl, issue_kept h fun _ _ _ _ h => vUn_kept h⟩
  | vsum _ | vmaxh _ => exact ⟨_, rfl, issue_kept h fun _ _ _ _ h => vOp_kept h⟩
  | vsplat _ => exact ⟨_, rfl, issue_kept h fun _ _ _ _ h => vMove_kept h⟩
  | vget _ => exact ⟨_, rfl, issue_kept h fun _ _ _ _ h => regOp_kept h⟩
  | vset _ => exact ⟨_, rfl, issue_kept h fun _ _ _ _ h => vMove_kept h⟩
  | vcvtif _ | vcvtfi _ => exact ⟨_, rfl, issue_kept h fun _ _ _ _ h => vUn_kept h⟩
  | vpk8 _ | vunpk8 _ | vpkbf _ => exact ⟨_, rfl, issue_kept h fun _ _ _ _ h => vOp_kept h⟩
  | aget _ => exact ⟨_, rfl, issue_kept h fun _ _ _ _ h => bodyAget_kept h⟩
  | aput _ => exact ⟨_, rfl, issue_kept h fun _ _ _ _ h => bodyAput_kept h⟩
  | vmov _ => exact ⟨_, rfl, issue_kept h fun _ _ _ _ h => vMove_kept h⟩
  | vunpkbf _ => exact ⟨_, rfl, issue_kept h fun _ _ _ _ h => vOp_kept h⟩
  | mma _ | mmaz _ => exact ⟨_, rfl, issue_kept h fun _ _ _ _ h => bodyMma_kept h⟩
  | aclr _ => exact ⟨_, rfl, issue_kept h fun _ _ _ _ h => bodyAclr_kept h⟩
  | mmaComplete _ => exact ⟨_, rfl, resume_kept (mmaEnd_kept h)⟩
  | swalk _ => exact ⟨_, rfl, issue_kept h fun _ _ _ _ h => bodySwalk_kept h⟩
  | nzmap _ => exact ⟨_, rfl, issue_kept h fun _ _ _ _ h => bodyNzmap_kept h⟩
  | ecfg _ => exact ⟨_, rfl, issue_kept h fun _ _ _ _ h => bodyEcfg_kept h⟩
  | eadd _ => exact ⟨_, rfl, issue_kept h fun _ _ _ _ h => bodyEadd_kept h⟩
  | eaddv _ => exact ⟨_, rfl, issue_kept h fun _ _ _ _ h => bodyEaddv_kept h⟩
  | espill _ => exact ⟨_, rfl, issue_kept h fun _ _ _ _ h => bodyEspill_kept h⟩
  | emerge _ => exact ⟨_, rfl, issue_kept h fun _ _ _ _ h => bodyEmerge_kept h⟩
  | ecount _ => exact ⟨_, rfl, issue_kept h fun _ _ _ _ h => bodyEcount_kept h⟩
  | stream _ => exact ⟨_, rfl, issue_kept h fun _ _ _ _ h => bodyStream_kept h⟩
  | swaitt _ => exact ⟨_, rfl, issue_kept h fun _ _ _ _ h => bodySwaitt_kept h⟩
  | crRead _ => exact ⟨_, rfl, issue_kept h fun _ _ _ _ h => bodyCrRead_kept h⟩
  | crWrite _ => exact ⟨_, rfl, issue_kept h fun _ _ _ _ h => bodyCrWrite_kept h⟩
  | cbar _ => exact ⟨_, rfl, issue_kept h fun _ _ _ _ h => bodyCbar_kept h⟩
  | lbar _ => exact ⟨_, rfl, issue_kept h fun _ _ _ _ h => bodyLbar_kept h⟩
  | fence _ => exact ⟨_, rfl, issue_kept h fun _ _ _ _ h => bodyFence_kept h⟩
  | barrierComplete _ => exact ⟨_, rfl, barrierDone_kept h⟩
  | waits _ => exact ⟨_, rfl, issue_kept h fun _ _ _ _ h => bodyWaits_kept h⟩
  | nop _ => exact ⟨_, rfl, issue_kept h fun _ _ _ _ h => bodyNop_kept h⟩
  | halt _ => exact ⟨_, rfl, issue_kept h fun _ _ _ _ h => bodyHalt_kept h⟩
  | haltRetire _ => exact ⟨_, rfl, haltRetire_kept h⟩
  | sig _ => exact ⟨_, rfl, issue_kept h fun _ _ _ _ h => bodySig_kept h⟩
  | wake _ => exact ⟨_, rfl, issue_kept h fun _ _ _ _ h => bodyWake_kept h⟩
  | rbinit _ => exact ⟨_, rfl, issue_kept h fun _ _ _ _ h => bodyRbinit_kept h⟩
  | rbnext _ => exact ⟨_, rfl, resumeReplayers_kept (issue_kept h (fun _ _ _ _ h => bodyRbnext_kept h))⟩
  | trap _ => exact ⟨_, rfl, issue_kept h fun _ _ _ _ h => bodyTrap_kept h⟩
  | streamReply _ _ => exact ⟨_, rfl, resume_kept (serveReply_kept h)⟩
  | streamTimeout _ _ => exact ⟨_, rfl, streamTimeout_kept h⟩
  | syncTimeout _ => exact ⟨_, rfl, syncTimeout_kept h⟩
  | spillLineSend _ => exact ⟨_, rfl, spillSend_kept h⟩
  | spillLineWrite _ => exact ⟨_, rfl, spillWrite_kept h⟩
  | codeImageArrive _ => exact ⟨_, rfl, codeArrive_kept h⟩
  | tileExecBegin _ => exact ⟨_, rfl, execBegin_kept h⟩
  | sqTail _ _ _ | cqHead _ _ _ => exact ⟨_, rfl, doorbell_kept h⟩
  | descriptorFetch _ => exact ⟨_, rfl, fetchDesc_kept h⟩
  | hostDmaFault _ _ => exact ⟨_, rfl, fetchFails_kept h⟩
  | admissionCheck _ => exact ⟨_, rfl, thenPass_kept h fun _ h => admitOldest_kept h⟩
  | schedulerPass => exact ⟨_, rfl, thenPass_kept h fun _ h => schedulerPass_kept h⟩
  | weirCmd _ => exact ⟨_, rfl, cmdWeir_kept h⟩
  | waitw _ => exact ⟨_, rfl, cmdWaitw_kept h⟩
  | runCmd _ => exact ⟨_, rfl, cmdRun_kept h⟩
  | waitt _ => exact ⟨_, rfl, cmdWaitt_kept h⟩
  | writeCmd _ => exact ⟨_, rfl, cmdWrite_kept h⟩
  | stampCmd _ => exact ⟨_, rfl, cmdStamp_kept h⟩
  | endStream _ => exact ⟨_, rfl, thenPass_kept h fun _ h => cmdEnd_kept h⟩
  | timeLimit _ => exact ⟨_, rfl, thenPass_kept h fun _ h => timeLimit_kept h⟩
  | pinExpired _ => exact ⟨_, rfl, pinExpired_kept h⟩
  | completionRecordWrite _ => exact ⟨_, rfl, recordWrite_kept h⟩
  | ctxEnable _ _ | ctxDisable _ _ => exact ⟨_, rfl, kept_ite (ctxCfgWrite_kept h) h⟩
  | resumeCtx _ => exact ⟨_, rfl, resumeCtx_kept h⟩
  | flushCtx _ => exact ⟨_, rfl, thenPass_kept h fun _ h => flushCtx_kept h⟩
  | abortCmd _ => exact ⟨_, rfl, abortCtx_kept h⟩
  | quiesceCheck _ _ => exact ⟨_, rfl, thenPass_kept h fun _ h => quiesce_kept h⟩
  | ctxStopped _ => exact ⟨_, rfl, ctxStopped_kept h⟩
  | addCrews _ _ _ | removeCrews _ _ _ | clearBerth _ => exact ⟨_, rfl, berthCmd_kept h⟩
  | assignOwned _ _ | assignSystem _ | releaseFrame _ | queryFrame _ => exact ⟨_, rfl, frameCmd_kept h⟩
  | bttInval _ => exact ⟨_, rfl, bttWrite_kept h⟩
  | bttInvalDone => exact ⟨_, rfl, bttDone_kept h⟩
  | frameSweepDone _ => exact ⟨_, rfl, sweepDone_kept h⟩
  | scrubFrameDone _ => exact ⟨_, rfl, scrubDone_kept h⟩
  | weirGather _ | weirSegsum _ | weirAtomadd _ | weirFill _ => exact ⟨_, rfl, weirPerform_kept h⟩
  | weirDescComplete _ => exact ⟨_, rfl, weirComplete_kept h⟩
  | singleAtomadd _ => exact ⟨_, rfl, singleAtom_kept h⟩
  | memPresetChange _ => exact ⟨_, rfl, memPresetChange_kept h⟩
  | fabStart _ => exact ⟨_, rfl, bringFabric_kept h⟩
  | fabPlaced => exact ⟨_, rfl, fabPlaced_kept h⟩
  | detectSignal _ => exact ⟨_, rfl, detectSignal_kept h⟩
  | detectTimeout _ => exact ⟨_, rfl, detectTimeout_kept h⟩
  | rateExchange _ _ => exact ⟨_, rfl, rateExchange_kept h⟩
  | eqDone _ _ => exact ⟨_, rfl, eqDone_kept h⟩
  | lanesCheck _ _ => exact ⟨_, rfl, lanesCheck_kept h⟩
  | ident _ _ => exact ⟨_, rfl, identify_kept h⟩
  | linkRetrain _ _ => exact ⟨_, rfl, linkRetrain_kept h⟩
  | portTrain _ => exact ⟨_, rfl, portTrain_kept h⟩
  | portDown _ => exact ⟨_, rfl, portDown_kept h⟩
  | flitReceive _ _ _ _ _ _ => exact ⟨_, rfl, flitReceive_kept h⟩
  | nakReceive _ _ => exact ⟨_, rfl, nakReceive_kept h⟩
  | portReequalise _ => exact ⟨_, rfl, portReequalise_kept h⟩
  | portReeqDone _ => exact ⟨_, rfl, portReeqDone_kept h⟩
  | packetRead _ => exact ⟨_, rfl, packetRead_kept h⟩
  | packetWrite _ => exact ⟨_, rfl, packetWrite_kept h⟩
  | packetAtomadd _ => exact ⟨_, rfl, packetAtomadd_kept h⟩
  | replyData _ => exact ⟨_, rfl, replyData_kept h⟩
  | replyAck _ => exact ⟨_, rfl, replyAck_kept h⟩
  | replyFault _ => exact ⟨_, rfl, replyFault_kept h⟩
  | routePacket _ _ => exact ⟨_, rfl, routePacket_kept h⟩
  | unroutable _ => exact ⟨_, rfl, unroutable_kept h⟩
  | combinerHoldExpire _ => exact ⟨_, rfl, combExpire_kept h⟩
  | pendingSlotReply _ => exact ⟨_, rfl, slotReply_kept h⟩
  | pendingSlotTimeout _ => exact ⟨_, rfl, slotTimeout_kept h⟩
  | easyallSend _ => exact ⟨_, rfl, easyallSend_kept h⟩
  | easyAll _ => exact ⟨_, rfl, thenPass_kept h fun _ h => easyAllReceive_kept h⟩
  | easyallTripleExpire => exact ⟨_, rfl, tripleExpire_kept h⟩
  | strokeMarkerSend _ => exact ⟨_, rfl, markerSend_kept h⟩
  | strokeMarkerReceive _ _ => exact ⟨_, rfl, markerReceive_kept h⟩
  | strokeHoldover => exact ⟨_, rfl, holdover_kept h⟩
  | strokeMasterChange => exact ⟨_, rfl, chooseMaster_kept h⟩
  | pwrSample _ _ => exact ⟨_, rfl, pwrSample_kept h⟩
  | pwrPublish _ => exact ⟨_, rfl, pwrPublish_kept h⟩
  | governorPass _ _ => exact ⟨_, rfl, governorPass_kept h⟩
  | clockPointApply _ => exact ⟨_, rfl, clockPointApply_kept h⟩
  | thermSample _ _ => exact ⟨_, rfl, thermSample_kept h⟩
  | thermtrip _ => exact ⟨_, rfl, thermtrip_kept h⟩
  | sweepStart => exact ⟨_, rfl, sweepStart_kept h⟩
  | trialComplete _ _ => exact ⟨_, rfl, trialComplete_kept h⟩
  | pairCheckCompare _ => exact ⟨_, rfl, pairCompare_kept h⟩
  | triageVerdict _ => exact ⟨_, rfl, triageVerdict_kept h⟩
  | swap _ => exact ⟨_, rfl, swap_kept h⟩
  | retiredMapWrite _ => exact ⟨_, rfl, mapWrite_kept h⟩
  | umpSweep _ | umpQuarantine _ => exact ⟨_, rfl, kept_ite (umpCmd_kept h) h⟩
  | umpLogPop => exact ⟨_, rfl, kept_ite (modUmp_kept h) h⟩
  | faultPop _ => exact ⟨_, rfl, kept_ite (modPart_kept h) h⟩
  | resetLogPop => exact ⟨_, rfl, kept_ite (modRst_kept h) h⟩
  | clkLoss _ => exact ⟨_, rfl, clkLoss_kept h⟩
  | edgeProtocol _ => exact ⟨_, rfl, kept_ite (startReset_kept h) h⟩
  | partitionReset _ => exact ⟨_, rfl, hostPartReset_kept h⟩
  | partResetDone _ _ => exact ⟨_, rfl, thenPass_kept h fun _ h => partResetDone_kept h⟩
  | coxRestart => exact ⟨_, rfl, hostCoxRestart_kept h⟩
  | coxHeartbeat _ => exact ⟨_, rfl, heartbeat_kept h⟩
  | coxHang => exact ⟨_, rfl, coxHang_kept h⟩
  | coxRestarted _ _ => exact ⟨_, rfl, coxRestarted_kept h⟩
  | deviceReset _ => exact ⟨_, rfl, kept_ite (fullReset_kept h) h⟩
  | powerGood => exact ⟨_, rfl, powerGood_kept h⟩
  | mcodeBroadcast _ _ => exact ⟨_, rfl, mcodeBroadcast_kept h⟩
  | hbmTrainDone _ => exact ⟨_, rfl, hbmTrainDone_kept h⟩
  | bootReady => exact ⟨_, rfl, bootReady_kept h⟩
  | fwActivate _ | fwConfirm _ | abortDownload | fwBroadcast _ => exact ⟨_, rfl, fwCmd_kept h⟩
  | bootChunkSend => exact ⟨_, rfl, chunkSend_kept h⟩
  | bootPacket _ => exact ⟨_, rfl, bootPacket_kept h⟩
  | bootBcastIncomplete => exact ⟨_, rfl, bcastIncomplete_kept h⟩
  | trialMinute _ => exact ⟨_, rfl, trialMinute_kept h⟩
  | perst => exact ⟨_, rfl, kept_ite (fullReset_kept h) h⟩
  | hostDetach _ => exact ⟨_, rfl, thenPass_kept h fun _ h => hostDetach_kept h⟩
  | hostMemRead _ _ _ => exact ⟨_, rfl, hostRead_kept h⟩
  | hostMemWrite _ _ _ => exact ⟨_, rfl, hostWrite_kept h⟩
  | evtRingEnable _ => exact ⟨_, rfl, kept_ite (evtCfgWrite_kept h) h⟩
  | regWrite _ _ _ _ => exact ⟨_, rfl, hostRegWrite_kept h⟩
  | getShadow _ _ => exact ⟨_, rfl, getShadow_kept h⟩
  | setPowerLimit _ => exact ⟨_, rfl, powerCmd_kept h⟩
  | tileQuarantine _ _ => exact ⟨_, rfl, tileCmd_kept h fun _ _ h => umpTrigger_kept h⟩
  | tileSweep _ _ => exact ⟨_, rfl, tileCmd_kept h fun _ _ h => sweepNow_kept h⟩
  | shadowPublish _ => exact ⟨_, rfl, kept_ite h (kept_ite (publishWhole_kept h) (publishMap_kept h))⟩
  | reconcile => exact ⟨_, rfl, reconcile_kept h⟩
  | pldmSensorRead _ => exact ⟨_, rfl, sensorRead_kept h⟩
  | pldmEffecterSet _ _ => exact ⟨_, rfl, effecterSet_kept h⟩
  | requestUpdate _ => exact ⟨_, rfl, requestUpdate_kept h⟩
  | updateComponent _ => exact ⟨_, rfl, updateComponent_kept h⟩
  | firmwareData _ _ => exact ⟨_, rfl, firmwareData_kept h⟩
  | transferComplete => exact ⟨_, rfl, reportSealed_kept h⟩
  | verifyComplete => exact ⟨_, rfl, reportVerify_kept h⟩
  | applyComplete => exact ⟨_, rfl, reportSealed_kept h⟩
  | activateFirmware _ => exact ⟨_, rfl, activateFirmware_kept h⟩
  | cancelUpdate => exact ⟨_, rfl, cancelUpdate_kept h⟩
  | getVersion => exact ⟨_, rfl, spdmVersion_kept h⟩
  | getCapabilities => exact ⟨_, rfl, spdmCaps_kept h⟩
  | negotiateAlgorithms _ => exact ⟨_, rfl, spdmAlgs_kept h⟩
  | getDigests => exact ⟨_, rfl, spdmDigests_kept h⟩
  | getCertificate _ _ _ => exact ⟨_, rfl, spdmCert_kept h⟩
  | challenge _ _ => exact ⟨_, rfl, spdmChallenge_kept h⟩
  | getMeasurements _ _ => exact ⟨_, rfl, spdmMeas_kept h⟩
  | setEndpointId _ _ => exact ⟨_, rfl, setEid_kept h⟩
  | dynamicAddressAssign _ => exact ⟨_, rfl, assignAddr_kept h⟩
  | rstdaa => exact ⟨_, rfl, rstdaa_kept h⟩
  | inputUv _ _ | inputOv _ _ | overpower _ _ => exact ⟨_, rfl, kept_ite (removePower_kept h) h⟩
  | seqFail _ _ | aclkFail _ _ => exact ⟨_, rfl, removePower_kept h⟩
  | phaseOpen _ _ => exact ⟨_, rfl, cardPhaseOpen_kept h⟩
  | powerOn => exact ⟨_, rfl, powerOn_kept h⟩
  | locate _ | lampTest => exact ⟨_, rfl, lampCmd_kept h⟩
  | lampPoll => exact ⟨_, rfl, lampPoll_kept h⟩
  | lampMeasure _ _ _ => exact ⟨_, rfl, lampMeasure_kept h⟩
  | trayEnable _ _ => exact ⟨_, rfl, trayEnable_kept h⟩
  | trayOff => exact ⟨_, rfl, trayOff_kept h⟩
  | shelfLoss => exact ⟨_, rfl, shelfLoss_kept h⟩
  | coolantMonitor _ _ => exact ⟨_, rfl, coolantMonitor_kept h⟩
  | rcRead _ _ _ => exact ⟨_, rfl, regRead_kept h⟩
  | eddyDrainDone _ => exact ⟨_, rfl, resume_kept (drainDone_kept h)⟩
  | strokeTick => exact ⟨_, rfl, strokeTick_kept h⟩
  | hbmRefresh _ _ => exact ⟨_, rfl, hbmRefresh_kept h⟩
  | stackTemperatureReport _ _ => exact ⟨_, rfl, stackReport_kept h⟩
  | inputRestored _ => exact ⟨_, rfl, inputRestored_kept h⟩
  | pcieLinkUp _ _ _ _ => exact ⟨_, rfl, linkUp_kept h⟩
  | shelfRestored => exact ⟨_, rfl, shelfRestored_kept h⟩
  | duty _ _ => exact ⟨_, rfl, lampCmd_kept h⟩
  | setEventReceiver _ => exact ⟨_, rfl, setReceiver_kept h⟩
  | writeAck _ what =>
    cases what with
    | stream _ => exact ⟨_, rfl, resume_kept (ackStream_kept h)⟩
    | eddy => exact ⟨_, rfl, resume_kept (ackEddy_kept h)⟩

end Kept

/-- Settles O60: the command in front leaves the rest of the queue, the fuses and the canonical memories as
`exec_kept` says. -/
theorem stepKeepsInvariant : Obligations.StepKeepsInvariant := by
  unfold Obligations.StepKeepsInvariant
  intro s s' hwf hstep
  obtain ⟨hhbm, hflash, hhost⟩ := hwf
  cases hq : s.pending with
  | nil =>
    obtain rfl : s = s' := by simpa [step, hq] using hstep
    exact ⟨⟨hhbm, hflash, hhost⟩, hq, rfl⟩
  | cons c r =>
    obtain ⟨s₁, hexec, h⟩ := exec_kept c (s := { s with pending := r }) ⟨rfl, rfl, hhbm, hflash, hhost⟩
    obtain rfl : s₁ = s' := by simpa [step, hq, hexec] using hstep
    exact ⟨⟨h.hbm, h.flash, h.hostMem⟩, h.pending, h.fuses⟩

end Sys2Proof.Machine

/-!
O52. Host accesses to BAR0 registers, the link, and the host detach. Each kind of access has a lemma on `exec`; the
detach follows what `detachCtx` does to its own context (`HostDetached`) and that it leaves every other context and the
link as they were (`Beside`).
-/

namespace Sys2Proof.Machine

/-! ### Fields of a written value -/

theorem bits_toNat {w : Nat} (v : BitVec w) (lo n : Nat) : bits v.toNat lo n = (v.extractLsb' lo n).toNat :=
  (BitVec.extractLsb'_toNat lo n v).symm

theorem bit_toNat {w : Nat} (v : BitVec w) (i : Nat) : bit v.toNat i = v.getLsbD i := rfl

/-! ### Register writes -/

theorem exec_regWrite_bar0 {s : State} {a : Nat} {v : BitVec 64} (ha : s.alive = true) (hd : s.host.d3hot = false)
    (h8 : a % 8 = 0) : exec (.regWrite .bar0 a 8 v) s = .next (writeReg a v.toNat s) := by
  show Host.Outcome.next (hostRegWrite .bar0 a 8 v s) = _
  simp [hostRegWrite, ha, hd, h8]

theorem exec_regWrite_bar0_ignored {s : State} {a w : Nat} {v : BitVec 64} (hd : s.host.d3hot = false)
    (h : w ≠ 8 ∨ a % 8 ≠ 0) : exec (.regWrite .bar0 a w v) s = .next s := by
  show Host.Outcome.next (hostRegWrite .bar0 a w v s) = _
  have hn : ¬ (w = 8 ∧ a % 8 = 0) := by omega
  simp [hostRegWrite, hd, hn]

theorem exec_regWrite_of_dead {s : State} {b : Bar} {a w : Nat} {v : BitVec 64} (h : s.alive = false) :
    exec (.regWrite b a w v) s = .next s := by
  show Host.Outcome.next (hostRegWrite b a w v s) = _
  simp [hostRegWrite, h]

theorem writeReg_unassigned {a n : Nat} {s : State} (h : 0xB0000 ≤ a) : writeReg a n s = s := by
  obtain ⟨k, hk⟩ : ∃ k, a / 0x10000 = k + 11 := ⟨_, (Nat.sub_add_cancel (by omega)).symm⟩
  simp only [writeReg, hk]

theorem exec_regWrite_unassigned {s : State} {a : Nat} {v : BitVec 64} (ha : s.alive = true)
    (hd : s.host.d3hot = false) (h : 0xB0000 ≤ a) : exec (.regWrite .bar0 a 8 v) s = .next s := by
  by_cases h8 : a % 8 = 0
  · rw [exec_regWrite_bar0 ha hd h8, writeReg_unassigned h]
  · exact exec_regWrite_bar0_ignored hd (.inr h8)

/-- CTX_BTT of context c. -/
theorem writeReg_btt {c : Nat} (hc : c < 64) (n : Nat) (s : State) : writeReg (0x60800 + 8 * c) n s =
    unlessExec c (fun x => { x with bttRoot := bits n 14 25 * 2 ^ 14, bttEn := bit n 0 }) s := by
  have hq : (0x60800 + 8 * c) / 0x10000 = 6 := by omega
  have ho : (0x60800 + 8 * c) % 0x10000 = 0x800 + 8 * c := by omega
  have hi : 0x800 ≤ 0x800 + 8 * c ∧ 0x800 + 8 * c < 0xA00 := by omega
  have hk : (0x800 + 8 * c - 0x800) / 8 = c := by omega
  simp only [writeReg, hq, ho, writeMemory, if_pos hi, hk]

/-- FAULT_POP of partition p. -/
theorem writeReg_faultPop {p : Nat} (hp : p < 8) (n : Nat) (s : State) : writeReg (0x20028 + 0x1000 * p) n s =
    if bit n 0 then s.modPart p (fun x => { x with faults := x.faults.pop }) else s := by
  have hq : (0x20028 + 0x1000 * p) / 0x10000 = 2 := by omega
  have ho : (0x20028 + 0x1000 * p) % 0x10000 = 0x28 + 0x1000 * p := by omega
  have hi : 0x28 + 0x1000 * p < 0x8000 := by omega
  have hk : (0x28 + 0x1000 * p) / 0x1000 = p := by omega
  have hr : (0x28 + 0x1000 * p) % 0x1000 = 0x28 := by omega
  simp only [writeReg, hq, ho, if_pos hi, hk, hr, writePart]

section Write
variable {s : State} (v : BitVec 64) (ha : s.alive = true) (hd : s.host.d3hot = false)
include ha hd

theorem exec_regWrite_limits : ∃ s', exec (.regWrite .bar0 0x50000 8 v) s = .next s' ∧
    s'.pwr.limitW = clampNat 100 1050 (v.extractLsb' 0 11).toNat ∧
    s'.pwr.tTarget = clampNat 60 110 (v.extractLsb' 16 8).toNat ∧ s'.pwr.g = Nat.max 1 (v.extractLsb' 24 8).toNat ∧
    s' = { s with pwr := { s.pwr with limitW := s'.pwr.limitW, tTarget := s'.pwr.tTarget, g := s'.pwr.g } } := by
  refine ⟨_, exec_regWrite_bar0 ha hd (by decide), ?_⟩
  simp only [← bits_toNat]
  exact ⟨rfl, rfl, rfl, rfl⟩

theorem exec_regWrite_btt (c : CtxIx) : ∃ s', exec (.regWrite .bar0 (0x60800 + 8 * c.val) 8 v) s = .next s' ∧
    ((s.ctx c.val).exec ≠ none → s' = s) ∧
    ((s.ctx c.val).exec = none → s' = s.setCtx c.val { s.ctx c.val with
      bttRoot := (v.extractLsb' 14 25).toNat * 16384, bttEn := v.getLsbD 0 }) := by
  refine ⟨_, exec_regWrite_bar0 ha hd (by omega), ?_⟩
  rw [writeReg_btt c.isLt, bits_toNat, bit_toNat, unlessExec]
  constructor
  · intro h
    rw [if_pos (Option.isSome_iff_ne_none.mpr h)]
  · intro h
    simp [h]

theorem exec_regWrite_escalation : exec (.regWrite .bar0 0x218 8 v) s = .next { s with rst := { s.rst with
    escCount := clampNat 2 16 (v.extractLsb' 0 5).toNat
    escWindow := clampNat 60 3600 (v.extractLsb' 16 12).toNat } } := by
  rw [exec_regWrite_bar0 ha hd (by decide), ← bits_toNat, ← bits_toNat]
  rfl

theorem exec_regWrite_umpTimes : exec (.regWrite .bar0 0x40008 8 v) s = .next { s with ump := { s.ump with
    trialS := clampNat 10 3600 (v.extractLsb' 0 16).toNat, marginS := clampNat 60 65535 (v.extractLsb' 16 16).toNat
    suspectS := clampNat 1 300 (v.extractLsb' 32 16).toNat } } := by
  rw [exec_regWrite_bar0 ha hd (by decide), ← bits_toNat, ← bits_toNat, ← bits_toNat]
  rfl

theorem exec_regWrite_evtCfg : exec (.regWrite .bar0 0xA0010 8 v) s = exec (.evtRingEnable v) s := by
  rw [exec_regWrite_bar0 ha hd (by decide)]
  show _ = Host.Outcome.next (if s.alive then evtCfgWrite v.toNat s else s)
  rw [if_pos ha]
  rfl

theorem exec_regWrite_easyAll :
    exec (.regWrite .bar0 0x70018 8 v) s = exec (.easyallSend (v.extractLsb' 0 32)) s := by
  rw [exec_regWrite_bar0 ha hd (by decide)]
  have e : BitVec.ofNat 32 v.toNat = v.extractLsb' 0 32 := by
    apply BitVec.eq_of_toNat_eq
    simp
  show Host.Outcome.next (easyallSend (BitVec.ofNat 32 v.toNat) s) = _
  rw [e]
  rfl

theorem exec_regWrite_umpLogPop (hv : v.getLsbD 0 = true) :
    exec (.regWrite .bar0 0x40208 8 v) s = exec .umpLogPop s := by
  rw [exec_regWrite_bar0 ha hd (by decide)]
  show Host.Outcome.next (if bit v.toNat 0 then _ else s) = .next (if s.alive then _ else s)
  rw [bit_toNat, if_pos hv, if_pos ha]

theorem exec_regWrite_resetLogPop (hv : v.getLsbD 0 = true) :
    exec (.regWrite .bar0 0x230 8 v) s = exec .resetLogPop s := by
  rw [exec_regWrite_bar0 ha hd (by decide)]
  show Host.Outcome.next (if bit v.toNat 0 then _ else s) = .next (if s.alive then _ else s)
  rw [bit_toNat, if_pos hv, if_pos ha]

theorem exec_regWrite_faultPop (hv : v.getLsbD 0 = true) (p : PartIx) :
    exec (.regWrite .bar0 (0x20028 + 0x1000 * p.val) 8 v) s = exec (.faultPop p) s := by
  rw [exec_regWrite_bar0 ha hd (by omega), writeReg_faultPop p.isLt]
  show _ = Host.Outcome.next (if s.alive then _ else s)
  rw [bit_toNat, if_pos hv, if_pos ha]

end Write

/-! ### Register reads -/

/-- What a host read that is answered brings back. -/
def readData (s : State) (bar : Bar) (off width : Nat) : HostData where
  data := (List.range width).map fun i => barByte s bar (off + i)
  poisoned := false
  unsupported := false

theorem exec_rcRead {s : State} {bar : Bar} {off width : Nat} (ha : s.alive = true) (hd : s.host.d3hot = false) :
    exec (.rcRead bar off width) s = .next
      { (if bar = .bar0 ∧ width = 8 ∧ off % 8 = 0 then clearReg off s else s) with
        hostData := some (readData s bar off width) } := by
  show Host.Outcome.next (regRead bar off width s) = _
  simp [regRead, ha, hd, readData]

/-- A read that is not a full one of BAR0 clears nothing. -/
theorem exec_rcRead_partial {s : State} {bar : Bar} {off width : Nat} (ha : s.alive = true) (hd : s.host.d3hot = false)
    (h : bar = .bar4 ∨ width ≠ 8 ∨ off % 8 ≠ 0) :
    exec (.rcRead bar off width) s = .next { s with hostData := some (readData s bar off width) } := by
  have hn : ¬ (bar = .bar0 ∧ width = 8 ∧ off % 8 = 0) := by
    rintro ⟨rfl, hw, ho⟩
    simp_all
  rw [exec_rcRead ha hd, if_neg hn]

/-- What clearing a counter leaves unchanged. -/
structure ClearKeeps (s s' : State) : Prop where
  hbm : s'.hbm = s.hbm
  flash : s'.flash = s.flash
  tiles : s'.tiles = s.tiles
  frames : s'.frames = s.frames
  fuses : s'.fuses = s.fuses

theorem clearReg_keeps (a : Nat) (s : State) : ClearKeeps s (clearReg a s) := by
  unfold clearReg
  extract_lets o
  clear_value o
  repeat' split
  all_goals exact ⟨rfl, rfl, rfl, rfl, rfl⟩

theorem exec_rcRead_keeps (s : State) (bar : Bar) (off width : Nat) (ha : s.alive = true) (hd : s.host.d3hot = false) :
    ∃ s', exec (.rcRead bar off width) s = .next s' ∧ s'.hostData = some (readData s bar off width) ∧
      s'.hbm = s.hbm ∧ s'.flash = s.flash ∧ s'.tiles = s.tiles ∧ s'.frames = s.frames ∧ s'.fuses = s.fuses := by
  refine ⟨_, exec_rcRead ha hd, rfl, ?_⟩
  by_cases hc : bar = .bar0 ∧ width = 8 ∧ off % 8 = 0
  · obtain ⟨hhbm, hflash, htiles, hframes, hfuses⟩ := clearReg_keeps off s
    simp only [if_pos hc]
    exact ⟨hhbm, hflash, htiles, hframes, hfuses⟩
  · simp only [if_neg hc, and_self]

/-! ### CNT_ADMITTED -/

/-- The bytes of a number, by position. -/
theorem leBytes_eq_map (n v : Nat) : leBytes n v = (List.range n).map fun i => BitVec.ofNat 8 (v / 2 ^ (8 * i)) := by
  induction n generalizing v with
  | zero => rfl
  | succ n ih =>
    rw [leBytes, ih, List.range_succ_eq_map, List.map_cons, List.map_map]
    congr 1
    · simp
    · refine List.map_congr_left fun i _ => ?_
      have e : 2 ^ (8 * (i + 1)) = 256 * 2 ^ (8 * i) := by rw [Nat.mul_succ, Nat.pow_add, Nat.mul_comm]
      rw [Function.comp, e, Nat.div_div_eq_div_mul]

theorem readReg_cntAdmitted {s : State} (h : s.cntAdmitted < 2 ^ 48) : readReg s 0x10038 = s.cntAdmitted := by
  have e : readReg s 0x10038 = fld 0 48 s.cntAdmitted := rfl
  rw [e, fld, Nat.pow_zero, Nat.mul_one]
  exact Nat.min_eq_left (Nat.le_pred_of_lt h)

theorem barByte_cntAdmitted {s : State} (h : s.cntAdmitted < 2 ^ 48) {i : Nat} (hi : i < 8) :
    barByte s .bar0 (0x10038 + i) = BitVec.ofNat 8 (s.cntAdmitted / 2 ^ (8 * i)) := by
  have hq : (0x10038 + i) / 8 * 8 = 0x10038 := by omega
  have hr : (0x10038 + i) % 8 = i := by omega
  simp only [barByte, hq, hr, readReg_cntAdmitted h]

theorem readData_cntAdmitted {s : State} (h : s.cntAdmitted < 2 ^ 48) {n : Nat} (hn : n ≤ 8) :
    readData s .bar0 0x10038 n = { data := leBytes n s.cntAdmitted, poisoned := false, unsupported := false } := by
  rw [readData, leBytes_eq_map]
  congr 1
  apply List.map_congr_left
  intro i hi
  exact barByte_cntAdmitted h (by have := List.mem_range.mp hi; omega)

theorem exec_rcRead_cntAdmitted (s : State) (ha : s.alive = true) (hd : s.host.d3hot = false)
    (h : s.cntAdmitted < 2 ^ 48) :
    exec (.rcRead .bar0 0x10038 8) s = .next { s with
      cntAdmitted := 0
      hostData := some { data := leBytes 8 s.cntAdmitted, poisoned := false, unsupported := false } } ∧
    exec (.rcRead .bar0 0x10038 4) s = .next { s with
      hostData := some { data := leBytes 4 s.cntAdmitted, poisoned := false, unsupported := false } } := by
  constructor
  · rw [exec_rcRead ha hd, if_pos (by decide), readData_cntAdmitted h (by decide)]
    rfl
  · rw [exec_rcRead_partial ha hd (.inr (.inl (by decide))), readData_cntAdmitted h (by decide)]

/-! ### Event ring enable -/

theorem exec_evtRingEnable {s : State} {v : BitVec 64} (ha : s.alive = true) :
    exec (.evtRingEnable v) s = .next (evtCfgWrite v.toNat s) := by
  show Host.Outcome.next (if s.alive then evtCfgWrite v.toNat s else s) = _
  rw [if_pos ha]

theorem settleHeldLost_of_zero {s : State} (h : s.host.heldLost = 0) : settleHeldLost s = s := by
  simp [settleHeldLost, h]

/-- The host interface after a write of EVT_CFG, while no held event has been lost. -/
def evtCfg (v : BitVec 64) (h : HostIf) : HostIf :=
  let h1 := if h.evtEn then h else
    { h with evtSize := Nat.min 8 (v.extractLsb' 0 4).toNat, evtBase := (v.extractLsb' 12 52).toNat * 4096 }
  let h2 := { h1 with evtEn := v.getLsbD 4, evtIrq := v.getLsbD 5 }
  if v.getLsbD 4 && !h.evtEn then { h2 with evtTail := 0, evtHead := 0, evtPhase := true } else h2

theorem evtCfg_heldLost (v : BitVec 64) (h : HostIf) : (evtCfg v h).heldLost = h.heldLost := by
  simp only [evtCfg]
  cases h.evtEn <;> cases v.getLsbD 4 <;> rfl

theorem exec_evtRingEnable_of_noneLost {s : State} (v : BitVec 64) (ha : s.alive = true) (hl : s.host.heldLost = 0) :
    exec (.evtRingEnable v) s = .next { s with host := evtCfg v s.host } := by
  have hs : settleHeldLost { s with host := evtCfg v s.host } = { s with host := evtCfg v s.host } :=
    settleHeldLost_of_zero ((evtCfg_heldLost v s.host).trans hl)
  have e : evtCfgWrite v.toNat s = if { s with host := evtCfg v s.host }.coxRuns
      then settleHeldLost { s with host := evtCfg v s.host } else { s with host := evtCfg v s.host } := by
    simp only [evtCfgWrite, evtCfg, bits_toNat, bit_toNat]
  rw [exec_evtRingEnable ha, e, hs, ite_self]

theorem evtCfg_begins {v : BitVec 64} {h : HostIf} (he : h.evtEn = false) (hv : v.getLsbD 4 = true) :
    evtCfg v h = { h with
      evtSize := Nat.min 8 (v.extractLsb' 0 4).toNat, evtBase := (v.extractLsb' 12 52).toNat * 4096
      evtEn := true, evtIrq := v.getLsbD 5, evtTail := 0, evtHead := 0, evtPhase := true } := by
  simp only [evtCfg, he, hv]
  rfl

theorem evtCfg_off {v : BitVec 64} {h : HostIf} (he : h.evtEn = false) (hv : v.getLsbD 4 = false) :
    evtCfg v h = { h with
      evtSize := Nat.min 8 (v.extractLsb' 0 4).toNat, evtBase := (v.extractLsb' 12 52).toNat * 4096
      evtIrq := v.getLsbD 5 } := by
  cases h
  subst he
  simp only [evtCfg, hv]
  rfl

theorem evtCfg_enabled {v : BitVec 64} {h : HostIf} (he : h.evtEn = true) :
    evtCfg v h = { h with evtEn := v.getLsbD 4, evtIrq := v.getLsbD 5 } := by
  simp only [evtCfg, he, Bool.not_true, Bool.and_false]
  rfl

/-! ### The link, as events leave it -/

/-- What the host interface shows of the link, with the event ring's enable: no event changes it. -/
structure LinkView where
  speed : Nat
  width : Nat
  flit : Bool
  cxl : CxlMode
  degraded : Bool
  attached : Bool
  evtEn : Bool

def State.linkView (s : State) : LinkView where
  speed := s.host.speed
  width := s.host.width
  flit := s.host.flit
  cxl := s.host.cxl
  degraded := s.host.degraded
  attached := s.host.attached
  evtEn := s.host.evtEn

theorem evtRingWrite_linkView (e : Event) (s : State) : (evtRingWrite e s).linkView = s.linkView := by
  simp only [evtRingWrite]
  split
  · rfl
  · split <;> rfl

theorem pldmEvent_linkView (e : Event) (s : State) : (pldmEvent e s).linkView = s.linkView := by
  simp only [pldmEvent]
  split <;> rfl

theorem flashEvent_linkView (e : Event) (s : State) : (flashEvent e s).linkView = s.linkView := by
  simp only [flashEvent]
  split <;> rfl

@[simp] theorem raise_linkView (c u d : Nat) (s : State) : (raise c u d s).linkView = s.linkView := by
  simp only [raise]
  split
  · rw [deliver, flashEvent_linkView, pldmEvent_linkView, evtRingWrite_linkView]
  · split <;> rfl

/-! ### The link comes up -/

theorem linkOption_iff {speed width : Nat} {flit : Bool} : linkOption speed width flit = true ↔
    1 ≤ speed ∧ speed ≤ 6 ∧ width ∈ [1, 2, 4, 8, 16] ∧ (flit = true ↔ speed = 6) := by
  have hf : (flit == decide (speed = speed64)) = true ↔ (flit = true ↔ speed = 6) := by
    rw [beq_iff_eq, Bool.eq_iff_iff, decide_eq_true_eq]
    rfl
  rw [linkOption, Bool.and_eq_true, Bool.and_eq_true, Bool.and_eq_true, hf, decide_eq_true_eq, decide_eq_true_eq,
    List.contains_iff_mem, Nat.one_le_iff_ne_zero, and_assoc, and_assoc]
  rfl

theorem cxlAt_of_narrow {speed width : Nat} {m : CxlMode} (hw : ¬ (width = 16 ∨ width = 8)) :
    cxlAt speed width m = .none := if_pos (not_or.mp hw)

theorem cxlAt_of_wide {speed width : Nat} {m : CxlMode} (hw : width = 16 ∨ width = 8) : cxlAt speed width m =
    if m = .cxl31 ∧ speed = 6 then .cxl31 else if m = .cxl20 ∧ speed = 5 then .cxl20 else .none := by
  have hn : ¬ (width ≠ 16 ∧ width ≠ 8) := fun h => not_or.mpr h hw
  cases m with
  | none => simp [cxlAt, hn]
  | cxl20 | cxl31 =>
    simp only [cxlAt, if_neg hn, reduceCtorEq, false_and, true_and, if_false]
    rfl

theorem cxlAt_eq_cxl31 {speed width : Nat} {m : CxlMode} :
    cxlAt speed width m = .cxl31 ↔ m = .cxl31 ∧ speed = 6 ∧ (width = 16 ∨ width = 8) := by
  by_cases hw : width = 16 ∨ width = 8
  · rw [cxlAt_of_wide hw]
    split
    · simp_all
    · split <;> simp_all
  · simp [cxlAt_of_narrow hw, hw]

theorem cxlAt_eq_cxl20 {speed width : Nat} {m : CxlMode} :
    cxlAt speed width m = .cxl20 ↔ m = .cxl20 ∧ speed = 5 ∧ (width = 16 ∨ width = 8) := by
  by_cases hw : width = 16 ∨ width = 8
  · rw [cxlAt_of_wide hw]
    split
    · simp_all
    · split <;> simp_all
  · simp [cxlAt_of_narrow hw, hw]

section Link
variable {s : State} {speed width : Nat} {flit : Bool} (m : CxlMode)

theorem linkUp_of_refused (h : ¬ linkOption speed width flit = true) : linkUp speed width flit m s = s := by
  simp [linkUp, h]

theorem linkUp_linkView (hs : s.up = true) (h : linkOption speed width flit = true) :
    (linkUp speed width flit m s).linkView = { speed := speed, width := width, flit := flit
                                               cxl := cxlAt speed width m
                                               degraded := decide (speed < speed16) || decide (width < 8)
                                               attached := true, evtEn := s.host.evtEn } := by
  simp only [linkUp, hs, h]
  split
  · contradiction
  · split
    · exact raise_linkView _ _ _ _
    · rfl

theorem linkUp_pclk (hs : s.up = true) (h : linkOption speed width flit = true) :
    (linkUp speed width flit m s).rst.pclk = true := by
  simp only [linkUp, hs, h]
  split
  · contradiction
  · split
    · rw [raise_rst]
      rfl
    · rfl

theorem exec_pcieLinkUp_settles (hs : s.up = true) (h1 : 1 ≤ speed) (h6 : speed ≤ 6) (hw : width ∈ [1, 2, 4, 8, 16])
    (hf : flit = true ↔ speed = 6) :
    ∃ s', exec (.pcieLinkUp speed width flit m) s = .next s' ∧ s'.host.speed = speed ∧ s'.host.width = width ∧
      s'.host.flit = flit ∧ s'.host.attached = true ∧ s'.rst.pclk = true ∧
      (s'.host.degraded = true ↔ speed < 4 ∨ width < 8) ∧
      (s'.host.cxl = .cxl31 ↔ m = .cxl31 ∧ speed = 6 ∧ (width = 16 ∨ width = 8)) ∧
      (s'.host.cxl = .cxl20 ↔ m = .cxl20 ∧ speed = 5 ∧ (width = 16 ∨ width = 8)) := by
  have ho : linkOption speed width flit = true := linkOption_iff.mpr ⟨h1, h6, hw, hf⟩
  obtain ⟨espeed, ewidth, eflit, ecxl, edeg, eatt, -⟩ := LinkView.mk.inj (linkUp_linkView m hs ho)
  refine ⟨_, rfl, espeed, ewidth, eflit, eatt, linkUp_pclk m hs ho, ?_, ?_, ?_⟩
  · rw [edeg, Bool.or_eq_true, decide_eq_true_eq, decide_eq_true_eq]
    rfl
  · rw [ecxl]
    exact cxlAt_eq_cxl31
  · rw [ecxl]
    exact cxlAt_eq_cxl20

theorem exec_pcieLinkUp_refused
    (h : speed = 0 ∨ 6 < speed ∨ width ∉ [1, 2, 4, 8, 16] ∨ ¬ (flit = true ↔ speed = 6)) :
    exec (.pcieLinkUp speed width flit m) s = .next s := by
  have hn : ¬ linkOption speed width flit = true := by
    rw [linkOption_iff]
    rintro ⟨h1, h6, hw, hf⟩
    obtain h | h | h | h := h
    · omega
    · omega
    · exact h hw
    · exact h hf
  show Host.Outcome.next (linkUp speed width flit m s) = _
  rw [linkUp_of_refused m hn]

end Link

/-! ### Operations that touch no context -/

/-- From r to s no context changes, and nothing that the link shows. -/
structure Quiet (r s : State) : Prop where
  ctxs : s.ctxs = r.ctxs
  link : s.linkView = r.linkView

theorem Quiet.refl (s : State) : Quiet s s := ⟨rfl, rfl⟩

theorem Quiet.trans {r s t : State} (h : Quiet r s) (h' : Quiet s t) : Quiet r t :=
  ⟨h'.ctxs.trans h.ctxs, h'.link.trans h.link⟩

theorem Quiet.ctx {r s : State} (h : Quiet r s) (c : Nat) : s.ctx c = r.ctx c := by
  rw [State.ctx, State.ctx, h.ctxs]

theorem forUp_quiet {f : Nat → State → State} (hf : ∀ i s, Quiet s (f i s)) (k n : Nat) (s : State) :
    Quiet s (forUp f k n s) := by
  induction n generalizing k s with
  | zero => exact .refl s
  | succ n ih => exact (hf k s).trans (ih (k + 1) (f k s))

theorem forList_quiet {α : Type} {f : α → State → State} (hf : ∀ a s, Quiet s (f a s)) (l : List α) (s : State) :
    Quiet s (forList f l s) := by
  induction l generalizing s with
  | nil => exact .refl s
  | cons a l ih => exact (hf a s).trans (ih (f a s))

theorem raise_quiet (c u d : Nat) (s : State) : Quiet s (raise c u d s) := ⟨raise_ctxs c u d s, raise_linkView c u d s⟩

theorem sendFlit_quiet (n : Nat) (pkt : Packet) (s : State) : Quiet s (sendFlit n pkt s) := by
  simp only [sendFlit]
  split <;> exact ⟨rfl, rfl⟩

theorem flood_quiet (ok : Nat → Bool) (pkt : Packet) (s : State) : Quiet s (flood ok pkt s) := by
  refine forUp_quiet (fun n s => ?_) 0 12 s
  split
  · exact sendFlit_quiet n pkt s
  · exact .refl s

theorem easyAllOriginate_quiet (job : BitVec 32) (cause : Nat) (origin : BitVec 64) (s : State) :
    Quiet s (easyAllOriginate job cause origin s) := by
  unfold easyAllOriginate
  refine Quiet.trans ?_ (raise_quiet _ _ _ _)
  refine Quiet.trans ?_ (flood_quiet _ _ _)
  exact ⟨rfl, rfl⟩

theorem gateCrew_quiet (g : Nat) (s : State) : Quiet s (gateCrew g s) := by
  unfold gateCrew
  refine forList_quiet (fun t s => ?_) _ s
  exact ⟨rfl, rfl⟩

/-! ### Operations of one context -/

/-- From r to s no context but c changes, and nothing that the link shows. -/
structure Beside (c : Nat) (r s : State) : Prop where
  ctx : ∀ j, j ≠ c → s.ctx j = r.ctx j
  link : s.linkView = r.linkView

section Beside
variable {c : Nat} {r s t : State}

theorem Beside.refl (c : Nat) (s : State) : Beside c s s := ⟨fun _ _ => rfl, rfl⟩

theorem Beside.trans (h : Beside c r s) (h' : Beside c s t) : Beside c r t :=
  ⟨fun j hj => (h'.ctx j hj).trans (h.ctx j hj), h'.link.trans h.link⟩

theorem Quiet.beside (h : Quiet r s) : Beside c r s := ⟨fun j _ => h.ctx j, h.link⟩

theorem setCtx_beside (x : Ctx) (s : State) : Beside c s (s.setCtx c x) := ⟨State.setCtx_ctx_other s c x, rfl⟩

end Beside

/-- A launch without its pair check. -/
def Exec.unpaired (x : Exec) : Exec := { x with pair := none }

theorem Exec.unpaired_of_none {x : Exec} (h : x.pair = none) : x.unpaired = x := by
  cases x
  subst h
  rfl

theorem endPair_eq (c : Nat) (p : Pair) (s : State) : ∃ s₁, Quiet s s₁ ∧ endPair c p s = s₁.modExec c Exec.unpaired := by
  unfold endPair
  refine ⟨_, forList_quiet (fun g s => ?_) _ s, rfl⟩
  exact (gateCrew_quiet g s).trans ⟨rfl, rfl⟩

theorem voidPair_beside (c : Nat) (s : State) : Beside c s (voidPair c s) := by
  unfold voidPair
  split
  · exact .refl c s
  · split
    · exact .refl c s
    · rename_i p _
      obtain ⟨s₁, hq, e⟩ := endPair_eq c p s
      rw [e]
      exact (hq.beside.trans (setCtx_beside _ s₁)).trans ⟨fun _ _ => rfl, rfl⟩

theorem modExec_en (c : Nat) (f : Exec → Exec) (s : State) : ((s.modExec c f).ctx c).en = (s.ctx c).en := by
  rw [State.modExec, State.modCtx_eq, State.setCtx_ctx_same]

theorem modExec_exec (c : Nat) (f : Exec → Exec) (s : State) :
    ((s.modExec c f).ctx c).exec = (s.ctx c).exec.map f := by
  rw [State.modExec, State.modCtx_eq, State.setCtx_ctx_same]

theorem voidPair_ctx {c : Nat} {s : State} {x : Exec} (hx : (s.ctx c).exec = some x) :
    ((voidPair c s).ctx c).en = (s.ctx c).en ∧ ((voidPair c s).ctx c).exec = some x.unpaired := by
  unfold voidPair
  rw [hx]
  dsimp only
  split
  · rename_i hp
    rw [Exec.unpaired_of_none hp]
    exact ⟨rfl, hx⟩
  · rename_i p _
    obtain ⟨s₁, hq, e⟩ := endPair_eq c p s
    rw [e]
    constructor
    · exact (modExec_en c _ s₁).trans (congrArg Ctx.en (hq.ctx c))
    · exact (modExec_exec c _ s₁).trans (by rw [hq.ctx c, hx]; rfl)

theorem contextAbort_beside (c : Nat) (s : State) : Beside c s (contextAbort c s) := by
  simp only [contextAbort]
  split
  · exact .refl c s
  · exact setCtx_beside _ s

theorem contextAbort_en (c : Nat) (s : State) : ((contextAbort c s).ctx c).en = (s.ctx c).en := by
  simp only [contextAbort]
  split
  · rfl
  · rw [State.setCtx_ctx_same]

theorem contextAbort_exec (c : Nat) (s : State) : ((contextAbort c s).ctx c).exec = (s.ctx c).exec := by
  simp only [contextAbort]
  split
  · rfl
  · rw [State.setCtx_ctx_same]

/-! ### A launch that the host aborts -/

section Abort
variable {c d : Nat} {o : BitVec 64} {s : State}

theorem decideEnd_idle (hx : (s.ctx c).exec = none) : decideEnd c stHostAbort d o s = s := by
  simp only [decideEnd, hx]

/-- The launch without its pair check, ending as a HOST_ABORT. -/
def Exec.aborted (x : Exec) (d : Nat) (now : BitVec 64) : Exec :=
  { x with pair := none, ending := some { status := stHostAbort, csDetail := BitVec.ofNat 32 d, at_ := now } }

/-- The executing launch x has no ending yet: it is unpaired, its ending is set, and the context's abort begins. -/
theorem decideEnd_begins {x : Exec} (hx : (s.ctx c).exec = some x) (he : x.ending = none) : ∃ s₁, Beside c s s₁ ∧
    (s₁.ctx c).en = (s.ctx c).en ∧ (s₁.ctx c).exec = some (x.aborted d s.now) ∧
    decideEnd c stHostAbort d o s = contextAbort c s₁ := by
  have hy : ¬ evictYields s x stHostAbort = true := by rw [evictYields, he]; exact Bool.false_ne_true
  have hn : ¬ x.ending.isSome = true := by rw [he]; exact Bool.false_ne_true
  have hc : classX stHostAbort = true := by decide
  unfold decideEnd
  split
  · rename_i hx'
    rw [hx] at hx'
    contradiction
  rename_i x' hx'
  obtain rfl : x = x' := Option.some.inj (hx.symm.trans hx')
  extract_lets e k s2 s3 stops s4 s5
  rw [if_neg hy, if_neg hn]
  obtain ⟨en2, ex2⟩ : (s2.ctx c).en = (s.ctx c).en ∧ (s2.ctx c).exec = some x.unpaired := voidPair_ctx hx
  have en3 : (s3.ctx c).en = (s.ctx c).en := (modExec_en c _ s2).trans en2
  have ex3 : (s3.ctx c).exec = some (x.aborted d s.now) := (modExec_exec c _ s2).trans (by rw [ex2]; rfl)
  have e4 : s4 = s3.setCtx c { s3.ctx c with st := .aborting } := if_pos (by simp [stops, hc])
  have h5 : Quiet s4 s5 := by
    unfold s5
    split
    · exact easyAllOriginate_quiet _ _ _ s4
    · exact .refl s4
  have b3 : Beside c s s3 := (voidPair_beside c s).trans (setCtx_beside _ s2)
  have b4 : Beside c s s4 := e4 ▸ b3.trans (setCtx_beside _ s3)
  refine ⟨s5, b4.trans h5.beside, ?_, ?_, if_pos (by rw [hc]; rfl)⟩
  · rw [h5.ctx c, e4, State.setCtx_ctx_same, en3]
  · rw [h5.ctx c, e4, State.setCtx_ctx_same, ex3]

theorem decideEnd_abort_exec {x : Exec} (hx : (s.ctx c).exec = some x) (he : x.ending = none) :
    ((decideEnd c stHostAbort d o s).ctx c).exec = some (x.aborted d s.now) := by
  obtain ⟨s₁, -, -, ex, e⟩ := decideEnd_begins (d := d) (o := o) hx he
  rw [e, contextAbort_exec, ex]

/-- What an abort leaves of its context, whatever the launch is doing. -/
theorem decideEnd_abort (c d : Nat) (o : BitVec 64) (s : State) : Beside c s (decideEnd c stHostAbort d o s) ∧
    ((decideEnd c stHostAbort d o s).ctx c).en = (s.ctx c).en := by
  cases hx : (s.ctx c).exec with
  | none =>
    rw [decideEnd_idle hx]
    exact ⟨.refl c s, rfl⟩
  | some x =>
    cases he : x.ending with
    | none =>
      obtain ⟨s₁, b, en, -, e⟩ := decideEnd_begins (d := d) (o := o) hx he
      rw [e, contextAbort_en, en]
      exact ⟨b.trans (contextAbort_beside c s₁), rfl⟩
    | some f =>
      have hn : x.ending.isSome = true := by rw [he]; rfl
      unfold decideEnd
      rw [hx]
      dsimp only
      rw [if_pos hn]
      split
      · exact ⟨setCtx_beside _ s, modExec_en c _ s⟩
      · exact ⟨.refl c s, rfl⟩

end Abort

/-! ### A disabled context's fetched launches -/

section Refuse
variable {c : Nat} {s : State}

theorem pushDone_of_disabled (bs : List Byte) (h : (s.ctx c).en = false) : pushDone c bs s = s := by
  rw [pushDone, h, if_neg Bool.false_ne_true]

theorem refuseLaunch_quiet (status : Nat) (l : Launch) (h : (s.ctx c).en = false) :
    Quiet s (refuseLaunch c status l s) := by
  unfold refuseLaunch
  rw [pushDone_of_disabled _ h]
  extract_lets job s1 s2 s3 send
  have h3 : Quiet s s3 := by
    unfold s3 s2
    split <;> exact ⟨rfl, rfl⟩
  split
  · exact h3.trans (easyAllOriginate_quiet job status s3.now s3)
  · exact h3

theorem refuseAll_quiet (status : Nat) (l : List Launch) (h : (s.ctx c).en = false) :
    Quiet s (forList (fun x s => refuseLaunch c status x s) l s) := by
  induction l generalizing s with
  | nil => exact .refl s
  | cons x l ih =>
    have hq : Quiet s (refuseLaunch c status x s) := refuseLaunch_quiet status x h
    exact hq.trans (ih (by rw [hq.ctx c, h]))

/-- A context without its fetched launches. -/
def Ctx.emptied (x : Ctx) : Ctx := { x with fetched := [] }

theorem refuseFetched_quiet (status : Nat) (h : (s.ctx c).en = false) :
    Quiet (s.setCtx c (s.ctx c).emptied) (refuseFetched c status s) := by
  refine refuseAll_quiet (c := c) (s := s.setCtx c (s.ctx c).emptied) status (s.ctx c).fetched ?_
  rw [State.setCtx_ctx_same]
  exact h

end Refuse

/-! ### The detach of one context -/

/-- A context at the start of its detach. -/
def Ctx.unhosted (x : Ctx) : Ctx := { x with en := false, done := [], cqHold := false, stopAfter := false }

/-- The state after the abort that a detach decides for context c. -/
def detachAbort (c : Nat) (s : State) : State :=
  decideEnd c stHostAbort 0 (s.setCtx c (s.ctx c).unhosted).now (s.setCtx c (s.ctx c).unhosted)

/-- A context at the end of its detach: nothing is fetched, and it is DISABLED unless an abort goes on. -/
def Ctx.detached (x : Ctx) : Ctx := { x with
  fetched := [], st := if x.st = .disabled || !(x.exec.isSome || x.abort.isSome) then .disabled else .aborting }

theorem Ctx.detached_idle {x : Ctx} (he : x.exec = none) (ha : x.abort = none) : x.detached.st = .disabled := by
  rw [Ctx.detached, he, ha]
  simp

section Detach
variable {c : Nat} {s : State}

theorem detachAbort_ctx_en (c : Nat) (s : State) : ((detachAbort c s).ctx c).en = false := by
  rw [detachAbort, (decideEnd_abort _ _ _ _).2, State.setCtx_ctx_same]
  rfl

theorem detachAbort_idle (hx : (s.ctx c).exec = none) : detachAbort c s = s.setCtx c (s.ctx c).unhosted := by
  rw [detachAbort, decideEnd_idle]
  rw [State.setCtx_ctx_same]
  exact hx

theorem detachAbort_beside (c : Nat) (s : State) : Beside c s (detachAbort c s) :=
  (setCtx_beside _ s).trans (decideEnd_abort _ _ _ _).1

theorem detachAbort_exec {x : Exec} (hx : (s.ctx c).exec = some x) (he : x.ending = none) :
    ((detachAbort c s).ctx c).exec = some (x.aborted 0 s.now) := by
  rw [detachAbort, decideEnd_abort_exec _ he]
  · rfl
  · rw [State.setCtx_ctx_same]
    exact hx

theorem detachCtx_eq (c : Nat) (s : State) : ∃ s₁, Beside c s s₁ ∧
    detachCtx c s = s₁.setCtx c ((detachAbort c s).ctx c).detached := by
  have hq := refuseFetched_quiet stFlushed (detachAbort_ctx_en c s)
  have hk : (refuseFetched c stFlushed (detachAbort c s)).ctx c = ((detachAbort c s).ctx c).emptied := by
    rw [hq.ctx c, State.setCtx_ctx_same]
  unfold detachCtx
  extract_lets x s1 s2 busy
  have e2 : s2 = refuseFetched c stFlushed (detachAbort c s) := rfl
  have b2 : Beside c s s2 := e2 ▸ ((detachAbort_beside c s).trans (setCtx_beside _ _)).trans hq.beside
  refine ⟨s2, b2, ?_⟩
  unfold busy
  rw [State.modCtx_eq, e2, hk]
  rfl

theorem detachCtx_beside (c : Nat) (s : State) : Beside c s (detachCtx c s) := by
  obtain ⟨s₁, b, e⟩ := detachCtx_eq c s
  exact e ▸ b.trans (setCtx_beside _ s₁)

theorem detachCtx_ctx (c : Nat) (s : State) : (detachCtx c s).ctx c = ((detachAbort c s).ctx c).detached := by
  obtain ⟨s₁, -, e⟩ := detachCtx_eq c s
  rw [e, State.setCtx_ctx_same]

/-- What a host detach makes of a context that stood as x (13 R522). -/
structure HostDetached (x y : Ctx) : Prop where
  en : y.en = false
  fetched : y.fetched = []
  idle : x.exec = none → x.abort = none → y.st = .disabled
  aborts : ∀ l, x.exec = some l → l.ending = none → ∃ l', y.exec = some l' ∧ l'.ending.map (·.status) = some stHostAbort

theorem detachCtx_detaches (c : Nat) (s : State) : HostDetached (s.ctx c) ((detachCtx c s).ctx c) := by
  rw [detachCtx_ctx]
  refine ⟨detachAbort_ctx_en c s, rfl, fun hexec habort => ?_, fun l hexec hend => ?_⟩
  · rw [detachAbort_idle hexec, State.setCtx_ctx_same]
    exact Ctx.detached_idle hexec habort
  · exact ⟨_, detachAbort_exec hexec hend, rfl⟩

end Detach

/-! ### The detach of every context -/

theorem forUp_detachCtx_linkView (k n : Nat) (s : State) : (forUp detachCtx k n s).linkView = s.linkView := by
  induction n generalizing k s with
  | zero => rfl
  | succ n ih => exact (ih (k + 1) (detachCtx k s)).trans (detachCtx_beside k s).link

theorem forUp_detachCtx_before {c k : Nat} (hc : c < k) (n : Nat) (s : State) :
    (forUp detachCtx k n s).ctx c = s.ctx c := by
  induction n generalizing k s with
  | zero => rfl
  | succ n ih =>
    exact (ih (by omega) (detachCtx k s)).trans ((detachCtx_beside k s).ctx c (by omega))

theorem forUp_detachCtx_detaches {c k n : Nat} (hk : k ≤ c) (hn : c < k + n) (s : State) :
    HostDetached (s.ctx c) ((forUp detachCtx k n s).ctx c) := by
  induction n generalizing k s with
  | zero => omega
  | succ n ih =>
    show HostDetached _ ((forUp detachCtx (k + 1) n (detachCtx k s)).ctx c)
    by_cases h : c = k
    · subst h
      rw [forUp_detachCtx_before (by omega)]
      exact detachCtx_detaches c s
    · rw [← (detachCtx_beside k s).ctx c h]
      exact ih (by omega) (by omega) (detachCtx k s)

/-! ### The host detach -/

/-- The state in which a host detach of an attached host takes up the contexts. -/
def linkDetached (why : Detach) (s : State) : State :=
  let s := if s.alive && decide (why = .pclkLoss) then s.modRst (fun r => { r with pclk := false }) else s
  let s := s.modHost (fun h => { h with attached := false, evtEn := false })
  let s := if why = .dlDown then raise 0x7030 noUnit 0 s else s
  if linkFalls why then s.modHost (fun h => { h with
    speed := 0, width := 0, flit := false, cxl := .none, degraded := false }) else s

/-- What the link shows while the contexts are detached. -/
def LinkView.detached (why : Detach) (v : LinkView) : LinkView :=
  if linkFalls why then
    { speed := 0, width := 0, flit := false, cxl := .none, degraded := false, attached := false, evtEn := false }
  else { v with attached := false, evtEn := false }

theorem linkDetached_ctxs (why : Detach) (s : State) : (linkDetached why s).ctxs = s.ctxs := by
  unfold linkDetached
  extract_lets s1 s2 s3
  have h1 : s1.ctxs = s.ctxs := by
    unfold s1
    split <;> rfl
  have h3 : s3.ctxs = s2.ctxs := by
    unfold s3
    split
    · exact raise_ctxs _ _ _ s2
    · rfl
  split <;> exact h3.trans h1

theorem linkDetached_linkView (why : Detach) (s : State) :
    (linkDetached why s).linkView = s.linkView.detached why := by
  unfold linkDetached LinkView.detached
  extract_lets s1 s2 s3
  have h1 : s1.linkView = s.linkView := by
    unfold s1
    split <;> rfl
  have h2 : s2.linkView = { s1.linkView with attached := false, evtEn := false } := rfl
  have h3 : s3.linkView = s2.linkView := by
    unfold s3
    split
    · exact raise_linkView _ _ _ s2
    · rfl
  split
  · show { s3.linkView with speed := 0, width := 0, flit := false, cxl := .none, degraded := false } = _
    rw [h3, h2]
  · rw [h3, h2, h1]

theorem hostDetach_eq {why : Detach} {s : State} (ha : s.alive = true) (hl : s.host.attached = true) :
    hostDetach why s =
      if linkFalls why then raise 0x7032 noUnit 0 (forUp detachCtx 0 64 (linkDetached why s))
      else (raise 0x7032 noUnit 0 (forUp detachCtx 0 64 (linkDetached why s))).modHost
        fun h => { h with attached := true } := by
  unfold hostDetach
  extract_lets s1 s2 s3 s4 s5 s6
  have hn : ¬ (!s1.alive || !s1.host.attached) = true := by
    unfold s1
    split <;> simp [ha, hl]
  rw [if_neg hn]
  rfl

/-! ### The host detach, as a command -/

section HostDetach
variable {why : Detach} {s : State}

theorem hostDetach_detaches (ha : s.alive = true) (hl : s.host.attached = true) {c : Nat} (hc : c < 64) :
    HostDetached (s.ctx c) ((hostDetach why s).ctx c) := by
  have h := forUp_detachCtx_detaches (n := 64) (Nat.zero_le c) (by omega) (linkDetached why s)
  have e : (linkDetached why s).ctx c = s.ctx c := by rw [State.ctx, linkDetached_ctxs, State.ctx]
  rw [e] at h
  rw [hostDetach_eq ha hl]
  split
  · rw [raise_ctx_at]
    exact h
  · rw [State.modHost_ctx, raise_ctx_at]
    exact h

theorem hostDetach_linkView (ha : s.alive = true) (hl : s.host.attached = true) :
    (hostDetach why s).linkView = if linkFalls why then s.linkView.detached why
      else { s.linkView.detached why with attached := true } := by
  have h : (raise 0x7032 noUnit 0 (forUp detachCtx 0 64 (linkDetached why s))).linkView = s.linkView.detached why := by
    rw [raise_linkView, forUp_detachCtx_linkView, linkDetached_linkView]
  rw [hostDetach_eq ha hl, ← h]
  split <;> rfl

theorem hostDetach_evtEn (ha : s.alive = true) (hl : s.host.attached = true) :
    (hostDetach why s).host.evtEn = false := by
  have h : (hostDetach why s).linkView.evtEn = false := by
    rw [hostDetach_linkView ha hl, LinkView.detached]
    split <;> rfl
  exact h

theorem hostDetach_link_stays (ha : s.alive = true) (hl : s.host.attached = true) (hf : linkFalls why = false) :
    (hostDetach why s).host.attached = true ∧ (hostDetach why s).host.speed = s.host.speed := by
  have h : (hostDetach why s).linkView = { s.linkView with attached := true, evtEn := false } := by
    rw [hostDetach_linkView ha hl, LinkView.detached, hf]
    rfl
  exact ⟨congrArg LinkView.attached h, congrArg LinkView.speed h⟩

theorem hostDetach_link_falls (ha : s.alive = true) (hl : s.host.attached = true) (hf : linkFalls why = true) :
    (hostDetach why s).host.attached = false ∧ (hostDetach why s).host.speed = 0 := by
  have h := hostDetach_linkView (why := why) ha hl
  rw [if_pos hf, LinkView.detached, if_pos hf] at h
  exact ⟨congrArg LinkView.attached h, congrArg LinkView.speed h⟩

theorem linkFalls_of_ne (hf : why ≠ .flr) (hx : why ≠ .cxlReset) : linkFalls why = true := by
  cases why <;> trivial

theorem exec_hostDetach_attached (ha : s.alive = true) (hl : s.host.attached = true) :
    ∃ s', exec (.hostDetach why) s = .next (afterPass s s') ∧ s'.host.evtEn = false ∧
      (∀ c, c < 64 → (s'.ctx c).en = false ∧ (s'.ctx c).fetched = []) ∧
      (∀ c, c < 64 → (s.ctx c).exec = none → (s.ctx c).abort = none → (s'.ctx c).st = .disabled) ∧
      (∀ c x, c < 64 → (s.ctx c).exec = some x → x.ending = none → x.began = true →
        ∃ x', (s'.ctx c).exec = some x' ∧ x'.ending.map (·.status) = some 0x30) ∧
      (why = .flr ∨ why = .cxlReset → s'.host.attached = true ∧ s'.host.speed = s.host.speed) ∧
      (why ≠ .flr → why ≠ .cxlReset → s'.host.attached = false ∧ s'.host.speed = 0) := by
  refine ⟨hostDetach why s, rfl, hostDetach_evtEn ha hl, ?_, ?_, ?_, ?_, ?_⟩
  · intro c hc
    have h := hostDetach_detaches (why := why) ha hl hc
    exact ⟨h.en, h.fetched⟩
  · intro c hc
    exact (hostDetach_detaches ha hl hc).idle
  · intro c x hc hx hend _
    exact (hostDetach_detaches ha hl hc).aborts x hx hend
  · rintro (rfl | rfl) <;> exact hostDetach_link_stays ha hl rfl
  · intro hf hx
    exact hostDetach_link_falls ha hl (linkFalls_of_ne hf hx)

theorem passesFrom_of_passMark {n : Nat} (k : Nat) (h : s.passMark = n) : passesFrom k n s = s := by
  cases k with
  | zero => rfl
  | succ k => exact if_pos h

theorem exec_hostDetach_unattached (hl : s.host.attached = false) :
    (why ≠ .pclkLoss → exec (.hostDetach why) s = .next s) ∧
    (s.alive = true → exec (.hostDetach .pclkLoss) s = .next { s with rst := { s.rst with pclk := false } }) := by
  constructor
  · intro hw
    have h : hostDetach why s = s := by simp [hostDetach, hw, hl]
    show Host.Outcome.next (passesFrom _ s.passMark (hostDetach why s)) = _
    rw [h]
    exact congrArg Host.Outcome.next (passesFrom_of_passMark _ rfl)
  · intro ha
    have h : hostDetach .pclkLoss s = { s with rst := { s.rst with pclk := false } } := by
      simp [hostDetach, ha, hl, State.modRst]
    show Host.Outcome.next (passesFrom _ s.passMark (hostDetach .pclkLoss s)) = _
    rw [h]
    exact congrArg Host.Outcome.next (passesFrom_of_passMark _ rfl)

end HostDetach

/-- Settles O52: one lemma per kind of access, detach and enable. -/
theorem hostRegisterResults : Obligations.HostRegisterResults := by
  unfold Obligations.HostRegisterResults
  refine ⟨?_, ?_, exec_rcRead_cntAdmitted, ?_, ?_, ?_, ?_⟩
  · intro s v ha hd
    refine ⟨exec_regWrite_limits v ha hd, exec_regWrite_btt v ha hd, exec_regWrite_escalation v ha hd,
      exec_regWrite_umpTimes v ha hd, ⟨exec_regWrite_evtCfg v ha hd, exec_regWrite_easyAll v ha hd, fun hv => ?_⟩,
      fun _ _ => exec_regWrite_bar0_ignored hd, fun _ => exec_regWrite_unassigned ha hd,
      fun _ _ => exec_regWrite_of_dead rfl⟩
    exact ⟨exec_regWrite_umpLogPop v ha hd hv, exec_regWrite_resetLogPop v ha hd hv,
      exec_regWrite_faultPop v ha hd hv⟩
  · intro s bar off width ha hd
    exact ⟨exec_rcRead_keeps s bar off width ha hd, exec_rcRead_partial ha hd⟩
  · intro s speed width flit m hs
    exact ⟨exec_pcieLinkUp_settles m hs, exec_pcieLinkUp_refused m⟩
  · intro s why ha hl
    exact exec_hostDetach_attached ha hl
  · intro s why hl
    exact exec_hostDetach_unattached hl
  · intro s v ha hl
    rw [exec_evtRingEnable_of_noneLost v ha hl]
    exact ⟨fun he hv => by rw [evtCfg_begins he hv], fun he hv => by rw [evtCfg_off he hv],
      fun he => by rw [evtCfg_enabled he]⟩

end Sys2Proof.Machine

/-!
O5. How an issued instruction ends, in the terms of the statements, and the traps of addresses and branch targets.
A load or store traps as `memCheck` of its effective address says (`ChecksAddress`), and a branch as `goTo` says of its target.
-/

namespace Sys2Proof.Machine

/-! ### Fields of an instruction word -/

theorem wImm8_eq (w : Word) : wImm8 w = (w.extractLsb' 0 8).toNat := bits_toNat w 0 8

/-- The two's complement reading of a field is its signed value. -/
theorem sext_bits {w : Nat} (v : BitVec w) (lo n : Nat) (hn : 0 < n) :
    sext (bits v.toNat lo n) n = (v.extractLsb' lo n).toInt := by
  rw [bits_toNat]
  generalize v.extractLsb' lo n = x
  have hx : x.toNat < 2 ^ n := x.isLt
  have hb : bits x.toNat 0 n = x.toNat := by simp [bits, Nat.mod_eq_of_lt hx]
  have hp : 2 * 2 ^ (n - 1) = 2 ^ n := by rw [← Nat.pow_succ']; congr 1; omega
  have hs : bits x.toNat (n - 1) 1 = 1 ↔ 2 ^ n ≤ 2 * x.toNat := by
    have hq : x.toNat / 2 ^ (n - 1) < 2 := (Nat.div_lt_iff_lt_mul (Nat.two_pow_pos _)).2 (by omega)
    have hd : 1 ≤ x.toNat / 2 ^ (n - 1) ↔ 1 * 2 ^ (n - 1) ≤ x.toNat := Nat.le_div_iff_mul_le (Nat.two_pow_pos _)
    rw [bits, Nat.shiftRight_eq_div_pow, Nat.pow_one, Nat.mod_eq_of_lt hq]
    generalize x.toNat / 2 ^ (n - 1) = q at hq hd
    omega
  rw [sext, hb, BitVec.toInt_eq_toNat_cond]
  by_cases h : 2 * x.toNat < 2 ^ n
  · rw [if_pos h, if_neg (by omega)]
  · rw [if_neg h, if_pos (by omega)]

theorem intBits_eq_ofInt (n : Nat) (v : Int) : intBits n v = (BitVec.ofInt n v).toNat :=
  (BitVec.toNat_ofInt v).symm

/-! ### How an issued instruction ends -/

theorem onlyTile_refl (s : State) (t : Nat) : OnlyTile s s t (s.tile t) := ⟨rfl, rfl, fun _ _ => rfl⟩

theorem onlyTile_setTile {s s1 : State} {t : Nat} {y : Tile} (h : OnlyTile s s1 t y) (z : Tile) :
    OnlyTile s (s1.setTile t z) t z := by
  obtain ⟨hrest, -, hother⟩ := h
  refine ⟨?_, State.setTile_tile_same .., fun u hu => (State.setTile_tile_other _ _ _ _ hu).trans (hother u hu)⟩
  rw [State.setTile, hrest]

/-- Retiring, in the terms of the statements, where the instruction's own part has left the cycle count alone. -/
theorem finish_eq_setTile {s s1 : State} {t cost lat : Nat} {op : Op} {w : Word} {pc : BitVec 12} {dest : List Nat}
    (hc : (s1.tile t).cycle = (s.tile t).cycle) :
    finish t (s.tile t).cycle (issueAt (s.tile t) op w) cost pc dest lat s1 =
      s1.setTile t (retireAt (s.tile t) op w cost pc dest lat (s1.tile t)) := by
  have e : (s.tile t).cycle + (issueAt (s.tile t) op w - (s.tile t).cycle) = issueAt (s.tile t) op w :=
    Nat.add_sub_cancel' (issueAt_ge _ _ _)
  simp only [finish, State.modTile_eq, hc, e, retireAt]

section Ends
variable {s s1 : State} {t cost lat : Nat} {op : Op} {w : Word} {dest : List Nat} {body : Body}
  (hi : Issues s t op w)
include hi

/-- An issued instruction that retires. -/
theorem issue_retires (hb : body t w (issueAt (s.tile t) op w) s = .retire cost dest lat s1) :
    issue t op body s =
      finish t (s.tile t).cycle (issueAt (s.tile t) op w) cost ((s.tile t).pc + 1) dest lat s1 := by
  simp only [issue_perform body hi, perform, hb]

theorem issue_retires_setTile (hb : body t w (issueAt (s.tile t) op w) s = .retire cost dest lat s1)
    (hc : (s1.tile t).cycle = (s.tile t).cycle) :
    issue t op body s =
      s1.setTile t (retireAt (s.tile t) op w cost ((s.tile t).pc + 1) dest lat (s1.tile t)) := by
  rw [issue_retires hi hb, finish_eq_setTile hc]

/-- An issued instruction that changes its tile alone and retires. -/
theorem issue_retires_only {y : Tile}
    (hb : body t w (issueAt (s.tile t) op w) s = .retire cost dest lat (s.setTile t y))
    (hc : y.cycle = (s.tile t).cycle) :
    OnlyTile s (issue t op body s) t (retireAt (s.tile t) op w cost ((s.tile t).pc + 1) dest lat y) := by
  rw [issue_retires hi hb]
  exact finish_only (onlyTile_set s t y) hc

/-- An issued instruction that traps precisely before it has changed anything (02 R70, 03 R115). -/
theorem issue_traps {tr : Trap} (hb : body t w (issueAt (s.tile t) op w) s = .trap tr s) (hl : tr.late = 0) :
    issue t op body s = trapTile t tr (waited s t op w) := by
  have e : (s.tile t).cycle + (issueAt (s.tile t) op w - (s.tile t).cycle) = issueAt (s.tile t) op w :=
    Nat.add_sub_cancel' (issueAt_ge _ _ _)
  simp only [issue_perform body hi, perform, hb, hl, waited, State.modTile_eq, Nat.add_zero, e]

end Ends

/-! ### Address traps (02 R72, R73, 03 R115) -/

theorem memCheck_of_misaligned {s : State} {t ea size : Nat} (h : ea % size ≠ 0) :
    memCheck s t ea size = some (precise 0x05 (s.tile t).pc ea 0) := if_pos h

theorem memCheck_of_outOfRange {s : State} {t ea size : Nat} (ha : ea % size = 0) (h : 0x18000 < ea + size) :
    memCheck s t ea size = some (precise 0x04 (s.tile t).pc ea 0) :=
  (if_neg (not_not_intro ha)).trans (if_pos h)

theorem memCheck_of_inside {s : State} {t ea size : Nat} (ha : ea % size = 0) (h : ea + size ≤ 0x18000) :
    memCheck s t ea size = none :=
  (if_neg (not_not_intro ha)).trans (if_neg (Nat.not_lt_of_le h))

/-- Command c, issuing op, traps as the check of its effective address says. -/
def ChecksAddress (c : TileIx → Instr) (op : Op) (size : Nat) : Prop :=
  ∀ (s : State) (t : TileIx) (w : Word), Issues s t.val op w → ∀ cause addr,
    memCheck s t.val (effAddr (s.tile t.val) w size) size = some (precise cause (s.tile t.val).pc addr 0) →
    exec (c t) s = .next (trapTile t.val (precise cause (s.tile t.val).pc addr 0) (waited s t.val op w))

section Checks
variable {c : TileIx → Instr} {op : Op} {size : Nat}

theorem checksAddress_of_load {dest : Word → List Nat} {f : Word → List Byte → Tile → Tile}
    (hx : ∀ t s, exec (c t) s = .next (issue t.val op (loadOp size dest f) s)) : ChecksAddress c op size := by
  intro s t w hi cause addr hm
  have hb : loadOp size dest f t.val w (issueAt (s.tile t.val) op w) s =
      .trap (precise cause (s.tile t.val).pc addr 0) s := by
    simp only [loadOp, hm]
  rw [hx, issue_traps hi hb rfl]

theorem checksAddress_of_store {f : Word → Tile → Nat}
    (hx : ∀ t s, exec (c t) s = .next (issue t.val op (storeOp size f) s)) : ChecksAddress c op size := by
  intro s t w hi cause addr hm
  have hb : storeOp size f t.val w (issueAt (s.tile t.val) op w) s =
      .trap (precise cause (s.tile t.val).pc addr 0) s := by
    simp only [storeOp, hm]
  rw [hx, issue_traps hi hb rfl]

end Checks

/-- The loads and stores of more than a byte, with their sizes (03 Table 3-5). -/
def wideAccesses : List ((TileIx → Instr) × Op × Nat) :=
  [(.lh, .lh, 2), (.lhu, .lhu, 2), (.lw, .lw, 4), (.vld8, .vld8, 8), (.vld, .vld, 16), (.sh, .sh, 2), (.sw, .sw, 4),
    (.vst8, .vst8, 8), (.vst, .vst, 16)]

/-- Those of a byte. -/
def byteAccesses : List ((TileIx → Instr) × Op × Nat) := [(.lb, .lb, 1), (.lbu, .lbu, 1), (.sb, .sb, 1)]

theorem wideAccesses_checked : ∀ p ∈ wideAccesses, ChecksAddress p.1 p.2.1 p.2.2 := by
  simp only [wideAccesses, List.forall_mem_cons]
  exact ⟨checksAddress_of_load fun _ _ => rfl, checksAddress_of_load fun _ _ => rfl,
    checksAddress_of_load fun _ _ => rfl, checksAddress_of_load fun _ _ => rfl, checksAddress_of_load fun _ _ => rfl,
    checksAddress_of_store fun _ _ => rfl, checksAddress_of_store fun _ _ => rfl,
    checksAddress_of_store fun _ _ => rfl, checksAddress_of_store fun _ _ => rfl, List.forall_mem_nil _⟩

theorem byteAccesses_checked : ∀ p ∈ byteAccesses, ChecksAddress p.1 p.2.1 p.2.2 := by
  simp only [byteAccesses, List.forall_mem_cons]
  exact ⟨checksAddress_of_load fun _ _ => rfl, checksAddress_of_load fun _ _ => rfl,
    checksAddress_of_store fun _ _ => rfl, List.forall_mem_nil _⟩

/-! ### Branch traps (03 R122) -/

/-- A branch whose way leads outside 0x000 to 0xFFF raises PC_OVERRUN with its target. -/
theorem issue_goTo_overruns {s : State} {t cost : Nat} {op : Op} {w : Word} {body : Body} {target : Int}
    {dest : List Nat} {f : Tile → Tile} (hi : Issues s t op w)
    (hb : body t w (issueAt (s.tile t) op w) s = goTo t cost target dest f s) (ht : target < 0 ∨ 0xFFF < target) :
    issue t op body s =
      trapTile t (precise 0x02 (s.tile t).pc (BitVec.ofInt 32 target).toNat 0) (waited s t op w) := by
  have hg : goTo t cost target dest f s = .trap (precise 0x02 (s.tile t).pc (BitVec.ofInt 32 target).toNat 0) s := by
    rw [goTo, if_neg (by omega), intBits_eq_ofInt]
    rfl
  exact issue_traps hi (hb.trans hg) rfl

/-- A branch that falls through at 0xFFF. -/
theorem issue_goTo_next_overruns {s : State} {t : Nat} {op : Op} {w : Word} {body : Body} {dest : List Nat}
    {f : Tile → Tile} (hi : Issues s t op w)
    (hb : body t w (issueAt (s.tile t) op w) s = goTo t 1 (nextTarget (s.tile t)) dest f s)
    (hpc : (s.tile t).pc = 0xFFF#12) :
    issue t op body s = trapTile t (precise 0x02 0xFFF#12 0x1000 0) (waited s t op w) := by
  have hn : nextTarget (s.tile t) = 0x1000 := by rw [nextTarget, hpc]; rfl
  rw [issue_goTo_overruns hi hb (by omega), hpc, hn]
  rfl

/-- BR and CALL go to PC + sext(off13) where their condition holds. -/
theorem relTarget_eq (x : Tile) (w : Word) : relTarget x w = x.pc.toNat + (w.extractLsb' 0 13).toInt := by
  rw [relTarget, wImm13, sext_bits w 0 13 (by decide)]

section Branches
variable {s : State} {t : Nat} {w : Word}

theorem bodyBr_taken (c : Nat) (h : ((s.tile t).preg (wG w) != w.getLsbD 22) = true) :
    bodyBr t w c s = goTo t 2 (relTarget (s.tile t) w) [] id s := if_pos h

theorem bodyBr_untaken (c : Nat) (h : ((s.tile t).preg (wG w) != w.getLsbD 22) = false) :
    bodyBr t w c s = goTo t 1 (nextTarget (s.tile t)) [] id s := if_neg (Bool.eq_false_iff.mp h)

theorem bodyCall_taken (c : Nat) (h : ((s.tile t).preg (wG w) != w.getLsbD 22) = true) :
    bodyCall t w c s = goTo t 2 (relTarget (s.tile t) w) [rcS (wRs1 w)]
      (fun x => x.setS (wRs1 w) (BitVec.ofNat 32 (x.pc.toNat + 1))) s := if_pos h

theorem bodyCall_untaken (c : Nat) (h : ((s.tile t).preg (wG w) != w.getLsbD 22) = false) :
    bodyCall t w c s = goTo t 1 (nextTarget (s.tile t)) [] id s := if_neg (Bool.eq_false_iff.mp h)

theorem bodyJr_taken (c : Nat) (h : ((s.tile t).preg (wG w) != w.getLsbD 22) = true) :
    bodyJr t w c s = goTo t 2 (((s.tile t).sreg (wRs1 w)).toNat : Int) [] id s := if_pos h

theorem bodyJr_untaken (c : Nat) (h : ((s.tile t).preg (wG w) != w.getLsbD 22) = false) :
    bodyJr t w c s = goTo t 1 (nextTarget (s.tile t)) [] id s := if_neg (Bool.eq_false_iff.mp h)

theorem bodyLoop_untaken (c : Nat) (h : (s.tile t).sreg (wRs1 w) = 1#32) :
    bodyLoop t w c s = goTo t 1 (nextTarget (s.tile t)) [rcS (wRs1 w)]
      (fun x => x.setS (wRs1 w) ((s.tile t).sreg (wRs1 w) - 1#32)) s :=
  if_neg (by rw [h]; decide)

end Branches

/-- Settles O5: the check of the effective address decides a load or store, and `goTo` a branch. -/
theorem addressAndBranchTraps : Obligations.AddressAndBranchTraps := by
  unfold Obligations.AddressAndBranchTraps
  refine ⟨⟨?_, ?_⟩, ?_⟩
  · intro p hp s t w hi hea
    exact wideAccesses_checked p hp s t w hi _ _ (memCheck_of_misaligned hea)
  · intro p hp s t w hi hea hr
    have hc : ChecksAddress p.1 p.2.1 p.2.2 :=
      (List.mem_append.mp hp).elim (byteAccesses_checked p) (wideAccesses_checked p)
    exact hc s t w hi _ _ (memCheck_of_outOfRange hea hr)
  · intro s t w
    refine ⟨?_, fun hi hc ht => ?_, ?_, fun hi h1 hpc => ?_⟩
    · simp only [List.forall_mem_cons, ← relTarget_eq]
      refine ⟨fun hi hc ht => ?_, fun hi hc ht => ?_, List.forall_mem_nil _⟩
      · exact congrArg _ (issue_goTo_overruns hi (bodyBr_taken _ hc) ht)
      · exact congrArg _ (issue_goTo_overruns hi (bodyCall_taken _ hc) ht)
    · have h := issue_goTo_overruns hi (bodyJr_taken _ hc) (.inr (by omega))
      rw [BitVec.ofInt_natCast, BitVec.ofNat_toNat, BitVec.setWidth_eq] at h
      exact congrArg _ h
    · simp only [List.forall_mem_cons]
      refine ⟨fun hi hc hpc => ?_, fun hi hc hpc => ?_, fun hi hc hpc => ?_, List.forall_mem_nil _⟩
      · exact congrArg _ (issue_goTo_next_overruns hi (bodyBr_untaken _ hc) hpc)
      · exact congrArg _ (issue_goTo_next_overruns hi (bodyCall_untaken _ hc) hpc)
      · exact congrArg _ (issue_goTo_next_overruns hi (bodyJr_untaken _ hc) hpc)
    · exact congrArg _ (issue_goTo_next_overruns hi (bodyLoop_untaken _ h1) hpc)

end Sys2Proof.Machine

/-!
O16. The control registers (02 R69, R70, 03 R138): `crValue` is a table with two latches, and `crStore` a change
of three fields.
-/

namespace Sys2Proof.Machine

theorem setWidth_eq_extractLsb' {n : Nat} (v : BitVec n) (k : Nat) : v.setWidth k = v.extractLsb' 0 k := by
  ext i hi
  simp

theorem setWidth_ushiftRight {n : Nat} (v : BitVec n) (lo k : Nat) : (v >>> lo).setWidth k = v.extractLsb' lo k := by
  ext i hi
  simp

/-- The control registers of Table 2-2 in the order of their numbers, as an instruction that issues in cycle `atc`
reads them. -/
def crTable (s : State) (atc : Nat) (x : Tile) : List Word :=
  [BitVec.ofNat 32 x.tid, BitVec.ofNat 32 x.crew, BitVec.ofNat 32 x.ncrew, BitVec.ofNat 32 x.ctx, x.launchId,
    BitVec.ofNat 32 x.partNo, s.fab.devNum.setWidth 32, x.jobid, s.now.extractLsb' 0 32, x.strokeHi,
    BitVec.ofNat 32 atc, x.cycleHi, x.sig.extractLsb' 0 32, x.sig.extractLsb' 32 32, x.sigbase.extractLsb' 0 32,
    (x.sigbase.extractLsb' 32 10).setWidth 32, x.argp.extractLsb' 0 32, (x.argp.extractLsb' 32 10).setWidth 32,
    x.fpstat.setWidth 32, BitVec.ofNat 32 (streamBusy x), BitVec.ofNat 32 x.eccCe]

/-- The tile after a read of control register n: STROKE_LO and CYCLE_LO latch the high half of their counts. -/
def Tile.latch (x : Tile) (s : State) (n atc : Nat) : Tile :=
  { x with
    strokeHi := if n = 0x08 then s.now.extractLsb' 32 32 else x.strokeHi
    cycleHi := if n = 0x0A then BitVec.ofNat 32 (atc / 2 ^ 32) else x.cycleHi }

theorem crValue_eq (s : State) {n : Nat} (hn : n ≤ 0x14) (atc : Nat) (x : Tile) :
    crValue s n atc x = ((crTable s atc x).getD n 0#32, x.latch s n atc) := by
  have hdev : BitVec.ofNat 32 s.fab.devNum.toNat = s.fab.devNum.setWidth 32 := BitVec.ofNat_toNat ..
  have hhi (v : BitVec 42) : (v.extractLsb' 32 10).setWidth 32 = v.extractLsb' 32 32 := by
    ext i hi
    simpa using fun h => by have := BitVec.lt_of_getLsbD h; omega
  interval_cases n <;>
    simp [crValue, crTable, Tile.latch, setWidth_ushiftRight, setWidth_eq_extractLsb' s.now,
      setWidth_eq_extractLsb' x.sig, setWidth_eq_extractLsb' x.sigbase, setWidth_eq_extractLsb' x.argp, hdev, hhi]

theorem fpstatWaits_of_free {x : Tile} {n : Nat} (hf : n = 0x12 → x.mma = []) : fpstatWaits x n = false := by
  by_cases h : n = 0x12
  · simp [fpstatWaits, hf h]
  · simp [fpstatWaits, h]

theorem bodyCrRead_of_free {s : State} {t atc : Nat} {w : Word} (hn : wImm8 w % 64 ≤ 0x14)
    (hf : wImm8 w % 64 = 0x12 → (s.tile t).mma = []) :
    bodyCrRead t w atc s = .retire 1 [rcS (wRd w)] 2 (s.setTile t (((s.tile t).latch s (wImm8 w % 64) atc).setS (wRd w)
      ((crTable s atc (s.tile t)).getD (wImm8 w % 64) 0#32))) := by
  simp only [bodyCrRead, fpstatWaits_of_free hf, crValue_eq s hn]
  rfl

/-- The tile after a write of v to control register n. -/
def Tile.crWritten (x : Tile) (n : Nat) (v : Word) : Tile :=
  { x with
    sig := if n = 0x0C then x.sig.extractLsb' 32 32 ++ v else if n = 0x0D then v ++ x.sig.extractLsb' 0 32 else x.sig
    sigbase := if n = 0x0E then x.sigbase.extractLsb' 32 10 ++ v
      else if n = 0x0F then v.extractLsb' 0 10 ++ x.sigbase.extractLsb' 0 32 else x.sigbase
    fpstat := if n = 0x12 then x.fpstat &&& ~~~(v.extractLsb' 0 6) else x.fpstat }

theorem crStore_eq (n : Nat) (v : Word) (x : Tile) : crStore n v x = x.crWritten n v := by
  unfold crStore Tile.crWritten
  split
  · rfl
  · rfl
  · rfl
  · rfl
  · rw [fpstatClear, setWidth_eq_extractLsb']
    rfl
  · rename_i h0C h0D h0E h0F h12
    rw [if_neg h0C, if_neg h0D, if_neg h0E, if_neg h0F, if_neg h12]

theorem bodyCrWrite_of_free {s : State} {t atc : Nat} {w : Word} (hf : wImm8 w % 64 = 0x12 → (s.tile t).mma = []) :
    bodyCrWrite t w atc s = .retire 1 [] 0 (s.setTile t
      ((s.tile t).crWritten (wImm8 w % 64) ((s.tile t).sreg (wRs1 w)))) := by
  simp only [bodyCrWrite, fpstatWaits_of_free hf, crStore_eq]
  rfl

/-- CREG is raised before the instruction's own part: nothing has been waited for (03 R138). -/
theorem issue_raisesCreg {s : State} {t : Nat} {op : Op} {w : Word} {body : Body}
    (hm : mayIssue s (s.tile t) = true) (hw : Tbl.look 0#32 (s.tile t).pc.toNat (s.tile t).imem = w)
    (he : Tbl.look EccErr.none (s.tile t).pc.toNat (s.tile t).imemErr = .none) (hc : classify w = some op)
    (hg : (s.tile t).preg (wG w) = true) (hr : raisesCreg op w = true) :
    issue t op body s = trapTile t (precise 0x03 (s.tile t).pc (wImm8 w % 64) 0) s := by
  simp only [issue, hm, fetch_good he, hw, hc, hg, hr]
  simp only [Bool.or_true, Bool.and_true, Bool.not_true, ne_eq, not_true, if_true, if_false, Bool.false_eq_true]
  rfl

theorem crNumber_le_of_issues {s : State} {t : Nat} {w : Word} (hi : Issues s t .crRead w) : wImm8 w % 64 ≤ 0x14 := by
  obtain ⟨-, -, -, -, -, hr, -⟩ := hi
  simpa [raisesCreg, crKnown] using hr

theorem raisesCreg_crRead {w : Word} (h : 0x14 < wImm8 w % 64) : raisesCreg .crRead w = true := by
  simpa [raisesCreg, crKnown] using h

theorem raisesCreg_crWrite {w : Word} (h : ¬ wImm8 w % 64 ∈ [0x0C, 0x0D, 0x0E, 0x0F, 0x12]) :
    raisesCreg .crWrite w = true := by
  simp only [List.mem_cons, List.not_mem_nil, or_false] at h
  simp only [raisesCreg, crWritable, Bool.not_eq_true', Bool.or_eq_false_iff, decide_eq_false_iff_not]
  omega

/-- Settles O16: reads by `crValue_eq`, writes by `crStore_eq`, and CREG before the instruction's own part. -/
theorem controlRegisters : Obligations.ControlRegisters := by
  unfold Obligations.ControlRegisters
  refine ⟨?_, ?_, ?_⟩
  · intro s t w hi x n c lo value hf
    exact ⟨_, rfl, issue_retires_only hi (bodyCrRead_of_free (crNumber_le_of_issues hi) hf) (Tile.setS_cycle ..)⟩
  · intro s t w hi x n v hf
    exact ⟨_, rfl, issue_retires_only hi (bodyCrWrite_of_free hf) rfl⟩
  · simp only [List.forall_mem_cons]
    refine ⟨?_, ?_, List.forall_mem_nil _⟩
    · intro s t w hm hw he hc hg hn
      exact congrArg _ (issue_raisesCreg hm hw he hc hg (raisesCreg_crRead (by simpa using hn)))
    · intro s t w hm hw he hc hg hn
      exact congrArg _ (issue_raisesCreg hm hw he hc hg (raisesCreg_crWrite (by simpa using hn)))

end Sys2Proof.Machine

/-!
O15. Replies of stream requests on this device. Where no request waits for another, a tag that completes changes its
tile alone; `DataArrived` says what the data of an inbound request change.
-/

namespace Sys2Proof.Machine

/-! ### Tags and requests that wait (02 R80, R83) -/

theorem Tbl.mem_of_mem_erase {α : Type} {k : Nat} {e : Nat × α} {t : Tbl α} (h : e ∈ Tbl.erase k t) : e ∈ t := by
  induction t with
  | nil => exact h
  | cons a r ih =>
    obtain ⟨j, y⟩ := a
    simp only [Tbl.erase] at h
    split at h
    · exact List.mem_cons_of_mem _ (ih h)
    · exact (List.mem_cons.mp h).elim (fun h => h ▸ List.mem_cons_self) fun h => List.mem_cons_of_mem _ (ih h)

theorem Tbl.mem_of_mem_insert {α : Type} {k : Nat} {x : α} {e : Nat × α} {t : Tbl α} (h : e ∈ Tbl.insert k x t) :
    e = (k, x) ∨ e ∈ t := by
  induction t with
  | nil => exact .inl (List.mem_singleton.mp h)
  | cons a r ih =>
    obtain ⟨j, y⟩ := a
    simp only [Tbl.insert] at h
    split at h
    · exact List.mem_cons.mp h
    · split at h
      · exact (List.mem_cons.mp h).imp id (List.mem_cons_of_mem _)
      · obtain rfl | h := List.mem_cons.mp h
        · exact .inr List.mem_cons_self
        · exact (ih h).imp id (List.mem_cons_of_mem _)

/-- What a table lists after a write: the entry written, or one that it listed before. -/
theorem Tbl.mem_of_mem_put {α : Type} [DecidableEq α] {d x : α} {k : Nat} {e : Nat × α} {t : Tbl α}
    (h : e ∈ Tbl.put d k x t) : e = (k, x) ∨ e ∈ t := by
  unfold Tbl.put at h
  split at h
  · exact .inr (Tbl.mem_of_mem_erase h)
  · exact Tbl.mem_of_mem_insert h

/-- No outstanding request of tile x waits for an earlier one. -/
def Tile.NoneWaiting (x : Tile) : Prop := ∀ e ∈ x.tags, ∀ q, e.2 = some q → q.waiting = false

theorem Tile.NoneWaiting.setTag_none {x : Tile} (h : x.NoneWaiting) (tag : Nat) : (setTag tag none x).NoneWaiting := by
  intro e he q hq
  have hp : e ∈ Tbl.put none tag none x.tags := he
  obtain rfl | he := Tbl.mem_of_mem_put hp
  · contradiction
  · exact h e he q hq

@[simp] theorem tagOf_setTag (tag : Nat) (r : Option StreamReq) (x : Tile) : tagOf (setTag tag r x) tag = r :=
  Tbl.look_put_same ..

theorem sendWaiting_of_noneWaiting {s : State} {t : Nat} (h : (s.tile t).NoneWaiting) : sendWaiting t s = s := by
  have hl : (s.tile t).tags.filterMap (fun e => match e.2 with
      | some r => if r.waiting then some (e.1, r) else none
      | none => none) = [] := by
    rw [List.filterMap_eq_nil_iff]
    intro e he
    split
    · rename_i r hr
      rw [if_neg (by rw [h e he r hr]; exact Bool.false_ne_true)]
    · rfl
  unfold sendWaiting
  extract_lets l
  rw [show l = [] from hl]
  rfl

theorem completeTag_of_noneWaiting {s : State} {t tag : Nat} (h : (s.tile t).NoneWaiting) :
    completeTag t tag s = s.setTile t (setTag tag none (s.tile t)) := by
  rw [completeTag, State.modTile_eq, sendWaiting_of_noneWaiting]
  rw [State.setTile_tile_same]
  exact h.setTag_none tag

theorem resume_of_notHeld {s : State} {t : Nat} (h : (s.tile t).held = none) : resume t s = s := by
  simp only [resume, h]

/-! ### Data of an inbound request (02 R82) -/

/-- A byte of a memory after bytes have been written to it. -/
theorem putBytes_look (d : Byte) (bs : List Byte) (m : Tbl Byte) (a b : Nat) :
    Tbl.look d b (putBytes d m a bs) =
      if a ≤ b ∧ b < a + bs.length then bs.getD (b - a) 0#8 else Tbl.look d b m := by
  by_cases h : a ≤ b ∧ b < a + bs.length
  · have hi : b - a < bs.length := by omega
    rw [if_pos h, List.getD_eq_getElem _ _ hi, ← putBytes_look_in d bs m a (b - a) hi, Nat.add_sub_cancel' h.1]
  · rw [if_neg h, putBytes_look_out d bs m a b (by omega)]

/-- What becomes of request r when n bytes arrive at offset off. -/
def StreamReq.after (r : StreamReq) (off n : Nat) : Option StreamReq :=
  if r.len ≤ r.doneLen + n then none else some { r with doneLen := r.doneLen + n, got := r.got ++ [(off, n)] }

/-- What the arrival of data changes: data SRAM, and the request's tag. -/
structure DataArrived (x y : Tile) (tag off : Nat) (r : StreamReq) (bs : List Byte) : Prop where
  sram : ∀ b, Tbl.look 0#8 b y.sram =
    if r.sram + off ≤ b ∧ b < r.sram + off + bs.length then bs.getD (b - (r.sram + off)) 0#8
    else Tbl.look 0#8 b x.sram
  tag : tagOf y tag = r.after off bs.length
  held : y.held = x.held

theorem streamData_tile {s : State} {t tag off : Nat} {r : StreamReq} {bs : List Byte}
    (hr : tagOf (s.tile t) tag = some r) (hw : (s.tile t).NoneWaiting) :
    DataArrived (s.tile t) ((streamData t tag off bs s).tile t) tag off r bs := by
  have hp : (sramPut t (r.sram + off) bs s).tile t = { s.tile t with
      sram := putBytes 0 (s.tile t).sram (r.sram + off) bs
      sramErr := Tbl.clear ((r.sram + off) / 8) (bs.length / 8) (s.tile t).sramErr } := State.setTile_tile_same ..
  have e : (streamData t tag off bs s).tile t =
      setTag tag (r.after off bs.length) ((sramPut t (r.sram + off) bs s).tile t) := by
    simp only [streamData, hr, StreamReq.after]
    split
    · rw [completeTag_of_noneWaiting (by rw [hp]; exact hw), State.setTile_tile_same]
    · rw [State.modTile_eq, State.setTile_tile_same]
  rw [e]
  refine ⟨fun b => ?_, tagOf_setTag .., by rw [hp]; rfl⟩
  rw [hp]
  exact putBytes_look ..

/-! ### Replies on this device (02 R80, R82, R85, 03 R139) -/

theorem lateReply_of_noneLate {s : State} {t tag : Nat} (h : (s.part (tilePart t)).late = []) :
    lateReply t tag s = none := by
  simp only [lateReply, h]
  rfl

theorem reqDevice_eq (r : StreamReq) : reqDevice r = (r.ga.extractLsb' 42 14).toNat := bits_toNat r.ga 42 14

section Served
variable {s s1 : State} {t tag : Nat} {r : StreamReq} (hr : tagOf (s.tile t) tag = some r)
  (hlate : (s.part (tilePart t)).late = []) (hlive : liveFor s t (s.tile t).launchId = true)
  (hwait : r.waiting = false) (hdev : reqDevice r = s.fab.devNum.toNat)
include hr hlate hlive hwait hdev

theorem serveReply_ok {bs : List Byte} (hin : r.inbound = true)
    (hshut : pageShut s (s.tile t).ctx (reqLocal r r.doneLen) = false)
    (hread : readPage (viaTile t (s.tile t).ctx) (reqLocal r r.doneLen) (transferAt r r.doneLen) s = (.ok bs, s1)) :
    serveReply t tag s = streamData t tag r.doneLen bs s1 := by
  simp [serveReply, lateReply_of_noneLate hlate, hr, hlive, hwait, hin, hdev, hshut, hread]

theorem ackStream_ok (hin : r.inbound = false) (hdis : r.discard = false)
    (hshut : ∀ k ∈ transfersOf r, pageShut s (s.tile t).ctx (reqLocal r k.1) = false)
    (hwrite : writeTransfers t (s.tile t).ctx r (transfersOf r) s = (none, s1)) :
    ackStream t tag s = completeTag t tag s1 := by
  have hs : (transfersOf r).any (fun k => pageShut s (s.tile t).ctx (reqLocal r k.1)) = false := by
    simpa using hshut
  simp [ackStream, lateReply_of_noneLate hlate, hr, hlive, hwait, hin, hdis, hdev, hs, hwrite]

end Served

/-- The oldest accepted spill line of the tile, of its launch and of its partition's generation, is counted off. -/
theorem ackEddy_spill {s : State} {t i : Nat} {f : SpillFly}
    (hi : s.spills.findIdx? (fun f => f.acked && decide (f.tile = t)) = some i) (hf : s.spills[i]? = some f)
    (hg : f.rgen = (s.part (tilePart t)).rgen) (hl : f.launch = (s.tile t).launchId) :
    ackEddy t s = { s with spills := listDrop s.spills i }.setTile t
      { s.tile t with eddyOut := (s.tile t).eddyOut - 1 } := by
  have ht : ({ s with spills := listDrop s.spills i } : State).tile t = s.tile t := rfl
  have hp : (({ s with spills := listDrop s.spills i } : State).part (tilePart t)).rgen = f.rgen := hg.symm
  simp only [ackEddy, hi, hf, hp, ne_eq, not_true, if_false, State.modTile_eq, ht, ← hl, if_true]

theorem streamTimeout_late {s : State} {t tag : Nat} {r : StreamReq} (hr : tagOf (s.tile t) tag = some r)
    (hw : r.waiting = false) (h : 2000000 ≤ s.since r.sentAt) :
    streamTimeout t tag s = streamTrap t tag 0x0F (standsAt s r) r s := by
  simp only [streamTimeout, hr, hw, h]
  rfl

theorem streamTimeout_early {s : State} {t tag : Nat} {r : StreamReq} (hr : tagOf (s.tile t) tag = some r)
    (h : s.since r.sentAt < 2000000) : streamTimeout t tag s = s := by
  simp [streamTimeout, hr, Nat.not_le_of_lt h]

/-- Settles O15: one lemma for each kind of reply. -/
theorem streamReplies : Obligations.StreamReplies := by
  unfold Obligations.StreamReplies
  refine ⟨?_, ?_, ?_, ?_⟩
  · intro s s1 t tag r bs hr hlate hheld hlive hwait hin hdev hshut hread ht hnone
    have hr1 : tagOf (s1.tile t.val) tag.val = some r := by rw [ht]; exact hr
    have h := streamData_tile (off := r.doneLen) (bs := bs) hr1 (by rw [ht]; exact hnone)
    rw [ht] at h
    have e : exec (.streamReply t tag) s = .next (streamData t.val tag.val r.doneLen bs s1) := by
      show Host.Outcome.next (resume t.val (serveReply t.val tag.val s)) = _
      rw [serveReply_ok hr hlate hlive hwait ((reqDevice_eq r).trans hdev) hin hshut hread,
        resume_of_notHeld (h.held.trans hheld)]
    exact ⟨_, e, h.sram, h.tag⟩
  · intro s s1 t tag r hr hlate hheld hlive hwait hin hdis hdev hshut hwrite ht hnone
    have e : exec (.writeAck t (.stream tag)) s =
        .next (s1.setTile t.val (setTag tag.val none (s.tile t.val))) := by
      show Host.Outcome.next (resume t.val (ackStream t.val tag.val s)) = _
      rw [ackStream_ok hr hlate hlive hwait ((reqDevice_eq r).trans hdev) hin hdis hshut hwrite,
        completeTag_of_noneWaiting (by rw [ht]; exact hnone), ht, resume_of_notHeld]
      rw [State.setTile_tile_same]
      exact hheld
    exact ⟨_, e, onlyTile_set ..⟩
  · intro s t i f hheld hi hf hg hl
    have e := ackEddy_spill hi hf hg hl
    have ht := (congrArg (State.tile · t.val) e).trans (State.setTile_tile_same ..)
    refine ⟨ackEddy t.val s, congrArg _ (resume_of_notHeld ?_), by rw [e]; rfl, ht⟩
    exact (congrArg Tile.held ht).trans hheld
  · intro s t tag r hr
    exact ⟨fun hw h => congrArg _ (streamTimeout_late hr hw h), fun h => congrArg _ (streamTimeout_early hr h)⟩

end Sys2Proof.Machine

/-!
O36. Replies of other devices (02 R82, 07 R297, R302, 11 R458): one of a stale generation is dropped at the edge of its
partition, another arrives at its request (`ReplyArrives`).
-/

namespace Sys2Proof.Machine

section Reply
variable {s : State} {i : Nat} {a : Arrival}

theorem arrivalFor_of_type {ty : PType} (ha : s.fab.arrived[i]? = some a) (hd : a.pkt.dest = s.devNo)
    (ht : a.pkt.ptype = ty) : arrivalFor s i ty = some a.pkt := by
  simp only [arrivalFor, ha]
  exact if_pos ⟨ht, hd⟩

theorem atEdge_of_stale {q : Packet} {act : Nat → State → State} (hh : q.handle.toNat < 2 ^ 31)
    (hg : (s.part (tilePart (handleTile q))).rgen ≠ q.rgen) :
    atEdge i q act s = staleReply (tilePart (handleTile q)) (takeArrival i s) := by
  simp only [atEdge, Nat.not_le_of_lt hh]
  exact if_pos hg

theorem atEdge_of_current {q : Packet} {act : Nat → State → State} (hh : q.handle.toNat < 2 ^ 31)
    (hg : (s.part (tilePart (handleTile q))).rgen = q.rgen) (hr : repliesTo s q = true) :
    atEdge i q act s = act (handleTile q) (takeArrival i s) := by
  simp only [atEdge, Nat.not_le_of_lt hh]
  exact (if_neg (not_not_intro hg)).trans (if_pos hr)

theorem takeArrival_tile (i : Nat) (s : State) (t : Nat) : (takeArrival i s).tile t = s.tile t := rfl

theorem replyReq_takeArrival (i : Nat) (s : State) (q : Packet) : replyReq (takeArrival i s) q = replyReq s q := rfl

theorem tagOf_of_replyReq {q : Packet} {tag : Nat} {r : StreamReq} (h : replyReq s q = some (tag, r)) :
    tagOf (s.tile (handleTile q)) tag = some r := by
  unfold replyReq at h
  split at h
  · split at h
    · rename_i hr _
      obtain ⟨rfl, rfl⟩ := Prod.mk.inj (Option.some.inj h)
      exact hr
    · contradiction
  · contradiction

/-- The trap that a fault reply raises at its source (07 Table 7-5). -/
theorem replyCause_eq (b : BitVec 8) : replyCause b.toNat =
    if b = 2#8 then 0x0A else if b = 3#8 then 0x0B else if b = 4#8 then 0x0C else 0x0D := by
  have h (n : BitVec 8) : b = n ↔ b.toNat = n.toNat := BitVec.toNat_inj.symm
  simp only [h]
  unfold replyCause
  split
  · rename_i h2
    rw [h2]
    rfl
  · rename_i h3
    rw [h3]
    rfl
  · rename_i h4
    rw [h4]
    rfl
  · rename_i h2 h3 h4
    exact ((if_neg h2).trans ((if_neg h3).trans (if_neg h4))).symm

theorem exec_reply_stale {q : Packet} {ty : PType} (hty : ty = .replyData ∨ ty = .replyAck ∨ ty = .replyFault)
    (ha : arrivalFor s i ty = some q) (hh : q.handle.toNat < 2 ^ 31)
    (hg : (s.part (tilePart (handleTile q))).rgen ≠ q.rgen) :
    exec (if ty = .replyData then .replyData i else if ty = .replyAck then .replyAck i else .replyFault i) s =
      .next (staleReply (tilePart (handleTile q)) (takeArrival i s)) := by
  obtain rfl | rfl | rfl := hty
  · show Host.Outcome.next (replyData i s) = _
    simp only [replyData, ha, atEdge_of_stale hh hg]
  · show Host.Outcome.next (replyAck i s) = _
    simp only [replyAck, ha, atEdge_of_stale hh hg]
  · show Host.Outcome.next (replyFault i s) = _
    simp only [replyFault, ha, atEdge_of_stale hh hg]

/-- A reply that crosses the edge of its partition to a tile that still runs the launch whose request it answers. -/
structure ReplyArrives (s : State) (i : Nat) (a : Arrival) (ty : PType) (tag : Nat) (r : StreamReq) : Prop where
  arrived : s.fab.arrived[i]? = some a
  dest : a.pkt.dest = s.devNo
  type : a.pkt.ptype = ty
  handle : a.pkt.handle.toNat < 2 ^ 30
  rgen : (s.part (tilePart (handleTile a.pkt))).rgen = a.pkt.rgen
  live : repliesTo s a.pkt = true
  req : replyReq s a.pkt = some (tag, r)

theorem ReplyArrives.atEdge {ty : PType} {tag : Nat} {r : StreamReq} (h : ReplyArrives s i a ty tag r)
    (act : Nat → State → State) :
    atEdge i a.pkt act s = act (handleTile a.pkt) (takeArrival i s) :=
  atEdge_of_current (Nat.lt_trans h.handle (by decide)) h.rgen h.live

theorem ReplyArrives.arrivalFor {ty : PType} {tag : Nat} {r : StreamReq} (h : ReplyArrives s i a ty tag r) :
    arrivalFor s i ty = some a.pkt := arrivalFor_of_type h.arrived h.dest h.type

theorem ReplyArrives.not_isEddy {ty : PType} {tag : Nat} {r : StreamReq} (h : ReplyArrives s i a ty tag r) :
    ¬ isEddy a.pkt = true := by
  rw [isEddy, decide_eq_true_eq]
  exact Nat.not_le_of_lt h.handle

variable {tag : Nat} {r : StreamReq}

theorem replyData_inside (h : ReplyArrives s i a .replyData tag r) (hin : r.inbound = true)
    (hlo : reqLocal r 0 ≤ a.pkt.loc.toNat) (hhi : a.pkt.loc.toNat + a.pkt.data.length ≤ reqLocal r 0 + r.len) :
    replyData i s = resume (handleTile a.pkt)
      (streamData (handleTile a.pkt) tag (a.pkt.loc.toNat - reqLocal r 0) a.pkt.data (takeArrival i s)) := by
  simp [replyData, h.arrivalFor, h.atEdge, replyReq_takeArrival, h.req, hin, hlo, hhi]

theorem replyAck_last (h : ReplyArrives s i a .replyAck tag r) (hin : r.inbound = false)
    (hl : (packetCuts r).length ≤ r.doneLen + 1) (hb : beyond r = none) :
    replyAck i s = resume (handleTile a.pkt) (completeTag (handleTile a.pkt) tag (takeArrival i s)) := by
  simp [replyAck, h.arrivalFor, h.atEdge, h.not_isEddy, replyReq_takeArrival, h.req, hin, hl, hb]

theorem replyAck_beyond {off : Nat} (h : ReplyArrives s i a .replyAck tag r) (hin : r.inbound = false)
    (hl : (packetCuts r).length ≤ r.doneLen + 1) (hb : beyond r = some off) :
    replyAck i s = streamTrap (handleTile a.pkt) tag 0x0A off r (takeArrival i s) := by
  simp [replyAck, h.arrivalFor, h.atEdge, h.not_isEddy, replyReq_takeArrival, h.req, hin, hl, hb]
  rfl

theorem replyAck_more (h : ReplyArrives s i a .replyAck tag r) (hin : r.inbound = false)
    (hl : ¬ (packetCuts r).length ≤ r.doneLen + 1) :
    replyAck i s = (takeArrival i s).setTile (handleTile a.pkt)
      (setTag tag (some { r with doneLen := r.doneLen + 1 }) (s.tile (handleTile a.pkt))) := by
  simp [replyAck, h.arrivalFor, h.atEdge, h.not_isEddy, replyReq_takeArrival, h.req, hin, hl, takeArrival_tile]

theorem replyFault_traps (h : ReplyArrives s i a .replyFault tag r) :
    replyFault i s = streamTrap (handleTile a.pkt) tag (replyCause a.pkt.reason.toNat) (transferOf r a.pkt.loc.toNat) r
      (takeArrival i s) := by
  simp [replyFault, h.arrivalFor, h.atEdge, h.not_isEddy, replyReq_takeArrival, h.req]

/-- A write with all its pages: the acknowledgement is counted, and that of the last packet completes the tag. -/
theorem replyAck_counted (h : ReplyArrives s i a .replyAck tag r) (hin : r.inbound = false) (hb : beyond r = none)
    (hheld : (s.tile (handleTile a.pkt)).held = none) (hw : (s.tile (handleTile a.pkt)).NoneWaiting) :
    replyAck i s = (takeArrival i s).setTile (handleTile a.pkt) (setTag tag
      (if (packetCuts r).length ≤ r.doneLen + 1 then none else some { r with doneLen := r.doneLen + 1 })
      (s.tile (handleTile a.pkt))) := by
  by_cases hl : (packetCuts r).length ≤ r.doneLen + 1
  · rw [replyAck_last h hin hl hb, completeTag_of_noneWaiting (s := takeArrival i s) hw, takeArrival_tile,
      resume_of_notHeld, if_pos hl]
    rw [State.setTile_tile_same]
    exact hheld
  · rw [replyAck_more h hin hl, if_neg hl]

end Reply

/-- Settles O36: a reply is dropped at the edge (`atEdge_of_stale`), or it arrives at its request (`ReplyArrives`). -/
theorem packetReplyResults : Obligations.PacketReplyResults := by
  unfold Obligations.PacketReplyResults
  intro s i a ha hd hh q t p rest command
  refine ⟨?_, ?_⟩
  · intro hty hg
    exact exec_reply_stale hty (arrivalFor_of_type ha hd rfl) hh hg
  · intro tag r hg hlive hheld hh30 hreq hw
    have arrives {ty : PType} (hty : q.ptype = ty) : ReplyArrives s i a ty tag r :=
      ⟨ha, hd, hty, hh30, hg, hlive, hreq⟩
    refine ⟨fun hty hin hlo hhi => ?_, fun off hty hin hl hb => ?_, fun hty hin hb => ?_, fun hty => ?_⟩
    · have h := streamData_tile (s := rest) (off := q.loc.toNat - reqLocal r 0) (bs := q.data)
        (tagOf_of_replyReq hreq) hw
      have e : exec (.replyData i) s = .next (streamData t tag (q.loc.toNat - reqLocal r 0) q.data rest) := by
        show Host.Outcome.next (replyData i s) = _
        rw [replyData_inside (arrives hty) hin hlo hhi, resume_of_notHeld (h.held.trans hheld)]
      exact ⟨_, e, h.sram, h.tag⟩
    · exact congrArg Host.Outcome.next (replyAck_beyond (arrives hty) hin hl hb)
    · refine ⟨_, congrArg Host.Outcome.next (replyAck_counted (arrives hty) hin hb hheld hw), ?_, fun u hu => ?_⟩
      · rw [State.setTile_tile_same, tagOf_setTag]
      · exact State.setTile_tile_other _ _ _ _ hu
    · refine congrArg Host.Outcome.next ((replyFault_traps (arrives hty)).trans ?_)
      rw [replyCause_eq]
      rfl

end Sys2Proof.Machine

/-!
O18. How a tile begins, the MISC instructions and TRAP. RBNEXT outside a pair check is one probe of the crew's queues
(`probe_own`, `probe_steals`, `probe_none`) and the giving of the index found (`exec_rbnext_gives`).
-/

namespace Sys2Proof.Machine

/-! ### How a tile begins (02 R63, R64, 06 R264, 08 R336) -/

/-- What a table holds after the words of a list have been loaded into it from word k. -/
theorem look_foldl_put (l : List Word) (k i : Nat) (m : Tbl Word) :
    Tbl.look 0#32 i ((l.zipIdx k).foldl (fun m e => Tbl.put 0 e.2 e.1 m) m) =
      if k ≤ i ∧ i < k + l.length then l.getD (i - k) 0#32 else Tbl.look 0#32 i m := by
  induction l generalizing k m with
  | nil => exact (if_neg (by simp)).symm
  | cons w l ih =>
    have hp : Tbl.look 0#32 i (Tbl.put 0 k w m) = if i = k then w else Tbl.look 0#32 i m := Tbl.look_put ..
    rw [List.zipIdx_cons, List.foldl_cons, ih, hp, List.length_cons]
    by_cases h : k + 1 ≤ i
    · have e : i - k = i - (k + 1) + 1 := by omega
      rw [if_neg (c := i = k) (by omega), e, List.getD_cons_succ]
      exact if_congr (by omega) rfl rfl
    · by_cases hk : i = k
      · rw [if_neg (by omega), if_pos hk, if_pos (by omega), hk, Nat.sub_self, List.getD_cons_zero]
      · rw [if_neg (by omega), if_neg hk, if_neg (by omega)]

/-- The code image is loaded from word 0. -/
theorem freshTile_imem (x : Tile) (image : List Word) (i : Nat) :
    Tbl.look 0#32 i (freshTile x image).imem = image.getD i 0#32 := by
  refine (look_foldl_put image 0 i []).trans ?_
  by_cases h : i < image.length
  · exact if_pos ⟨Nat.zero_le i, by omega⟩
  · rw [if_neg (by omega), List.getD_eq_default _ _ (Nat.le_of_not_lt h), Tbl.look_nil]

theorem codeArrive_loads {s : State} {t : Nat} {e : Exec} (hr : (s.tile t).run = .waitCode)
    (he : launchOf s (s.tile t) = some e) : codeArrive t s = s.setTile t (freshTile (s.tile t) e.image) := by
  simp [codeArrive, hr, he]

section Begin
variable {s : State} {t : Nat} {e : Exec} (hr : (s.tile t).run = .loaded) (he : launchOf s (s.tile t) = some e)
include hr he

theorem execBegin_begins (ha : (s.ctx (s.tile t).ctx).abort = none)
    (hc : e.launch.desc.isCatch = false ∨ e.slipped = true ∨ e.launch.desc.catchCnt ≤ s.now.toNat) :
    execBegin t s = s.setTile t { s.tile t with run := .running, pc := (s.tile t).entry, cycle := 0 } := by
  have hheld : (e.launch.desc.isCatch && !e.slipped && decide (s.now.toNat < e.launch.desc.catchCnt)) = false := by
    obtain h | h | h := hc
    · rw [h, Bool.false_and, Bool.false_and]
    · rw [h, Bool.not_true, Bool.and_false, Bool.false_and]
    · rw [decide_eq_false (Nat.not_lt_of_le h), Bool.and_false]
  simp [execBegin, he, hr, ha, hheld]

theorem execBegin_holds (hc : e.launch.desc.isCatch = true) (hs : e.slipped = false)
    (hn : s.now.toNat < e.launch.desc.catchCnt) : execBegin t s = s := by
  simp [execBegin, he, hr, hc, hs, hn]

end Begin

/-! ### NOP, SIG, RBINIT, WAKE, TRAP (03 R141, R142, 02 R92) -/

theorem nop_completes : Completes .nop .nop 1 0 (fun _ => []) (fun _ x => x) := by
  intro s t w hi
  refine ⟨_, congrArg Host.Outcome.next (issue_retires hi rfl), finish_only (onlyTile_refl ..) rfl⟩

theorem map_vbyte_eq (v : VWord) : (List.range 16).map (vbyte v) = leBytes 16 v.toNat := by
  rw [leBytes_eq_map]
  refine List.map_congr_left fun i _ => ?_
  rw [vbyte, BitVec.extractLsb', Nat.shiftRight_eq_div_pow]

theorem sig_completes : Completes .sig .sig 2 0 (fun _ => []) (fun w x => { x with
    sig := x.sig + BitVec.ofNat 64
      (crc64 (leBytes 16 (x.vreg (wRd w % 16)).toNat ++ leBytes 8 (x.sreg (wRs1 w)).toNat)) }) := by
  refine completes_of_regOp (fun _ _ => rfl) (fun w x => ?_) (fun _ _ => rfl)
  rw [map_vbyte_eq]
  rfl

theorem rbinit_completes : Completes .rbinit .rbinit 1 0 (fun _ => []) (fun w x => { x with
    rbHead := x.sreg (wRd w), rbLen := ((x.sreg (wRs1 w)).extractLsb' 0 16).toNat }) := by
  refine completes_of_regOp (fun _ _ => rfl) (fun w x => ?_) (fun _ _ => rfl)
  rw [BitVec.extractLsb'_toNat, Nat.shiftRight_zero]

theorem openWake_tile (c n : Nat) (s : State) (u : Nat) : (openWake c n s).tile u = s.tile u := by
  unfold openWake
  split
  · rfl
  · extract_lets full k s1
    split
    · rfl
    · split
      · exact raise_tile_at _ _ _ s1 u
      · rfl

/-- The launch keeps wake point n, as it did or from now on. -/
theorem openWake_keeps {c n : Nat} {s : State} {e : Exec} (he : (s.ctx c).exec = some e) :
    ∃ e', ((openWake c n s).ctx c).exec = some e' ∧ ∃ k ∈ e'.wakes, k.num = n := by
  by_cases hk : e.wakes.any (fun k => decide (k.num = n)) = true
  · have ho : openWake c n s = s := by simp [openWake, he, hk]
    rw [ho]
    exact ⟨e, he, by simpa using hk⟩
  · unfold openWake
    split
    · rename_i hn
      rw [he] at hn
      contradiction
    rename_i e' he'
    obtain rfl : e = e' := Option.some.inj (he.symm.trans he')
    extract_lets full k s1
    rw [if_neg hk]
    have h1 : (s1.ctx c).exec = some { e with wakes := e.wakes ++ [k], wakeOver := e.wakeOver || full } :=
      (modExec_exec c _ s).trans (by rw [he]; rfl)
    have h2 : ∃ k' ∈ e.wakes ++ [k], k'.num = n := ⟨k, by simp, rfl⟩
    split
    · exact ⟨_, by rw [raise_ctx_at, h1], h2⟩
    · exact ⟨_, h1, h2⟩

theorem bodyWake_close {s : State} {t c : Nat} {w : Word} (h : w.getLsbD 0 = false) :
    bodyWake t w c s = .retire 1 [] 0 (s.setTile t { s.tile t with wake := none }) := by
  have hb : bit (wImm8 w) 0 = false := by rw [wImm8_eq, bit_toNat]; simpa using h
  simp [bodyWake, hb]

/-- The state after tile t has opened wake point n; a partner forms no digest. -/
def wakeOpened (t n : Nat) (s : State) : State :=
  let s1 := s.setTile t { s.tile t with wake := some n }
  if (s.tile t).job = .launch then openWake (s.tile t).ctx n s1 else s1

theorem bodyWake_open {s : State} {t c : Nat} {w : Word} (h : w.getLsbD 0 = true) :
    bodyWake t w c s = .retire 1 [] 0 (wakeOpened t (((s.tile t).sreg (wRd w)).toNat % 1024) s) := by
  have hb : bit (wImm8 w) 0 = true := by rw [wImm8_eq, bit_toNat]; simpa using h
  simp [bodyWake, hb, wakeOpened]

theorem wakeOpened_tile (t n : Nat) (s : State) : (wakeOpened t n s).tile t = { s.tile t with wake := some n } := by
  unfold wakeOpened
  split
  · rw [openWake_tile, State.setTile_tile_same]
  · rw [State.setTile_tile_same]

theorem wakeOpened_keeps {t n : Nat} {s : State} {e : Exec} (hj : (s.tile t).job = .launch)
    (he : (s.ctx (s.tile t).ctx).exec = some e) :
    ∃ e', ((wakeOpened t n s).ctx (s.tile t).ctx).exec = some e' ∧ ∃ k ∈ e'.wakes, k.num = n := by
  simp only [wakeOpened, if_pos hj]
  exact openWake_keeps he

/-! ### HALT (02 R65) -/

theorem run_of_issues {s : State} {t : Nat} {op : Op} {w : Word} (hi : Issues s t op w) :
    (s.tile t).run = .running := by
  obtain ⟨hm, -⟩ := hi
  simp only [mayIssue, Bool.and_eq_true, decide_eq_true_eq] at hm
  obtain ⟨⟨⟨hrun, -⟩, -⟩, -⟩ := hm
  exact hrun

theorem gather_of_haltClear {x : Tile} (h : haltClear x = true) : x.gather.isEmpty = true := by
  simp only [haltClear, Bool.and_eq_true] at h
  obtain ⟨⟨⟨⟨-, hgather⟩, -⟩, -⟩, -⟩ := h
  exact hgather

theorem issue_halt_clear {s : State} {t : Nat} {w : Word} (hi : Issues s t .halt w)
    (hc : haltClear (s.tile t) = true) :
    issue t .halt bodyHalt s = s.setTile t { s.tile t with
      run := .halting, held := none, wake := none, cycle := issueAt (s.tile t) .halt w + 1 } := by
  have hf : flushLine t s = s := by simp [flushLine, gather_of_haltClear hc]
  have e : (s.tile t).cycle + (issueAt (s.tile t) .halt w - (s.tile t).cycle) = issueAt (s.tile t) .halt w :=
    Nat.add_sub_cancel' (issueAt_ge _ _ _)
  simp [issue_perform _ hi, perform, bodyHalt, hf, unlessGated, run_of_issues hi, gather_of_haltClear hc, hc, e]

/-- No tile replays another under a pair check. -/
def State.NoReplayers (s : State) : Prop := ∀ e ∈ s.tiles, e.2.job ≠ .partner ∧ e.2.job ≠ .triage

theorem State.NoReplayers.setTile {s : State} (h : s.NoReplayers) (t : Nat) {y : Tile} (hy : y.job = .launch) :
    (s.setTile t y).NoReplayers := by
  intro e he
  have hp : e ∈ Tbl.put {} t y s.tiles := he
  obtain rfl | he := Tbl.mem_of_mem_put hp
  · simp [hy]
  · exact h e he

theorem resumeReplayers_of_none {s : State} {t : Nat} (h : (s.tile t).job = .launch → s.NoReplayers) :
    resumeReplayers t s = s := by
  by_cases hj : (s.tile t).job = .launch
  · have hl : replayers s (s.tile t) = [] := by
      rw [replayers, List.map_eq_nil_iff, List.filter_eq_nil_iff]
      intro e he
      simp [h hj e he]
    simp only [resumeReplayers, hj, hl, if_true]
    rfl
  · simp only [resumeReplayers, hj, if_false]

theorem noteCycles_tile (c n : Nat) (s : State) (u : Nat) : (noteCycles c n s).tile u = s.tile u := rfl

theorem haltRetire_of_busy {s : State} {t : Nat} (h : haltClear (s.tile t) = false) : haltRetire t s = s := by
  simp [haltRetire, h]

theorem haltRetire_of_clear {s : State} {t : Nat} (hr : (s.tile t).run = .halting)
    (hc : haltClear (s.tile t) = true) (hno : s.NoReplayers) :
    (haltRetire t s).tile t = { s.tile t with run := .halted, eddy := [], eddyErr := [] } ∧
      ∀ u, u ≠ t → (haltRetire t s).tile u = s.tile u := by
  have hif : (s.tile t).run = .halting ∧ haltClear (s.tile t) = true := ⟨hr, hc⟩
  unfold haltRetire
  extract_lets x s1 s2
  rw [if_pos hif]
  have h2 (u : Nat) : s2.tile u = s1.tile u := by
    unfold s2
    split
    · exact noteCycles_tile ..
    · rfl
  have ht : s2.tile t = { s.tile t with run := .halted, eddy := [], eddyErr := [] } :=
    (h2 t).trans (State.setTile_tile_same ..)
  have h2tiles : s2.tiles = s1.tiles := by
    unfold s2
    split <;> rfl
  have hno2 : (s2.tile t).job = .launch → s2.NoReplayers := by
    intro hj
    rw [ht] at hj
    rw [State.NoReplayers, h2tiles]
    exact hno.setTile t hj
  rw [resumeReplayers_of_none hno2]
  exact ⟨ht, fun u hu => (h2 u).trans (State.setTile_tile_other _ _ _ _ hu)⟩

/-! ### RBNEXT (03 R143) -/

/-- Waiting for the queue unit changes nothing but the count of free values drawn. -/
theorem queueWait_changes (t : Nat) (s : State) : ∃ f, (queueWait t s).2 = { s with freeIx := f } := by
  simp only [queueWait]
  split
  · exact ⟨_, rfl⟩
  · exact ⟨_, rfl⟩

theorem queueWait_le (t : Nat) (s : State) : (queueWait t s).1 ≤
    ((crewPeers s (s.tile t)).filter (fun e => decide (e.1 ≠ t) && decide (e.2.run = .running))).length := by
  simp only [queueWait]
  split
  · exact Nat.zero_le _
  · exact Nat.le_of_lt_succ (Nat.mod_lt _ (Nat.succ_pos _))

section Probe
variable {l : List (Nat × Tile)} {tid i : Nat}

/-- A queue that holds no index, or that no tile of the crew has, is passed over. -/
theorem probe_of_empty (n : Nat) (h : ∀ e, peerTid l ((tid + i) % 8) = some e → e.2.rbLen = 0) :
    probe l tid i (n + 1) = probe l tid (i + 1) n := by
  simp only [probe]
  split
  · rfl
  · rename_i q y hp
    exact if_pos (h _ hp)

theorem probe_of_emptyRun (k n : Nat)
    (h : ∀ j, i ≤ j → j < i + k → ∀ e, peerTid l ((tid + j) % 8) = some e → e.2.rbLen = 0) :
    probe l tid i (k + n) = probe l tid (i + k) n := by
  induction k generalizing i with
  | zero => rw [Nat.zero_add, Nat.add_zero]
  | succ k ih =>
    rw [Nat.succ_add, probe_of_empty _ (h i (Nat.le_refl i) (by omega)),
      ih (fun j h1 h2 => h j (by omega) (by omega)), Nat.add_assoc, Nat.add_comm 1 k]

/-- The head of the tile's own queue. -/
theorem probe_own {q n : Nat} {y : Tile} (hp : peerTid l (tid % 8) = some (q, y)) (hy : y.rbLen ≠ 0) :
    probe l tid 0 (n + 1) = some (y.rbHead, q, { y with rbHead := y.rbHead + 1, rbLen := y.rbLen - 1 }, 0) := by
  simp [probe, hp, hy]

/-- The tail of the first queue after it that holds an index. -/
theorem probe_steals {q n : Nat} {y : Tile} (h0 : 0 < i) (h8 : i < n)
    (he : ∀ j, j < i → ∀ e, peerTid l ((tid + j) % 8) = some e → e.2.rbLen = 0)
    (hp : peerTid l ((tid + i) % 8) = some (q, y)) (hy : y.rbLen ≠ 0) :
    probe l tid 0 n = some (y.rbHead + BitVec.ofNat 32 (y.rbLen - 1), q, { y with rbLen := y.rbLen - 1 }, i) := by
  obtain ⟨m, rfl⟩ : ∃ m, n = i + (m + 1) := ⟨n - i - 1, by omega⟩
  rw [probe_of_emptyRun i (m + 1) (fun j _ h => he j (by omega)), Nat.zero_add]
  simp [probe, hp, hy, Nat.ne_of_gt h0]

theorem probe_none {n : Nat} (he : ∀ j, j < n → ∀ e, peerTid l ((tid + j) % 8) = some e → e.2.rbLen = 0) :
    probe l tid 0 n = none :=
  probe_of_emptyRun n 0 (fun j _ h => he j (by omega))

end Probe

theorem job_of_peerTid {s : State} {x y : Tile} {k q : Nat} (h : peerTid (crewPeers s x) k = some (q, y)) :
    y.job = x.job := by
  have hm := (List.mem_filter.mp (List.mem_of_find?_eq_some h)).2
  simp only [Bool.and_eq_true, decide_eq_true_eq] at hm
  obtain ⟨⟨⟨⟨-, hjob⟩, -⟩, -⟩, -⟩ := hm
  exact hjob

/-- Outside a pair check an index is given in `cost` cycles. -/
theorem giveIndex_of_unpaired {s : State} {t cost : Nat} {w v : Word} (hp : pairOf s (s.tile t) = none)
    (hl : (s.tile t).rbLog = []) (hr : (s.tile t).run = .running) :
    giveIndex t w v cost s = .retire cost [rcS (wRd w)] 1 (s.setTile t ((s.tile t).setS (wRd w) v)) := by
  simp [giveIndex, hp, hl, unlessGated, hr]

section Rbnext
variable {s : State} {t : Nat} {w : Word}

theorem bodyRbnext_takes (hj : (s.tile t).job = .launch) (c : Nat) {v : Word} {q i : Nat} {y : Tile}
    (hp : probe (crewPeers s (s.tile t)) (s.tile t).tid 0 8 = some (v, q, y, i)) :
    bodyRbnext t w c s = giveIndex t w v ((queueWait t s).1 + (2 + i)) ((queueWait t s).2.setTile q y) := by
  obtain ⟨f, hf⟩ := queueWait_changes t s
  have hcp : crewPeers (queueWait t s).2 (s.tile t) = crewPeers s (s.tile t) := by rw [hf]; rfl
  simp only [bodyRbnext, hj, if_true, hcp, hp]

theorem bodyRbnext_empty (hj : (s.tile t).job = .launch) (c : Nat)
    (hp : probe (crewPeers s (s.tile t)) (s.tile t).tid 0 8 = none) :
    bodyRbnext t w c s = giveIndex t w 0xFFFFFFFF#32 ((queueWait t s).1 + 9) (queueWait t s).2 := by
  obtain ⟨f, hf⟩ := queueWait_changes t s
  have hcp : crewPeers (queueWait t s).2 (s.tile t) = crewPeers s (s.tile t) := by rw [hf]; rfl
  simp only [bodyRbnext, hj, if_true, hcp, hp]

/-- RBNEXT outside a pair check: s1 is the state after the queue has given its index, where the tile is x1. -/
theorem exec_rbnext_gives {s1 : State} {t : TileIx} {x1 : Tile} {v : Word} {cost : Nat} (hi : Issues s t.val .rbnext w)
    (hb : bodyRbnext t.val w (issueAt (s.tile t.val) .rbnext w) s = giveIndex t.val w v cost s1)
    (ht : s1.tile t.val = x1) (hpair : pairOf s1 x1 = none) (hlog : x1.rbLog = []) (hrun : x1.run = .running)
    (hjob : x1.job = .launch) (hcyc : x1.cycle = (s.tile t.val).cycle) (hno : s1.NoReplayers) :
    ∃ s', exec (.rbnext t) s = .next s' ∧ OnlyTile s1 s' t.val
      (retireAt (s.tile t.val) .rbnext w cost ((s.tile t.val).pc + 1) [rcS (wRd w)] 1 (x1.setS (wRd w) v)) := by
  subst ht
  have hg := hb.trans (giveIndex_of_unpaired hpair hlog hrun)
  have e := issue_retires_setTile hi hg (by rw [State.setTile_tile_same, Tile.setS_cycle, hcyc])
  rw [State.setTile_tile_same] at e
  have hset : ((s1.tile t.val).setS (wRd w) v).job = .launch := by
    rw [← hjob, Tile.setS]
    split <;> rfl
  have hno' := (hno.setTile t.val hset).setTile t.val
    (y := retireAt (s.tile t.val) .rbnext w cost ((s.tile t.val).pc + 1) [rcS (wRd w)] 1 _) hset
  refine ⟨_, congrArg Host.Outcome.next ((congrArg (resumeReplayers t.val) e).trans
    (resumeReplayers_of_none fun _ => hno')), onlyTile_setTile (onlyTile_set ..) _⟩

end Rbnext

theorem onlyTile_of_setTile {r s : State} {t : Nat} {y z : Tile} (h : OnlyTile (r.setTile t z) s t y) :
    OnlyTile r s t y := by
  obtain ⟨hrest, htile, hother⟩ := h
  exact ⟨hrest, htile, fun u hu => (hother u hu).trans (State.setTile_tile_other _ _ _ _ hu)⟩

/-- What RBNEXT of tile t finds: a launch's tile under no pair check, and no tile replays another. -/
structure RbnextAlone (s : State) (t : Nat) (w : Word) : Prop where
  issues : Issues s t .rbnext w
  job : (s.tile t).job = .launch
  unpaired : pairOf s (s.tile t) = none
  alone : s.NoReplayers
  log : (s.tile t).rbLog = []

section Alone
variable {s : State} {t : TileIx} {w : Word} (h : RbnextAlone s t.val w)
include h

/-- What an RBNEXT finds still holds when the queue unit is free. -/
theorem RbnextAlone.afterWait : (queueWait t.val s).2.tile t.val = s.tile t.val ∧
    pairOf (queueWait t.val s).2 (s.tile t.val) = none ∧ (queueWait t.val s).2.NoReplayers := by
  obtain ⟨f, hf⟩ := queueWait_changes t.val s
  rw [hf]
  exact ⟨rfl, h.unpaired, h.alone⟩

/-- The head of the tile's own queue. -/
theorem exec_rbnext_own
    (hp : peerTid (crewPeers s (s.tile t.val)) ((s.tile t.val).tid % 8) = some (t.val, s.tile t.val))
    (hl : (s.tile t.val).rbLen ≠ 0) :
    ∃ s', exec (.rbnext t) s = .next s' ∧ OnlyTile (queueWait t.val s).2 s' t.val
      (retireAt (s.tile t.val) .rbnext w ((queueWait t.val s).1 + 2) ((s.tile t.val).pc + 1) [rcS (wRd w)] 1
        (({ s.tile t.val with rbHead := (s.tile t.val).rbHead + 1#32, rbLen := (s.tile t.val).rbLen - 1 } : Tile).setS
          (wRd w) (s.tile t.val).rbHead)) := by
  obtain ⟨-, hpair, hno⟩ := h.afterWait
  have hb := bodyRbnext_takes (w := w) h.job (issueAt (s.tile t.val) .rbnext w) (probe_own hp hl)
  obtain ⟨s', he, ho⟩ := exec_rbnext_gives h.issues hb (State.setTile_tile_same ..) hpair h.log
    (run_of_issues h.issues) h.job rfl (hno.setTile _ h.job)
  exact ⟨s', he, onlyTile_of_setTile ho⟩

/-- The tail of the first queue after its own that holds an index. -/
theorem exec_rbnext_steals {i q : Nat} {y : Tile} (h0 : 0 < i) (h8 : i < 8) (hq : q ≠ t.val)
    (he : ∀ j, j < i → ∀ e,
      peerTid (crewPeers s (s.tile t.val)) (((s.tile t.val).tid + j) % 8) = some e → e.2.rbLen = 0)
    (hp : peerTid (crewPeers s (s.tile t.val)) (((s.tile t.val).tid + i) % 8) = some (q, y)) (hl : y.rbLen ≠ 0) :
    ∃ s', exec (.rbnext t) s = .next s' ∧
      s'.tile t.val = retireAt (s.tile t.val) .rbnext w ((queueWait t.val s).1 + (2 + i)) ((s.tile t.val).pc + 1)
        [rcS (wRd w)] 1 ((s.tile t.val).setS (wRd w) (y.rbHead + BitVec.ofNat 32 (y.rbLen - 1))) ∧
      s'.tile q = { y with rbLen := y.rbLen - 1 } := by
  obtain ⟨hsame, hpair, hno⟩ := h.afterWait
  have hb := bodyRbnext_takes (w := w) h.job (issueAt (s.tile t.val) .rbnext w) (probe_steals h0 h8 he hp hl)
  have ht : ((queueWait t.val s).2.setTile q { y with rbLen := y.rbLen - 1 }).tile t.val = s.tile t.val :=
    (State.setTile_tile_other _ _ _ _ hq.symm).trans hsame
  have hy : y.job = .launch := (job_of_peerTid hp).trans h.job
  obtain ⟨s', hx, -, htile, hother⟩ := exec_rbnext_gives h.issues hb ht hpair h.log (run_of_issues h.issues) h.job rfl
    (hno.setTile _ hy)
  exact ⟨s', hx, htile, (hother q hq).trans (State.setTile_tile_same ..)⟩

/-- No queue of the crew holds an index. -/
theorem exec_rbnext_empty
    (he : ∀ j, j < 8 → ∀ e,
      peerTid (crewPeers s (s.tile t.val)) (((s.tile t.val).tid + j) % 8) = some e → e.2.rbLen = 0) :
    ∃ s', exec (.rbnext t) s = .next s' ∧ OnlyTile (queueWait t.val s).2 s' t.val
      (retireAt (s.tile t.val) .rbnext w ((queueWait t.val s).1 + 9) ((s.tile t.val).pc + 1) [rcS (wRd w)] 1
        ((s.tile t.val).setS (wRd w) 0xFFFFFFFF#32)) := by
  obtain ⟨hsame, hpair, hno⟩ := h.afterWait
  have hb := bodyRbnext_empty (w := w) h.job (issueAt (s.tile t.val) .rbnext w) (probe_none he)
  exact exec_rbnext_gives h.issues hb hsame hpair h.log (run_of_issues h.issues) h.job rfl hno

end Alone

/-- Settles O18: the start of a tile, then one lemma for each MISC instruction. -/
theorem tileStartAndMiscellany : Obligations.TileStartAndMiscellany := by
  unfold Obligations.TileStartAndMiscellany
  refine ⟨⟨?_, ?_⟩, nop_completes, sig_completes, rbinit_completes, ?_, ?_, ?_, ?_, ?_⟩
  · intro s t e hr he
    have hs (n : Nat) : (freshTile (s.tile t.val) e.image).sreg n = 0#32 := by simp [Tile.sreg, freshTile]
    have hp (n : Nat) (hn : n ≠ 0) : (freshTile (s.tile t.val) e.image).preg n = false := by
      simp [Tile.preg, freshTile, hn]
    exact ⟨_, _, congrArg Host.Outcome.next (codeArrive_loads hr he), onlyTile_set .., rfl, rfl, rfl, rfl, rfl, rfl,
      rfl, hs, hp, fun _ => rfl, fun _ _ => rfl, fun _ => rfl, fun _ => rfl, rfl, rfl, rfl, rfl, rfl, rfl, rfl,
      freshTile_imem _ _⟩
  · intro s t e hr he ha
    exact ⟨fun hc => ⟨_, congrArg Host.Outcome.next (execBegin_begins hr he ha hc), onlyTile_set ..⟩,
      fun hc hs hn => congrArg Host.Outcome.next (execBegin_holds hr he hc hs hn)⟩
  · intro s t w hi n
    refine ⟨fun h0 => ⟨_, rfl, issue_retires_only hi (bodyWake_close h0) rfl⟩, fun h1 => ?_⟩
    have ht := wakeOpened_tile t.val n s
    have hcyc : ((wakeOpened t.val n s).tile t.val).cycle = (s.tile t.val).cycle := by rw [ht]
    refine ⟨_, congrArg Host.Outcome.next (issue_retires_setTile hi (bodyWake_open h1) hcyc), ?_, fun e hj he => ?_⟩
    · rw [State.setTile_tile_same, ht]
    · rw [State.setTile_ctx]
      exact wakeOpened_keeps hj he
  · intro s t w hi
    rw [← wImm8_eq]
    exact congrArg Host.Outcome.next (issue_traps hi rfl rfl)
  · intro s t w hi hc
    exact ⟨_, congrArg Host.Outcome.next (issue_halt_clear hi hc), onlyTile_set ..⟩
  · intro s t hr
    exact ⟨fun hc hno => ⟨_, rfl, haltRetire_of_clear hr hc hno⟩,
      fun hb => congrArg Host.Outcome.next (haltRetire_of_busy hb)⟩
  · intro s t w hi hjob hpair hno hlog x q0 others
    have h : RbnextAlone s t.val w := ⟨hi, hjob, hpair, hno, hlog⟩
    refine ⟨queueWait_le t.val s, fun hp _ hl => exec_rbnext_own h hp hl, ?_, fun he => exec_rbnext_empty h he⟩
    intro i q y h0 h8 hq he hp hl
    exact exec_rbnext_steals h h0 h8 hq he hp hl

end Sys2Proof.Machine

/-!
O56. What a trap does to its launch and context, and the errors of data SRAM. A launch's trap is recorded
(`TrapRecorded`), and then it decides the launch's ending, unless that is decided (`decideEnd_tileTrap_first`,
`decideEnd_tileTrap_decided`).
-/

namespace Sys2Proof.Machine

/-! ### The record of a trap (02 R96, R97, R102, Tables 2-6, 2-7) -/

theorem pushFault_of_room {p : Nat} {r : FaultRec} {s : State} (h : (s.part p).faults.items.length < 16) :
    pushFault p r s = s.setPart p { s.part p with faults := { (s.part p).faults with
      items := (s.part p).faults.items ++ [r] } } := by
  simp [pushFault, Ring.push, h]

/-- A trap of tile x, which is physical tile t, as its launch keeps it. -/
def Trap.faultOf (tr : Trap) (t : Nat) (x : Tile) (now : BitVec 64) (r : FaultRec) : FaultOf :=
  { stroke := now, crew := x.crew, tid := x.tid, ptile := t, cause := tr.cause, pc := tr.pc, frec := r }

/-- The launch after fault f of a tile that has stopped with cycle count n. -/
def Exec.faulted (e : Exec) (f : FaultOf) (n : Nat) : Exec :=
  { e with faults := e.faults ++ [f], cycles := Nat.max e.cycles n }

/-- The state in which a precise trap of a launch's tile x has been recorded: its fault record is in the partition's
ring and in the launch, and its event is raised. -/
def trapRecorded (t : Nat) (x : Tile) (tr : Trap) (secondary : Bool) (s : State) : State :=
  let r := faultRecord s t x tr secondary
  let s1 := raise (0x1000 + tr.cause) (tilePart t) x.launchId.toNat (pushFault (tilePart t) r s)
  noteCycles x.ctx (x.cycle + 1)
    (s1.modExec x.ctx (fun e => { e with faults := e.faults ++ [tr.faultOf t x s1.now r] }))

section Record
variable {t : Nat} {x : Tile} {tr : Trap} {e : Exec} {s : State}

theorem trapLaunch_first (hp : tr.imprecise = false) (hf : e.faults = []) :
    trapLaunch t x tr e s =
      decideEnd x.ctx stTileTrap 0 (trapRecorded t x tr false s).now (trapRecorded t x tr false s) := by
  simp only [trapLaunch, hf, hp]
  rfl

theorem trapLaunch_later {f : FaultOf} (hp : tr.imprecise = false) (hf : e.faults = [f]) (hs : f.stroke ≠ s.now) :
    trapLaunch t x tr e s =
      decideEnd x.ctx stTileTrap 0 (trapRecorded t x tr true s).now (trapRecorded t x tr true s) := by
  have h1 : primaryFault [f] = some f := rfl
  simp only [trapLaunch, hf, hp, h1, hs, decide_false, Bool.false_and, Bool.false_eq_true, if_false]
  rfl

/-- A context whose executing launch is e. -/
def Ctx.executing (k : Ctx) (e : Exec) : Ctx := { k with exec := some e }

/-- What recording a trap changes: the partition's ring, and of the launch's context only its launch. -/
structure TrapRecorded (s s' : State) (p c : Nat) (e e' : Exec) (r : FaultRec) : Prop where
  tile : ∀ u, s'.tile u = s.tile u
  now : s'.now = s.now
  items : (s'.part p).faults.items = (s.part p).faults.items ++ [r]
  ctx : s'.ctx c = (s.ctx c).executing e'
  frecs : e'.faults.map (·.frec) = e.faults.map (·.frec) ++ [r]
  ending : e'.ending = e.ending
  began : e'.began = e.began
  pair : e'.pair = e.pair

theorem trapRecorded_records (secondary : Bool) (he : (s.ctx x.ctx).exec = some e)
    (hroom : (s.part (tilePart t)).faults.items.length < 16) :
    ∃ e', TrapRecorded s (trapRecorded t x tr secondary s) (tilePart t) x.ctx e e'
      (faultRecord s t x tr secondary) := by
  unfold trapRecorded
  extract_lets r s1
  have hpush := pushFault_of_room (r := r) hroom
  have h1tile (u : Nat) : s1.tile u = s.tile u := (raise_tile_at ..).trans (by rw [hpush]; rfl)
  have h1part : s1.part (tilePart t) = { s.part (tilePart t) with faults := { (s.part (tilePart t)).faults with
      items := (s.part (tilePart t)).faults.items ++ [r] } } :=
    (raise_part_at ..).trans (by rw [hpush, State.setPart_part_same])
  have h1ctx : s1.ctx x.ctx = s.ctx x.ctx := (raise_ctx_at ..).trans (by rw [hpush]; rfl)
  have h1now : s1.now = s.now := (raise_now ..).trans (by rw [hpush]; rfl)
  clear_value s1
  refine ⟨e.faulted (tr.faultOf t x s1.now r) (x.cycle + 1), h1tile, h1now, congrArg (·.faults.items) h1part, ?_, ?_,
    rfl, rfl, rfl⟩
  · simp only [noteCycles, State.modExec, State.modCtx_eq, State.setCtx_ctx_same, h1ctx, he, Option.map_some]
    rfl
  · simp only [Exec.faulted, List.map_append, List.map_cons, List.map_nil]
    rfl

end Record

/-! ### The ending that a trap decides (06 R270) -/

/-- The launch, ending with TILE_TRAP. -/
def Exec.endedByTrap (e : Exec) (now : BitVec 64) : Exec :=
  { e with ending := some { status := 0x10, csDetail := 0, at_ := now } }

/-- The launch's context after its first trap: the launch ends with TILE_TRAP, and its abort begins. -/
def Ctx.trapAborted (k : Ctx) (e : Exec) (now : BitVec 64) : Ctx :=
  { k with
    exec := some (e.endedByTrap now)
    st := if k.contOnFault then k.st else .aborting
    sweep := some now
    abort := some { start := now, quiesced := false, parts := [], stuck := [] } }

section Decide
variable {c : Nat} {o : BitVec 64} {s : State} {e : Exec} (hx : (s.ctx c).exec = some e)
include hx

theorem decideEnd_tileTrap_decided (he : e.ending ≠ none) : decideEnd c stTileTrap 0 o s = s := by
  obtain ⟨en, hen⟩ := Option.ne_none_iff_exists'.mp he
  have hy : evictYields s e stTileTrap = false := by
    have hc : classX stTileTrap = false := by decide
    simp [evictYields, hen, hc]
  simp [decideEnd, hx, hy, hen]

theorem voidPair_of_unpaired (hp : e.pair = none) : voidPair c s = s := by
  simp only [voidPair, hx, hp]

theorem decideEnd_tileTrap_first (he : e.ending = none) (hp : e.pair = none) (hb : e.began = true)
    (ha : (s.ctx c).abort = none) (hj : (s.ctx c).jobid = 0) :
    (∀ u, (decideEnd c stTileTrap 0 o s).tile u = s.tile u) ∧
    (∀ p, (decideEnd c stTileTrap 0 o s).part p = s.part p) ∧
    (decideEnd c stTileTrap 0 o s).ctx c = (s.ctx c).trapAborted e s.now := by
  have hy : ¬ evictYields s e stTileTrap = true := by rw [evictYields, he]; exact Bool.false_ne_true
  have hn : ¬ e.ending.isSome = true := by rw [he]; exact Bool.false_ne_true
  unfold decideEnd
  split
  · rename_i hx'
    rw [hx] at hx'
    contradiction
  rename_i e' hx'
  obtain rfl : e = e' := Option.some.inj (hx.symm.trans hx')
  extract_lets en k s2 s3 stops s4 s5
  rw [if_neg hy, if_neg hn, if_pos (by rw [hb, Bool.or_true])]
  have e2 : s2 = s := voidPair_of_unpaired hx hp
  have e3 : s3 = s.setCtx c { s.ctx c with exec := some { e with ending := some en } } := by
    unfold s3
    rw [e2, State.modExec, State.modCtx_eq, hx]
    rfl
  have hstops : stops = !(s.ctx c).contOnFault := rfl
  obtain ⟨t4, p4, n4⟩ : (∀ u, s4.tile u = s.tile u) ∧ (∀ p, s4.part p = s.part p) ∧ s4.now = s.now := by
    unfold s4
    rw [e3]
    split <;> exact ⟨fun _ => rfl, fun _ => rfl, rfl⟩
  have c4 : s4.ctx c = { s.ctx c with
      exec := some { e with ending := some en }, st := if (s.ctx c).contOnFault then (s.ctx c).st else .aborting } := by
    unfold s4
    rw [e3, hstops]
    cases (s.ctx c).contOnFault
    · rw [if_pos (by decide), State.modCtx_eq, State.setCtx_ctx_same, State.setCtx_ctx_same]
      rfl
    · rw [if_neg (by decide), State.setCtx_ctx_same]
      rfl
  have e5 : s5 = s4 := if_neg (by simp [k, hj])
  have ea : contextAbort c s4 = s4.setCtx c { s4.ctx c with
      sweep := some s.now, abort := some { start := s.now, quiesced := false, parts := [], stuck := [] } } := by
    have h4 : ¬ (s4.ctx c).abort.isSome = true := by rw [c4]; simp [ha]
    simp only [contextAbort, if_neg h4, n4]
  rw [e5, ea]
  refine ⟨t4, p4, ?_⟩
  rw [State.setCtx_ctx_same, c4]
  rfl

end Decide

/-! ### TRAP in a launch -/

/-- Tile x, stopped by a trap. -/
def Tile.trapStopped (x : Tile) : Tile :=
  { x with run := .stopped, held := none, trapped := decide (x.job ≠ .launch) }

/-- A tile of an executing launch that no abort has stopped traps: it stops, and the launch takes the trap. -/
theorem trapTile_of_launch {t : Nat} {tr : Trap} {s : State} {x : Tile} {e : Exec} (hx : s.tile t = x)
    (hr : x.run = .running) (hs : stoppedByAbort s x = false) (hj : x.job = .launch)
    (he : (s.ctx x.ctx).exec = some e) (hid : e.launch.id = x.launchId)
    (hue : tr.cause ≠ 0x06 ∧ tr.cause ≠ 0x07 ∧ tr.cause ≠ 0x08) :
    trapTile t tr s = trapLaunch t x tr e (s.setTile t x.trapStopped) := by
  obtain ⟨h6, h7, h8⟩ := hue
  have hn : ¬ (x.run = .off ∨ x.run = .stopped ∨ stoppedByAbort s x = true) := by simp [hr, hs]
  have hserved (y : Tile) : servedLaunch (s.setTile t y) x = some e := by
    simp only [servedLaunch, State.setTile_ctx, he]
    exact if_pos ⟨hid, hj⟩
  have hu : (decide (tr.cause = tcSramUe) || decide (tr.cause = tcImemUe) || decide (tr.cause = tcEddyUe)) = false := by
    simp [tcSramUe, tcImemUe, tcEddyUe, h6, h7, h8]
  simp only [trapTile, hx, if_neg hn, hserved, hu, Bool.false_eq_true, if_false]
  rfl

/-- The fault record of a TRAP instruction of tile x. -/
def userRecord (s : State) (t : Nat) (x : Tile) (imm secondary : Nat) : FaultRec :=
  { w0 := s.now
    w1 := BitVec.ofNat 64 (0x12 + secondary * 0x200 + x.ctx * 2 ^ 10 + t * 2 ^ 16 + x.tid * 2 ^ 32 +
      x.crew * 2 ^ 35 + x.pc.toNat * 2 ^ 48)
    w2 := BitVec.ofNat 64 (x.launchId.toNat + 0x1012 * 2 ^ 32 + (s.part (tilePart t)).rgen.toNat * 2 ^ 48)
    w3 := BitVec.ofNat 64 (imm * 2 ^ 56) }

theorem faultRecord_user (s : State) (t : Nat) (x : Tile) (imm : Nat) (secondary : Bool) :
    faultRecord s t x (precise 0x12 x.pc 0 imm) secondary = userRecord s t x imm (boolNat secondary) := by
  have hb : bits 0 0 56 = 0 := rfl
  have hi : 0x12 + boolNat false * 2 ^ 8 = 0x12 := rfl
  simp only [faultRecord, userRecord, precise, hb, hi, Nat.zero_add]
  rfl

/-- Tile x when the wait of its TRAP instruction w has passed. -/
def Tile.atTrap (x : Tile) (w : Word) : Tile := { x with cycle := issueAt x .trap w }

/-- The state in which a launch takes the trap USER of its tile t: the tile has stopped. -/
def trapTaken (s : State) (t : Nat) (w : Word) : State :=
  (waited s t .trap w).setTile t ((s.tile t).atTrap w).trapStopped

section UserTrap
variable {s : State} {t : Nat} {w : Word} {e : Exec}

theorem trapTaken_run : ((trapTaken s t w).tile t).run = .stopped := by
  rw [trapTaken, State.setTile_tile_same]
  rfl

theorem trapTaken_now : (trapTaken s t w).now = s.now := rfl

theorem trapTaken_part (p : Nat) : (trapTaken s t w).part p = s.part p := rfl

theorem trapTaken_ctx (c : Nat) : (trapTaken s t w).ctx c = s.ctx c := rfl

theorem faultRecord_trapTaken (secondary : Bool) :
    faultRecord (trapTaken s t w) t ((s.tile t).atTrap w) (precise 0x12 (s.tile t).pc 0 (wImm8 w)) secondary =
      userRecord s t (s.tile t) (wImm8 w) (boolNat secondary) :=
  faultRecord_user (trapTaken s t w) t ((s.tile t).atTrap w) (wImm8 w) secondary

theorem not_stopped_of_issues {op : Op} (hi : Issues s t op w) : stoppedByAbort s (s.tile t) = false := by
  obtain ⟨hm, -⟩ := hi
  simp only [mayIssue, Bool.and_eq_true, Bool.not_eq_true'] at hm
  exact hm.2

theorem issue_trap_of_launch (hi : Issues s t .trap w) (hj : (s.tile t).job = .launch)
    (he : (s.ctx (s.tile t).ctx).exec = some e) (hid : e.launch.id = (s.tile t).launchId) :
    issue t .trap bodyTrap s =
      trapLaunch t ((s.tile t).atTrap w) (precise 0x12 (s.tile t).pc 0 (wImm8 w)) e (trapTaken s t w) := by
  have hw : (waited s t .trap w).tile t = (s.tile t).atTrap w := State.setTile_tile_same ..
  have hue : (0x12 : Nat) ≠ 0x06 ∧ (0x12 : Nat) ≠ 0x07 ∧ (0x12 : Nat) ≠ 0x08 := by decide
  have hx : issue t .trap bodyTrap s =
      trapTile t (precise 0x12 (s.tile t).pc 0 (wImm8 w)) (waited s t .trap w) := issue_traps hi rfl rfl
  rw [hx, trapTile_of_launch hw (run_of_issues hi) (not_stopped_of_issues hi) hj he hid hue]
  rfl

end UserTrap

/-! ### The launch's first trap, and a later one -/

section UserTrap
variable {s : State} {t : TileIx} {w : Word} {e : Exec} (hi : Issues s t.val .trap w)
  (hj : (s.tile t.val).job = .launch) (he : (s.ctx (s.tile t.val).ctx).exec = some e)
  (hid : e.launch.id = (s.tile t.val).launchId) (hroom : (s.part (tilePart t.val)).faults.items.length < 16)
include hi hj he hid hroom

theorem exec_trap_first (hb : e.began = true) (hpair : e.pair = none) (hf : e.faults = []) (hend : e.ending = none)
    (ha : (s.ctx (s.tile t.val).ctx).abort = none) (hjob : (s.ctx (s.tile t.val).ctx).jobid = 0) :
    ∃ s' e', exec (.trap t) s = .next s' ∧ (s'.tile t.val).run = .stopped ∧
      (s'.part (tilePart t.val)).faults.items =
        (s.part (tilePart t.val)).faults.items ++ [userRecord s t.val (s.tile t.val) (wImm8 w) 0] ∧
      (s'.ctx (s.tile t.val).ctx).exec = some e' ∧
      e'.faults.map (·.frec) = [userRecord s t.val (s.tile t.val) (wImm8 w) 0] ∧
      e'.ending = some { status := 0x10, csDetail := 0, at_ := s.now } ∧
      (s'.ctx (s.tile t.val).ctx).st =
        (if (s.ctx (s.tile t.val).ctx).contOnFault then (s.ctx (s.tile t.val).ctx).st else .aborting) ∧
      (s'.ctx (s.tile t.val).ctx).sweep = some s.now ∧
      (s'.ctx (s.tile t.val).ctx).abort = some { start := s.now, quiesced := false, parts := [], stuck := [] } := by
  obtain ⟨e1, h⟩ := trapRecorded_records (s := trapTaken s t.val w) (t := t.val) (x := (s.tile t.val).atTrap w)
    (tr := precise 0x12 (s.tile t.val).pc 0 (wImm8 w)) false he hroom
  rw [faultRecord_trapTaken] at h
  have hx : exec (.trap t) s = .next (decideEnd (s.tile t.val).ctx stTileTrap 0 _ _) :=
    congrArg Host.Outcome.next ((issue_trap_of_launch hi hj he hid).trans (trapLaunch_first rfl hf))
  generalize trapRecorded t.val ((s.tile t.val).atTrap w) (precise 0x12 (s.tile t.val).pc 0 (wImm8 w)) false
    (trapTaken s t.val w) = s1 at h hx
  have hctx : s1.ctx (s.tile t.val).ctx = (s.ctx (s.tile t.val).ctx).executing e1 :=
    h.ctx.trans (congrArg (Ctx.executing · e1) (trapTaken_ctx _))
  have hnow : s1.now = s.now := h.now.trans trapTaken_now
  have hitems := h.items
  rw [trapTaken_part] at hitems
  obtain ⟨dtile, dpart, dctx⟩ := decideEnd_tileTrap_first (o := s1.now) (congrArg Ctx.exec hctx)
    (h.ending.trans hend) (h.pair.trans hpair) (h.began.trans hb) ((congrArg Ctx.abort hctx).trans ha)
    ((congrArg Ctx.jobid hctx).trans hjob)
  generalize decideEnd (s.tile t.val).ctx stTileTrap 0 s1.now s1 = s2 at hx dtile dpart dctx
  rw [hctx, hnow] at dctx
  refine ⟨s2, e1.endedByTrap s.now, hx, ?_, ?_, ?_, ?_, ?_, ?_, ?_, ?_⟩
  · rw [dtile, h.tile, trapTaken_run]
  · rw [dpart]
    exact hitems
  · rw [dctx]
    rfl
  · exact h.frecs.trans (by rw [hf]; rfl)
  · rfl
  · rw [dctx]
    rfl
  · rw [dctx]
    rfl
  · rw [dctx]
    rfl

theorem exec_trap_later {f : FaultOf} (hf : e.faults = [f]) (hs : f.stroke ≠ s.now) (hend : e.ending ≠ none) :
    ∃ s' e', exec (.trap t) s = .next s' ∧ (s'.tile t.val).run = .stopped ∧
      (s'.part (tilePart t.val)).faults.items =
        (s.part (tilePart t.val)).faults.items ++ [userRecord s t.val (s.tile t.val) (wImm8 w) 1] ∧
      (s'.ctx (s.tile t.val).ctx).exec = some e' ∧ e'.ending = e.ending ∧
      e'.faults.map (·.frec) = [f.frec, userRecord s t.val (s.tile t.val) (wImm8 w) 1] := by
  obtain ⟨e1, h⟩ := trapRecorded_records (s := trapTaken s t.val w) (t := t.val) (x := (s.tile t.val).atTrap w)
    (tr := precise 0x12 (s.tile t.val).pc 0 (wImm8 w)) true he hroom
  rw [faultRecord_trapTaken] at h
  have hx : exec (.trap t) s = .next (decideEnd (s.tile t.val).ctx stTileTrap 0 _ _) :=
    congrArg Host.Outcome.next ((issue_trap_of_launch hi hj he hid).trans (trapLaunch_later rfl hf hs))
  generalize trapRecorded t.val ((s.tile t.val).atTrap w) (precise 0x12 (s.tile t.val).pc 0 (wImm8 w)) true
    (trapTaken s t.val w) = s1 at h hx
  have hexec : (s1.ctx (s.tile t.val).ctx).exec = some e1 := congrArg Ctx.exec h.ctx
  have hd := decideEnd_tileTrap_decided (o := s1.now) hexec (by rw [h.ending]; exact hend)
  rw [hd] at hx
  have hitems := h.items
  rw [trapTaken_part] at hitems
  refine ⟨s1, e1, hx, ?_, hitems, hexec, h.ending, ?_⟩
  · rw [h.tile, trapTaken_run]
  · exact h.frecs.trans (by rw [hf]; rfl)

end UserTrap

/-! ### Errors of data SRAM (02 R74 to R77, R98, R101) -/

/-- Below CE_LIMIT a corrected error is counted, in one cycle, and nothing more of the tile changes. -/
theorem countCe_below {s : State} {t : Nat} (h : (ceHour s (s.utile t)).length + 1 < s.ump.ceLimit) :
    (countCe t s).tile t =
      { s.tile t with eccCe := satAdd 32 (s.tile t).eccCe 1, cycle := (s.tile t).cycle + 1 } ∧
    (countCe t s).tileCe = Tbl.put 0 t (satAdd 32 (Tbl.look 0 t s.tileCe) 1) s.tileCe := by
  unfold countCe
  extract_lets x s1 s2 s3 u l s4 who
  have h3 : s3.tile t = { s.tile t with eccCe := satAdd 32 (s.tile t).eccCe 1, cycle := (s.tile t).cycle + 1 } :=
    (raise_tile_at _ _ _ s2 t).trans (State.setTile_tile_same ..)
  have hl : l.length = (ceHour s (s.utile t)).length + 1 := by
    have hu : u = s.utile t := raise_utile_at _ _ _ s2 t
    have hc : ceHour s3 u = ceHour s (s.utile t) := by
      rw [hu]
      simp only [ceHour, State.since, s3, raise_stroke]
      rfl
    simp only [l, List.length_cons, hc]
  have h3u : s3.ump = s.ump := raise_ump _ _ _ s2
  have hlim : s4.ump.ceLimit = s.ump.ceLimit := by
    show s3.ump.ceLimit = _
    rw [h3u]
  rw [hlim, hl, if_neg (Nat.not_le_of_lt h)]
  exact ⟨h3, raise_tileCe _ _ _ s2⟩

theorem sramWords_one (t i : Nat) (s : State) : sramWords t i 1 s = sramWord t i s := by
  simp only [sramWords]
  cases h : (sramWord t i s).1 with
  | none => exact Prod.ext h.symm rfl
  | some e => exact Prod.ext h.symm rfl

/-- An aligned read of 32 bits checks one word. -/
theorem sramCheck_four {t a : Nat} {s : State} (ha : a % 4 = 0) :
    sramCheck t (4 / 64 + 2) a 4 s = sramWord t (a / 8) s := by
  have hm : Nat.min 4 (64 - a % 64) = 4 := Nat.min_eq_left (by omega)
  have hw : (a + 4 - 1) / 8 - a / 8 + 1 = 1 := by omega
  show sramCheck t (1 + 1) a 4 s = _
  simp only [sramCheck, hm, hw, sramWords_one]
  cases h : sramWord t (a / 8) s with
  | mk e s1 => cases e <;> rfl

section Load
variable {s : State} {t i : Nat}

theorem sramWord_single (h : Tbl.look EccErr.none i (s.tile t).sramErr = .single) :
    sramWord t i s = (none, countCe t (s.setTile t
      { s.tile t with sramErr := Tbl.put .none i .none (s.tile t).sramErr })) := by
  simp only [sramWord, h]
  rfl

theorem sramWord_double {n : Nat} (h : Tbl.look EccErr.none i (s.tile t).sramErr = .double n) :
    sramWord t i s = (some (8 * i, (Config.syndrome n).toNat), s) := by
  simp only [sramWord, h]
  rfl

variable {a : Nat} (ha : a % 4 = 0)
include ha

theorem sramRead_double {n : Nat} (h : Tbl.look EccErr.none (a / 8) (s.tile t).sramErr = .double n) :
    sramRead t a 4 s = (.ue (8 * (a / 8)) (Config.syndrome n).toNat, s) := by
  have hz : ¬ (4 = 0) := by decide
  simp only [sramRead, if_neg hz, sramCheck_four ha, sramWord_double h]

/-- The state after the word of a single-bit error has been corrected and counted. -/
theorem sramRead_single (h : Tbl.look EccErr.none (a / 8) (s.tile t).sramErr = .single)
    (hbusy : unitBusy (s.tile t) (a / 64) = false) (hce : (ceHour s (s.utile t)).length + 1 < s.ump.ceLimit) :
    ∃ s1, sramRead t a 4 s = (.ok (bytesAt 0 (s.tile t).sram a 4), s1) ∧
      s1.tile t = { s.tile t with
        sramErr := Tbl.put .none (a / 8) .none (s.tile t).sramErr
        eccCe := satAdd 32 (s.tile t).eccCe 1, cycle := (s.tile t).cycle + 1 } ∧
      s1.tileCe = Tbl.put 0 t (satAdd 32 (Tbl.look 0 t s.tileCe) 1) s.tileCe := by
  have hz : ¬ (4 = 0) := by decide
  have hu : (a + 4 - 1) / 64 - a / 64 + 1 = 1 := by omega
  have hw := sramWord_single h
  obtain ⟨htile, hcount⟩ := countCe_below
    (s := s.setTile t { s.tile t with sramErr := Tbl.put .none (a / 8) .none (s.tile t).sramErr }) hce
  generalize countCe t (s.setTile t { s.tile t with sramErr := Tbl.put .none (a / 8) .none (s.tile t).sramErr }) = s1
    at hw htile hcount
  rw [State.setTile_tile_same] at htile
  refine ⟨s1, ?_, htile, hcount⟩
  have hb (v : Nat) (h1 : a / 64 ≤ v) (h2 : v < a / 64 + 1) : unitBusy (s1.tile t) v = false := by
    obtain rfl : v = a / 64 := by omega
    rw [htile]
    exact hbusy
  simp only [sramRead, if_neg hz, sramCheck_four ha, hw, hu, overlayUnits_clean _ _ _ hb]
  rw [htile]

end Load

/-- What retiring changes of the tile, whatever the instruction's own part has done: cycle count, PC and scoreboard. -/
theorem issue_retires_tile {s s1 : State} {t cost lat : Nat} {op : Op} {w : Word} {dest : List Nat} {body : Body}
    (hi : Issues s t op w) (hb : body t w (issueAt (s.tile t) op w) s = .retire cost dest lat s1) :
    (∃ c r, (issue t op body s).tile t = { s1.tile t with cycle := c, pc := (s.tile t).pc + 1, ready := r }) ∧
      (issue t op body s).tileCe = s1.tileCe := by
  rw [issue_retires hi hb]
  exact ⟨⟨_, _, State.setTile_tile_same ..⟩, rfl⟩

section Lw
variable {s : State} {t : TileIx} {w : Word} (hi : Issues s t.val .lw w)
  (ha : effAddr (s.tile t.val) w 4 % 4 = 0) (hr : effAddr (s.tile t.val) w 4 + 4 ≤ 0x18000)
include hi ha hr

theorem exec_lw_single (h : Tbl.look EccErr.none (effAddr (s.tile t.val) w 4 / 8) (s.tile t.val).sramErr = .single)
    (hbusy : unitBusy (s.tile t.val) (effAddr (s.tile t.val) w 4 / 64) = false) (hrd : wRd w ≠ 0)
    (hce : (ceHour s (s.utile t.val)).length + 1 < s.ump.ceLimit) :
    ∃ s', exec (.lw t) s = .next s' ∧
      (s'.tile t.val).sreg (wRd w) =
        BitVec.ofNat 32 (leNat (bytesAt 0 (s.tile t.val).sram (effAddr (s.tile t.val) w 4) 4)) ∧
      (s'.tile t.val).pc = (s.tile t.val).pc + 1 ∧ (s'.tile t.val).sram = (s.tile t.val).sram ∧
      Tbl.look EccErr.none (effAddr (s.tile t.val) w 4 / 8) (s'.tile t.val).sramErr = .none ∧
      (s'.tile t.val).eccCe = satAdd 32 (s.tile t.val).eccCe 1 ∧
      Tbl.look 0 t.val s'.tileCe = satAdd 32 (Tbl.look 0 t.val s.tileCe) 1 := by
  obtain ⟨s1, hread, htile, hcount⟩ := sramRead_single ha h hbusy hce
  generalize bytesAt 0 (s.tile t.val).sram (effAddr (s.tile t.val) w 4) 4 = bs at hread
  have hb : loadS 4 (fun v => BitVec.ofNat 32 v) t.val w (issueAt (s.tile t.val) .lw w) s = .retire 1 [rcS (wRd w)] 3
      (s1.setTile t.val ((s1.tile t.val).setS (wRd w) (BitVec.ofNat 32 (leNat bs)))) := by
    simp only [loadS, loadOp, memCheck_of_inside ha hr, hread]
    rfl
  have hset : (s1.tile t.val).setS (wRd w) (BitVec.ofNat 32 (leNat bs)) =
      { s1.tile t.val with s := Tbl.put 0#32 (wRd w) (BitVec.ofNat 32 (leNat bs)) (s1.tile t.val).s } := if_neg hrd
  have hx : exec (.lw t) s = .next (issue t.val .lw (loadS 4 (fun v => BitVec.ofNat 32 v)) s) := rfl
  obtain ⟨⟨c, r, hf⟩, hce'⟩ := issue_retires_tile hi hb
  generalize issue t.val .lw (loadS 4 (fun v => BitVec.ofNat 32 v)) s = s2 at hx hf hce'
  rw [State.setTile_tile_same, hset, htile] at hf
  rw [State.setTile_tileCe, hcount] at hce'
  refine ⟨s2, hx, ?_, ?_, ?_, ?_, ?_, ?_⟩
  · rw [hf]
    exact (if_neg hrd).trans (Tbl.look_put_same (0#32) _ _ _)
  · rw [hf]
  · rw [hf]
  · rw [hf]
    dsimp only
    rw [Tbl.look_put_same]
  · rw [hf]
  · rw [hce', Tbl.look_put_same]

theorem exec_lw_double {n : Nat}
    (h : Tbl.look EccErr.none (effAddr (s.tile t.val) w 4 / 8) (s.tile t.val).sramErr = .double n) :
    exec (.lw t) s = .next (trapTile t.val (precise 0x06 (s.tile t.val).pc (8 * (effAddr (s.tile t.val) w 4 / 8))
      (Config.syndrome n).toNat) (waited s t.val .lw w)) := by
  have hb : loadS 4 (fun v => BitVec.ofNat 32 v) t.val w (issueAt (s.tile t.val) .lw w) s =
      .trap (precise 0x06 (s.tile t.val).pc (8 * (effAddr (s.tile t.val) w 4 / 8)) (Config.syndrome n).toNat) s := by
    simp only [loadS, loadOp, memCheck_of_inside ha hr, sramRead_double ha h]
    rfl
  exact congrArg Host.Outcome.next (issue_traps hi hb rfl)

end Lw

/-- Settles O56: the first trap of a launch and a later one, then a load of a word with an error. -/
theorem trapAndErrorEffects : Obligations.TrapAndErrorEffects := by
  unfold Obligations.TrapAndErrorEffects
  refine ⟨?_, ?_⟩
  · intro s t w e hi hj x p record he hid hb hpair hroom
    have hrec (k : Nat) : record k = userRecord s t.val (s.tile t.val) (wImm8 w) k := by rw [wImm8_eq]; rfl
    simp only [hrec]
    exact ⟨exec_trap_first hi hj he hid hroom hb hpair, fun _ hf => exec_trap_later hi hj he hid hroom hf⟩
  · intro s t w hi x ea ha hr hbusy
    exact ⟨fun h hrd hce => exec_lw_single hi ha hr h hbusy hrd hce, fun _ h => exec_lw_double hi ha hr h⟩

end Sys2Proof.Machine

/-!
O1, O2. The scalar, compare, predicate and immediate operations: each body is `regOp`, so what is proved of each
is that its function is the one of the table. FLT and FEQ compare dyadic numbers at their common exponent
(`alignInt_mul_zpow`).
-/

namespace Sys2Proof.Machine

/-! ### Fields within fields -/

/-- A field of a field. -/
theorem bits_bits {v lo n lo' n' : Nat} (h : lo' + n' ≤ n) : bits (bits v lo n) lo' n' = bits v (lo + lo') n' := by
  apply Nat.eq_of_testBit_eq
  intro i
  simp only [bits, Nat.testBit_mod_two_pow, Nat.testBit_shiftRight]
  by_cases hi : i < n'
  · have h1 : lo' + i < n := by omega
    simp [hi, h1, Nat.add_assoc]
  · simp [hi]

theorem bit_bits {v lo n i : Nat} (h : i < n) : bit (bits v lo n) i = bit v (lo + i) := by
  simp [bit, bits, Nat.testBit_mod_two_pow, Nat.testBit_shiftRight, h]

/-! ### Results in registers -/

section Results
variable {c : TileIx → Instr} {op : Op} {lat : Nat}

theorem scalarResult_of_sOp {f g : Word → Word → Word}
    (hx : ∀ t s, exec (c t) s = .next (issue t.val op (sOp lat g) s)) (hg : ∀ a b, g a b = f a b) :
    ScalarResult c op lat f :=
  completes_of_regOp hx (fun _ _ => by rw [hg]) fun _ _ => Tile.setS_cycle ..

theorem compareResult_of_cmpOp {f g : Word → Word → Bool}
    (hx : ∀ t s, exec (c t) s = .next (issue t.val op (cmpOp g) s)) (hg : ∀ a b, g a b = f a b) :
    CompareResult c op f :=
  completes_of_regOp hx (fun _ _ => by rw [hg]) fun _ _ => Tile.setP_cycle ..

theorem predicateResult_of_pOp {f g : Bool → Bool → Bool}
    (hx : ∀ t s, exec (c t) s = .next (issue t.val op (pOp g) s)) (hg : ∀ a b, g a b = f a b) :
    PredicateResult c op f :=
  completes_of_regOp hx (fun _ _ => by rw [hg]) fun _ _ => Tile.setP_cycle ..

theorem wordResult_of_ldOp {f g : Word → Tile → Word}
    (hx : ∀ t s, exec (c t) s = .next (issue t.val op (ldOp g) s)) (hg : ∀ w x, g w x = f w x) :
    WordResult c op f :=
  completes_of_regOp hx (fun _ _ => by rw [hg]) fun _ _ => Tile.setS_cycle ..

end Results

/-! ### The integer operations of Table 3-3 -/

theorem amount_eq (b : Word) : amount b = (b.extractLsb' 0 5).toNat := bits_toNat b 0 5

theorem mul_eq_low (a b : Word) : a * b = (a.setWidth 64 * b.setWidth 64).extractLsb' 0 32 := by
  apply BitVec.eq_of_toNat_eq
  have ha := a.isLt
  have hb := b.isLt
  simp only [BitVec.toNat_mul, BitVec.extractLsb'_toNat, BitVec.toNat_setWidth, Nat.shiftRight_zero]
  rw [Nat.mod_eq_of_lt (a := a.toNat) (by omega), Nat.mod_eq_of_lt (a := b.toNat) (by omega)]
  omega

theorem mulHighU_eq (a b : Word) : mulHighU a b = (a.setWidth 64 * b.setWidth 64).extractLsb' 32 32 := by
  apply BitVec.eq_of_toNat_eq
  have ha := a.isLt
  have hb := b.isLt
  simp only [mulHighU, BitVec.toNat_mul, BitVec.extractLsb'_toNat, BitVec.toNat_setWidth, BitVec.toNat_ofNat,
    Nat.shiftRight_eq_div_pow]
  rw [Nat.mod_eq_of_lt (a := a.toNat) (by omega), Nat.mod_eq_of_lt (a := b.toNat) (by omega)]
  omega

theorem mulHigh_eq (a b : Word) : mulHigh a b = (a.signExtend 64 * b.signExtend 64).extractLsb' 32 32 := by
  apply BitVec.eq_of_toNat_eq
  rw [BitVec.signExtend, BitVec.signExtend, ← BitVec.ofInt_mul, mulHigh, BitVec.extractLsb'_toNat, BitVec.toNat_ofInt,
    BitVec.toNat_ofInt, Nat.shiftRight_eq_div_pow]
  generalize a.toInt * b.toInt = p
  omega

/-- The two's complement minimum and maximum: where neither operand is less, they are the same word. -/
theorem slt_ite_eq_of_le (a b : Word) {u v : Word} (h : a = b → u = v) :
    (if a.slt b then u else v) = if a.toInt ≤ b.toInt then u else v := by
  by_cases hlt : a.toInt < b.toInt
  · rw [if_pos (BitVec.slt_iff_toInt_lt.mpr hlt), if_pos hlt.le]
  · rw [if_neg (mt BitVec.slt_iff_toInt_lt.mp hlt)]
    split
    · exact (h (BitVec.eq_of_toInt_eq (le_antisymm ‹_› (not_lt.mp hlt)))).symm
    · rfl

theorem ult_ite_eq_of_le (a b : Word) {u v : Word} (h : a = b → u = v) :
    (if a.ult b then u else v) = if a.toNat ≤ b.toNat then u else v := by
  by_cases hlt : a.toNat < b.toNat
  · rw [if_pos (BitVec.ult_iff_toNat_lt.mpr hlt), if_pos hlt.le]
  · rw [if_neg (mt BitVec.ult_iff_toNat_lt.mp hlt)]
    split
    · exact (h (BitVec.eq_of_toNat_eq (le_antisymm ‹_› (not_lt.mp hlt)))).symm
    · rfl

theorem leadingZeros_eq (a : Word) : leadingZeros a = BitVec.ofNat 32 (32 - bitLen a.toNat) := by
  by_cases h : a = 0#32
  · subst h
    rfl
  · have hn : a.toNat ≠ 0 := fun h0 => h (BitVec.eq_of_toNat_eq h0)
    rw [leadingZeros, if_neg h, bitLen, if_neg hn, Nat.add_comm, Nat.sub_add_eq]

theorem setBits_eq (a : Word) :
    setBits a = BitVec.ofNat 32 ((List.range 32).countP fun i => a.toNat.testBit i) := by
  rw [setBits, List.countP_eq_length_filter]
  rfl

/-! ### FP32 compares (Table 3-3, FLT and FEQ) -/

/-- A number as a multiple of 2^q, for q at most its exponent. -/
theorem alignInt_mul_zpow (n : Bool) (m : Nat) {e q : Int} (h : q ≤ e) :
    (alignInt n m e q : ℚ) * 2 ^ q = signed n m e := by
  have hp : (2 : ℚ) ^ (e - q).toNat * 2 ^ q = 2 ^ e := by
    rw [← zpow_natCast, Int.toNat_of_nonneg (by omega), ← zpow_add₀ two_ne_zero, Int.sub_add_cancel]
  have hv : ((m <<< (e - q).toNat : Nat) : ℚ) * 2 ^ q = m * 2 ^ e := by
    rw [Nat.shiftLeft_eq, Nat.cast_mul, Nat.cast_pow, Nat.cast_ofNat, mul_assoc, hp]
  cases n with
  | false =>
    show (((m <<< (e - q).toNat : Nat) : Int) : ℚ) * 2 ^ q = 1 * m * 2 ^ e
    rw [Int.cast_natCast, hv, one_mul]
  | true =>
    show ((-((m <<< (e - q).toNat : Nat) : Int) : Int) : ℚ) * 2 ^ q = -1 * m * 2 ^ e
    rw [Int.cast_neg, Int.cast_natCast, neg_mul, hv, neg_one_mul, neg_mul]

theorem fvLt_eq_less (x y : FV) : fvLt false x y = x.less y := by
  cases x with
  | nan _ => rfl
  | inf n => cases y <;> rfl
  | fin n m e =>
    cases y with
    | nan _ => rfl
    | inf _ => rfl
    | fin k l f =>
      have hq : (if e < f then e else f) ≤ e ∧ (if e < f then e else f) ≤ f := by split <;> omega
      simp only [fvLt, FV.less, Bool.false_and, Bool.or_false, ← alignInt_mul_zpow n m hq.1,
        ← alignInt_mul_zpow k l hq.2]
      refine decide_eq_decide.mpr ?_
      rw [mul_lt_mul_iff_of_pos_right (zpow_pos two_pos _), Int.cast_lt]

theorem Tile.setP_fpstat (x : Tile) (n : Nat) (v : Bool) : (x.setP n v).fpstat = x.fpstat := by
  unfold Tile.setP; split <;> rfl

theorem FV.isNaN_of_isSNaN {x : FV} (h : x.isNaN = false) : x.isSNaN = false := by
  cases x with
  | nan _ => contradiction
  | inf _ => rfl
  | fin _ _ _ => rfl

theorem FV.less_of_isNaN {x y : FV} (h : (x.isNaN || y.isNaN) = true) : x.less y = false := by
  cases x with
  | nan _ => rfl
  | inf _ | fin _ _ _ =>
    cases y with
    | nan _ => rfl
    | inf _ => contradiction
    | fin _ _ _ => contradiction

theorem fpLt_eq (a b : Word) :
    fpLt a b = ((dec32 a).less (dec32 b), if (dec32 a).isNaN || (dec32 b).isNaN then 1#6 else 0#6) := by
  unfold fpLt
  extract_lets x y
  by_cases h : (x.isNaN || y.isNaN) = true
  · rw [if_pos h, if_pos h, FV.less_of_isNaN h]
    rfl
  · rw [if_neg h, if_neg h, fvLt_eq_less]

theorem fpEq_eq (a b : Word) :
    fpEq a b = (!(dec32 a).isNaN && !(dec32 b).isNaN && !(dec32 a).less (dec32 b) && !(dec32 b).less (dec32 a),
      if (dec32 a).isSNaN || (dec32 b).isSNaN then 1#6 else 0#6) := by
  simp only [← fvLt_eq_less]
  unfold fpEq
  extract_lets x y
  by_cases h : (x.isNaN || y.isNaN) = true
  · rw [if_pos h, ← Bool.not_or, h]
    rfl
  · obtain ⟨hx, hy⟩ : x.isNaN = false ∧ y.isNaN = false := by simpa using h
    rw [if_neg h, hx, hy, FV.isNaN_of_isSNaN hx, FV.isNaN_of_isSNaN hy]
    rfl

/-- Settles O1: each operation is `regOp` with the function of the table. -/
theorem scalarResults : Obligations.ScalarResults := by
  unfold Obligations.ScalarResults
  refine ⟨?_, ?_, ?_, ?_⟩
  · refine ⟨?_, ?_, ?_, ?_, ?_, ?_, ?_, ?_, ?_, ?_, ?_, ?_, ?_, ?_, ?_, ?_, ?_⟩
    · exact scalarResult_of_sOp (fun _ _ => rfl) fun _ _ => rfl
    · exact scalarResult_of_sOp (fun _ _ => rfl) fun _ _ => rfl
    · exact scalarResult_of_sOp (fun _ _ => rfl) fun _ _ => rfl
    · exact scalarResult_of_sOp (fun _ _ => rfl) fun _ _ => rfl
    · exact scalarResult_of_sOp (fun _ _ => rfl) fun _ _ => rfl
    · exact scalarResult_of_sOp (fun _ _ => rfl) fun _ b => by rw [amount_eq]
    · exact scalarResult_of_sOp (fun _ _ => rfl) fun _ b => by rw [amount_eq]
    · exact scalarResult_of_sOp (fun _ _ => rfl) fun _ b => by rw [amount_eq]
    · exact scalarResult_of_sOp (fun _ _ => rfl) mul_eq_low
    · exact scalarResult_of_sOp (fun _ _ => rfl) mulHigh_eq
    · exact scalarResult_of_sOp (fun _ _ => rfl) mulHighU_eq
    · exact scalarResult_of_sOp (fun _ _ => rfl) fun a b => slt_ite_eq_of_le a b id
    · exact scalarResult_of_sOp (fun _ _ => rfl) fun a b => slt_ite_eq_of_le a b Eq.symm
    · exact scalarResult_of_sOp (fun _ _ => rfl) fun a b => ult_ite_eq_of_le a b id
    · exact scalarResult_of_sOp (fun _ _ => rfl) fun a b => ult_ite_eq_of_le a b Eq.symm
    · exact scalarResult_of_sOp (g := fun a _ => leadingZeros a) (fun _ _ => rfl) fun a _ => leadingZeros_eq a
    · exact scalarResult_of_sOp (g := fun a _ => setBits a) (fun _ _ => rfl) fun a _ => setBits_eq a
  · refine ⟨?_, ?_, ?_, ?_, ?_, ?_, ?_, ?_, ?_, ?_⟩
    · exact compareResult_of_cmpOp (fun _ _ => rfl) fun _ _ => rfl
    · exact compareResult_of_cmpOp (fun _ _ => rfl) fun _ _ => decide_not.symm
    · exact compareResult_of_cmpOp (fun _ _ => rfl) fun _ _ => rfl
    · exact compareResult_of_cmpOp (fun _ _ => rfl) fun _ _ => rfl
    · exact compareResult_of_cmpOp (fun _ _ => rfl) fun a b => by simp [BitVec.slt, ← decide_not]
    · exact compareResult_of_cmpOp (fun _ _ => rfl) fun a b => by simp [BitVec.ult, ← decide_not]
    · exact predicateResult_of_pOp (fun _ _ => rfl) fun _ _ => rfl
    · exact predicateResult_of_pOp (fun _ _ => rfl) fun _ _ => rfl
    · exact predicateResult_of_pOp (fun _ _ => rfl) (by decide)
    · exact predicateResult_of_pOp (fun _ _ => rfl) fun _ _ => rfl
  · refine completes_of_regOp (fun _ _ => rfl) (fun w x => ?_) fun _ _ => Tile.setP_cycle ..
    simp only [fpLt_eq, Tile.flag, Tile.setP_fpstat]
  · refine completes_of_regOp (fun _ _ => rfl) (fun w x => ?_) fun _ _ => Tile.setP_cycle ..
    simp only [fpEq_eq, Tile.flag, Tile.setP_fpstat]

/-! ### Immediates (Table 3-4) -/

theorem imm13s_eq (w : Word) : imm13s w = (w.extractLsb' 0 13).signExtend 32 := by
  rw [imm13s, wImm13, sext_bits w 0 13 (by decide), BitVec.signExtend]

theorem imm13z_eq (w : Word) : imm13z w = (w.extractLsb' 0 13).setWidth 32 := by
  rw [imm13z, wImm13, bits_toNat, BitVec.ofNat_toNat]

theorem shiftImm_eq (a w : Word) : shiftImm a w =
    if w.extractLsb' 5 2 = 0#2 then a <<< (w.extractLsb' 0 5).toNat
    else if w.extractLsb' 5 2 = 1#2 then a >>> (w.extractLsb' 0 5).toNat
    else a.sshiftRight (w.extractLsb' 0 5).toNat := by
  have hn : wImm13 w % 32 = (w.extractLsb' 0 5).toNat := by
    rw [← bits_toNat]
    exact bits_bits (v := w.toNat) (lo' := 0) (n' := 5) (by decide)
  have hk : bits (wImm13 w) 5 2 = (w.extractLsb' 5 2).toNat := by
    rw [wImm13, bits_bits (by decide), bits_toNat]
  have e0 : w.extractLsb' 5 2 = 0#2 ↔ (w.extractLsb' 5 2).toNat = 0 := BitVec.toNat_inj.symm
  have e1 : w.extractLsb' 5 2 = 1#2 ↔ (w.extractLsb' 5 2).toNat = 1 := BitVec.toNat_inj.symm
  simp only [shiftImm, hn, hk, e0, e1]
  split
  · rename_i h0
    rw [if_pos h0]
  · rename_i h1
    rw [if_neg (by rw [h1]; decide), if_pos h1]
  · rename_i h0 h1
    rw [if_neg h0, if_neg h1]

theorem lui_eq (w : Word) : BitVec.ofNat 32 (wImm18 w * 2 ^ 14) = w.extractLsb' 0 18 ++ 0#14 := by
  apply BitVec.eq_of_toNat_eq
  have h := (w.extractLsb' 0 18).isLt
  rw [wImm18, bits_toNat, BitVec.toNat_append, BitVec.toNat_ofNat, Nat.shiftLeft_eq, BitVec.toNat_zero, Nat.or_zero]
  omega

theorem llo_eq (a w : Word) :
    (a &&& 0xFFFFC000#32) ||| BitVec.ofNat 32 (wImm18 w % 2 ^ 14) = a.extractLsb' 14 18 ++ w.extractLsb' 0 14 := by
  have hw : wImm18 w % 2 ^ 14 = (w.extractLsb' 0 14).toNat := by
    rw [← bits_toNat]
    exact bits_bits (v := w.toNat) (lo' := 0) (n' := 14) (by decide)
  have hm (i : Nat) (hi : i < 32) : (0xFFFFC000#32).getLsbD i = decide (14 ≤ i) := by
    revert i
    decide
  rw [hw, BitVec.ofNat_toNat]
  refine BitVec.eq_of_getLsbD_eq fun i hi => ?_
  simp only [BitVec.getLsbD_or, BitVec.getLsbD_and, BitVec.getLsbD_append, BitVec.getLsbD_setWidth,
    BitVec.getLsbD_extractLsb', hm i hi]
  by_cases h : i < 14
  · simp [h, hi]
  · have h14 : 14 + (i - 14) = i := by omega
    have h18 : i - 14 < 18 := by omega
    simp [h, h14, h18, Nat.le_of_not_lt h]

/-- Settles O2: `regOp` again, with the immediates as fields of the word. -/
theorem immediateResults : Obligations.ImmediateResults := by
  unfold Obligations.ImmediateResults
  refine ⟨?_, ?_, ?_, ?_, ?_, ?_, ?_⟩
  · exact wordResult_of_ldOp (g := fun w x => x.sreg (wRs1 w) + imm13s w) (fun _ _ => rfl) fun w _ => by rw [imm13s_eq]
  · exact wordResult_of_ldOp (g := fun w x => x.sreg (wRs1 w) &&& imm13z w) (fun _ _ => rfl)
      fun w _ => by rw [imm13z_eq]
  · exact wordResult_of_ldOp (g := fun w x => x.sreg (wRs1 w) ||| imm13z w) (fun _ _ => rfl)
      fun w _ => by rw [imm13z_eq]
  · exact wordResult_of_ldOp (g := fun w x => x.sreg (wRs1 w) ^^^ imm13z w) (fun _ _ => rfl)
      fun w _ => by rw [imm13z_eq]
  · exact wordResult_of_ldOp (g := fun w x => shiftImm (x.sreg (wRs1 w)) w) (fun _ _ => rfl) fun _ _ => shiftImm_eq ..
  · exact wordResult_of_ldOp (fun _ _ => rfl) fun w _ => lui_eq w
  · exact wordResult_of_ldOp (fun _ _ => rfl) fun w x => llo_eq _ w

end Sys2Proof.Machine

/-!
O3, O4, O6, O7. Loads and stores at a clean, aligned address inside data SRAM; branches whose target is inside
instruction memory; and what the fetch and the guard decide before an instruction's own part (`issue_skips` and its
neighbours), which is the same for every tile command (`tileCommands_issue`).
-/

namespace Sys2Proof.Machine

/-! ### Bytes and their number -/

theorem leNat_lt (bs : List Byte) : leNat bs < 2 ^ (8 * bs.length) := by
  induction bs with
  | nil => exact Nat.one_pos
  | cons b r ih =>
    have hb : b.toNat < 256 := b.isLt
    have e : 2 ^ (8 * (r.length + 1)) = 256 * 2 ^ (8 * r.length) := by
      rw [Nat.mul_succ, Nat.add_comm, Nat.pow_add]
    rw [leNat, List.length_cons, e]
    omega

theorem ofInt_sext {v n : Nat} (hn : 0 < n) (hv : v < 2 ^ n) (m : Nat) :
    BitVec.ofInt m (sext v n) = (BitVec.ofNat n v).signExtend m := by
  have h := sext_bits (BitVec.ofNat n v) 0 n hn
  have hb : bits (BitVec.ofNat n v).toNat 0 n = v := by
    simp [bits, Nat.mod_eq_of_lt hv]
  rw [hb, BitVec.extractLsb'_eq_self] at h
  rw [h, BitVec.signExtend]

theorem setWidth_ofNat_of_lt {v n : Nat} (hv : v < 2 ^ n) (m : Nat) :
    (BitVec.ofNat n v).setWidth m = BitVec.ofNat m v := by
  rw [← BitVec.ofNat_toNat, BitVec.toNat_ofNat, Nat.mod_eq_of_lt hv]

theorem zero_append_ofNat {v n : Nat} (hv : v < 2 ^ n) (m : Nat) :
    0#m ++ BitVec.ofNat n v = BitVec.ofNat (m + n) v := by
  have h : v < 2 ^ (m + n) := Nat.lt_of_lt_of_le hv (Nat.pow_le_pow_right (by decide) (by omega))
  apply BitVec.eq_of_toNat_eq
  rw [BitVec.toNat_append, BitVec.toNat_ofNat, BitVec.toNat_ofNat, BitVec.toNat_ofNat, Nat.zero_mod, Nat.zero_shiftLeft,
    Nat.zero_or, Nat.mod_eq_of_lt hv, Nat.mod_eq_of_lt h]

theorem bytesAt_getD (d e : Byte) (m : Tbl Byte) {a n i : Nat} (h : i < n) :
    (bytesAt d m a n).getD i e = Tbl.look d (a + i) m := by
  induction n generalizing a i with
  | zero => contradiction
  | succ n ih =>
    cases i with
    | zero => rfl
    | succ j => exact (ih (a := a + 1) (by omega)).trans (by rw [Nat.add_assoc, Nat.add_comm 1 j])

theorem leBytes_getD (d : Byte) {n i : Nat} (v : Nat) (h : i < n) :
    (leBytes n v).getD i d = BitVec.ofNat 8 (v / 2 ^ (8 * i)) := by
  rw [leBytes_eq_map, List.getD_eq_getElem _ _ (by simpa using h), List.getElem_map, List.getElem_range]

/-! ### Loads (03 R119, R120) -/

theorem loadResult_of_loadOp {c : TileIx → Instr} {op : Op} {size : Nat} {dest : Word → List Nat}
    {f g : Word → List Byte → Tile → Tile}
    (hx : ∀ t s, exec (c t) s = .next (issue t.val op (loadOp size dest g) s)) (h0 : 0 < size)
    (hg : ∀ w bs x, bs.length = size → g w bs x = f w bs x) (hc : ∀ w bs x, (f w bs x).cycle = x.cycle) :
    LoadResult c op size dest f := by
  intro s t w hi ⟨ha, hr, hclean⟩
  have hb : loadOp size dest g t.val w (issueAt (s.tile t.val) op w) s = .retire 1 (dest w) 3 (s.setTile t.val
      (f w (bytesAt 0 (s.tile t.val).sram (effAddr (s.tile t.val) w size) size) (s.tile t.val))) := by
    rw [← hg _ _ _ (bytesAt_length ..)]
    simp only [loadOp, memCheck_of_inside ha hr, sramRead_clean h0 hclean]
    rfl
  exact ⟨_, hx t s, issue_retires_only hi hb (hc ..)⟩

/-- Settles O3: a clean read, and the register's value as the number of its bytes. -/
theorem loadResults : Obligations.LoadResults := by
  unfold Obligations.LoadResults
  have lt {bs : List Byte} {n : Nat} (h : bs.length = n) : leNat bs < 2 ^ (8 * n) := h ▸ leNat_lt bs
  refine ⟨?_, ?_, ?_, ?_, ?_, ?_, ?_⟩
  · refine loadResult_of_loadOp (fun _ _ => rfl) (by decide) (fun w bs x h => ?_) fun _ _ _ => Tile.setS_cycle ..
    exact congrArg (x.setS (wRd w)) (ofInt_sext (by decide) (lt h) 32)
  · refine loadResult_of_loadOp (fun _ _ => rfl) (by decide) (fun w bs x h => ?_) fun _ _ _ => Tile.setS_cycle ..
    rw [setWidth_ofNat_of_lt (lt h)]
  · refine loadResult_of_loadOp (fun _ _ => rfl) (by decide) (fun w bs x h => ?_) fun _ _ _ => Tile.setS_cycle ..
    exact congrArg (x.setS (wRd w)) (ofInt_sext (by decide) (lt h) 32)
  · refine loadResult_of_loadOp (fun _ _ => rfl) (by decide) (fun w bs x h => ?_) fun _ _ _ => Tile.setS_cycle ..
    rw [setWidth_ofNat_of_lt (lt h)]
  · exact loadResult_of_loadOp (fun _ _ => rfl) (by decide) (fun _ _ _ _ => rfl) fun _ _ _ => Tile.setS_cycle ..
  · refine loadResult_of_loadOp (fun _ _ => rfl) (by decide) (fun w bs x h => ?_) fun _ _ _ => rfl
    rw [zero_append_ofNat (lt h)]
    rfl
  · exact loadResult_of_loadOp (fun _ _ => rfl) (by decide) (fun _ _ _ _ => rfl) fun _ _ _ => rfl

/-! ### Stores (03 R119, R120, 02 R74) -/

theorem Tbl.look_clear {α : Type} (d : α) (a n i : Nat) (t : Tbl α) :
    Tbl.look d i (Tbl.clear a n t) = if a ≤ i ∧ i < a + n then d else Tbl.look d i t := by
  induction t with
  | nil => exact (ite_self d).symm
  | cons e r ih =>
    obtain ⟨j, y⟩ := e
    simp only [Tbl.clear, List.filter_cons] at ih ⊢
    by_cases hj : a ≤ j ∧ j < a + n
    · rw [if_neg (by simpa using hj), ih, Tbl.look]
      by_cases hij : i = j
      · rw [if_pos (hij ▸ hj), if_pos (hij ▸ hj)]
      · rw [if_neg hij]
    · rw [if_pos (by simp only [← Bool.decide_and, hj]; rfl), Tbl.look, Tbl.look, ih]
      by_cases hij : i = j
      · rw [if_pos hij, if_pos hij, if_neg (hij ▸ hj)]
      · rw [if_neg hij, if_neg hij]

/-- Bytes replaced inside a list of bytes. -/
theorem splice_getD (old bs : List Byte) (k i : Nat) (d : Byte) (h : k + bs.length ≤ old.length) :
    (old.take k ++ bs ++ old.drop (k + bs.length)).getD i d =
      if k ≤ i ∧ i < k + bs.length then bs.getD (i - k) d else old.getD i d := by
  have ht : (old.take k).length = k := by rw [List.length_take]; omega
  have hl : (old.take k ++ bs).length = k + bs.length := by rw [List.length_append, ht]
  by_cases h1 : i < k + bs.length
  · rw [List.getD_append _ _ _ _ (hl ▸ h1)]
    by_cases h2 : k ≤ i
    · rw [List.getD_append_right _ _ _ _ (ht.symm ▸ h2), ht, if_pos ⟨h2, h1⟩]
    · rw [List.getD_append _ _ _ _ (by omega), if_neg (by omega)]
      simp only [List.getD_eq_getElem?_getD]
      rw [List.getElem?_take_of_lt (by omega)]
  · rw [List.getD_append_right _ _ _ _ (by omega), hl, if_neg (by omega)]
    simp only [List.getD_eq_getElem?_getD, List.getElem?_drop]
    rw [Nat.add_sub_cancel' (by omega)]

/-- What a store of n bytes at address a changes of tile x: those bytes, with fresh check bits of their words. -/
structure Stored (x y : Tile) (a : Nat) (bs : List Byte) : Prop where
  sram : ∀ b, Tbl.look 0#8 b y.sram =
    if a ≤ b ∧ b < a + bs.length then bs.getD (b - a) 0#8 else Tbl.look 0#8 b x.sram
  sramErr : ∀ i, Tbl.look EccErr.none i y.sramErr =
    if a / 8 ≤ i ∧ 8 * i < a + bs.length then .none else Tbl.look EccErr.none i x.sramErr
  rest : y = { x with sram := y.sram, sramErr := y.sramErr }

section Store
variable {s : State} {t a : Nat} {bs : List Byte}

/-- Whole words are written as they are. -/
theorem sramStore_words (ha : a % 8 = 0) (hn : bs.length % 8 = 0) (h8 : 8 ≤ bs.length) :
    ∃ y, sramStore t a bs s = (none, s.setTile t y) ∧ Stored (s.tile t) y a bs := by
  refine ⟨_, if_pos h8, fun b => putBytes_look .., fun i => (Tbl.look_clear ..).trans ?_, rfl⟩
  exact if_congr (by omega) rfl rfl

/-- Less than a word is written by read-modify-write of its word (02 R74). -/
theorem sramStore_within (hpos : 0 < bs.length) (hfit : a + bs.length ≤ a / 8 * 8 + 8) (h8 : bs.length < 8)
    (hclean : SramClean (s.tile t) (a / 8 * 8) 8) :
    ∃ y, sramStore t a bs s = (none, s.setTile t y) ∧ Stored (s.tile t) y a bs := by
  have hb : a / 8 * 8 ≤ a := by omega
  have hlen : a - a / 8 * 8 + bs.length ≤ (bytesAt 0 (s.tile t).sram (a / 8 * 8) 8).length := by
    rw [bytesAt_length]
    omega
  have e := splice_getD (bytesAt 0 (s.tile t).sram (a / 8 * 8) 8) bs (a - a / 8 * 8)
  generalize hnew : (bytesAt 0 (s.tile t).sram (a / 8 * 8) 8).take (a - a / 8 * 8) ++ bs ++
    (bytesAt 0 (s.tile t).sram (a / 8 * 8) 8).drop (a - a / 8 * 8 + bs.length) = new at e
  have hnl : new.length = 8 := by
    rw [← hnew, List.length_append, List.length_append, List.length_take, List.length_drop, bytesAt_length]
    omega
  have hst : sramStore t a bs s = (none, sramPut t (a / 8 * 8) new s) := by
    simp only [sramStore, if_neg (Nat.not_le_of_lt h8), sramRead_clean (Nat.succ_pos 7) hclean, hnew]
  refine ⟨_, hst, fun b => (putBytes_look ..).trans ?_, fun i => (Tbl.look_clear ..).trans ?_, rfl⟩
  · rw [hnl, e _ _ hlen]
    by_cases hin : a / 8 * 8 ≤ b ∧ b < a / 8 * 8 + 8
    · have hsub : b - a / 8 * 8 - (a - a / 8 * 8) = b - a := by omega
      rw [if_pos hin, hsub, bytesAt_getD _ _ _ (by omega), Nat.add_sub_cancel' hin.1]
      exact if_congr (by omega) rfl rfl
    · rw [if_neg hin, if_neg (by omega)]
  · rw [hnl]
    exact if_congr (by omega) rfl rfl

end Store

theorem storeResult_of_storeOp {c : TileIx → Instr} {op : Op} {size : Nat} {f : Word → Tile → Nat}
    (hx : ∀ t s, exec (c t) s = .next (issue t.val op (storeOp size f) s)) (hs : size ∈ [1, 2, 4, 8, 16]) :
    StoreResult c op size f := by
  intro s t w hi ha hr hclean
  generalize hea : effAddr (s.tile t.val) w size = ea at ha hr hclean
  have hl : (leBytes size (f w (s.tile t.val))).length = size := leBytes_length ..
  have hst : ∃ y, sramStore t.val ea (leBytes size (f w (s.tile t.val))) s = (none, s.setTile t.val y) ∧
      Stored (s.tile t.val) y ea (leBytes size (f w (s.tile t.val))) := by
    by_cases h8 : size < 8
    · refine sramStore_within ?_ ?_ (hl.symm ▸ h8) (hclean h8)
      · rw [hl]
        exact Nat.pos_of_ne_zero fun h0 => absurd (h0 ▸ hs) (by decide)
      · rw [hl]
        simp only [List.mem_cons, List.not_mem_nil, or_false] at hs
        obtain rfl | rfl | rfl | rfl | rfl := hs <;> omega
    · simp only [List.mem_cons, List.not_mem_nil, or_false] at hs
      refine sramStore_words ?_ ?_ (by omega)
      · obtain rfl | rfl | rfl | rfl | rfl := hs <;> omega
      · obtain rfl | rfl | rfl | rfl | rfl := hs <;> omega
  obtain ⟨y, hst, hy⟩ := hst
  have hcyc : y.cycle = (s.tile t.val).cycle := by rw [hy.rest]
  have hb : storeOp size f t.val w (issueAt (s.tile t.val) op w) s = .retire 1 [] 0 (s.setTile t.val y) := by
    simp only [storeOp, hea, memCheck_of_inside ha hr, hst]
  refine ⟨_, _, hx t s, issue_retires_only hi hb hcyc, fun a => (hy.sram a).trans ?_,
    fun i => (hy.sramErr i).trans ?_, ?_⟩
  · rw [hl]
    split
    · exact leBytes_getD _ _ (by omega)
    · rfl
  · rw [hl]
  · rw [hy.rest]
    rfl

/-- Settles O4: whole words, or a read-modify-write of one. -/
theorem storeResults : Obligations.StoreResults := by
  unfold Obligations.StoreResults
  refine ⟨?_, ?_, ?_, ?_, ?_⟩
  · exact storeResult_of_storeOp (fun _ _ => rfl) (by decide)
  · exact storeResult_of_storeOp (fun _ _ => rfl) (by decide)
  · exact storeResult_of_storeOp (fun _ _ => rfl) (by decide)
  · exact storeResult_of_storeOp (fun _ _ => rfl) (by decide)
  · exact storeResult_of_storeOp (fun _ _ => rfl) (by decide)

/-! ### Branches (03 R121) -/

theorem issue_goTo {s : State} {t cost : Nat} {op : Op} {w : Word} {body : Body} {target : Int} {dest : List Nat}
    {f : Tile → Tile} (hi : Issues s t op w)
    (hb : body t w (issueAt (s.tile t) op w) s = goTo t cost target dest f s) (h0 : 0 ≤ target) (h1 : target ≤ 0xFFF)
    (hc : (f (s.tile t)).cycle = (s.tile t).cycle) :
    OnlyTile s (issue t op body s) t
      (retireAt (s.tile t) op w cost (BitVec.ofInt 12 target) dest 1 (f (s.tile t))) := by
  simp only [issue_perform body hi, perform, hb, goTo, if_pos (And.intro h0 h1)]
  exact finish_only (onlyTile_set ..) hc

theorem ofInt_nextTarget (x : Tile) : BitVec.ofInt 12 (nextTarget x) = x.pc + 1 := by
  rw [nextTarget, BitVec.ofInt_add, BitVec.ofInt_natCast, BitVec.ofNat_toNat, BitVec.setWidth_eq]
  rfl

theorem nextTarget_le {x : Tile} (h : x.pc ≠ 0xFFF#12) : nextTarget x ≤ 0xFFF := by
  have hlt := x.pc.isLt
  have hne : x.pc.toNat ≠ 0xFFF := fun he => h (BitVec.eq_of_toNat_eq he)
  rw [nextTarget]
  omega

/-- A branch that falls through. -/
theorem issue_goTo_next {s : State} {t : Nat} {op : Op} {w : Word} {body : Body} {dest : List Nat}
    {f : Tile → Tile} (hi : Issues s t op w)
    (hb : body t w (issueAt (s.tile t) op w) s = goTo t 1 (nextTarget (s.tile t)) dest f s)
    (hpc : (s.tile t).pc ≠ 0xFFF#12) (hc : (f (s.tile t)).cycle = (s.tile t).cycle) :
    OnlyTile s (issue t op body s) t (retireAt (s.tile t) op w 1 ((s.tile t).pc + 1) dest 1 (f (s.tile t))) := by
  rw [← ofInt_nextTarget]
  exact issue_goTo hi hb (by rw [nextTarget]; omega) (nextTarget_le hpc) hc

theorem bodyLoop_taken {s : State} {t : Nat} {w : Word} (c : Nat) (h : (s.tile t).sreg (wRs1 w) ≠ 1#32) :
    bodyLoop t w c s = goTo t 2 (relTarget (s.tile t) w) [rcS (wRs1 w)]
      (fun x => x.setS (wRs1 w) ((s.tile t).sreg (wRs1 w) - 1#32)) s := by
  refine if_pos fun h0 => h ?_
  rw [← BitVec.sub_add_cancel ((s.tile t).sreg (wRs1 w)) 1#32, h0]
  rfl

/-- CALL's link is the address of the instruction after it. -/
theorem link_eq (x : Tile) : BitVec.ofNat 32 (x.pc.toNat + 1) = x.pc.setWidth 32 + 1#32 := by
  rw [BitVec.ofNat_add, BitVec.ofNat_toNat]

/-- Settles O6: each branch is a `goTo`, by its condition. -/
theorem branchResults : Obligations.BranchResults := by
  unfold Obligations.BranchResults
  refine ⟨?_, ?_, ?_, ?_⟩
  · intro s t w hi
    simp only [← relTarget_eq]
    exact ⟨fun hc h0 h1 => ⟨_, rfl, issue_goTo (f := id) hi (bodyBr_taken _ hc) h0 h1 rfl⟩,
      fun hc hpc => ⟨_, rfl, issue_goTo_next (f := id) hi (bodyBr_untaken _ hc) hpc rfl⟩⟩
  · intro s t w hi
    simp only [← relTarget_eq, ← link_eq]
    exact ⟨fun hc h0 h1 => ⟨_, rfl, issue_goTo hi (bodyCall_taken _ hc) h0 h1 (Tile.setS_cycle ..)⟩,
      fun hc hpc => ⟨_, rfl, issue_goTo_next (f := id) hi (bodyCall_untaken _ hc) hpc rfl⟩⟩
  · intro s t w hi
    exact ⟨fun hc h0 h1 => ⟨_, rfl, issue_goTo (f := id) hi (bodyJr_taken _ hc) h0 h1 rfl⟩,
      fun hc hpc => ⟨_, rfl, issue_goTo_next (f := id) hi (bodyJr_untaken _ hc) hpc rfl⟩⟩
  · intro s t w hi
    simp only [← relTarget_eq, bne_iff_ne, bne_eq_false_iff_eq]
    exact ⟨fun hc h0 h1 => ⟨_, rfl, issue_goTo hi (bodyLoop_taken _ hc) h0 h1 (Tile.setS_cycle ..)⟩,
      fun hc hpc => ⟨_, rfl, issue_goTo_next hi (bodyLoop_untaken _ hc) hpc (Tile.setS_cycle ..)⟩⟩

/-! ### The fetch and the guard (03 R111, R113, R122, 02 R75, R76) -/

section Fetch
variable {s : State} {t : Nat} {op : Op} {w : Word} {body : Body} (hm : mayIssue s (s.tile t) = true)
include hm

theorem issue_of_imemUe {n : Nat}
    (he : Tbl.look EccErr.none (s.tile t).pc.toNat (s.tile t).imemErr = .double n) :
    issue t op body s =
      trapTile t (precise 0x07 (s.tile t).pc (s.tile t).pc.toNat ((Config.syndrome n).toNat % 128)) s := by
  simp only [issue, hm, fetch, he, checkWord]
  rfl

variable (hw : Tbl.look 0#32 (s.tile t).pc.toNat (s.tile t).imem = w)
  (he : Tbl.look EccErr.none (s.tile t).pc.toNat (s.tile t).imemErr = .none)
include hw he

theorem issue_of_undefined (hc : classify w = none) :
    issue t op body s = trapTile t (precise 0x01 (s.tile t).pc w.toNat 0) s := by
  simp only [issue, hm, fetch_good he, hw, hc]
  rfl

variable (hc : classify w = some op) (hB : isB op = false)
include hc hB

theorem issue_skips (hg : (s.tile t).preg (wG w) = false) (hpc : (s.tile t).pc ≠ 0xFFF#12) :
    issue t op body s = skip t w s := by
  simp [issue, hm, fetch_good he, hw, hc, hB, hg, hpc]

theorem issue_overruns (hpc : (s.tile t).pc = 0xFFF#12)
    (hf : (s.tile t).preg (wG w) = false ∨ (raisesCreg op w = false ∧ fallsThrough op = true)) :
    issue t op body s = trapTile t (precise 0x02 0xFFF#12 0x1000 0) s := by
  have ht : earlyTrap t tcPcOverrun 0x1000 0 s = trapTile t (precise 0x02 0xFFF#12 0x1000 0) s := by
    rw [← hpc]
    rfl
  rw [← ht]
  obtain hg | ⟨hr, hf⟩ := hf
  · simp only [issue, hm, fetch_good he, hw, hc]
    simp [hB, hg, hpc]
  · simp only [issue, hm, fetch_good he, hw, hc]
    simp [hr, hf, hpc]

end Fetch

theorem skip_only (s : State) (t : Nat) (w : Word) : OnlyTile s (skip t w s) t { s.tile t with
    cycle := max (s.tile t).cycle (readyOf (s.tile t) (rcP (wG w))) + 1, pc := (s.tile t).pc + 1 } := by
  have e : (s.tile t).cycle + (max (s.tile t).cycle (readyOf (s.tile t) (rcP (wG w))) - (s.tile t).cycle) =
      max (s.tile t).cycle (readyOf (s.tile t) (rcP (wG w))) := Nat.add_sub_cancel' (Nat.le_max_left _ _)
  have h : skip t w s = s.setTile t { s.tile t with
      cycle := max (s.tile t).cycle (readyOf (s.tile t) (rcP (wG w))) + 1, pc := (s.tile t).pc + 1 } := by
    simp only [skip, finish, State.modTile_eq, e]
    rfl
  rw [h]
  exact onlyTile_set ..

/-- Each of them issues the instruction that it names. -/
theorem tileCommands_issue :
    ∀ p ∈ tileCommands, ∃ body, ∀ t s, exec (p.1 t) s = .next (issue t.val p.2 body s) := by
  simp only [tileCommands, List.forall_mem_append, List.forall_mem_cons, List.not_mem_nil, false_imp_iff, implies_true,
    and_true]
  and_intros
  all_goals exact ⟨_, fun _ _ => rfl⟩

/-- Settles O7: `issue` decides before the instruction's own part. -/
theorem fetchAndGuardRules : Obligations.FetchAndGuardRules := by
  unfold Obligations.FetchAndGuardRules
  intro p hp s t hm
  obtain ⟨body, hx⟩ := tileCommands_issue p hp
  simp only [hx]
  refine ⟨fun w hw he => ⟨fun hc hB hg hpc => ?_, fun hc => ?_, fun hc hpc hB hf => ?_⟩, fun n he => ?_⟩
  · refine ⟨_, rfl, ?_⟩
    rw [issue_skips hm hw he hc hB hg hpc]
    exact skip_only ..
  · exact congrArg _ (issue_of_undefined hm hw he hc)
  · exact congrArg _ (issue_overruns hm hw he hc hB hpc hf)
  · exact congrArg _ (issue_of_imemUe hm he)

end Sys2Proof.Machine

/-!
O8, O9. The vector operations (03 Table 3-7): lane by lane through `lanes4`, and the packed results of VPK8 and VPKBF
as the bytes of one register, byte 0 lowest (`ofBytes128_bytes`, `ofBytes128_halves`).
-/

namespace Sys2Proof.Machine

/-! ### Lane results (03 R123) -/

theorem laneResult_of_vOp {c : TileIx → Instr} {op : Op} {lat : Nat} {f g : Word → Tile → Nat → Word × Fl}
    (hx : ∀ t s, exec (c t) s = .next (issue t.val op (vOp lat fun w x => lanes4 (g w x)) s))
    (hg : ∀ w x i, g w x i = f w x i) : LaneResult c op lat f := by
  obtain rfl : g = f := by
    funext w x i
    exact hg w x i
  exact completes_of_regOp hx (fun _ _ => rfl) fun _ _ => rfl

theorem clearSign_eq (a : Word) : a &&& 0x7FFFFFFF#32 = 0#1 ++ a.extractLsb' 0 31 := by
  have hm (i : Nat) (hi : i < 32) : (0x7FFFFFFF#32).getLsbD i = decide (i < 31) := by
    revert i
    decide
  refine BitVec.eq_of_getLsbD_eq fun i hi => ?_
  rw [BitVec.getLsbD_and, hm i hi, BitVec.getLsbD_append, BitVec.getLsbD_extractLsb', Nat.zero_add, BitVec.getLsbD_zero]
  by_cases h : i < 31
  · simp [h]
  · simp [h]

/-- Settles O8: lane by lane; the divide and exponential units note when they are free again. -/
theorem vectorArithmeticResults : Obligations.VectorArithmeticResults := by
  unfold Obligations.VectorArithmeticResults
  refine ⟨?_, ?_, ?_, ?_, ?_, ?_, ?_, ?_, ?_, ?_, ?_, ?_⟩
  · exact laneResult_of_vOp (fun _ _ => rfl) fun _ _ _ => rfl
  · exact laneResult_of_vOp (fun _ _ => rfl) fun _ _ _ => rfl
  · exact laneResult_of_vOp (fun _ _ => rfl) fun _ _ _ => rfl
  · exact laneResult_of_vOp (fun _ _ => rfl) fun _ _ _ => rfl
  · exact laneResult_of_vOp (fun _ _ => rfl) fun _ _ _ => rfl
  · exact laneResult_of_vOp (fun _ _ => rfl) fun _ _ _ => rfl
  · exact laneResult_of_vOp (g := fun w x i => (lane (x.vreg (wVa w)) i &&& 0x7FFFFFFF#32, 0#6)) (fun _ _ => rfl)
      fun _ _ _ => congrArg (·, 0#6) (clearSign_eq _)
  · exact laneResult_of_vOp (fun _ _ => rfl) fun _ _ _ => rfl
  · exact completes_of_unit (u := divUnit) (m := fun c x => { x with divFree := c + 14 }) (fun _ _ => rfl)
      (fun _ _ _ _ _ => rfl) (fun _ _ => rfl) fun _ _ => rfl
  · exact completes_of_unit (u := divUnit) (m := fun c x => { x with divFree := c + 14 }) (fun _ _ => rfl)
      (fun _ _ _ _ _ => rfl) (fun _ _ => rfl) fun _ _ => rfl
  · exact completes_of_unit (u := expUnit) (m := fun c x => { x with expFree := c + 10 }) (fun _ _ => rfl)
      (fun _ _ _ _ _ => rfl) (fun _ _ => rfl) fun _ _ => rfl
  · exact completes_of_unit (u := expUnit) (m := fun c x => { x with expFree := c + 10 }) (fun _ _ => rfl)
      (fun _ _ _ _ _ => rfl) (fun _ _ => rfl) fun _ _ => rfl

/-! ### Moves (03 R124) -/

theorem vectorMove_of_vMove {c : TileIx → Instr} {op : Op} {f g : Word → Tile → VWord}
    (hx : ∀ t s, exec (c t) s = .next (issue t.val op (vMove g) s)) (hg : ∀ w x, g w x = f w x) :
    VectorMove c op f :=
  completes_of_regOp hx (fun _ _ => by rw [hg]) fun _ _ => rfl

theorem setLane_eq (v : VWord) (n : Nat) (a : Word) :
    setLane v n a = (if 3 = n then a else lane v 3) ++ (if 2 = n then a else lane v 2) ++
      (if 1 = n then a else lane v 1) ++ (if 0 = n then a else lane v 0) := by
  simp only [setLane, ofLanes, eq_comm (b := n)]

/-! ### Conversions (02 R603) -/

theorem bit_wSub (w : Word) : bit (wSub w) 0 = w.getLsbD 0 := bit_bits (v := w.toNat) (lo := 0) (by decide)

theorem bits_wSub_one (w : Word) : bits (wSub w) 1 2 = (w.extractLsb' 1 2).toNat := by
  rw [wSub, bits_bits (by decide), bits_toNat]

theorem wSub_mod_two (w : Word) : wSub w % 2 = (w.extractLsb' 0 1).toNat := by
  rw [← bits_toNat]
  exact bits_bits (v := w.toNat) (lo' := 0) (n' := 1) (by decide)

theorem toNat_append_low {n m : Nat} (v : BitVec n) (b : BitVec m) : (v ++ b).toNat = b.toNat + 2 ^ m * v.toNat := by
  rw [BitVec.toNat_append, ← Nat.shiftLeft_add_eq_or_of_lt b.isLt, Nat.shiftLeft_eq, Nat.add_comm, Nat.mul_comm]

theorem leNat_leBytes_append {m : Nat} (n : Nat) {v : Nat} (h : v < 2 ^ (8 * n)) (hm : m = 8 * n) (bs : List Byte) :
    leNat (leBytes n v ++ bs) = v + 2 ^ m * leNat bs := by
  subst hm
  induction n generalizing v with
  | zero => simp_all [leBytes]
  | succ n ih =>
    have e : 2 ^ (8 * (n + 1)) = 256 * 2 ^ (8 * n) := by
      rw [Nat.mul_succ, Nat.add_comm, Nat.pow_add]
    have hr : v / 256 < 2 ^ (8 * n) := by omega
    have hb : (BitVec.ofNat 8 v).toNat = v % 256 := BitVec.toNat_ofNat ..
    rw [leBytes, List.cons_append, leNat, ih hr, hb, e, Nat.mul_add, ← Nat.add_assoc, Nat.mod_add_div, Nat.mul_assoc]

/-- Eight bytes in the low half of a register. -/
theorem leNat_bytes (b : Nat → Byte) : leNat ((List.range 8).map fun i => [b i]).flatten =
    (0#64 ++ b 7 ++ b 6 ++ b 5 ++ b 4 ++ b 3 ++ b 2 ++ b 1 ++ b 0).toNat := by
  simp only [toNat_append_low]
  rfl

/-- Eight halves fill a register. -/
theorem leNat_halves (b : Nat → BitVec 16) : leNat ((List.range 8).map fun i => leBytes 2 (b i).toNat).flatten =
    (b 7 ++ b 6 ++ b 5 ++ b 4 ++ b 3 ++ b 2 ++ b 1 ++ b 0).toNat := by
  have hb (i : Nat) (bs : List Byte) : leNat (leBytes 2 (b i).toNat ++ bs) = (b i).toNat + 2 ^ 16 * leNat bs :=
    leNat_leBytes_append 2 (b i).isLt rfl bs
  have hl : ((List.range 8).map fun i => leBytes 2 (b i).toNat).flatten =
      leBytes 2 (b 0).toNat ++ (leBytes 2 (b 1).toNat ++ (leBytes 2 (b 2).toNat ++ (leBytes 2 (b 3).toNat ++
        (leBytes 2 (b 4).toNat ++ (leBytes 2 (b 5).toNat ++ (leBytes 2 (b 6).toNat ++ (leBytes 2 (b 7).toNat ++
          []))))))) := rfl
  rw [hl]
  simp only [hb, toNat_append_low]
  rfl

/-- Eight results, packed from byte 0, with their flags. -/
theorem pack_range (f : Nat → List Byte × Fl) {v : VWord}
    (h : leNat ((List.range 8).map fun i => (f i).1).flatten = v.toNat) :
    pack ((List.range 8).map f) =
      (v, (f 0).2 ||| (f 1).2 ||| (f 2).2 ||| (f 3).2 ||| (f 4).2 ||| (f 5).2 ||| (f 6).2 ||| (f 7).2) := by
  rw [pack, List.map_map]
  refine Prod.ext ?_ ?_
  · exact (congrArg (BitVec.ofNat 128) h).trans ((BitVec.ofNat_toNat ..).trans (BitVec.setWidth_eq v))
  · show 0#6 ||| (f 0).2 ||| (f 1).2 ||| (f 2).2 ||| (f 3).2 ||| (f 4).2 ||| (f 5).2 ||| (f 6).2 ||| (f 7).2 = _
    rw [BitVec.zero_or]

/-- Operand i of a pack: the lanes of v[va], then those of v[vb]. -/
def packLane (w : Word) (x : Tile) (i : Nat) : Word :=
  if i < 4 then lane (x.vreg (wVa w)) i else lane (x.vreg (wVb w)) (i - 4)

theorem vPack8_eq (w : Word) (x : Tile) : vPack8 w x =
    let r := fun i => toFp8 (w.getLsbD 0) (packLane w x i)
    (0#64 ++ (r 7).1 ++ (r 6).1 ++ (r 5).1 ++ (r 4).1 ++ (r 3).1 ++ (r 2).1 ++ (r 1).1 ++ (r 0).1,
      (r 0).2 ||| (r 1).2 ||| (r 2).2 ||| (r 3).2 ||| (r 4).2 ||| (r 5).2 ||| (r 6).2 ||| (r 7).2) := by
  extract_lets r
  have e : vPack8 w x = pack ((List.range 8).map fun i => ([(r i).1], (r i).2)) := by
    rw [vPack8, bit_wSub]
    rfl
  rw [e]
  exact pack_range _ (leNat_bytes fun i => (r i).1)

theorem vPackBf_eq (w : Word) (x : Tile) : vPackBf w x =
    let r := fun i => toBf (packLane w x i)
    ((r 7).1 ++ (r 6).1 ++ (r 5).1 ++ (r 4).1 ++ (r 3).1 ++ (r 2).1 ++ (r 1).1 ++ (r 0).1,
      (r 0).2 ||| (r 1).2 ||| (r 2).2 ||| (r 3).2 ||| (r 4).2 ||| (r 5).2 ||| (r 6).2 ||| (r 7).2) := by
  extract_lets r
  have e : vPackBf w x = pack ((List.range 8).map fun i => (leBytes 2 (r i).1.toNat, (r i).2)) := rfl
  rw [e]
  exact pack_range _ (leNat_halves fun i => (r i).1)

/-- Settles O9: moves, lane by lane conversions, reductions, and the packed results. -/
theorem vectorMoveAndConversionResults : Obligations.VectorMoveAndConversionResults := by
  unfold Obligations.VectorMoveAndConversionResults
  refine ⟨?_, ?_, ?_, ?_, ?_, ?_, ?_, ?_, ?_, ?_, ?_, ?_⟩
  · exact vectorMove_of_vMove (fun _ _ => rfl) fun _ _ => rfl
  · exact completes_of_regOp (fun _ _ => rfl) (fun _ _ => rfl) fun _ _ => Tile.setS_cycle ..
  · exact vectorMove_of_vMove (fun _ _ => rfl) fun _ _ => setLane_eq ..
  · exact vectorMove_of_vMove (fun _ _ => rfl) fun _ _ => rfl
  · exact laneResult_of_vOp (fun _ _ => rfl) fun _ _ _ => rfl
  · exact laneResult_of_vOp (fun _ _ => rfl) fun _ _ _ => rfl
  · refine laneResult_of_vOp (g := fun w x i => (ofFp8 (bit (wSub w) 0)
      (vbyte (x.vreg (wVa w)) (4 * bits (wSub w) 1 2 + i)).toNat, 0#6)) (fun _ _ => rfl) fun w x i => ?_
    rw [bit_wSub, bits_wSub_one]
  · refine laneResult_of_vOp (g := fun w x i =>
      (ofBf (bits (x.vreg (wVa w)).toNat (16 * (4 * (wSub w % 2) + i)) 16), 0#6)) (fun _ _ => rfl) fun w x i => ?_
    rw [wSub_mod_two, bits_toNat]
  · exact completes_of_regOp (fun _ _ => rfl) (fun _ _ => rfl) fun _ _ => rfl
  · exact completes_of_regOp (fun _ _ => rfl) (fun _ _ => rfl) fun _ _ => rfl
  · refine completes_of_regOp (fun _ _ => rfl) (fun w x => ?_) fun _ _ => rfl
    rw [vPack8_eq]
    rfl
  · refine completes_of_regOp (fun _ _ => rfl) (fun w x => ?_) fun _ _ => rfl
    rw [vPackBf_eq]
    rfl

end Sys2Proof.Machine

/-!
O10, O11. The matrix unit and the walker. Both write runs of words of an accumulator (`aword_setAs_range`); the matrix
instructions read their operands by several loads of one instruction (`LoadsOk`, `readLoads_ok`).
-/

namespace Sys2Proof.Machine

/-! ### Accumulators (02 Table 2-1) -/

@[simp] theorem Tile.setAs_cycle (x : Tile) (r k : Nat) (l : List Word) : (x.setAs r k l).cycle = x.cycle := by
  rw [Tile.setAs_frame]

/-- A whole accumulator written. -/
theorem Tile.aword_setAs_range (x : Tile) (r : Nat) (f : Nat → Word) {q k : Nat} (hk : k < 16) :
    (x.setAs r 0 ((List.range 16).map f)).aword q k = if q = r then f k else x.aword q k := by
  rw [Tile.aword_setAs, List.length_map, List.length_range]
  by_cases hq : q = r
  · have hi : 16 * q + k - (16 * r + 0) = k := by omega
    rw [if_pos (by omega), if_pos hq, hi, List.getD_eq_getElem _ _ (by simpa using hk), List.getElem_map,
      List.getElem_range]
  · rw [if_neg (by omega), if_neg hq]

@[simp] theorem retireAt_aword (x y : Tile) (op : Op) (w : Word) (cost : Nat) (pc : BitVec 12) (dest : List Nat)
    (lat r k : Nat) : (retireAt x op w cost pc dest lat y).aword r k = y.aword r k := rfl

@[simp] theorem Tile.flag_aword (x : Tile) (f : Fl) (r k : Nat) : (x.flag f).aword r k = x.aword r k := rfl

/-- Writing words of an accumulator leaves every other register as it was, and so does retiring after it. -/
theorem retireAt_setAs (x z : Tile) (op : Op) (w : Word) (cost : Nat) (pc : BitVec 12) (dest : List Nat)
    (lat r k : Nat) (l : List Word) :
    retireAt x op w cost pc dest lat (z.setAs r k l) =
      { retireAt x op w cost pc dest lat z with a := (retireAt x op w cost pc dest lat (z.setAs r k l)).a } := by
  obtain ⟨a, ha⟩ : ∃ a, z.setAs r k l = { z with a := a } := ⟨_, Tile.setAs_frame ..⟩
  rw [ha]
  rfl

theorem retireAt_setAs_flag (x z : Tile) (op : Op) (w : Word) (cost : Nat) (pc : BitVec 12) (dest : List Nat)
    (lat r k : Nat) (l : List Word) (f : Fl) :
    retireAt x op w cost pc dest lat ((z.setAs r k l).flag f) =
      { retireAt x op w cost pc dest lat z with
        a := (retireAt x op w cost pc dest lat ((z.setAs r k l).flag f)).a
        fpstat := (retireAt x op w cost pc dest lat ((z.setAs r k l).flag f)).fpstat } := by
  obtain ⟨a, ha⟩ : ∃ a, z.setAs r k l = { z with a := a } := ⟨_, Tile.setAs_frame ..⟩
  rw [ha]
  rfl

/-! ### AGET, APUT, ACLR (03 R124, R125) -/

theorem moveA_eq (w : Word) : moveA w = (w.extractLsb' 2 2).toNat := by
  rw [moveA, wSub, bits_bits (by decide), bits_toNat]

theorem moveRow_eq (w : Word) : moveRow w = (w.extractLsb' 0 2).toNat := by
  rw [← bits_toNat]
  exact bits_bits (v := w.toNat) (lo' := 0) (n' := 2) (by decide)

section Moves
variable {s : State} {t : Nat} {w : Word}

theorem bodyAget_free (c : Nat) (h : macPending (s.tile t) (moveA w) = false) :
    bodyAget t w c s = .retire 1 [rcV (wVd w), rcFp] 1 (s.setTile t ((s.tile t).setV (wVd w)
      (let a := fun j => (s.tile t).aword (moveA w) (4 * moveRow w + j)
       a 3 ++ a 2 ++ a 1 ++ a 0))) :=
  if_neg (Bool.eq_false_iff.mp h)

theorem bodyAput_free (c : Nat) (h : macPending (s.tile t) (moveA w) = false) :
    bodyAput t w c s = .retire 1 [rcA (moveA w), rcFp] 1 (s.setTile t ((s.tile t).setAs (moveA w) (4 * moveRow w)
      ((List.range 4).map (lane ((s.tile t).vreg (wVa w)))))) :=
  if_neg (Bool.eq_false_iff.mp h)

theorem bodyAclr_free (c : Nat) (h : macPending (s.tile t) (wAd w) = false) :
    bodyAclr t w c s = .retire 1 [rcA (wAd w)] 1 (s.setTile t ((s.tile t).setAs (wAd w) 0
      ((List.range 16).map fun _ => 0#32))) :=
  if_neg (Bool.eq_false_iff.mp h)

end Moves

/-- A row of an accumulator written. -/
theorem Tile.aword_setAs_row (x : Tile) {r row q k : Nat} (f : Nat → Word) (hk : k < 16) (hrow : row < 4) :
    (x.setAs r (4 * row) ((List.range 4).map f)).aword q k =
      if q = r ∧ k / 4 = row then f (k % 4) else x.aword q k := by
  rw [Tile.aword_setAs, List.length_map, List.length_range]
  by_cases h : q = r ∧ k / 4 = row
  · have hi : 16 * q + k - (16 * r + 4 * row) = k % 4 := by omega
    have hl : k % 4 < 4 := Nat.mod_lt _ (by decide)
    rw [if_pos (by omega), if_pos h, hi, List.getD_eq_getElem _ _ (by simpa using hl), List.getElem_map,
      List.getElem_range]
  · rw [if_neg (by omega), if_neg h]

/-! ### Several loads of one instruction (03 R126, R600) -/

/-- Each load of the list is aligned, inside data SRAM and clean. -/
def LoadsOk (x : Tile) (l : List (Nat × Nat)) : Prop := ∀ r ∈ l, 0 < r.2 ∧ SramReads x r.2 r.1 r.2

theorem LoadsOk.append {x : Tile} {l r : List (Nat × Nat)} (hl : LoadsOk x l) (hr : LoadsOk x r) :
    LoadsOk x (l ++ r) :=
  fun e he => (List.mem_append.mp he).elim (hl e) (hr e)

theorem checkLoads_ok {s : State} {t : Nat} {l : List (Nat × Nat)} (h : LoadsOk (s.tile t) l) :
    checkLoads s t l = none := by
  have ha : l.find? (fun r => decide (r.1 % r.2 ≠ 0)) = none := by
    refine List.find?_eq_none.mpr fun r hr => ?_
    obtain ⟨-, hmod, -⟩ := h r hr
    simpa using hmod
  have hb : l.find? (fun r => decide (sramBytes < r.1 + r.2)) = none := by
    refine List.find?_eq_none.mpr fun r hr => ?_
    obtain ⟨-, -, hrange, -⟩ := h r hr
    exact fun hlt => absurd (of_decide_eq_true hlt) (Nat.not_lt_of_le hrange)
  simp only [checkLoads, ha, hb]

theorem readLoads_ok {s : State} {t : Nat} {l : List (Nat × Nat)} (h : LoadsOk (s.tile t) l) :
    readLoads t l s = (.ok (l.flatMap fun r => bytesAt 0 (s.tile t).sram r.1 r.2), s) := by
  induction l with
  | nil => rfl
  | cons e r ih =>
    obtain ⟨h0, -, -, hclean⟩ := h e List.mem_cons_self
    simp only [readLoads, sramRead_clean h0 hclean, ih fun e he => h e (List.mem_cons_of_mem _ he)]
    rfl

theorem bytesAt_add (d : Byte) (m : Tbl Byte) (a n k : Nat) :
    bytesAt d m a (n + k) = bytesAt d m a n ++ bytesAt d m (a + n) k := by
  induction n generalizing a with
  | zero => rw [Nat.zero_add]; rfl
  | succ n ih => rw [Nat.succ_add, bytesAt, ih, bytesAt, List.cons_append, Nat.add_assoc, Nat.add_comm 1 n]

theorem loadsFrom_succ (a k n : Nat) : loadsFrom a k (n + 1) = loadsFrom a k n ++ [((a + k * n) % 2 ^ 32, k)] := by
  rw [loadsFrom, List.range_succ, List.map_append]
  rfl

/-- Loads at successive addresses read the bytes of their whole range. -/
theorem flatMap_loadsFrom (m : Tbl Byte) (a k n : Nat) (h : a + k * n ≤ 2 ^ 32) (hk : 0 < k) :
    ((loadsFrom a k n).flatMap fun r => bytesAt 0 m r.1 r.2) = bytesAt 0 m a (k * n) := by
  induction n with
  | zero => rfl
  | succ n ih =>
    have hn : a + k * n < 2 ^ 32 := by rw [Nat.mul_succ] at h; omega
    rw [loadsFrom_succ, List.flatMap_append, ih hn.le, Nat.mul_succ, bytesAt_add, Nat.mod_eq_of_lt hn]
    simp

theorem SramClean.sub {x : Tile} {a n b k : Nat} (h : SramClean x a n) (h1 : a ≤ b) (h2 : b + k ≤ a + n) :
    SramClean x b k :=
  ⟨fun i hi hj => h.1 i (by omega) (by omega), fun u hu hv => h.2 u (by omega) (by omega)⟩

theorem loadsFrom_ok {x : Tile} {a k n : Nat} (hk : 0 < k) (h : SramReads x k a (k * n)) :
    LoadsOk x (loadsFrom a k n) := by
  intro r hr
  obtain ⟨i, hi, rfl⟩ := List.mem_map.mp hr
  obtain ⟨ha, hrange, hclean⟩ := h
  have hle : k * i + k ≤ k * n := by
    rw [← Nat.mul_succ]
    exact Nat.mul_le_mul_left k (List.mem_range.mp hi)
  have hmod : (a + k * i) % 2 ^ 32 = a + k * i := Nat.mod_eq_of_lt (by omega)
  refine ⟨hk, ?_⟩
  dsimp only
  rw [hmod]
  exact ⟨by rw [Nat.add_mul_mod_self_left, ha], by omega, hclean.sub (by omega) (by omega)⟩

/-! ### MMA and its completion (03 R126 to R128) -/

/-- The computation that an MMA queues from issue cycle c on, and the tile with it queued. -/
def Tile.queueMma (x : Tile) (zero : Bool) (w : Word) (c : Nat) : Tile :=
  let last := max (c + if 6 ≤ wXfmt w then 5 else 4) x.macFree + 31
  { x with
    macFree := last + 1
    mma := x.mma ++ [{
      ad := wAd w, fmt := wXfmt w, zero := zero, last := last
      a := bytesAt 0 x.sram (x.sreg (wXrs1 w)).toNat 128
      b := bytesAt 0 x.sram (x.sreg (wXrs2 w)).toNat 128
      sc := if 6 ≤ wXfmt w then bytesAt 0 x.sram (x.sreg (wXrs3 w)).toNat 8 else [] }] }

/-- A, B and the scales again, out of the bytes read. -/
theorem take_drop_operands {α : Type} {a b : List α} (c : List α) (ha : a.length = 128) (hb : b.length = 128) :
    (a ++ b ++ c).take 128 = a ∧ ((a ++ b ++ c).drop 128).take 128 = b ∧ (a ++ b ++ c).drop 256 = c := by
  have hab : (a ++ b).length = 256 := by rw [List.length_append, ha, hb]
  refine ⟨?_, ?_, ?_⟩
  · rw [List.append_assoc, List.take_left' ha]
  · rw [List.append_assoc, List.drop_left' ha, List.take_left' hb]
  · rw [List.drop_left' hab]

/-- The load of an MMA's scales, where its format has them. -/
def scaleLoads (x : Tile) (w : Word) : List (Nat × Nat) :=
  if 6 ≤ wXfmt w then [((x.sreg (wXrs3 w)).toNat, 8)] else []

theorem scaleLoads_ok {x : Tile} {w : Word} (h : 6 ≤ wXfmt w → SramReads x 8 (x.sreg (wXrs3 w)).toNat 8) :
    LoadsOk x (scaleLoads x w) := by
  intro r hr
  rw [scaleLoads] at hr
  split at hr
  · rename_i h6
    obtain rfl := List.mem_singleton.mp hr
    exact ⟨Nat.succ_pos 7, h h6⟩
  · contradiction

theorem flatMap_scaleLoads (m : Tbl Byte) (x : Tile) (w : Word) :
    ((scaleLoads x w).flatMap fun r => bytesAt 0 m r.1 r.2) =
      if 6 ≤ wXfmt w then bytesAt 0 m (x.sreg (wXrs3 w)).toNat 8 else [] := by
  rw [scaleLoads]
  split
  · exact List.flatMap_singleton ..
  · rfl

theorem bodyMma_queues {s : State} {t : Nat} {w : Word} (zero : Bool) (c : Nat) (hm : (s.tile t).mma.length < 2)
    (ha : SramReads (s.tile t) 16 ((s.tile t).sreg (wXrs1 w)).toNat 128)
    (hb : SramReads (s.tile t) 16 ((s.tile t).sreg (wXrs2 w)).toNat 128)
    (hs : 6 ≤ wXfmt w → SramReads (s.tile t) 8 ((s.tile t).sreg (wXrs3 w)).toNat 8) :
    bodyMma zero t w c s =
      .retire (if 6 ≤ wXfmt w then 5 else 4) [] 0 (s.setTile t ((s.tile t).queueMma zero w c)) := by
  have hok := ((loadsFrom_ok (n := 8) (Nat.succ_pos 15) ha).append (loadsFrom_ok (n := 8) (Nat.succ_pos 15) hb)).append
    (scaleLoads_ok hs)
  have hread := readLoads_ok hok
  obtain ⟨-, har, -⟩ := ha
  obtain ⟨-, hbr, -⟩ := hb
  rw [List.flatMap_append, List.flatMap_append, flatMap_loadsFrom _ _ _ _ (by omega) (Nat.succ_pos 15),
    flatMap_loadsFrom _ _ _ _ (by omega) (Nat.succ_pos 15), flatMap_scaleLoads] at hread
  have hcheck := checkLoads_ok hok
  rw [scaleLoads] at hread hcheck
  have hfull : ¬ 2 ≤ (s.tile t).mma.length := Nat.not_le_of_lt hm
  obtain ⟨hA, hB, hC⟩ := take_drop_operands
    (if 6 ≤ wXfmt w then bytesAt 0 (s.tile t).sram ((s.tile t).sreg (wXrs3 w)).toNat 8 else [])
    (bytesAt_length 0 (s.tile t).sram ((s.tile t).sreg (wXrs1 w)).toNat 128)
    (bytesAt_length 0 (s.tile t).sram ((s.tile t).sreg (wXrs2 w)).toNat 128)
  simp only [bodyMma, hfull, if_false, hcheck, hread, State.modTile_eq, Tile.queueMma, Nat.sub_self, Nat.add_zero,
    hA, hB, hC]

theorem mma_retires {c : TileIx → Instr} {op : Op} {zero : Bool}
    (hx : ∀ t s, exec (c t) s = .next (issue t.val op (bodyMma zero) s)) {s : State} {t : TileIx} {w : Word}
    (hi : Issues s t.val op w) (hm : (s.tile t.val).mma.length < 2)
    (ha : SramReads (s.tile t.val) 16 ((s.tile t.val).sreg (wXrs1 w)).toNat 128)
    (hb : SramReads (s.tile t.val) 16 ((s.tile t.val).sreg (wXrs2 w)).toNat 128)
    (hs : 6 ≤ wXfmt w → SramReads (s.tile t.val) 8 ((s.tile t.val).sreg (wXrs3 w)).toNat 8) :
    ∃ s', exec (c t) s = .next s' ∧ OnlyTile s s' t.val (retireAt (s.tile t.val) op w (if 6 ≤ wXfmt w then 5 else 4)
      ((s.tile t.val).pc + 1) [] 0 ((s.tile t.val).queueMma zero w (issueAt (s.tile t.val) op w))) :=
  ⟨_, hx t s, issue_retires_only hi (bodyMma_queues zero _ hm ha hb hs) rfl⟩

/-- The words of a[ad] that a computation leaves. -/
def mmaWord (x : Tile) (j : MmaJob) (n : Nat) : Word :=
  (mmaElem j (if j.zero then 0#32 else x.aword j.ad n) (n / 4) (n % 4)).1

theorem mmaEnd_oldest {s : State} {t : Nat} {j : MmaJob} {r : List MmaJob} (hj : (s.tile t).mma = j :: r) :
    ∃ y, mmaEnd t s = s.setTile t y ∧ y = { s.tile t with mma := r, a := y.a, fpstat := y.fpstat, ready := y.ready } ∧
      y.a = ((s.tile t).setAs j.ad 0 ((List.range 16).map (mmaWord (s.tile t) j))).a := by
  have hres : (mmaResult (s.tile t) j).map (·.1) = (List.range 16).map (mmaWord (s.tile t) j) := List.map_map ..
  unfold mmaEnd
  simp only [hj, hres]
  exact ⟨_, rfl, by rw [Tile.setAs_frame]; rfl, rfl⟩

/-- An accumulator's words are all that `aword` reads. -/
theorem Tile.aword_congr {x y : Tile} (h : x.a = y.a) (r k : Nat) : x.aword r k = y.aword r k := by
  rw [Tile.aword, h, Tile.aword]

/-! ### NZMAP (03 R130) -/

/-- Bit i of the number that a list of truth values spells, lowest first. -/
theorem testBit_foldr {α : Type} (p : α → Bool) (l : List α) (i : Nat) :
    (l.foldr (fun c n => 2 * n + boolNat (p c)) 0).testBit i = (l[i]?.map p).getD false := by
  have hb (b : Bool) (n : Nat) : 2 * n + boolNat b = Nat.bit b n := by
    rw [Nat.bit_val]
    cases b <;> rfl
  induction l generalizing i with
  | nil => exact Nat.zero_testBit i
  | cons c r ih =>
    rw [List.foldr_cons, hb]
    cases i with
    | zero => exact Nat.testBit_bit_zero ..
    | succ i => rw [Nat.testBit_bit_succ, ih, List.getElem?_cons_succ]

/-- The presence bitmap of 128 elements. -/
def presenceMap (e : EFmt) (bs : List Byte) : VWord :=
  BitVec.ofNat 128 ((elems e bs 0 128).foldr (fun c n => 2 * n + boolNat (elemNonZero e c)) 0)

theorem presenceMap_bit (e : EFmt) (bs : List Byte) {i : Nat} (hi : i < 128) :
    (presenceMap e bs).getLsbD i = elemNonZero e (elemAt e bs i) := by
  rw [presenceMap, BitVec.getLsbD_ofNat, testBit_foldr, decide_eq_true hi, Bool.true_and, elems, Nat.mul_zero,
    List.drop_zero, List.getElem?_map, List.getElem?_range hi]
  rfl

theorem bodyNzmap_ok {s : State} {t : Nat} {w : Word} (c : Nat)
    (h : SramReads (s.tile t) 16 ((s.tile t).sreg (wXrs1 w)).toNat (128 * (wFmt (wWfmt w)).bytes)) :
    bodyNzmap t w c s = .retire (if wWfmt w = 3 then 4 else 2) [rcV (wWv w)] 2 (s.setTile t ((s.tile t).setV (wWv w)
      (presenceMap (wFmt (wWfmt w)) (bytesAt 0 (s.tile t).sram ((s.tile t).sreg (wXrs1 w)).toNat
        (128 * (wFmt (wWfmt w)).bytes))))) := by
  have hn : 128 * (wFmt (wWfmt w)).bytes = 16 * (8 * (wFmt (wWfmt w)).bytes) := by omega
  rw [hn] at h ⊢
  have hok := loadsFrom_ok (Nat.succ_pos 15) h
  have hread := readLoads_ok hok
  obtain ⟨-, hr, -⟩ := h
  rw [flatMap_loadsFrom _ _ _ _ (by omega) (Nat.succ_pos 15)] at hread
  simp only [bodyNzmap, checkLoads_ok hok, hread]
  rfl

/-- Settles O10: the accumulator moves, MMA and its completion, and NZMAP. -/
theorem matrixResults : Obligations.MatrixResults := by
  unfold Obligations.MatrixResults
  refine ⟨?_, ?_, ?_, ?_, ?_, ?_⟩
  · intro s t w hi hm
    rw [← moveA_eq] at hm ⊢
    rw [← moveRow_eq]
    exact ⟨_, rfl, issue_retires_only hi (bodyAget_free _ hm) rfl⟩
  · intro s t w hi hm
    rw [← moveA_eq] at hm ⊢
    rw [← moveRow_eq]
    refine ⟨_, _, rfl, issue_retires_only hi (bodyAput_free _ hm) (Tile.setAs_cycle ..), retireAt_setAs .., ?_⟩
    intro r k _ hk
    have hrow : moveRow w < 4 := Nat.mod_lt _ (by decide)
    rw [retireAt_aword, Tile.aword_setAs_row _ _ hk hrow]
  · intro s t w hi hm
    refine ⟨_, _, rfl, issue_retires_only hi (bodyAclr_free _ hm) (Tile.setAs_cycle ..), retireAt_setAs .., ?_⟩
    intro r k _ hk
    rw [retireAt_aword, Tile.aword_setAs_range _ _ _ hk]
  · simp only [List.forall_mem_cons]
    exact ⟨fun s t w => mma_retires (c := .mma) fun _ _ => rfl, fun s t w => mma_retires (c := .mmaz) fun _ _ => rfl,
      List.forall_mem_nil _⟩
  · intro s t j r hj hheld
    obtain ⟨y, he, hy, ha⟩ := mmaEnd_oldest hj
    have hx : exec (.mmaComplete t) s = .next (s.setTile t.val y) := by
      refine congrArg Host.Outcome.next ((resume_of_notHeld ?_).trans he)
      rw [he, State.setTile_tile_same, hy]
      exact hheld
    refine ⟨_, y, hx, onlyTile_set .., hy, fun q k _ hk => ?_⟩
    rw [Tile.aword_congr ha, Tile.aword_setAs_range _ _ _ hk]
    refine if_ctx_congr Iff.rfl (fun hq => ?_) fun _ => rfl
    rw [mmaWord, hq]
  · intro s t w hi h
    exact ⟨_, _, rfl, issue_retires_only hi (bodyNzmap_ok _ h) rfl, fun i hlt => presenceMap_bit _ _ hlt⟩

/-! ### Dropped indices (04 R189) -/

@[simp] theorem countOors_tile (c n : Nat) (s : State) (u : Nat) : (countOors c n s).tile u = s.tile u := by
  rw [countOors]
  generalize 0 = k
  induction n generalizing k s with
  | zero => rfl
  | succ n ih => exact ih ..

theorem countOor_oor (c : Nat) (s : State) : ((countOor c s).ctx c).oor = satAdd 48 (s.ctx c).oor 1 := by
  simp [countOor, State.modExec]

theorem countOors_oor (c n : Nat) (s : State) :
    ((countOors c n s).ctx c).oor = forUp (fun _ n => satAdd 48 n 1) 0 n (s.ctx c).oor := by
  rw [countOors]
  generalize 0 = k
  induction n generalizing k s with
  | zero => rfl
  | succ n ih => rw [forUp, ih, countOor_oor, forUp]

/-! ### SWALK (04 R164 to R170) -/

theorem portBLost_of_idle {x : Tile} (h : portBBusy x = false) (n : Nat) (s : State) : portBLost x n s = (0, s) := by
  simp only [portBLost, h, Bool.false_eq_true, if_false]

/-- Word n of the accumulator after a walk, and its flags. -/
def walkWord (d : WalkDesc) (p : Plan) (cols : List (List Byte)) (xs : List Byte) (x : Tile) (r n : Nat) : Word × Fl :=
  if n % 4 < d.ncol then walkElem d p cols xs (x.aword r n) (n / 4) (n % 4) else (x.aword r n, 0#6)

/-- The flags of the words of a walk. -/
def walkFlags (d : WalkDesc) (p : Plan) (cols : List (List Byte)) (xs : List Byte) (x : Tile) (r : Nat) : Fl :=
  ((List.range 16).map (walkWord d p cols xs x r)).foldl (fun f e => f ||| e.2) 0#6

section Walk
variable {s : State} {t : Nat} {w : Word} (hm : macPending (s.tile t) (wAd w) = false)
  (hp : portBBusy (s.tile t) = false)
include hm hp

theorem bodySwalk_ok (c : Nat) {d : WalkDesc} {p : Plan} {cols : List (List Byte)} {xs : List Byte}
    (hw : walk t w s = (.ok (d, p, cols, xs), s)) :
    bodySwalk t w c s = .retire (walkCycles d p) [rcA (wAd w), rcFp] 1
      (countOors (s.tile t).ctx p.drops (s.setTile t (((s.tile t).setAs (wAd w) 0
        ((List.range 16).map fun n => (walkWord d p cols xs (s.tile t) (wAd w) n).1)).flag
          (walkFlags d p cols xs (s.tile t) (wAd w))))) := by
  simp only [bodySwalk, hm, hw, portBLost_of_idle hp, List.map_map]
  rfl

theorem bodySwalk_traps (c : Nat) {tr : Trap} {s1 : State} (hw : walk t w s = (.error tr, s1)) :
    bodySwalk t w c s = .trap tr s1 := by
  simp only [bodySwalk, hm, hw, portBLost_of_idle hp]
  rfl

end Walk

/-- An instruction that traps after its own part has changed other parts of the machine. -/
theorem issue_traps_late {s s1 : State} {t : Nat} {op : Op} {w : Word} {body : Body} {tr : Trap}
    (hi : Issues s t op w) (hb : body t w (issueAt (s.tile t) op w) s = .trap tr s1) (ht : s1.tile t = s.tile t) :
    issue t op body s =
      trapTile t tr (s1.modTile t fun y => { y with cycle := issueAt (s.tile t) op w + tr.late }) := by
  have e : (s.tile t).cycle + (issueAt (s.tile t) op w - (s.tile t).cycle) = issueAt (s.tile t) op w :=
    Nat.add_sub_cancel' (issueAt_ge _ _ _)
  simp only [issue_perform body hi, perform, hb, State.modTile_eq, ht, e]

/-- Settles O11: `walk` decides, and port B takes no cycle more. -/
theorem walkResults : Obligations.WalkResults := by
  unfold Obligations.WalkResults
  intro s t w hi hm
  refine ⟨fun d p cols xs hw hp => ?_, fun tr s1 hw ht hp => ?_⟩
  · have hx := issue_retires_setTile hi (bodySwalk_ok hm hp _ hw)
      (by rw [countOors_tile, State.setTile_tile_same, Tile.flag_cycle, Tile.setAs_cycle])
    rw [countOors_tile, State.setTile_tile_same] at hx
    refine ⟨_, _, congrArg Host.Outcome.next hx, State.setTile_tile_same .., fun u hu => ?_, retireAt_setAs_flag ..,
      fun r k _ hk => ?_, ?_⟩
    · rw [State.setTile_tile_other _ _ _ _ hu, countOors_tile, State.setTile_tile_other _ _ _ _ hu]
    · rw [retireAt_aword, Tile.flag_aword, Tile.aword_setAs_range _ _ _ hk]
      by_cases hr : r = wAd w
      · subst hr
        rw [if_pos rfl, walkWord]
        by_cases hn : k % 4 < d.ncol
        · rw [if_pos hn, if_pos ⟨rfl, hn⟩]
        · rw [if_neg hn, if_neg fun h => hn h.2]
      · rw [if_neg hr, if_neg fun h => hr h.1]
    · rw [State.setTile_ctx, countOors_oor]
      rfl
  · exact congrArg Host.Outcome.next (issue_traps_late hi (bodySwalk_traps hm hp _ hw) ht)

end Sys2Proof.Machine

/-!
O12. The Eddy accumulator. `eaddOne` is one of four cases of the key's lookup, each with its equation; an EADD or EADDV
whose entries are clean and whose lines find room is these, one after another (`eaddAll_retires`).
-/

namespace Sys2Proof.Machine

/-! ### Lookups of clean entries (02 R75) -/

theorem eddyCheck_clean {s : State} {t i : Nat} (h : Tbl.look EccErr.none i (s.tile t).eddyErr = .none) :
    eddyCheck t i s = (none, s) := by
  simp only [eddyCheck, h, checkWord_none]

theorem eddyChecks_clean {s : State} {t : Nat} {l : List Nat}
    (h : ∀ i ∈ l, Tbl.look EccErr.none i (s.tile t).eddyErr = .none) : eddyChecks t l s = (none, s) := by
  induction l with
  | nil => rfl
  | cons i r ih =>
    simp only [eddyChecks, eddyCheck_clean (h i List.mem_cons_self), ih fun j hj => h j (List.mem_cons_of_mem _ hj)]

theorem laneChecks_clean {s : State} {t : Nat} (extent : Word) {ks : List Word} (n : Nat)
    (h : ∀ k ∈ ks, ∀ i ∈ waysOf k, Tbl.look EccErr.none i (s.tile t).eddyErr = .none) :
    laneChecks t extent n ks s = (none, s) := by
  induction ks generalizing n with
  | nil => rfl
  | cons k r ih =>
    have hr := fun n => ih n fun j hj => h j (List.mem_cons_of_mem _ hj)
    simp only [laneChecks, eddyChecks_clean (h k List.mem_cons_self), hr, ite_self]

/-! ### One EADD (03 R133, 04 R176) -/

/-- The way of the key's set that holds the key. -/
def hitWay (x : Tile) (k : Word) : Option Nat :=
  (waysOf k).find? fun i => decide ((eddyAt x i).map (·.key) = some k)

/-- The lowest invalid way of the key's set. -/
def vacantWay (x : Tile) (k : Word) : Option Nat := (waysOf k).find? fun i => decide (eddyAt x i = none)

/-- Entry i takes the key with old + v. -/
def EddyRun.put (r : EddyRun) (i : Nat) (old k v : Word) : EddyRun :=
  { r with x := setEddy i (some { key := k, val := (fpAdd old v).1 }) r.x, fl := r.fl ||| (fpAdd old v).2 }

theorem vacantWay_eq (x : Tile) (k : Word) : (waysOf k).find? (fun i => (eddyAt x i).isNone) = vacantWay x k := by
  refine congrArg (List.find? · (waysOf k)) (funext fun i => ?_)
  cases eddyAt x i with
  | none => rfl
  | some e => rfl

section EaddOne
variable {pc : BitVec 12} {k v : Word} {r : EddyRun}

theorem eaddOne_dropped (h : r.x.extent.toNat ≤ k.toNat) : eaddOne pc k v r = { r with oor := r.oor + 1 } :=
  if_pos (by simpa [BitVec.ule] using h)

variable (h : k.toNat < r.x.extent.toNat)
include h

theorem eaddOne_eq : eaddOne pc k v r = (hitWay r.x k).elim
    ((newWay pc k r).2.put (newWay pc k r).1 0#32 k v)
    fun i => r.put i (((eddyAt r.x i).map (·.val)).getD 0#32) k v := by
  have hule : ¬ r.x.extent.ule k = true := by simpa [BitVec.ule] using h
  rw [eaddOne, if_neg hule]
  extract_lets hit
  have hh : hit = hitWay r.x k := by
    refine congrArg (List.find? · (waysOf k)) (funext fun i => ?_)
    cases eddyAt r.x i with
    | none => rfl
    | some e => simp
  rw [hh]
  cases hitWay r.x k with
  | none => rfl
  | some i =>
    cases he : eddyAt r.x i with
    | none => simp only [he, Option.elim_some]; rfl
    | some e => simp only [he, Option.elim_some]; rfl

theorem eaddOne_hit {i : Nat} {e : EddyEnt} (hi : hitWay r.x k = some i) (he : eddyAt r.x i = some e) :
    eaddOne pc k v r = r.put i e.val k v := by
  rw [eaddOne_eq h, hi, Option.elim_some, he, Option.map_some, Option.getD_some]

theorem eaddOne_miss (hi : hitWay r.x k = none) :
    eaddOne pc k v r = (newWay pc k r).2.put (newWay pc k r).1 0#32 k v := by
  rw [eaddOne_eq h, hi, Option.elim_none]

end EaddOne

theorem newWay_vacant {pc : BitVec 12} {k : Word} {r : EddyRun} {i : Nat} (h : vacantWay r.x k = some i) :
    newWay pc k r = (i, r) := by
  simp only [newWay, vacantWay_eq, h]

/-- A record joins a line that is not completed by it (04 R177). -/
theorem gatherRec_of_room (pc : BitVec 12) (e : Word × Word) {x : Tile} (h : x.gather.length < 7) :
    gatherRec pc e x = { x with gather := x.gather ++ [e] } := by
  refine if_neg ?_
  rw [List.length_append, List.length_singleton]
  omega

theorem newWay_victim {pc : BitVec 12} {k : Word} {r : EddyRun} {e : EddyEnt} (h : vacantWay r.x k = none)
    (he : eddyAt r.x (4 * eddySet k + Tbl.look 0 (eddySet k) r.x.victim) = some e) (hg : r.x.gather.length < 7) :
    newWay pc k r = (4 * eddySet k + Tbl.look 0 (eddySet k) r.x.victim, { r with
      x := { r.x with
        victim := Tbl.put 0 (eddySet k) ((Tbl.look 0 (eddySet k) r.x.victim + 1) % 4) r.x.victim
        gather := r.x.gather ++ [(e.key, e.val)] }
      spills := r.spills + 1 }) := by
  simp only [newWay, vacantWay_eq, h, he]
  rw [gatherRec_of_room]
  exact hg

/-! ### What EADDs leave -/

/-- Only the Eddy's entries, victims and lines differ. -/
def EddyChanged (x y : Tile) : Prop :=
  ∃ e er v g q, y = { x with eddy := e, eddyErr := er, victim := v, gather := g, spillQ := q }

theorem EddyChanged.refl (x : Tile) : EddyChanged x x := ⟨_, _, _, _, _, rfl⟩

theorem EddyChanged.trans {x y z : Tile} (h : EddyChanged x y) (h' : EddyChanged y z) : EddyChanged x z := by
  obtain ⟨_, _, _, _, _, rfl⟩ := h
  obtain ⟨_, _, _, _, _, rfl⟩ := h'
  exact ⟨_, _, _, _, _, rfl⟩

theorem gatherRec_changes (pc : BitVec 12) (e : Word × Word) (x : Tile) : EddyChanged x (gatherRec pc e x) := by
  unfold gatherRec
  extract_lets g
  split
  · exact ⟨_, _, _, _, _, rfl⟩
  · exact ⟨_, _, _, _, _, rfl⟩

theorem newWay_changes (pc : BitVec 12) (k : Word) (r : EddyRun) : EddyChanged r.x (newWay pc k r).2.x := by
  unfold newWay
  split
  · exact .refl _
  · extract_lets st v i
    split
    · exact .refl _
    · exact .trans ⟨_, _, _, _, _, rfl⟩ (gatherRec_changes ..)

theorem EddyRun.put_changes (r : EddyRun) (i : Nat) (old k v : Word) : EddyChanged r.x (r.put i old k v).x :=
  ⟨_, _, _, _, _, rfl⟩

theorem eaddOne_changes (pc : BitVec 12) (k v : Word) (r : EddyRun) : EddyChanged r.x (eaddOne pc k v r).x := by
  by_cases h : r.x.extent.toNat ≤ k.toNat
  · rw [eaddOne_dropped h]
    exact .refl _
  · rw [eaddOne_eq (Nat.lt_of_not_le h)]
    cases hitWay r.x k with
    | none => exact (newWay_changes ..).trans (EddyRun.put_changes ..)
    | some i => exact EddyRun.put_changes ..

theorem foldl_eaddOne_changes (pc : BitVec 12) (ps : List (Word × Word)) (r : EddyRun) :
    EddyChanged r.x (ps.foldl (fun r p => eaddOne pc p.1 p.2 r) r).x := by
  induction ps generalizing r with
  | nil => exact .refl _
  | cons p ps ih => exact (eaddOne_changes ..).trans (ih _)

/-! ### EADD and EADDV (03 R133, R135) -/

/-- What EADDs begin from. -/
def EddyRun.start (x : Tile) : EddyRun := { x := x, oor := 0, spills := 0, fl := 0 }

theorem unlessGated_of_runs {s : State} {t : Nat} (k : State → Did) (h : (s.tile t).run ≠ .off) :
    unlessGated t s k = k s := if_neg h

theorem run_ne_off_of_issues {s : State} {t : Nat} {op : Op} {w : Word} (hi : Issues s t op w) :
    (s.tile t).run ≠ .off := by
  rw [run_of_issues hi]
  decide

section Eadd
variable {s : State} {t : Nat} {ps : List (Word × Word)} {r : EddyRun}

/-- EADDs whose entries are clean and which complete no line, behind no more than two lines. -/
theorem eaddAll_retires (cost : Nat) (w : Word) (c : Nat) (hrun : (s.tile t).run ≠ .off) (hd : (s.tile t).drain = none)
    (hck : ∀ k ∈ ps.map (·.1), ∀ i ∈ waysOf k, Tbl.look EccErr.none i (s.tile t).eddyErr = .none)
    (hr : ps.foldl (fun r p => eaddOne (s.tile t).pc p.1 p.2 r) (.start (s.tile t)) = r)
    (hq : r.x.spillQ = (s.tile t).spillQ) (hlen : (s.tile t).spillQ.length ≤ 2) :
    eaddAll cost ps t w c s = .retire (cost + r.spills) [rcEddy, rcFp] 2
      (countOors (s.tile t).ctx r.oor (s.setTile t (r.x.flag r.fl))) := by
  have hch := foldl_eaddOne_changes (s.tile t).pc ps (.start (s.tile t))
  rw [hr] at hch
  have hxrun : r.x.run = (s.tile t).run := by
    obtain ⟨_, _, _, _, _, he⟩ := hch
    rw [he]
    rfl
  have hroom : ¬ spillWait < (s.tile t).spillQ.length := Nat.not_lt_of_le hlen
  simp only [EddyRun.start] at hr
  simp only [eaddAll, hd, Option.isSome_none, Bool.false_eq_true, if_false, laneChecks_clean _ 0 hck,
    hr, hq, hroom, if_false, Nat.lt_irrefl]
  refine unlessGated_of_runs _ ?_
  rw [countOors_tile, State.setTile_tile_same]
  exact fun h => hrun (hxrun.symm.trans h)

end Eadd

/-- Such an EADD or EADDV that drops no key changes its tile alone. -/
theorem issue_eaddAll {s : State} {t : Nat} {op : Op} {w : Word} {body : Body} {cost : Nat} {ps : List (Word × Word)}
    {r : EddyRun} (hi : Issues s t op w) (hbody : ∀ c, body t w c s = eaddAll cost ps t w c s)
    (hd : (s.tile t).drain = none)
    (hck : ∀ k ∈ ps.map (·.1), ∀ i ∈ waysOf k, Tbl.look EccErr.none i (s.tile t).eddyErr = .none)
    (hr : ps.foldl (fun r p => eaddOne (s.tile t).pc p.1 p.2 r) (.start (s.tile t)) = r) (hoor : r.oor = 0)
    (hq : r.x.spillQ = (s.tile t).spillQ) (hlen : (s.tile t).spillQ.length ≤ 2) :
    OnlyTile s (issue t op body s) t (retireAt (s.tile t) op w (cost + r.spills) ((s.tile t).pc + 1) [rcEddy, rcFp] 2
      (r.x.flag r.fl)) := by
  have hb := eaddAll_retires cost w (issueAt (s.tile t) op w) (run_ne_off_of_issues hi) hd hck hr hq hlen
  rw [hoor] at hb
  refine issue_retires_only hi ((hbody _).trans hb) ?_
  obtain ⟨_, _, _, _, _, he⟩ := foldl_eaddOne_changes (s.tile t).pc ps (.start (s.tile t))
  rw [Tile.flag_cycle, ← hr, he]
  rfl

section Key
variable {s : State} {t : TileIx} {w : Word} (hi : Issues s t.val .eadd w) (hd : (s.tile t.val).drain = none)
  (hck : ∀ i ∈ waysOf ((s.tile t.val).sreg (wRs1 w)), Tbl.look EccErr.none i (s.tile t.val).eddyErr = .none)
  (hlen : (s.tile t.val).spillQ.length ≤ 2)
include hi hd hck hlen

/-- An EADD that drops its key: the drop is counted. -/
theorem exec_eadd_dropped
    (h : (s.tile t.val).extent.toNat ≤ ((s.tile t.val).sreg (wRs1 w)).toNat) :
    ∃ s', exec (.eadd t) s = .next s' ∧
      s'.tile t.val = retireAt (s.tile t.val) .eadd w 1 ((s.tile t.val).pc + 1) [rcEddy, rcFp] 2 (s.tile t.val) ∧
      (s'.ctx (s.tile t.val).ctx).oor = satAdd 48 (s.ctx (s.tile t.val).ctx).oor 1 := by
  have hr := eaddOne_dropped (pc := (s.tile t.val).pc) (v := (s.tile t.val).sreg (wRs2 w))
    (r := .start (s.tile t.val)) h
  have hflag : (s.tile t.val).flag 0 = s.tile t.val := by
    rw [Tile.flag]
    simp
  have hb := eaddAll_retires (ps := [((s.tile t.val).sreg (wRs1 w), (s.tile t.val).sreg (wRs2 w))]) 1 w
    (issueAt (s.tile t.val) .eadd w) (run_ne_off_of_issues hi) hd (by simpa using hck) hr rfl hlen
  have hx := issue_retires_setTile (body := bodyEadd) hi hb
    (by rw [countOors_tile, State.setTile_tile_same, Tile.flag_cycle]; rfl)
  rw [countOors_tile, State.setTile_tile_same] at hx
  refine ⟨_, congrArg Host.Outcome.next hx, ?_, ?_⟩
  · rw [State.setTile_tile_same]
    exact congrArg (retireAt (s.tile t.val) .eadd w 1 ((s.tile t.val).pc + 1) [rcEddy, rcFp] 2) hflag
  · rw [State.setTile_ctx, countOors_oor]
    rfl

/-- An EADD that puts its sum into an entry. -/
theorem exec_eadd_puts {r : EddyRun} {i : Nat} {old : Word} (hoor : r.oor = 0) (hfl : r.fl = 0)
    (hq : r.x.spillQ = (s.tile t.val).spillQ)
    (hr : eaddOne (s.tile t.val).pc ((s.tile t.val).sreg (wRs1 w)) ((s.tile t.val).sreg (wRs2 w))
      (.start (s.tile t.val)) = r.put i old ((s.tile t.val).sreg (wRs1 w)) ((s.tile t.val).sreg (wRs2 w))) :
    ∃ s', exec (.eadd t) s = .next s' ∧ OnlyTile s s' t.val
      (retireAt (s.tile t.val) .eadd w (1 + r.spills) ((s.tile t.val).pc + 1) [rcEddy, rcFp] 2
        { setEddy i (some { key := (s.tile t.val).sreg (wRs1 w),
                            val := (fpAdd old ((s.tile t.val).sreg (wRs2 w))).1 }) r.x with
          fpstat := r.x.fpstat ||| (fpAdd old ((s.tile t.val).sreg (wRs2 w))).2 }) := by
  have h := issue_eaddAll (ps := [((s.tile t.val).sreg (wRs1 w), (s.tile t.val).sreg (wRs2 w))]) (cost := 1)
    (body := bodyEadd) hi (fun _ => rfl) hd (by simpa using hck) hr hoor hq hlen
  have hz : (r.put i old ((s.tile t.val).sreg (wRs1 w)) ((s.tile t.val).sreg (wRs2 w))).fl =
      (fpAdd old ((s.tile t.val).sreg (wRs2 w))).2 := by
    rw [EddyRun.put, hfl]
    exact BitVec.zero_or
  rw [hz] at h
  exact ⟨_, rfl, h⟩

end Key

/-! ### The other Eddy instructions -/

theorem afterDrain_of_none {s : State} {t : Nat} (b : Body) (w : Word) (c : Nat) (hd : (s.tile t).drain = none) :
    afterDrain b t w c s = b t w c s := by
  simp only [afterDrain, hd]
  rfl

/-- Settles O12: the four cases of `eaddOne`, then EADDV, ECFG and ECOUNT. -/
theorem eddyResults : Obligations.EddyResults := by
  unfold Obligations.EddyResults
  refine ⟨?_, ?_, ?_, ?_⟩
  · intro s t w hi hd hck hlen x k v put hit vacant
    refine ⟨exec_eadd_dropped hi hd hck hlen, fun hk => ⟨fun i e hi' he => ?_, fun i hi' hv => ?_,
      fun e hi' hv hg he => ?_⟩⟩
    · exact exec_eadd_puts (r := .start x) hi hd hck hlen rfl rfl rfl (eaddOne_hit hk hi' he)
    · refine exec_eadd_puts (r := .start x) hi hd hck hlen rfl rfl rfl ?_
      rw [eaddOne_miss (r := .start x) hk hi', newWay_vacant (r := .start x) hv]
    · refine exec_eadd_puts (r := { EddyRun.start { x with
        victim := Tbl.put 0 (eddySet k) ((Tbl.look 0 (eddySet k) x.victim + 1) % 4) x.victim
        gather := x.gather ++ [(e.key, e.val)] } with spills := 1 }) hi hd hck hlen rfl rfl rfl ?_
      rw [eaddOne_miss (r := .start x) hk hi', newWay_victim (r := .start x) hv he hg]
      rfl
  · intro s t w hi hd herr x k v r hoor hq hlen
    refine ⟨_, rfl, issue_eaddAll (cost := 4) (ps := (List.range 4).map fun i => (k i, v i)) (body := bodyEaddv) hi
      (fun _ => rfl) hd (fun _ _ i _ => ?_) rfl hoor hq hlen⟩
    rw [herr]
    rfl
  · intro s t w hi hd
    exact ⟨_, rfl, issue_retires_only hi (afterDrain_of_none _ _ _ hd) rfl⟩
  · intro s t w hi hd
    exact ⟨_, rfl, issue_retires_only hi (afterDrain_of_none _ _ _ hd) (Tile.setS_cycle ..)⟩

end Sys2Proof.Machine

/-!
O13. Drains and the spillway's allocator. A drain of clean entries is followed by `Drained`: it sends one spill record
or one atomic add for each, in order, and leaves the rest of the machine alone. `sendLines` then moves whole lines.
-/

namespace Sys2Proof.Machine

/-! ### ESPILL and EMERGE (03 R134, R135) -/

section StartDrain
variable {s : State} {t : Nat}

theorem voidIfPaired_of_unpaired (h : pairOf s (s.tile t) = none) : voidIfPaired t s = s := by
  simp only [voidIfPaired, h]

theorem startDrain_retires {op : Op} {w : Word} (base : Option (BitVec 64)) (c : Nat) (hi : Issues s t op w)
    (h : pairOf s (s.tile t) = none) : startDrain base t c s = .retire 1 [] 0 (s.setTile t { s.tile t with
      drain := some { emerge := base, pc := (s.tile t).pc, start := c + 1 } }) := by
  rw [startDrain, voidIfPaired_of_unpaired h, unlessGated_of_runs _ (run_ne_off_of_issues hi), State.modTile_eq]

theorem bits_reserved_zero {base : BitVec 64} (h : base.extractLsb' 56 8 = 0#8) : ¬ bits base.toNat 56 8 ≠ 0 := by
  rw [bits_toNat, h]
  decide

variable {w : Word} (hi : Issues s t .emerge w) (hd : (s.tile t).drain = none)
include hi hd

theorem issue_emerge_reserved (h : ((s.tile t).spair (wRs1 w)).extractLsb' 56 8 ≠ 0#8) :
    issue t .emerge bodyEmerge s =
      trapTile t (precise 0x09 (s.tile t).pc ((s.tile t).spair (wRs1 w)).toNat 0) (waited s t .emerge w) := by
  refine issue_traps hi ((afterDrain_of_none _ _ _ hd).trans (if_pos fun h0 => h ?_)) rfl
  exact BitVec.eq_of_toNat_eq ((bits_toNat _ 56 8).symm.trans h0)

variable (h : ((s.tile t).spair (wRs1 w)).extractLsb' 56 8 = 0#8)
include h

theorem issue_emerge_absent (hm : s.fab.machine ≤ (((s.tile t).spair (wRs1 w)).extractLsb' 42 14).toNat) :
    issue t .emerge bodyEmerge s =
      trapTile t (precise 0x0E (s.tile t).pc ((s.tile t).spair (wRs1 w)).toNat 0) (waited s t .emerge w) := by
  rw [← bits_toNat] at hm
  exact issue_traps hi ((afterDrain_of_none _ _ _ hd).trans
    ((if_neg (bits_reserved_zero h)).trans (if_pos hm))) rfl

omit hi in
theorem bodyEmerge_starts (c : Nat) (hm : (((s.tile t).spair (wRs1 w)).extractLsb' 42 14).toNat < s.fab.machine) :
    bodyEmerge t w c s = startDrain (some ((s.tile t).spair (wRs1 w))) t c s := by
  rw [← bits_toNat] at hm
  exact (afterDrain_of_none _ _ _ hd).trans
    ((if_neg (bits_reserved_zero h)).trans (if_neg (Nat.not_le_of_lt hm)))

end StartDrain

/-! ### Records on their way (04 R177) -/

/-- The records that wait in tile x, in completed lines and in the one being gathered. -/
def waitingRecs (x : Tile) : List (Word × Word) := (x.spillQ.map (·.recs)).flatten ++ x.gather

/-- The records that tile x's lines would hold, each full. -/
def lineLoad (x : Tile) : Nat := 8 * x.spillQ.length + x.gather.length

theorem gatherRec_waitingRecs (pc : BitVec 12) (r : Word × Word) (x : Tile) :
    waitingRecs (gatherRec pc r x) = waitingRecs x ++ [r] := by
  unfold gatherRec
  extract_lets g
  split
  · simp [waitingRecs, g]
  · simp [waitingRecs, g]

theorem gatherRec_lineLoad (pc : BitVec 12) (r : Word × Word) (x : Tile) :
    lineLoad (gatherRec pc r x) = lineLoad x + 1 := by
  unfold gatherRec
  extract_lets g
  have hg : g.length = x.gather.length + 1 := List.length_append
  split
  next h8 =>
    simp only [lineLoad, List.length_append, List.length_cons, List.length_nil]
    omega
  next h8 =>
    simp only [lineLoad]
    omega

theorem flushGather_waitingRecs (pc : BitVec 12) (x : Tile) :
    ((flushGather pc x).spillQ.map (·.recs)).flatten = waitingRecs x := by
  unfold flushGather
  split
  next h =>
    have h0 : x.gather = [] := by simpa using h
    simp [waitingRecs, h0]
  next h => simp [waitingRecs]

theorem flushGather_gather (pc : BitVec 12) (x : Tile) : (flushGather pc x).gather = [] := by
  unfold flushGather
  split
  next h => simpa using h
  next h => rfl

theorem flushGather_spillQ_length_le (pc : BitVec 12) (x : Tile) :
    (flushGather pc x).spillQ.length ≤ x.spillQ.length + 1 := by
  unfold flushGather
  split
  · exact Nat.le_succ _
  · simp

/-- Only the lines differ. -/
def LinesChanged (x y : Tile) : Prop := ∃ g q, y = { x with gather := g, spillQ := q }

theorem gatherRec_lines (pc : BitVec 12) (r : Word × Word) (x : Tile) : LinesChanged x (gatherRec pc r x) := by
  unfold gatherRec
  extract_lets g
  split
  · exact ⟨_, _, rfl⟩
  · exact ⟨_, _, rfl⟩

theorem flushGather_lines (pc : BitVec 12) (x : Tile) : LinesChanged x (flushGather pc x) := by
  unfold flushGather
  split
  · exact ⟨_, _, rfl⟩
  · exact ⟨_, _, rfl⟩

/-! ### Lines leave (04 R179, R183) -/

/-- The oldest line leaves tile x. -/
def Tile.sentLine (x : Tile) (r : List SpillLine) : Tile := { x with spillQ := r, eddyOut := x.eddyOut + 1 }

theorem sendLines_nil {t n : Nat} {s : State} (h : (s.tile t).spillQ = []) : sendLines t n s = s := by
  cases n with
  | zero => rfl
  | succ n => simp only [sendLines, h]

theorem sendLines_cons {t n : Nat} {s : State} {l : SpillLine} {r : List SpillLine} (h : (s.tile t).spillQ = l :: r) :
    sendLines t (n + 1) s = sendLines t n (sendLine t l (s.setTile t { s.tile t with spillQ := r })) := by
  simp only [sendLines, h]

section SendLine
variable (t : Nat) (l : SpillLine) (r : List SpillLine) (s : State)

theorem sendLine_spills : ∃ f, (sendLine t l (s.setTile t { s.tile t with spillQ := r })).spills = s.spills ++ [f] ∧
    f.line = l ∧ f.tile = t ∧ f.ctx = (s.tile t).ctx ∧ f.acked = false := by
  refine ⟨_, rfl, rfl, rfl, ?_, rfl⟩
  rw [State.setTile_tile_same]

theorem sendLine_tile : (sendLine t l (s.setTile t { s.tile t with spillQ := r })).tile t = (s.tile t).sentLine r := by
  refine (State.setTile_tile_same ..).trans ?_
  rw [State.setTile_tile_same]
  rfl

theorem sendLine_others {u : Nat} (h : u ≠ t) :
    (sendLine t l (s.setTile t { s.tile t with spillQ := r })).tile u = s.tile u :=
  (State.setTile_tile_other _ _ _ _ h).trans (State.setTile_tile_other _ _ _ _ h)

end SendLine

/-- Every line of tile x has left. -/
def Tile.sentLines (x : Tile) : Tile := { x with spillQ := [], eddyOut := x.eddyOut + x.spillQ.length }

theorem Tile.sentLines_nil {x : Tile} (h : x.spillQ = []) : x.sentLines = x := by
  cases x
  simp only at h
  subst h
  rfl

theorem Tile.sentLines_sentLine {x : Tile} {l : SpillLine} {r : List SpillLine} (h : x.spillQ = l :: r) :
    (x.sentLine r).sentLines = x.sentLines := by
  have he : x.eddyOut + 1 + r.length = x.eddyOut + x.spillQ.length := by
    rw [h, List.length_cons]
    omega
  simp only [sentLines, sentLine, he]

/-- All lines leave, in order, and nothing else of the machine changes but the tile's count of requests. -/
theorem sendLines_all {t n : Nat} {s : State} (h : (s.tile t).spillQ.length ≤ n) :
    ∃ fs, (sendLines t n s).spills = s.spills ++ fs ∧ fs.map (·.line) = (s.tile t).spillQ ∧
      (sendLines t n s).tile t = (s.tile t).sentLines ∧
      (∀ u, u ≠ t → (sendLines t n s).tile u = s.tile u) ∧ (sendLines t n s).atoms = s.atoms := by
  induction n generalizing s with
  | zero =>
    have hq : (s.tile t).spillQ = [] := List.eq_nil_of_length_eq_zero (Nat.le_zero.mp h)
    exact ⟨[], (List.append_nil _).symm, hq.symm, (Tile.sentLines_nil hq).symm, fun _ _ => rfl, rfl⟩
  | succ n ih =>
    cases hq : (s.tile t).spillQ with
    | nil =>
      rw [sendLines_nil hq]
      exact ⟨[], (List.append_nil _).symm, rfl, (Tile.sentLines_nil hq).symm, fun _ _ => rfl, rfl⟩
    | cons l r =>
      have ht := sendLine_tile t l r s
      have hr : ((s.tile t).sentLine r).spillQ.length ≤ n := by
        rw [hq] at h
        exact Nat.le_of_succ_le_succ h
      obtain ⟨f, hf, hline, -⟩ := sendLine_spills t l r s
      obtain ⟨fs, hs, hfs, hx, hu, ha⟩ := ih (ht ▸ hr)
      rw [ht] at hfs hx
      rw [sendLines_cons hq]
      refine ⟨f :: fs, ?_, ?_, hx.trans (Tile.sentLines_sentLine hq), fun u h => ?_, ha⟩
      · rw [hs, hf, List.append_assoc, List.singleton_append]
      · rw [List.map_cons, hfs, hline]
        rfl
      · rw [hu u h, sendLine_others t l r s h]

/-! ### The entries of a drain (03 R133 to R135) -/

/-- Entries `es` of tile t have been drained between s and s': a record gathered or an add sent for each. -/
structure Drained (t : Nat) (emerge : Option (BitVec 64)) (es : List EddyEnt) (s s' : State) : Prop where
  others : ∀ u, u ≠ t → s'.tile u = s.tile u
  spills : s'.spills = s.spills
  devNum : s'.fab.devNum = s.fab.devNum
  ctx : (s'.tile t).ctx = (s.tile t).ctx
  held : (s'.tile t).held = (s.tile t).held
  load : lineLoad (s'.tile t) ≤ lineLoad (s.tile t) + es.length
  recs : emerge = none → waitingRecs (s'.tile t) = waitingRecs (s.tile t) ++ es.map fun e => (e.key, e.val)
  atoms : ∀ base, emerge = some base → (base.extractLsb' 42 14).toNat = s.fab.devNum.toNat →
    ∃ l, s'.atoms = s.atoms ++ l ∧
      l.map (fun a => (a.ctx, a.loc, a.val)) = es.map fun e => ((s.tile t).ctx, emergeLocal base e.key, e.val)

namespace Drained

theorem refl (t : Nat) (emerge : Option (BitVec 64)) (s : State) : Drained t emerge [] s s where
  others _ _ := rfl
  spills := rfl
  devNum := rfl
  ctx := rfl
  held := rfl
  load := Nat.le_refl _
  recs _ := (List.append_nil _).symm
  atoms _ _ _ := ⟨[], (List.append_nil _).symm, rfl⟩

theorem trans {t : Nat} {emerge : Option (BitVec 64)} {e : EddyEnt} {es : List EddyEnt} {s s1 s' : State}
    (h : Drained t emerge [e] s s1) (h' : Drained t emerge es s1 s') : Drained t emerge (e :: es) s s' where
  others u hu := (h'.others u hu).trans (h.others u hu)
  spills := h'.spills.trans h.spills
  devNum := h'.devNum.trans h.devNum
  ctx := h'.ctx.trans h.ctx
  held := h'.held.trans h.held
  load := by
    have h1 := h.load
    have h2 := h'.load
    simp only [List.length_cons, List.length_nil] at h1 ⊢
    omega
  recs he := by
    rw [h'.recs he, h.recs he, List.append_assoc]
    rfl
  atoms base he hd := by
    obtain ⟨l, hl, hm⟩ := h.atoms base he hd
    obtain ⟨l', hl', hm'⟩ := h'.atoms base he (hd.trans (congrArg BitVec.toNat h.devNum.symm))
    refine ⟨l ++ l', by rw [hl', hl, List.append_assoc], ?_⟩
    rw [List.map_append, hm, hm', h.ctx]
    rfl

end Drained

section DrainOne
variable {t i : Nat} {d : Drain} {s : State} {e : EddyEnt}

theorem drainOne_gathers (he : eddyAt (s.tile t) i = some e) (hd : d.emerge = none) :
    drainOne t i d s = (s.setTile t (setEddy i none (s.tile t))).setTile t
      (gatherRec d.pc (e.key, e.val) (setEddy i none (s.tile t))) := by
  simp only [drainOne, he, hd, State.modTile_eq, State.setTile_tile_same]

theorem drainOne_adds {base : BitVec 64} (he : eddyAt (s.tile t) i = some e) (hd : d.emerge = some base) :
    drainOne t i d s = sendAtom t base d.pc e (s.setTile t (setEddy i none (s.tile t))) := by
  simp only [drainOne, he, hd]

theorem drained_gathers (t : Nat) (pc : BitVec 12) (i : Nat) (e : EddyEnt) (s : State) :
    Drained t none [e] s ((s.setTile t (setEddy i none (s.tile t))).setTile t
      (gatherRec pc (e.key, e.val) (setEddy i none (s.tile t)))) := by
  obtain ⟨g, q, hl⟩ := gatherRec_lines pc (e.key, e.val) (setEddy i none (s.tile t))
  refine { others := fun u hu => ?_, spills := rfl, devNum := rfl, ctx := ?_, held := ?_, load := ?_,
           recs := fun _ => ?_, atoms := fun _ hb => nomatch hb }
  · rw [State.setTile_tile_other _ _ _ _ hu, State.setTile_tile_other _ _ _ _ hu]
  · rw [State.setTile_tile_same, hl]
    rfl
  · rw [State.setTile_tile_same, hl]
    rfl
  · rw [State.setTile_tile_same, gatherRec_lineLoad]
    exact Nat.le_refl _
  · rw [State.setTile_tile_same, gatherRec_waitingRecs]
    rfl

/-- The tile after one add of a drain, but for its list of adds on other devices. -/
theorem sendAtom_tile (base : BitVec 64) (pc : BitVec 12) (e : EddyEnt) (x : Tile) :
    ∃ er, (sendAtom t base pc e (s.setTile t x)).tile t = { x with eddyOut := x.eddyOut + 1, eddyRem := er } := by
  unfold sendAtom
  extract_lets y dev loc s1 pkt s2
  have hy : y = x := State.setTile_tile_same ..
  have h1 : s1.tile t = { x with eddyOut := x.eddyOut + 1 } := by
    rw [← hy]
    exact State.setTile_tile_same ..
  split
  · exact ⟨x.eddyRem, h1⟩
  · refine ⟨x.eddyRem ++ [{ dev := dev, loc := loc, pc := pc, wake := launchWake y }],
      (State.modFab_tile ..).trans ((State.setTile_tile_same ..).trans ?_)⟩
    rw [h1]

theorem sendAtom_others (base : BitVec 64) (pc : BitVec 12) (e : EddyEnt) {u : Nat} (h : u ≠ t) :
    (sendAtom t base pc e s).tile u = s.tile u := by
  unfold sendAtom
  extract_lets y dev loc s1 pkt s2
  have h1 : s1.tile u = s.tile u := State.setTile_tile_other _ _ _ _ h
  split
  · exact h1
  · exact (State.modFab_tile ..).trans ((State.setTile_tile_other _ _ _ _ h).trans h1)

theorem sendAtom_spills (base : BitVec 64) (pc : BitVec 12) (e : EddyEnt) :
    (sendAtom t base pc e s).spills = s.spills := by
  unfold sendAtom
  extract_lets y dev loc s1 pkt s2
  split
  · rfl
  · rfl

theorem sendAtom_devNum (base : BitVec 64) (pc : BitVec 12) (e : EddyEnt) :
    (sendAtom t base pc e s).fab.devNum = s.fab.devNum := by
  unfold sendAtom
  extract_lets y dev loc s1 pkt s2
  split
  · rfl
  · rfl

theorem sendAtom_here {base : BitVec 64} (pc : BitVec 12) (e : EddyEnt)
    (h : (base.extractLsb' 42 14).toNat = s.fab.devNum.toNat) :
    ∃ a, (sendAtom t base pc e s).atoms = s.atoms ++ [a] ∧
      (a.ctx, a.loc, a.val) = ((s.tile t).ctx, emergeLocal base e.key, e.val) := by
  unfold sendAtom
  extract_lets y dev loc s1 pkt s2
  rw [if_pos (by rw [← bits_toNat] at h; exact h)]
  exact ⟨_, rfl, rfl⟩

theorem drained_adds (t i : Nat) (pc : BitVec 12) (base : BitVec 64) (e : EddyEnt) (s : State) :
    Drained t (some base) [e] s (sendAtom t base pc e (s.setTile t (setEddy i none (s.tile t)))) := by
  obtain ⟨er, hx⟩ := sendAtom_tile (s := s) (t := t) base pc e (setEddy i none (s.tile t))
  refine { others := fun u hu => ?_, spills := sendAtom_spills .., devNum := sendAtom_devNum .., ctx := ?_, held := ?_,
           load := ?_, recs := fun hb => (nomatch hb), atoms := fun b hb hd => ?_ }
  · rw [sendAtom_others _ _ _ hu, State.setTile_tile_other _ _ _ _ hu]
  · rw [hx]
    rfl
  · rw [hx]
    rfl
  · rw [hx]
    exact Nat.le_succ _
  · obtain rfl : base = b := Option.some.inj hb
    obtain ⟨a, ha, hm⟩ := sendAtom_here (t := t) (s := s.setTile t (setEddy i none (s.tile t))) pc e hd
    rw [State.setTile_tile_same] at hm
    exact ⟨[a], ha, by rw [List.map_singleton, hm]; rfl⟩

theorem drainOne_drained (he : eddyAt (s.tile t) i = some e) : Drained t d.emerge [e] s (drainOne t i d s) := by
  cases hd : d.emerge with
  | none =>
    rw [drainOne_gathers he hd]
    exact drained_gathers ..
  | some base =>
    rw [drainOne_adds he hd]
    exact drained_adds ..

/-- The entry is invalid afterwards, and its check bits are fresh. -/
theorem drainOne_eddy (he : eddyAt (s.tile t) i = some e) :
    ((drainOne t i d s).tile t).eddy = Tbl.put none i none (s.tile t).eddy ∧
      ((drainOne t i d s).tile t).eddyErr = Tbl.put .none i .none (s.tile t).eddyErr := by
  cases hd : d.emerge with
  | none =>
    obtain ⟨g, q, hl⟩ := gatherRec_lines d.pc (e.key, e.val) (setEddy i none (s.tile t))
    rw [drainOne_gathers he hd, State.setTile_tile_same, hl]
    exact ⟨rfl, rfl⟩
  | some base =>
    obtain ⟨er, hx⟩ := sendAtom_tile (s := s) (t := t) base d.pc e (setEddy i none (s.tile t))
    rw [drainOne_adds he hd, hx]
    exact ⟨rfl, rfl⟩

end DrainOne

/-! ### The whole drain (03 R135, log 15) -/

/-- The entries l of a tile, valid and in ascending order. -/
def entryTbl (l : List (Nat × EddyEnt)) : Tbl (Option EddyEnt) := l.map fun e => (e.1, some e.2)

theorem Tbl.erase_of_lt {α : Type} {k : Nat} {t : Tbl α} (h : ∀ e ∈ t, k < e.1) : Tbl.erase k t = t := by
  induction t with
  | nil => rfl
  | cons e r ih =>
    have hr := ih fun e' he => h e' (List.mem_cons_of_mem _ he)
    have hne : ¬ k = e.1 := Nat.ne_of_lt (h e List.mem_cons_self)
    simp only [Tbl.erase, if_neg hne, hr]

theorem put_none_entryTbl {e : Nat × EddyEnt} {l : List (Nat × EddyEnt)} (h : ∀ e' ∈ l, e.1 < e'.1) :
    Tbl.put none e.1 none (entryTbl (e :: l)) = entryTbl l := by
  refine (if_pos rfl).trans ((if_pos rfl).trans (Tbl.erase_of_lt fun e' he => ?_))
  obtain ⟨e0, h0, rfl⟩ := List.mem_map.mp he
  exact h e0 h0

/-- A drain of clean entries leaves none valid. -/
theorem drainAll_clean {t : Nat} (d : Drain) {l : List (Nat × EddyEnt)} {s : State} (he : (s.tile t).eddy = entryTbl l)
    (herr : (s.tile t).eddyErr = []) (hp : l.Pairwise fun a b => a.1 < b.1) :
    ∃ s', drainAll t d (l.map (·.1)) s = (none, s') ∧ Drained t d.emerge (l.map (·.2)) s s' ∧
      (s'.tile t).eddy = [] := by
  induction l generalizing s with
  | nil => exact ⟨s, rfl, .refl .., he⟩
  | cons e l ih =>
    obtain ⟨hlt, hp'⟩ := List.pairwise_cons.mp hp
    have hat : eddyAt (s.tile t) e.1 = some e.2 := by
      rw [eddyAt, he]
      exact if_pos rfl
    obtain ⟨he1, herr1⟩ := drainOne_eddy (d := d) hat
    rw [he, put_none_entryTbl hlt] at he1
    rw [herr] at herr1
    obtain ⟨s', hs', hd', hnil⟩ := ih he1 herr1 hp'
    refine ⟨s', ?_, (drainOne_drained hat).trans hd', hnil⟩
    have hck : eddyCheck t e.1 s = (none, s) := eddyCheck_clean (by rw [herr]; rfl)
    simp only [List.map_cons, drainAll, hck, hs']

theorem drainEnds_changes (d : Drain) (n : Nat) (b : Bool) (s : State) :
    ∃ f, (drainEnds d n b s).2 = { s with freeIx := f } := by
  unfold drainEnds
  split
  · exact ⟨_, rfl⟩
  · exact ⟨_, rfl⟩

theorem drainEnds_emerge {d : Drain} (n : Nat) (b : Bool) (s : State) (h : d.emerge ≠ none) :
    (drainEnds d n b s).1 = d.start + n := by
  cases hd : d.emerge with
  | none => exact absurd hd h
  | some base => rw [drainEnds, hd]; rfl

/-- EDDY_DRAIN_DONE of clean entries: what the entries leave behind is flushed and sent. -/
theorem drainDone_of_clean {s s1 : State} {t : Nat} {d : Drain} (hlive : liveFor s t (s.tile t).launchId = true)
    (hd : (s.tile t).drain = some d) (hall : drainAll t d ((s.tile t).eddy.map (·.1)) s = (none, s1)) :
    ∃ c f, drainDone t s = State.modTile
        { sendLines t 512 (s1.setTile t (flushGather d.pc (s1.tile t))) with freeIx := f }
        t (fun x => { x with drain := none, eddyFree := c }) ∧
      (d.emerge ≠ none → c = d.start + (s.tile t).eddy.length) := by
  let b := !(s.tile t).eddy.isEmpty || !(s.tile t).gather.isEmpty || !(s.tile t).spillQ.isEmpty
  let s2 := sendLines t 512 (s1.modTile t (flushGather d.pc))
  obtain ⟨f, hf⟩ := drainEnds_changes d (s.tile t).eddy.length b s2
  refine ⟨(drainEnds d (s.tile t).eddy.length b s2).1, f, ?_, drainEnds_emerge _ b s2⟩
  rw [← State.modTile_eq]
  simp only [drainDone, hlive, hd, hall, Bool.not_true, Bool.false_eq_true, if_false]
  exact congrArg (State.modTile · t _) hf

section DrainDone
variable {s : State} {t : Nat} {d : Drain} {l : List (Nat × EddyEnt)}
  (hlive : liveFor s t (s.tile t).launchId = true) (hd : (s.tile t).drain = some d)
  (herr : (s.tile t).eddyErr = []) (he : (s.tile t).eddy = entryTbl l) (hp : l.Pairwise fun a b => a.1 < b.1)
  (hl : l.length ≤ 512) (hq : (s.tile t).spillQ.length ≤ 2) (hg : (s.tile t).gather.length ≤ 7)
include hlive hd herr he hp hl hq hg

/-- What EDDY_DRAIN_DONE leaves of a tile whose entries are clean, and what it sends. -/
theorem drainDone_clean :
    ∃ s1 fs c, Drained t d.emerge (l.map (·.2)) s s1 ∧ (s1.tile t).eddy = [] ∧
      (drainDone t s).spills = s.spills ++ fs ∧ fs.map (·.line) = (flushGather d.pc (s1.tile t)).spillQ ∧
      (drainDone t s).atoms = s1.atoms ∧ (∀ u, u ≠ t → (drainDone t s).tile u = s1.tile u) ∧
      (drainDone t s).tile t = { (flushGather d.pc (s1.tile t)).sentLines with drain := none, eddyFree := c } ∧
      (d.emerge ≠ none → c = d.start + l.length) := by
  have hkeys : (s.tile t).eddy.map (·.1) = l.map (·.1) := by
    rw [he, entryTbl, List.map_map]
    rfl
  have hn : (s.tile t).eddy.length = l.length := by rw [he, entryTbl, List.length_map]
  obtain ⟨s1, hall, hdr, hnil⟩ := drainAll_clean d he herr hp
  obtain ⟨c, f, hdone, hc⟩ := drainDone_of_clean hlive hd (hkeys ▸ hall)
  have hroom : ((s1.setTile t (flushGather d.pc (s1.tile t))).tile t).spillQ.length ≤ 512 := by
    have h1 := flushGather_spillQ_length_le d.pc (s1.tile t)
    have hload := hdr.load
    simp only [lineLoad, List.length_map] at hload
    rw [State.setTile_tile_same]
    omega
  obtain ⟨fs, hs, hfs, hx, hu, ha⟩ := sendLines_all hroom
  rw [State.setTile_tile_same] at hfs hx
  rw [hdone]
  refine ⟨s1, fs, c, hdr, hnil, hs.trans ?_, hfs, ha, fun u h => ?_, ?_, hn ▸ hc⟩
  · rw [State.setTile_spills, hdr.spills]
  · rw [State.modTile_eq, State.setTile_tile_other _ _ _ _ h]
    exact (hu u h).trans (State.setTile_tile_other _ _ _ _ h)
  · rw [State.modTile_eq, State.setTile_tile_same]
    exact congrArg (fun x : Tile => { x with drain := none, eddyFree := c }) hx

theorem drainDone_spec :
    ((drainDone t s).tile t).eddy = [] ∧ ((drainDone t s).tile t).drain = none ∧
    ((drainDone t s).tile t).gather = [] ∧ ((drainDone t s).tile t).spillQ = [] ∧
    ((drainDone t s).tile t).held = (s.tile t).held ∧
    (∀ u, u ≠ t → (drainDone t s).tile u = s.tile u) ∧
    (d.emerge ≠ none → ((drainDone t s).tile t).eddyFree = d.start + l.length) ∧
    (d.emerge = none → ((drainDone t s).spills.map (·.line.recs)).flatten = (s.spills.map (·.line.recs)).flatten ++
      ((s.tile t).spillQ.map (·.recs)).flatten ++ (s.tile t).gather ++ l.map (fun e => (e.2.key, e.2.val))) ∧
    (∀ base, d.emerge = some base → (base.extractLsb' 42 14).toNat = s.fab.devNum.toNat →
      ((drainDone t s).atoms.drop s.atoms.length).map (fun a => (a.ctx, a.loc, a.val)) =
        l.map (fun e => ((s.tile t).ctx,
          ((base.extractLsb' 2 40).toNat * 4 + 4 * e.2.key.toNat) % 2 ^ 42, e.2.val))) := by
  obtain ⟨s1, fs, c, hdr, hnil, hs, hfs, ha, hu, hx, hc⟩ := drainDone_clean hlive hd herr he hp hl hq hg
  obtain ⟨g, q, hlines⟩ := flushGather_lines d.pc (s1.tile t)
  rw [hx]
  refine ⟨?_, rfl, flushGather_gather .., rfl, ?_, fun u h => (hu u h).trans (hdr.others u h), hc, fun hem => ?_,
    fun base hem hdev => ?_⟩
  · rw [hlines]
    exact hnil
  · rw [hlines]
    exact hdr.held
  · have hrecs : (fs.map (·.line.recs)).flatten = waitingRecs (s1.tile t) := by
      rw [← flushGather_waitingRecs d.pc, ← hfs, List.map_map]
      rfl
    rw [hs, List.map_append, List.flatten_append, hrecs, hdr.recs hem, waitingRecs, List.map_map, List.append_assoc,
      List.append_assoc, List.append_assoc]
    rfl
  · obtain ⟨as, has, hm⟩ := hdr.atoms base hem hdev
    rw [ha, has, List.drop_left, hm, List.map_map]
    refine List.map_congr_left fun e _ => ?_
    simp only [Function.comp_apply, emergeLocal, bits_toNat]

end DrainDone

/-! ### The allocator (04 R183 to R186) -/

section Allocator
variable {s s1 : State} {i : Nat} {f : SpillFly}

theorem spillHigh_leaves (c : Nat) (s : State) : (spillHigh c s).spills = s.spills ∧ (spillHigh c s).hbm = s.hbm ∧
    ((spillHigh c s).ctx c).spillLines = (s.ctx c).spillLines := by
  unfold spillHigh
  extract_lets k
  split
  · simp [k]
  · exact ⟨rfl, rfl, rfl⟩

variable (hf : s.spills[i]? = some f) (hack : f.acked = false)
  (hshut : pageShut s f.ctx ((s.ctx f.ctx).spillBase + 64 * (s.ctx f.ctx).spillLines) = false)
include hf hack hshut

theorem spillWrite_takes_slot (hroom : 64 * ((s.ctx f.ctx).spillLines + 1) ≤ (s.ctx f.ctx).spillPages * 0x200000)
    (hw : writePage (viaTile f.tile f.ctx) ((s.ctx f.ctx).spillBase + 64 * (s.ctx f.ctx).spillLines)
      (lineBytes f.line) s = (.ok (), s1)) :
    spillWrite i s = spillHigh f.ctx
      { s1.modCtx f.ctx (fun k => { k with spillLines := k.spillLines + 1 }) with
        spills := listSet s1.spills i { f with acked := true } } := by
  have hfull : ¬ (s.ctx f.ctx).spillPages * frameBytes < 64 * ((s.ctx f.ctx).spillLines + 1) := Nat.not_lt_of_le hroom
  simp only [spillWrite, hf, hack, hshut, Bool.or_self, Bool.false_eq_true, if_false, hfull, hw]
  rfl

theorem spillWrite_full (hfull : (s.ctx f.ctx).spillPages * 0x200000 < 64 * ((s.ctx f.ctx).spillLines + 1))
    (hlive : liveFor s f.tile f.launch = true) :
    spillWrite i s = trapTile f.tile
      { cause := 0x14, imprecise := true, pc := f.line.pc
        addr := (s.ctx f.ctx).spillBase + 64 * (s.ctx f.ctx).spillLines }
      { s with spills := listDrop s.spills i } := by
  have hfull' : (s.ctx f.ctx).spillPages * frameBytes < 64 * ((s.ctx f.ctx).spillLines + 1) := hfull
  have hlive' : liveFor { s with spills := listDrop s.spills i } f.tile f.launch = true := hlive
  simp only [spillWrite, hf, hack, hshut, Bool.or_self, Bool.false_eq_true, if_false, hfull', if_true, eddyTrap, hlive']
  rfl

end Allocator

theorem spillSend_oldest {s : State} {t : Nat} {l : SpillLine} {r : List SpillLine}
    (hlive : liveFor s t (s.tile t).launchId = true) (hheld : (s.tile t).held = none)
    (hq : (s.tile t).spillQ = l :: r) :
    spillSend t s = sendLine t l (s.setTile t { s.tile t with spillQ := r }) := by
  have hwait : awaitsLine (s.tile t) = false := by simp only [awaitsLine, hheld, Option.bind_none]
  have hkeep : ((sendLine t l (s.setTile t { s.tile t with spillQ := r })).tile t).held = none := by
    rw [sendLine_tile]
    exact hheld
  simp only [spillSend, hlive, hwait, sendLines_cons hq, Bool.not_true, Bool.false_eq_true, if_false]
  exact resume_of_notHeld hkeep

/-- Settles O13: the starts, the whole drain (`drainDone_spec`), and a line's way to its slot. -/
theorem eddyDrains : Obligations.EddyDrains := by
  unfold Obligations.EddyDrains
  refine ⟨fun s t w hi hd hp => ?_, fun s t w hi hd hp => ⟨fun h => ?_, fun h hm => ?_, fun h hm => ?_⟩,
    fun s t d l hlive hheld hd herr he hp hl hq hg => ?_, fun s t l r hlive hheld hq => ?_, ?_⟩
  · exact ⟨_, rfl, issue_retires_only hi
      ((afterDrain_of_none _ _ _ hd).trans (startDrain_retires none _ hi hp)) rfl⟩
  · exact congrArg Host.Outcome.next (issue_emerge_reserved hi hd h)
  · exact congrArg Host.Outcome.next (issue_emerge_absent hi hd h hm)
  · exact ⟨_, rfl, issue_retires_only hi
      ((bodyEmerge_starts hd h _ hm).trans (startDrain_retires _ _ hi hp)) rfl⟩
  · obtain ⟨h1, h2, h3, h4, hkeep, hrest⟩ := drainDone_spec hlive hd herr he hp hl hq hg
    exact ⟨_, congrArg Host.Outcome.next (resume_of_notHeld (hkeep.trans hheld)), h1, h2, h3, h4, hrest⟩
  · obtain ⟨f, hs, hline, htile, hctx, hack⟩ := sendLine_spills t.val l r s
    exact ⟨_, f, congrArg Host.Outcome.next (spillSend_oldest hlive hheld hq), hs, hline, htile, hctx, hack,
      sendLine_tile ..⟩
  · intro s s1 i f hf hack k adr hshut
    refine ⟨fun hroom hw => ?_, fun hfull hlive =>
      congrArg Host.Outcome.next (spillWrite_full hf hack hshut hfull hlive)⟩
    obtain ⟨h1, h2, h3⟩ := spillHigh_leaves f.ctx
      { s1.modCtx f.ctx (fun k => { k with spillLines := k.spillLines + 1 }) with
        spills := listSet s1.spills i { f with acked := true } }
    refine ⟨_, congrArg Host.Outcome.next (spillWrite_takes_slot hf hack hshut hroom hw), h1, h3.trans ?_, h2⟩
    exact congrArg Ctx.spillLines (State.setCtx_ctx_same ..)

end Sys2Proof.Machine

/-!
O14. STREAM and SWAITT. The checks of `streamCheck` decide the trap; a request that passes them and overlaps none of its
tile's is sent at once, and on its own device that is the write of its tag (`sendReq_here`).
-/

namespace Sys2Proof.Machine

/-! ### Instructions that wait, and those that end the tile's issue -/

section Ends
variable {s : State} {t : Nat} {op : Op} {w : Word} {body : Body} (hi : Issues s t op w)
include hi

theorem issue_holds (hb : body t w (issueAt (s.tile t) op w) s = .hold s) :
    OnlyTile s (issue t op body s) t { s.tile t with held := some w } := by
  simp only [issue_perform body hi, perform, hb, State.modTile_eq]
  exact onlyTile_set ..

theorem issue_stops {s1 : State} (hb : body t w (issueAt (s.tile t) op w) s = .stop s1) : issue t op body s = s1 := by
  simp only [issue_perform body hi, perform, hb]

/-- An issued instruction that leaves every other tile and the rest of the machine alone, and retires. -/
theorem issue_retires_of_only {s1 : State} {cost lat : Nat} {dest : List Nat} {y : Tile}
    (hb : body t w (issueAt (s.tile t) op w) s = .retire cost dest lat s1) (h : OnlyTile s s1 t y)
    (hc : y.cycle = (s.tile t).cycle) :
    OnlyTile s (issue t op body s) t (retireAt (s.tile t) op w cost ((s.tile t).pc + 1) dest lat y) := by
  rw [issue_retires hi hb]
  exact finish_only h hc

end Ends

/-! ### STREAM's fields and checks (02 R601, 03 R136) -/

theorem streamTag_eq (w : Word) : wImm8 w % 16 = (w.extractLsb' 0 4).toNat := by
  have h : bits (wImm8 w) 0 4 = wImm8 w % 16 := by simp [bits]
  rw [← h, ← bits_toNat]
  exact bits_bits (by omega)

theorem streamOutbound_eq (w : Word) : bit (wImm8 w) 4 = w.getLsbD 4 := by
  rw [← bit_toNat]
  exact bit_bits (by omega)

section Check
variable {s : State} {t a len tag : Nat} {ga : BitVec 64}

theorem streamCheck_reserved (h : ga.extractLsb' 56 8 ≠ 0#8) :
    streamCheck s t ga a len tag = some (precise 0x09 (s.tile t).pc ga.toNat tag) :=
  if_pos fun h0 => h (BitVec.eq_of_toNat_eq ((bits_toNat ga 56 8).symm.trans h0))

theorem streamCheck_absent (h : ga.extractLsb' 56 8 = 0#8) (hm : s.fab.machine ≤ (ga.extractLsb' 42 14).toNat) :
    streamCheck s t ga a len tag = some (precise 0x0E (s.tile t).pc ga.toNat tag) := by
  rw [← bits_toNat] at hm
  exact (if_neg (bits_reserved_zero h)).trans (if_pos hm)

variable (hlegal : ga.extractLsb' 56 8 = 0#8 ∧ (ga.extractLsb' 42 14).toNat < s.fab.machine)
include hlegal

theorem streamCheck_legal : streamCheck s t ga a len tag =
    if a % 64 ≠ 0 then some (precise 0x05 (s.tile t).pc a 0)
    else if len < 64 ∨ 4096 < len ∨ len % 64 ≠ 0 ∨ ga.toNat % 64 ≠ 0 then
      some (precise 0x05 (s.tile t).pc ga.toNat 0)
    else if 0x18000 < a + len then some (precise 0x04 (s.tile t).pc a 0)
    else none := by
  obtain ⟨h, hm⟩ := hlegal
  rw [← bits_toNat] at hm
  exact (if_neg (bits_reserved_zero h)).trans (if_neg (Nat.not_le_of_lt hm))

theorem streamCheck_misaligned (ha : a % 64 ≠ 0) :
    streamCheck s t ga a len tag = some (precise 0x05 (s.tile t).pc a 0) :=
  (streamCheck_legal hlegal).trans (if_pos ha)

variable (ha : a % 64 = 0)
include ha

theorem streamCheck_badSize (h : ¬ (64 ≤ len ∧ len ≤ 4096 ∧ len % 64 = 0) ∨ ga.toNat % 64 ≠ 0) :
    streamCheck s t ga a len tag = some (precise 0x05 (s.tile t).pc ga.toNat 0) := by
  rw [streamCheck_legal hlegal, if_neg (not_not_intro ha), if_pos]
  omega

variable (hsize : 64 ≤ len ∧ len ≤ 4096 ∧ len % 64 = 0) (hga : ga.toNat % 64 = 0)
include hsize hga

theorem streamCheck_sized : streamCheck s t ga a len tag =
    if 0x18000 < a + len then some (precise 0x04 (s.tile t).pc a 0) else none := by
  rw [streamCheck_legal hlegal, if_neg (not_not_intro ha), if_neg]
  omega

theorem streamCheck_outOfRange (h : 0x18000 < a + len) :
    streamCheck s t ga a len tag = some (precise 0x04 (s.tile t).pc a 0) :=
  (streamCheck_sized hlegal ha hsize hga).trans (if_pos h)

theorem streamCheck_passes (h : a + len ≤ 0x18000) : streamCheck s t ga a len tag = none :=
  (streamCheck_sized hlegal ha hsize hga).trans (if_neg (Nat.not_lt_of_le h))

end Check

/-! ### Sending a request to this device (02 R83, R84) -/

theorem mustWait_of_noClash {x : Tile} {r : StreamReq}
    (h : ∀ e ∈ x.tags, ∀ q, e.2 = some q → clash q r = false) : mustWait x r = false := by
  refine List.any_eq_false.mpr fun e he => ?_
  cases hq : e.2 with
  | none => exact Bool.false_ne_true
  | some q => simp [h e he q hq]

/-- The request as it is sent. -/
def StreamReq.sent (r : StreamReq) (t : Nat) (s : State) : StreamReq :=
  { r with waiting := false, sentAt := s.now, rgen := (s.part (tilePart t)).rgen }

@[simp] theorem StreamReq.sent_setTile (r : StreamReq) (t u : Nat) (s : State) (x : Tile) :
    r.sent t (s.setTile u x) = r.sent t s := by
  unfold StreamReq.sent
  rw [State.setTile_now, State.setTile_part]

theorem sendReq_here {s : State} {t tag : Nat} {r : StreamReq} (hw : mustWait (s.tile t) r = false)
    (hd : reqDevice r = s.fab.devNum.toNat) :
    sendReq t tag r s = s.setTile t (setTag tag (some (r.sent t s)) (s.tile t)) := by
  have hhere : ¬ (decide (reqDevice r ≠ s.fab.devNum.toNat) && !r.discard) = true := by simp [hd]
  exact (if_neg (by rw [hw]; exact Bool.false_ne_true)).trans (if_neg hhere)

/-! ### What STREAM does (03 R136) -/

/-- The request of a STREAM that issues in cycle c, before it is sent. -/
def streamOf (x : Tile) (w : Word) (c : Nat) (now : BitVec 64) : StreamReq := {
  inbound := !w.getLsbD 4, sram := (x.sreg (wRd w)).toNat, ga := x.spair (wRs1 w), len := (x.sreg (wRs2 w)).toNat
  pc := x.pc, sentAt := now, waiting := false, order := c, wake := x.wake, refHit := false, doneLen := 0, data := []
  rgen := 0, discard := false }

/-- SIG has taken in the source bs of an outbound STREAM (02 R91). -/
def Tile.fedSig (x : Tile) (w : Word) (bs : List Byte) : Tile :=
  { x with
    sig := sigBlocks x.sigbase.toNat ((x.spair (wRs1 w)).toNat % 2 ^ 42) ((x.sreg (wRs2 w)).toNat / 64) bs x.sig }

/-- The request of an outbound STREAM carries its source; that of a partner's is not sent (10 R418). -/
def StreamReq.carrying (r : StreamReq) (x : Tile) (bs : List Byte) : StreamReq :=
  { r with data := bs, discard := decide (x.job ≠ .launch) }

section Stream
variable {s : State} {t c : Nat} {w : Word}

theorem bodyStream_traps {tr : Trap} (h : streamCheck s t ((s.tile t).spair (wRs1 w)) ((s.tile t).sreg (wRd w)).toNat
    ((s.tile t).sreg (wRs2 w)).toNat (w.extractLsb' 0 4).toNat = some tr) : bodyStream t w c s = .trap tr s := by
  rw [← streamTag_eq] at h
  simp only [bodyStream, h]

variable (h : streamCheck s t ((s.tile t).spair (wRs1 w)) ((s.tile t).sreg (wRd w)).toNat
    ((s.tile t).sreg (wRs2 w)).toNat (w.extractLsb' 0 4).toNat = none)
include h

theorem bodyStream_waits (hb : tagOf (s.tile t) (w.extractLsb' 0 4).toNat ≠ none) : bodyStream t w c s = .hold s := by
  have hb' : (tagOf (s.tile t) (wImm8 w % 16)).isSome = true := by
    rw [streamTag_eq]
    exact Option.isSome_iff_ne_none.mpr hb
  rw [← streamTag_eq] at h
  simp only [bodyStream, h, hb', if_true]

variable (hb : tagOf (s.tile t) (w.extractLsb' 0 4).toNat = none)
include hb

theorem bodyStream_inbound (ho : w.getLsbD 4 = false) : bodyStream t w c s =
    .retire 1 [] 0 (sendReq t (w.extractLsb' 0 4).toNat (streamOf (s.tile t) w c s.now) s) := by
  simp only [bodyStream, streamTag_eq, streamOutbound_eq, h, hb, ho, streamOf]
  rfl

theorem bodyStream_outbound (ho : w.getLsbD 4 = true) {bs : List Byte}
    (hr : sramRead t ((s.tile t).sreg (wRd w)).toNat ((s.tile t).sreg (wRs2 w)).toNat s = (.ok bs, s))
    (hw : (s.tile t).wake = none) : bodyStream t w c s =
    .retire (1 + ((s.tile t).sreg (wRs2 w)).toNat / 64) [] 0 (sendReq t (w.extractLsb' 0 4).toNat
      ((streamOf (s.tile t) w c s.now).carrying (s.tile t) bs) (s.setTile t ((s.tile t).fedSig w bs))) := by
  simp only [bodyStream, streamTag_eq, streamOutbound_eq, h, hb, ho, streamOf, hr]
  rw [hw]
  rfl

end Stream

section Sent
variable {s : State} {t : Nat} {w : Word} (hi : Issues s t .stream w)
  (h : streamCheck s t ((s.tile t).spair (wRs1 w)) ((s.tile t).sreg (wRd w)).toNat
    ((s.tile t).sreg (wRs2 w)).toNat (w.extractLsb' 0 4).toNat = none)
  (hb : tagOf (s.tile t) (w.extractLsb' 0 4).toNat = none)
  (hdev : (((s.tile t).spair (wRs1 w)).extractLsb' 42 14).toNat = s.fab.devNum.toNat)
  (hclear : ∀ e ∈ (s.tile t).tags, ∀ q, e.2 = some q →
    clash q (streamOf (s.tile t) w (issueAt (s.tile t) .stream w) s.now) = false)
include hi h hb hdev hclear

theorem issue_stream_inbound (ho : w.getLsbD 4 = false) :
    OnlyTile s (issue t .stream bodyStream s) t (retireAt (s.tile t) .stream w 1 ((s.tile t).pc + 1) [] 0
      (setTag (w.extractLsb' 0 4).toNat
        (some ((streamOf (s.tile t) w (issueAt (s.tile t) .stream w) s.now).sent t s)) (s.tile t))) := by
  rw [← bits_toNat] at hdev
  refine issue_retires_only hi ((bodyStream_inbound h hb ho).trans ?_) rfl
  exact congrArg (Did.retire 1 [] 0) (sendReq_here (mustWait_of_noClash hclear) hdev)

theorem issue_stream_outbound (ho : w.getLsbD 4 = true) {bs : List Byte}
    (hr : sramRead t ((s.tile t).sreg (wRd w)).toNat ((s.tile t).sreg (wRs2 w)).toNat s = (.ok bs, s))
    (hw : (s.tile t).wake = none) :
    OnlyTile s (issue t .stream bodyStream s) t (retireAt (s.tile t) .stream w
      (1 + ((s.tile t).sreg (wRs2 w)).toNat / 64) ((s.tile t).pc + 1) [] 0
      (setTag (w.extractLsb' 0 4).toNat
        (some (((streamOf (s.tile t) w (issueAt (s.tile t) .stream w) s.now).carrying (s.tile t) bs).sent t s))
        ((s.tile t).fedSig w bs))) := by
  rw [← bits_toNat] at hdev
  have hgo : mustWait ((s.tile t).fedSig w bs)
      ((streamOf (s.tile t) w (issueAt (s.tile t) .stream w) s.now).carrying (s.tile t) bs) = false :=
    mustWait_of_noClash (x := (s.tile t).fedSig w bs) hclear
  have hsend := sendReq_here (s := s.setTile t ((s.tile t).fedSig w bs)) (t := t) (tag := (w.extractLsb' 0 4).toNat)
    (r := (streamOf (s.tile t) w (issueAt (s.tile t) .stream w) s.now).carrying (s.tile t) bs)
    (by rw [State.setTile_tile_same]; exact hgo) hdev
  rw [State.setTile_tile_same, StreamReq.sent_setTile] at hsend
  have hb := (bodyStream_outbound (c := issueAt (s.tile t) .stream w) h hb ho hr hw).trans
    (congrArg (Did.retire _ [] 0) hsend)
  exact issue_retires_of_only hi hb (onlyTile_setTile (onlyTile_set ..) _) rfl

end Sent

/-! ### SWAITT (03 R137) -/

theorem streamBusy_testBit (x : Tile) (i : Nat) :
    (streamBusy x).testBit i = x.tags.any fun e => e.2.isSome && decide (e.1 = i) := by
  suffices h : ∀ (l : Tbl (Option StreamReq)) (n : Nat),
      (l.foldl (fun n e => if e.2.isSome then n ||| 2 ^ e.1 else n) n).testBit i =
        (n.testBit i || l.any fun e => e.2.isSome && decide (e.1 = i)) by
    exact (h x.tags 0).trans (by rw [Nat.zero_testBit, Bool.false_or])
  intro l
  induction l with
  | nil => simp
  | cons e l ih =>
    intro n
    rw [List.foldl_cons, ih, List.any_cons, ← Bool.or_assoc]
    cases e.2 with
    | none => simp
    | some r => simp [Nat.testBit_or, Nat.testBit_two_pow]

theorem tagsBusy_eq_false_iff (x : Tile) (mask : Nat) : tagsBusy x mask = false ↔ streamBusy x &&& mask = 0 := by
  constructor
  · intro h
    refine Nat.eq_of_testBit_eq fun i => ?_
    rw [Nat.testBit_and, streamBusy_testBit, Nat.zero_testBit]
    by_contra hne
    obtain ⟨hany, hm⟩ := Bool.and_eq_true_iff.mp (Bool.eq_true_of_not_eq_false hne)
    obtain ⟨e, he, hp⟩ := List.any_eq_true.mp hany
    obtain ⟨hsome, hi⟩ := Bool.and_eq_true_iff.mp hp
    refine List.any_eq_false.mp h e he ?_
    rw [hsome, of_decide_eq_true hi]
    exact hm
  · intro h
    refine List.any_eq_false.mpr fun e he hb => ?_
    obtain ⟨hsome, hbit⟩ := Bool.and_eq_true_iff.mp hb
    have hbusy : (streamBusy x).testBit e.1 = true := by
      rw [streamBusy_testBit]
      exact List.any_eq_true.mpr ⟨e, he, by simp [hsome]⟩
    have hzero := congrArg (Nat.testBit · e.1) h
    simp only [Nat.testBit_and, Nat.zero_testBit, hbusy, Bool.true_and] at hzero
    exact Bool.false_ne_true (hzero.symm.trans hbit)

/-- Settles O14: `streamCheck` case by case, then the two directions of a request, then SWAITT. -/
theorem streamResults : Obligations.StreamResults := by
  unfold Obligations.StreamResults
  refine ⟨?_, ?_⟩
  · intro s t w hi x ga a len tag trap legal sized
    have htrap : ∀ {cause addr detail}, streamCheck s t.val ga a len tag = some (precise cause x.pc addr detail) →
        trap cause addr detail := fun h => congrArg Host.Outcome.next (issue_traps hi (bodyStream_traps h) rfl)
    refine ⟨fun h => htrap (streamCheck_reserved h), fun h hm => htrap (streamCheck_absent h hm),
      fun hl ha => htrap (streamCheck_misaligned hl ha), fun hl ha hs => htrap (streamCheck_badSize hl ha hs),
      fun hl ha hs hga h => htrap (streamCheck_outOfRange hl ha hs hga h), fun hl ha hs hga hin => ?_⟩
    have hpass : streamCheck s t.val ga a len tag = none := streamCheck_passes hl ha hs hga hin
    refine ⟨fun hb => ⟨_, rfl, issue_holds hi (bodyStream_waits hpass hb)⟩, fun hb hany hdev => ?_⟩
    have hclear : ∀ e ∈ x.tags, ∀ q, e.2 = some q →
        clash q (streamOf x w (issueAt x .stream w) s.now) = false := by
      intro e he q hq
      have := List.any_eq_false.mp hany e he
      rw [hq] at this
      exact Bool.eq_false_of_not_eq_true this
    have hinb : ∀ b, w.getLsbD 4 = b → (streamOf x w (issueAt x .stream w) s.now).inbound = !b :=
      fun _ ho => congrArg Bool.not ho
    refine ⟨fun ho => ?_, fun ho hclean hw => ?_⟩
    · refine ⟨_, _, (streamOf x w (issueAt x .stream w) s.now).sent t.val s, rfl,
        issue_stream_inbound hi hpass hb hdev hclear ho, rfl, hinb false ho, rfl, rfl, rfl, rfl, rfl,
        rfl⟩
    · have hr := sramRead_clean (s := s) (t := t.val) (by omega) hclean
      refine ⟨_, _, ((streamOf x w (issueAt x .stream w) s.now).carrying x _).sent t.val s, rfl,
        issue_stream_outbound hi hpass hb hdev hclear ho hr hw, rfl, hinb true ho, rfl, rfl, rfl,
        rfl, rfl, rfl⟩
  · intro s t w hi
    refine ⟨fun h => ⟨_, rfl, issue_retires_of_only hi ?_ (onlyTile_refl ..) rfl⟩, fun h => ⟨_, rfl, issue_holds hi ?_⟩⟩
    · exact if_neg (by rw [(tagsBusy_eq_false_iff _ _).mpr h]; exact Bool.false_ne_true)
    · exact if_pos (Bool.eq_true_of_not_eq_false fun hf => h ((tagsBusy_eq_false_iff _ _).mp hf))

end Sys2Proof.Machine

/-!
O17. Fences, barriers and waits for the Stroke. A tile with nothing left to acknowledge has no line to send, so that
FENCE and the barriers go on at once; a complete barrier visits each peer, and the waiting tile goes on once
(`forList_tile_once`).
-/

namespace Sys2Proof.Machine

/-! ### Fences and arrivals (03 R139) -/

section Fence
variable {s : State} {t : Nat} {op : Op} {w : Word} (hi : Issues s t op w) (hf : fenceClear (s.tile t) = true)
include hf

theorem flushLine_of_fenceClear : flushLine t s = s := by
  have hg : (s.tile t).gather.isEmpty = true := by
    simp only [fenceClear, Bool.and_eq_true] at hf
    obtain ⟨⟨⟨⟨-, hg⟩, -⟩, -⟩, -⟩ := hf
    exact hg
  simp only [flushLine, hg, Bool.true_or, if_true]

include hi

theorem fenced_of_fenceClear (k : Nat → Word → State → Did) (c : Nat) : fenced k t w c s = k t w s := by
  simp only [fenced, flushLine_of_fenceClear hf]
  rw [unlessGated_of_runs _ (run_ne_off_of_issues hi)]
  exact if_pos hf

end Fence

theorem barrierId_eq (w : Word) : BitVec.ofNat 6 (wImm8 w / 4) = w.extractLsb' 2 6 := by
  apply BitVec.eq_of_toNat_eq
  rw [← bits_toNat, BitVec.toNat_ofNat, wImm8, ← bits_bits (n := 8) (lo := 0) (lo' := 2) (n' := 6) (by omega)]
  simp [bits, Nat.shiftRight_eq_div_pow]

theorem arrive_eq (launch : Bool) (t : Nat) (w : Word) (s : State) :
    arrive launch t w s = .stop (s.setTile t { s.tile t with
      held := none
      cbars := if launch then (s.tile t).cbars else (s.tile t).cbars + 1
      lbars := if launch then (s.tile t).lbars + 1 else (s.tile t).lbars
      bar := some { launch := launch, id := w.extractLsb' 2 6, at_ := s.now } }) := by
  rw [arrive, barrierId_eq, State.modTile_eq]

/-- An instruction that arrives at a barrier changes its tile alone. -/
theorem issue_arrives {s : State} {t : Nat} {op : Op} {w : Word} {body : Body} (launch : Bool) (hi : Issues s t op w)
    (hb : body t w (issueAt (s.tile t) op w) s = arrive launch t w s) :
    OnlyTile s (issue t op body s) t { s.tile t with
      held := none
      cbars := if launch then (s.tile t).cbars else (s.tile t).cbars + 1
      lbars := if launch then (s.tile t).lbars + 1 else (s.tile t).lbars
      bar := some { launch := launch, id := w.extractLsb' 2 6, at_ := s.now } } := by
  rw [issue_stops hi (hb.trans (arrive_eq ..))]
  exact onlyTile_set ..

/-! ### The completion of a barrier (03 R139) -/

/-- Over a list of visits, the first that concerns tile t changes it, and the others leave it alone. -/
theorem forList_tile_once {α : Type} {f : α → State → State} {t : Nat} {x : Tile} {p : α → Prop} {Done : Tile → Prop}
    (skip : ∀ a s, ¬ p a → (f a s).tile t = s.tile t) (visit : ∀ a s, p a → s.tile t = x → Done ((f a s).tile t))
    (keep : ∀ a s, Done (s.tile t) → (f a s).tile t = s.tile t) {l : List α} (hl : ∃ a ∈ l, p a) {s : State}
    (hs : s.tile t = x) : Done ((forList f l s).tile t) := by
  have kept : ∀ (l : List α) (s : State), Done (s.tile t) → Done ((forList f l s).tile t) := by
    intro l
    induction l with
    | nil => exact fun _ h => h
    | cons a r ih => exact fun s h => ih _ (by rw [keep a s h]; exact h)
  induction l generalizing s with
  | nil => exact absurd hl (by simp)
  | cons a r ih =>
    by_cases ha : p a
    · exact kept r _ (visit a s ha hs)
    · obtain ⟨b, hb, hpb⟩ := hl
      have hr : ∃ b ∈ r, p b := ⟨b, (List.mem_cons.mp hb).resolve_left fun h => ha (h ▸ hpb), hpb⟩
      exact ih hr ((skip a s ha).trans hs)

theorem Tbl.mem_of_look_ne {α : Type} {d : α} {k : Nat} {t : Tbl α} (h : Tbl.look d k t ≠ d) :
    (k, Tbl.look d k t) ∈ t := by
  induction t with
  | nil => exact absurd rfl h
  | cons e r ih =>
    obtain ⟨j, y⟩ := e
    by_cases hk : k = j
    · rw [Tbl.look, if_pos hk, hk]
      exact List.mem_cons_self
    · rw [Tbl.look, if_neg hk] at h ⊢
      exact List.mem_cons_of_mem _ (ih h)

/-- The participants of the barrier that tile x waits at. -/
def barPeers (s : State) (x : Tile) (launch : Bool) : List (Nat × Tile) :=
  if launch then launchPeers s x else crewPeers s x

/-- A running tile is among its own peers. -/
theorem mem_barPeers {s : State} {t : Nat} (launch : Bool) (hr : (s.tile t).run = .running) :
    (t, s.tile t) ∈ barPeers s (s.tile t) launch := by
  have hmem : (t, s.tile t) ∈ s.tiles := by
    refine Tbl.mem_of_look_ne (d := ({ } : Tile)) fun h => ?_
    have hoff : (s.tile t).run = .off := congrArg Tile.run h
    rw [hr] at hoff
    exact absurd hoff (by decide)
  cases launch with
  | true => exact List.mem_filter.mpr ⟨hmem, by simp [hr]⟩
  | false => exact List.mem_filter.mpr ⟨hmem, by simp [hr]⟩

/-- Tile x has gone on past its barrier, k free cycles later. -/
def Tile.pastBarrier (x : Tile) (k : Nat) : Tile := { x with bar := none, pc := x.pc + 1, cycle := x.cycle + 1 + k }

/-- Tile u goes on where it waits at a barrier of the kind that completes. -/
def completeAt (launch : Bool) (u : Nat) (s : State) : State :=
  match (s.tile u).bar with
  | none => s
  | some c => if c.launch = launch then s.free.2.modTile u (·.pastBarrier s.free.1) else s

section CompleteAt
variable {launch : Bool} {s : State}

theorem completeAt_of_noBar {u : Nat} (h : (s.tile u).bar = none) : completeAt launch u s = s := by
  simp only [completeAt, h]

theorem completeAt_waiting {u : Nat} {c : BarWait} (h : (s.tile u).bar = some c) (hc : c.launch = launch) :
    (completeAt launch u s).tile u = (s.tile u).pastBarrier s.free.1 := by
  simp only [completeAt, h, hc, if_true]
  exact State.setTile_tile_same ..

theorem completeAt_other {u t : Nat} (h : t ≠ u) : (completeAt launch u s).tile t = s.tile t := by
  unfold completeAt
  split
  · rfl
  · split
    · exact State.setTile_tile_other _ _ _ _ h
    · rfl

end CompleteAt

section Barrier
variable {s : State} {t : Nat} {b : BarWait} (hb : (s.tile t).bar = some b)
include hb

theorem barrierDone_of_arrived (hall : ∀ e ∈ barPeers s (s.tile t) b.launch,
      arrivedAt b.launch (if b.launch then (s.tile t).lbars else (s.tile t).cbars) e.2 = true) :
    barrierDone t s = forList (fun e => completeAt b.launch e.1) (barPeers s (s.tile t) b.launch) s := by
  simp only [barrierDone, hb]
  refine (if_pos (List.all_eq_true.mpr hall)).trans ?_
  refine congrArg (fun f => forList f (barPeers s (s.tile t) b.launch) s) (funext fun e => funext fun s1 => ?_)
  unfold completeAt
  cases (s1.tile e.1).bar with
  | none => rfl
  | some c => rfl

theorem barrierDone_complete (hr : (s.tile t).run = .running)
    (hall : ∀ e ∈ barPeers s (s.tile t) b.launch,
      arrivedAt b.launch (if b.launch then (s.tile t).lbars else (s.tile t).cbars) e.2 = true) :
    ∃ k, (barrierDone t s).tile t = (s.tile t).pastBarrier k := by
  rw [barrierDone_of_arrived hb hall]
  refine forList_tile_once (p := fun e => e.1 = t) (x := s.tile t) (Done := fun y => ∃ k, y = (s.tile t).pastBarrier k)
    (fun e s1 hne => completeAt_other (Ne.symm hne)) (fun e s1 he hs1 => ?_) (fun e s1 hdone => ?_)
    ⟨_, mem_barPeers b.launch hr, rfl⟩ rfl
  · refine ⟨s1.free.1, ?_⟩
    rw [he, completeAt_waiting (hs1 ▸ hb) rfl, hs1]
  · by_cases he : t = e.1
    · obtain ⟨k, hk⟩ := hdone
      have hnone : (s1.tile e.1).bar = none := by
        rw [← he, hk]
        rfl
      rw [completeAt_of_noBar hnone]
    · exact completeAt_other he

theorem barrierDone_incomplete {e : Nat × Tile} (he : e ∈ barPeers s (s.tile t) b.launch)
    (hna : arrivedAt b.launch (if b.launch then (s.tile t).lbars else (s.tile t).cbars) e.2 = false) :
    barrierDone t s = s := by
  simp only [barrierDone, hb]
  refine if_neg fun hall => ?_
  exact Bool.false_ne_true (hna.symm.trans (List.all_eq_true.mp hall e he))

theorem syncTimeout_traps (hr : (s.tile t).run = .running) (hl : 10000000 ≤ s.since b.at_) :
    syncTimeout t s = trapTile t (precise 0x10 (s.tile t).pc 0 b.id.toNat)
      (s.free.2.modTile t (fun y => { y with cycle := y.cycle + s.free.1 })) := by
  simp only [syncTimeout, hb]
  exact if_pos ⟨hr, hl⟩

theorem syncTimeout_early (hl : s.since b.at_ < 10000000) : syncTimeout t s = s := by
  simp only [syncTimeout, hb]
  exact if_neg fun h => Nat.not_le_of_lt hl h.2

end Barrier

/-! ### WAITS (03 R140) -/

section Waits
variable {s : State} {t : Nat} {w : Word} (c : Nat)

theorem bodyWaits_reached (h : ((s.tile t).spair (wRd w)).toNat ≤ s.now.toNat) :
    bodyWaits t w c s = .retire 1 [] 0 s := if_pos h

theorem bodyWaits_ahead (h : s.now.toNat < ((s.tile t).spair (wRd w)).toNat)
    (h' : ((s.tile t).spair (wRd w)).toNat ≤ s.now.toNat + 1000000000) : bodyWaits t w c s = .hold s :=
  (if_neg (Nat.not_le_of_lt h)).trans (if_neg (by omega))

theorem bodyWaits_far (h : s.now.toNat + 1000000000 < ((s.tile t).spair (wRd w)).toNat) :
    bodyWaits t w c s =
      .trap (precise 0x11 (s.tile t).pc (((s.tile t).spair (wRd w)).toNat % 2 ^ 32) 0) s :=
  (if_neg (by omega)).trans (if_pos (by omega))

end Waits

/-- Settles O17: fences and arrivals by `fenced_of_fenceClear`, then the barrier, WAITS and the time-out. -/
theorem synchronisationResults : Obligations.SynchronisationResults := by
  unfold Obligations.SynchronisationResults
  refine ⟨fun s t w hi hf => ?_, fun s t w hi hf => ?_, fun s t w hi hf hp => ?_, ?_, ?_, ?_⟩
  · exact ⟨_, rfl, issue_retires_of_only hi (fenced_of_fenceClear hi hf _ _) (onlyTile_refl ..) rfl⟩
  · exact ⟨_, rfl, issue_arrives false hi (fenced_of_fenceClear hi hf _ _)⟩
  · refine ⟨_, rfl, issue_arrives true hi ((fenced_of_fenceClear hi hf _ _).trans ?_)⟩
    rw [voidIfPaired_of_unpaired hp, unlessGated_of_runs _ (run_ne_off_of_issues hi)]
  · intro s t b hb hr peers n
    refine ⟨fun hall => ?_, fun e he hna => congrArg Host.Outcome.next (barrierDone_incomplete hb he hna)⟩
    obtain ⟨k, hk⟩ := barrierDone_complete hb hr hall
    exact ⟨_, k, rfl, hk⟩
  · intro s t w hi target
    exact ⟨fun h => ⟨_, rfl, issue_retires_of_only hi (bodyWaits_reached _ h) (onlyTile_refl ..) rfl⟩,
      fun h h' => ⟨_, rfl, issue_holds hi (bodyWaits_ahead _ h h')⟩,
      fun h => congrArg Host.Outcome.next (issue_traps hi (bodyWaits_far _ h) rfl)⟩
  · intro s t b hb hr
    exact ⟨fun hl => congrArg Host.Outcome.next (syncTimeout_traps hb hr hl),
      fun hl => congrArg Host.Outcome.next (syncTimeout_early hb hl)⟩

end Sys2Proof.Machine

/-!
O26, O27, O58, O59. The machine after reset, and two statements about the frame table that fail. Both counterexamples are
states whose frame table lists an entry that no command of the device writes; neither is excluded by a hypothesis.
-/

namespace Sys2Proof.Machine

/-! ### After reset -/

/-- Settles O58: every table is empty at reset, so each entry reads as its default. -/
theorem resetValues : Obligations.ResetValues := by
  unfold Obligations.ResetValues
  refine ⟨fun c => ?ctx, fun f => ?frame, fun k => ?stack, fun n => ?port, ?fabric, ?stroke, ?power, fun p => ?part,
    ?umpire, ?resets, ?boot, ?host, fun t => ?tile, rfl⟩
  case ctx => exact ⟨rfl, rfl, rfl, rfl, rfl, rfl, rfl, rfl, rfl⟩
  case frame => exact ⟨rfl, rfl⟩
  case stack => exact ⟨rfl, rfl, rfl⟩
  case port => exact ⟨rfl, rfl, rfl⟩
  case fabric => exact ⟨rfl, rfl, rfl, rfl, rfl, rfl⟩
  case stroke => exact ⟨rfl, rfl, rfl, rfl⟩
  case power => exact ⟨rfl, rfl, rfl, rfl, rfl⟩
  case part => exact ⟨rfl, rfl, rfl, rfl⟩
  case umpire => exact ⟨rfl, rfl, rfl, rfl, rfl, rfl, rfl, rfl, rfl, rfl, rfl⟩
  case resets => exact ⟨rfl, rfl, rfl, rfl⟩
  case boot => exact ⟨rfl, rfl, rfl⟩
  case host => exact ⟨rfl, rfl, rfl, rfl, rfl⟩
  case tile => exact ⟨rfl, rfl, rfl, rfl⟩

/-- Settles O59: HBM, flash and host memory are empty at reset. -/
theorem resetMemoryWellFormed : Obligations.ResetMemoryWellFormed := ⟨rfl, rfl, rfl⟩

/-! ### QUERY of a frame that the table lists at its reset value -/

/-- A machine just out of reset, but for a frame table that lists frame 0 with the very values it reads as anyway. -/
def listedAtReset : State := { State.reset with frames := [(0, {})] }

theorem frameCmd_query_listedAtReset : (frameCmd 4 0 0 listedAtReset).frames = [] := rfl

/-- Refutes O26: a QUERY that is done writes the frame's value back, so from a table that lists a frame at its reset value
it drops that entry; the table is another list, though every frame reads as before. -/
theorem not_frameCommandResults : ¬ Obligations.FrameCommandResults := by
  unfold Obligations.FrameCommandResults
  intro h
  obtain ⟨s1, s2, s3, s4, -, -, -, h4, -, -, -, -, -, -, -, hframes, -⟩ := h listedAtReset 0 0 rfl rfl
  obtain rfl : frameCmd 4 0 0 listedAtReset = s4 := Host.Outcome.next.inj h4
  rw [frameCmd_query_listedAtReset] at hframes
  exact List.cons_ne_nil _ _ hframes.symm

/-! ### The scrubber before a frame of a context being swept -/

theorem scrubDone_frame_other {s : State} {k f g : Nat} (hg : nextScrub s k = some g) (hf : f ≠ g) :
    (scrubDone k s).frame f = s.frame f := by
  simp only [scrubDone, hg]
  split
  · rfl
  · exact State.setFrame_frame_other _ _ _ _ hf

/-- Context 0 is being swept and owns frame 0, whose SCRUB_PENDING is 1; frame 1 is POISONED with SCRUB_PENDING 1. -/
def sweptOwnsPending : State := { State.reset with
  frames := [(0, { st := .owned })]
  ctxs := [(0, { sweep := some 0 })]
  stks := [(0, { trained := true })] }

theorem nextScrub_sweptOwnsPending : nextScrub sweptOwnsPending 0 = some 0 := by
  rw [nextScrub, List.range_succ_eq_map, List.map_cons]
  exact List.find?_cons_of_pos rfl

/-- Refutes O27: frame 0, OWNED by a context being swept, counts as POISONED (05 R207), so with SCRUB_PENDING 1 the scrubber
takes it before frame 1, the lowest frame whose state is POISONED. -/
theorem not_sweepScrubAndInvalidation : ¬ Obligations.SweepScrubAndInvalidation := by
  unfold Obligations.SweepScrubAndInvalidation
  rintro ⟨⟨-, hscrub, -⟩, -⟩
  obtain ⟨s', hs, hfree, -⟩ := hscrub sweptOwnsPending 0 1 rfl rfl rfl rfl rfl rfl (by
    intro g hg _
    obtain rfl : g = 0 := by omega
    decide)
  obtain rfl : scrubDone 0 sweptOwnsPending = s' := Host.Outcome.next.inj hs
  rw [scrubDone_frame_other nextScrub_sweptOwnsPending (by decide)] at hfree
  exact absurd hfree (by decide)

end Sys2Proof.Machine

/-!
O28, O29, O30. Weir descriptors and single atomic adds. A range that lies in one page is translated by one table entry, and
an engine's accesses leave the tables as they are (`Worked`); so each row or record in turn is read as memory held it when
the descriptor began, and the whole run follows by induction on their number (`wFor_goes`).
-/

namespace Sys2Proof.Machine

/-! ### Bytes of a memory -/

theorem putBytes_append (d : Byte) (m : Tbl Byte) (a : Nat) (l r : List Byte) :
    putBytes d m a (l ++ r) = putBytes d (putBytes d m a l) (a + l.length) r := by
  induction l generalizing m a with
  | nil => rfl
  | cons b l ih => rw [List.cons_append, putBytes, ih, putBytes, List.length_cons, Nat.add_assoc, Nat.add_comm 1]

theorem leNat_leBytes {n v : Nat} (h : v < 2 ^ (8 * n)) : leNat (leBytes n v) = v := by
  have e := leNat_leBytes_append n h rfl []
  rwa [List.append_nil, leNat, Nat.mul_zero, Nat.add_zero] at e

theorem bytesAt_congr {d : Byte} {m m' : Tbl Byte} {a n : Nat}
    (h : ∀ b, a ≤ b → b < a + n → Tbl.look d b m' = Tbl.look d b m) : bytesAt d m' a n = bytesAt d m a n := by
  induction n generalizing a with
  | zero => rfl
  | succ n ih =>
    rw [bytesAt, bytesAt, h a (Nat.le_refl a) (by omega), ih fun b h1 h2 => h b (by omega) (by omega)]

/-! ### No stack in reset (05 R231) -/

section Running
variable {s : State} (hrun : ∀ k, (s.part k).reset = none)
include hrun

theorem stackShut_of_running (k : Nat) : stackShut s k = false := by
  rw [stackShut, hrun k, Option.isSome_none, Bool.and_false]

theorem pageShut_of_running (c loc : Nat) : pageShut s c loc = false := by
  simp only [pageShut, stackShut_of_running hrun, Bool.false_eq_true, if_false]
  split
  · rfl
  · split
    · rfl
    · split <;> rfl

theorem rangeShut_of_running (c loc len : Nat) : rangeShut s c loc len = false := by
  rw [rangeShut, List.any_eq_false]
  intro i _
  rw [pageShut_of_running hrun]
  exact Bool.false_ne_true

end Running

/-! ### The frame table's answer (05 R205, Table 5-11) -/

theorem frameCheck_congr {s s' : State} (hf : s'.frames = s.frames) (hs : ∀ c, (s'.ctx c).sweep = (s.ctx c).sweep)
    (ag : Agent) (write : Bool) (pa : Nat) : frameCheck s' ag write pa = frameCheck s ag write pa := by
  have hfr : s'.frame = s.frame := funext fun f => by rw [State.frame, hf, State.frame]
  have hsw : s'.sweeping = s.sweeping := funext fun c => by rw [State.sweeping, hs, State.sweeping]
  have hnow : s'.frameNow = s.frameNow := funext fun f => by rw [State.frameNow, State.frameNow, hsw, hfr]
  rw [frameCheck, frameCheck, hnow, hfr]

theorem frameCheck_owned {s : State} {ag : Agent} {c : Nat} (write : Bool) {pa : Nat} (hag : ag.owner = some c)
    (hlt : pa < paEnd) (hst : (s.frame (pa / frameBytes)).st = .owned)
    (hown : (s.frame (pa / frameBytes)).owner = c) (hsweep : (s.ctx c).sweep = none) :
    frameCheck s ag write pa = none := by
  have hnow : s.frameNow (pa / frameBytes) = .owned := by
    simp [State.frameNow, State.sweeping, hst, hown, hsweep]
  simp only [frameCheck, hnow, hown, hag, if_neg (Nat.not_le_of_lt hlt), if_true]

/-- Tables lie in SYSTEM frames. -/
theorem frameCheck_tables {s : State} {pa : Nat} (h : frameCheck s .tables false pa = none) :
    (s.frame (pa / frameBytes)).st = .system := by
  unfold frameCheck at h
  split at h
  · contradiction
  · dsimp only at h
    split at h
    · simp at h
    · contradiction
    · simp [Agent.owner] at h
    · rename_i hnow
      unfold State.frameNow at hnow
      dsimp only at hnow
      split at hnow
      · contradiction
      · exact hnow

/-! ### Lines without an error (05 R214) -/

theorem LinesClean.sub {s : State} {pa n q m : Nat} (h : LinesClean s pa n) (h1 : pa ≤ q) (h2 : q + m ≤ pa + n)
    (hm : 0 < m) : LinesClean s q m :=
  fun l hl hu => h l (by omega) (by omega)

theorem scanLines_clean {s : State} {line n : Nat}
    (h : ∀ l, line ≤ l → l < line + n → Tbl.look LineErr.none l s.lineErr = .none) : scanLines line n s = (none, s) := by
  induction n generalizing line with
  | zero => rfl
  | succ n ih =>
    rw [scanLines, h line (Nat.le_refl _) (by omega)]
    exact ih fun l h1 h2 => h l (by omega) (by omega)

theorem hbmRead_clean {s : State} {pa len : Nat} (h : LinesClean s pa len) :
    hbmRead pa len s = (.ok (bytesAt 0 s.hbm pa len), s) := by
  have hs : scanLines (pa / 64) (linesOf pa len) s = (none, s) := by
    refine scanLines_clean fun l h1 h2 => h l h1 ?_
    unfold linesOf at h2
    split at h2 <;> omega
  simp only [hbmRead, hs]

/-! ### Tables as a translation reads them (05 R210) -/

/-- The table word at pa reads as v, without a fault and without a correction. -/
def TableWord (s : State) (pa v : Nat) : Prop :=
  frameCheck s .tables false pa = none ∧ Tbl.look LineErr.none (pa / 64) s.lineErr = .none ∧
    leNat (bytesAt 0 s.hbm pa 8) = v

/-- The tables of context c map a page by entry e; both their words read without a correction. -/
def Walks (s : State) (c page : Nat) (e : TEntry) : Prop :=
  ∃ v l2 v2, TableWord s ((s.ctx c).bttRoot + 8 * (page / 1024)) v ∧ l1Entry v = some l2 ∧
    TableWord s (l2 + 8 * (page % 1024)) v2 ∧ l2Entry c page v2 = some e

theorem l1Entry_aligned {v l2 : Nat} (h : l1Entry v = some l2) : l2 % 8192 = 0 := by
  unfold l1Entry at h
  split at h
  · contradiction
  · obtain rfl := Option.some.inj h
    exact Nat.mul_mod_left ..

theorem l2Entry_fields {c page v : Nat} {e : TEntry} (h : l2Entry c page v = some e) :
    e.ctx = c ∧ e.page = page ∧ e.frame < numFrames := by
  unfold l2Entry at h
  split at h
  · contradiction
  · rename_i hn
    obtain rfl := Option.some.inj h
    simp only [Bool.or_eq_true, not_or, decide_eq_true_eq, Nat.not_le] at hn
    exact ⟨rfl, rfl, hn.2⟩

theorem memCe_lineErr (line : Nat) (s : State) :
    (memCe line s).lineErr = Tbl.put LineErr.none line .none s.lineErr := by
  simp only [memCe]
  split
  · rw [raise_lineErr]
    rfl
  · rfl

section TableRead
variable {s : State} {pa v : Nat} (h8 : pa % 8 = 0)
include h8

theorem tableRead_of_tableWord (h : TableWord s pa v) : tableRead pa s = (some v, s) := by
  obtain ⟨hf, hl, hv⟩ := h
  have hc : LinesClean s pa 8 := fun l h1 h2 => by
    obtain rfl : l = pa / 64 := by omega
    exact hl
  simp only [tableRead, devRead, hf, hbmRead_clean hc, hv]

/-- A table word that is read was clean, or its line has been corrected. -/
theorem tableRead_some {s1 : State} (h : tableRead pa s = (some v, s1)) : TableWord s pa v ∧ s1 = s ∨
    Tbl.look LineErr.none (pa / 64) s.lineErr = .correctable ∧ s1 = memCe (pa / 64) s := by
  have hn : linesOf pa 8 = 1 := by
    rw [linesOf, if_neg (by decide)]
    omega
  cases hf : frameCheck s .tables false pa with
  | some f =>
    simp [tableRead, devRead, hf] at h
  | none =>
    simp only [tableRead, devRead, hf, hbmRead, hn, scanLines] at h
    cases hl : Tbl.look LineErr.none (pa / 64) s.lineErr with
    | none =>
      simp only [hl, Prod.mk.injEq, Option.some.injEq] at h
      exact .inl ⟨⟨hf, hl, h.1⟩, h.2.symm⟩
    | correctable =>
      simp only [hl, Prod.mk.injEq] at h
      exact .inr ⟨rfl, h.2.symm⟩
    | uncorrectable =>
      simp only [hl] at h
      simp at h

end TableRead

/-- Two reads after which the machine is as before corrected nothing: a line once corrected stays so. -/
theorem tableWords_of_unchanged {s s1 : State} {a b v w : Nat} (ha : a % 8 = 0) (hb : b % 8 = 0)
    (h1 : tableRead a s = (some v, s1)) (h2 : tableRead b s1 = (some w, s)) : TableWord s a v ∧ TableWord s b w := by
  obtain ⟨w1, rfl⟩ | ⟨hc, hs1⟩ := tableRead_some ha h1
  · obtain ⟨w2, -⟩ | ⟨hc, hs⟩ := tableRead_some hb h2
    · exact ⟨w1, w2⟩
    · rw [hs, memCe_lineErr, Tbl.look_put_same] at hc
      contradiction
  · have hn : Tbl.look LineErr.none (a / 64) s1.lineErr = .none := by rw [hs1, memCe_lineErr, Tbl.look_put_same]
    obtain ⟨-, hs⟩ | ⟨-, hs⟩ := tableRead_some hb h2
    · rw [hs, hn] at hc
      contradiction
    · rw [hs, memCe_lineErr, Tbl.look_put, hn, ite_self] at hc
      contradiction

section Walk
variable {s : State} {c page : Nat} {e : TEntry} (hroot : (s.ctx c).bttRoot % 16384 = 0)
include hroot

theorem walkTable_of_walks (h : Walks s c page e) : walkTable c page s = (some e, s) := by
  obtain ⟨v, l2, v2, h1, hl2, h2, he⟩ := h
  have ha := l1Entry_aligned hl2
  simp only [walkTable, tableRead_of_tableWord (by omega) h1, hl2, tableRead_of_tableWord (by omega) h2, he]

theorem walks_of_walkTable (h : walkTable c page s = (some e, s)) : Walks s c page e := by
  unfold walkTable at h
  split at h
  · simp at h
  rename_i v s1 h1
  split at h
  · simp at h
  rename_i l2 hl2
  split at h
  · simp at h
  rename_i v2 s2 h2
  obtain ⟨he, rfl⟩ := Prod.mk.inj h
  have ha := l1Entry_aligned hl2
  obtain ⟨w1, w2⟩ := tableWords_of_unchanged (by omega) (by omega) h1 h2
  exact ⟨v, l2, v2, w1, hl2, w2, he⟩

end Walk

/-! ### Translation (05 R210 to R212) -/

theorem pageAddr_frame (f loc : Nat) : pageAddr f loc / frameBytes = f := by
  unfold pageAddr frameBytes
  omega

theorem pageAddr_add {f loc o : Nat} (h : loc % frameBytes + o < frameBytes) :
    pageAddr f (loc + o) = pageAddr f loc + o := by
  unfold pageAddr
  unfold frameBytes at h ⊢
  omega

theorem page_add {loc o : Nat} (h : loc % frameBytes + o < frameBytes) :
    (loc + o) / frameBytes = loc / frameBytes := by
  unfold frameBytes at h ⊢
  omega

/-- Entry e maps the page of loc in context c as `Mapped` asks. -/
structure MapsBy (s : State) (c loc : Nat) (e : TEntry) : Prop where
  bound : loc < 2 ^ 42
  en : (s.ctx c).bttEn = true
  root : (s.ctx c).bttRoot % 16384 = 0
  walks : Walks s c (loc / frameBytes) e
  r : e.r = true
  w : e.w = true
  cached : ∀ k, ∀ x ∈ Tbl.look [] k s.tcache, x.ctx = c → x.page = loc / frameBytes → x = e
  owned : (s.frame e.frame).st = .owned
  owner : (s.frame e.frame).owner = c
  sweep : (s.ctx c).sweep = none

theorem mapped_iff {s : State} {c loc f : Nat} {remote : Bool} : Mapped s c loc f remote ↔
    ∃ e, MapsBy s c loc e ∧ e.frame = f ∧ (remote = true → e.rmt = true) := by
  constructor
  · rintro ⟨e, hb, hen, hroot, hwalk, rfl, hr, hw, hrmt, hcache, hst, hown, hsweep⟩
    exact ⟨e, ⟨hb, hen, hroot, walks_of_walkTable hroot hwalk, hr, hw, hcache, hst, hown, hsweep⟩, rfl, hrmt⟩
  · rintro ⟨e, h, rfl, hrmt⟩
    exact ⟨e, h.bound, h.en, h.root, walkTable_of_walks h.root h.walks, rfl, h.r, h.w, hrmt, h.cached, h.owned, h.owner,
      h.sweep⟩

theorem Mapped.owned {s : State} {c loc f : Nat} {remote : Bool} (h : Mapped s c loc f remote) :
    (s.frame f).st = .owned := by
  obtain ⟨e, he, rfl, -⟩ := mapped_iff.mp h
  exact he.owned

/-- The other addresses of the page are mapped alike. -/
theorem Mapped.add {s : State} {c loc f o : Nat} {remote : Bool} (h : Mapped s c loc f remote)
    (ho : loc % frameBytes + o < frameBytes) : Mapped s c (loc + o) f remote := by
  obtain ⟨e, hb, hen, hroot, hwalk, hrest⟩ := h
  rw [← page_add ho] at hwalk hrest
  refine ⟨e, ?_, hen, hroot, hwalk, hrest⟩
  unfold frameBytes at ho
  omega

/-- One page maps to one frame. -/
theorem Mapped.frame_eq {s : State} {c loc loc' f f' : Nat} {r r' : Bool} (h : Mapped s c loc f r)
    (h' : Mapped s c loc' f' r') (hp : loc / frameBytes = loc' / frameBytes) : f = f' := by
  obtain ⟨e, -, -, -, hwalk, hf, -⟩ := h
  obtain ⟨e', -, -, -, hwalk', hf', -⟩ := h'
  rw [hp, hwalk'] at hwalk
  obtain rfl := Option.some.inj (congrArg Prod.fst hwalk)
  exact hf.symm.trans hf'

section MapsBy
variable {s : State} {c loc : Nat} {e : TEntry} (h : MapsBy s c loc e)
include h

theorem MapsBy.fields : e.ctx = c ∧ e.page = loc / frameBytes ∧ e.frame < numFrames := by
  obtain ⟨_, _, _, -, -, -, he⟩ := h.walks
  exact l2Entry_fields he

theorem MapsBy.allows {ag : Agent} (hag : ag.owner = some c) (write : Bool) :
    frameCheck s ag write (pageAddr e.frame loc) = none := by
  obtain ⟨-, -, hlt⟩ := h.fields
  refine frameCheck_owned write hag ?_ (by rw [pageAddr_frame, h.owned]) (by rw [pageAddr_frame, h.owner]) h.sweep
  unfold pageAddr frameBytes paEnd
  unfold numFrames at hlt
  omega

theorem MapsBy.lookup (k : Nat) : lookupPage k c (loc / frameBytes) s = (some e, cachePut k e s) := by
  have hwalk := walkTable_of_walks h.root h.walks
  unfold lookupPage
  extract_lets fresh
  have hfresh : fresh s = (some e, cachePut k e s) := by simp only [fresh, hwalk]
  split
  · exact hfresh
  · rename_i x hx
    have hp := List.find?_some hx
    simp only [Bool.and_eq_true, decide_eq_true_eq] at hp
    obtain rfl := h.cached k x (List.mem_of_find?_eq_some hx) hp.1 hp.2
    rw [if_pos (congrArg Prod.fst hwalk)]

theorem MapsBy.translates {v : Via} (hv : v.ctx = c) (hr : v.remote = true → e.rmt = true) (write : Bool) :
    translate v write loc s = (.ok (pageAddr e.frame loc), cachePut v.cache e s) := by
  subst hv
  have hag : v.agent.owner = some v.ctx := by
    unfold Via.agent
    split <;> rfl
  have hallow : frameCheck (cachePut v.cache e s) v.agent write (e.frame * frameBytes + loc % frameBytes) = none :=
    h.allows hag write
  have hperm : ¬ ((if write then !e.w else !e.r) || (v.remote && !e.rmt)) = true := by
    rw [h.r, h.w]
    cases hvr : v.remote
    · simp
    · simp [hr hvr]
  have hlt : ¬ (2 ^ 42 ≤ loc ∨ (!(s.ctx v.ctx).bttEn) = true) := by
    have := h.bound
    simp [h.en]
    omega
  simp only [translate, if_neg hlt, h.lookup v.cache, if_neg hperm, hallow]
  rfl

theorem MapsBy.stackAt : stackAt (cachePut devCache e s) c loc = frameStack e.frame := by
  obtain ⟨hc, hp, -⟩ := h.fields
  simp [Machine.stackAt, cachePut, hc, hp]

end MapsBy

/-! ### What a Weir engine's accesses leave (05 R222, R228) -/

/-- From s to s' an engine has worked with frame D as its destination: memory outside D is as before, clean lines stay
clean, what was mapped stays mapped, and of the contexts nothing that a translation reads has changed. -/
structure Worked (D : Nat) (s s' : State) : Prop where
  keeps : s' = { s with
    hbm := s'.hbm, stks := s'.stks, snoops := s'.snoops, lineErr := s'.lineErr, tcache := s'.tcache, ctxs := s'.ctxs }
  hbm : ∀ a, a / frameBytes ≠ D → Tbl.look 0#8 a s'.hbm = Tbl.look 0#8 a s.hbm
  clean : ∀ l, Tbl.look LineErr.none l s.lineErr = .none → Tbl.look LineErr.none l s'.lineErr = .none
  mapped : ∀ {c loc f r}, Mapped s c loc f r → Mapped s' c loc f r

section Worked
variable {D : Nat} {s s1 s' : State}

theorem Worked.refl (D : Nat) (s : State) : Worked D s s := ⟨rfl, fun _ _ => rfl, fun _ h => h, id⟩

theorem Worked.trans (h : Worked D s s1) (h' : Worked D s1 s') : Worked D s s' where
  keeps := by
    rw [h'.keeps]
    conv_lhs => rw [h.keeps]
  hbm a ha := (h'.hbm a ha).trans (h.hbm a ha)
  clean l hl := h'.clean l (h.clean l hl)
  mapped hm := h'.mapped (h.mapped hm)

variable (h : Worked D s s')
include h

theorem Worked.frames : s'.frames = s.frames := by rw [h.keeps]
theorem Worked.tiles : s'.tiles = s.tiles := by rw [h.keeps]
theorem Worked.weir : s'.weir = s.weir := by rw [h.keeps]
theorem Worked.atoms : s'.atoms = s.atoms := by rw [h.keeps]
theorem Worked.fab : s'.fab = s.fab := by rw [h.keeps]
theorem Worked.running (hrun : ∀ k, (s.part k).reset = none) (k : Nat) : (s'.part k).reset = none := by
  rw [h.keeps]
  exact hrun k

theorem Worked.linesClean {pa n : Nat} (hl : LinesClean s pa n) : LinesClean s' pa n :=
  fun l h1 h2 => h.clean l (hl l h1 h2)

theorem Worked.bytesAt {f loc o n : Nat} (hf : f ≠ D) (hp : loc % frameBytes + o + n ≤ frameBytes) :
    bytesAt 0 s'.hbm (pageAddr f loc + o) n = bytesAt 0 s.hbm (pageAddr f loc + o) n := by
  refine bytesAt_congr fun b h1 h2 => h.hbm b ?_
  unfold pageAddr at h1 h2
  unfold frameBytes at h1 h2 hp ⊢
  omega

end Worked

theorem TableWord.transport {D : Nat} {s s' : State} {pa v : Nat} (h8 : pa % 8 = 0)
    (hf : s'.frames = s.frames) (hs : ∀ c, (s'.ctx c).sweep = (s.ctx c).sweep) (hD : (s.frame D).st = .owned)
    (hhbm : ∀ a, a / frameBytes ≠ D → Tbl.look 0#8 a s'.hbm = Tbl.look 0#8 a s.hbm)
    (hclean : ∀ l, Tbl.look LineErr.none l s.lineErr = .none → Tbl.look LineErr.none l s'.lineErr = .none)
    (h : TableWord s pa v) : TableWord s' pa v := by
  obtain ⟨hcheck, hline, hv⟩ := h
  have hne : pa / frameBytes ≠ D := by
    rintro rfl
    exact FState.noConfusion ((frameCheck_tables hcheck).symm.trans hD)
  refine ⟨(frameCheck_congr hf hs ..).trans hcheck, hclean _ hline, ?_⟩
  rw [← hv]
  refine congrArg leNat (bytesAt_congr fun b h1 h2 => hhbm b ?_)
  unfold frameBytes at hne ⊢
  omega

/-- What the accesses of an engine have in common: they leave the tables, and a cache takes only what the tables give. -/
theorem Worked.of_access {D : Nat} {s s' : State}
    (keeps : s' = { s with
      hbm := s'.hbm, stks := s'.stks, snoops := s'.snoops, lineErr := s'.lineErr, tcache := s'.tcache, ctxs := s'.ctxs })
    (hbm : ∀ a, a / frameBytes ≠ D → Tbl.look 0#8 a s'.hbm = Tbl.look 0#8 a s.hbm)
    (clean : ∀ l, Tbl.look LineErr.none l s.lineErr = .none → Tbl.look LineErr.none l s'.lineErr = .none)
    (hD : (s.frame D).st = .owned)
    (way : ∀ c, (s'.ctx c).bttEn = (s.ctx c).bttEn ∧ (s'.ctx c).bttRoot = (s.ctx c).bttRoot ∧
      (s'.ctx c).sweep = (s.ctx c).sweep)
    (cached : ∀ k, ∀ x ∈ Tbl.look [] k s'.tcache, x ∈ Tbl.look [] k s.tcache ∨ Walks s x.ctx x.page x) :
    Worked D s s' := by
  have hf : s'.frames = s.frames := by rw [keeps]
  have hframe (f : Nat) : s'.frame f = s.frame f := by rw [State.frame, hf, State.frame]
  have hs (c : Nat) : (s'.ctx c).sweep = (s.ctx c).sweep := (way c).2.2
  refine ⟨keeps, hbm, clean, fun {c loc f r} hmap => ?_⟩
  obtain ⟨e, hm, rfl, hrmt⟩ := mapped_iff.mp hmap
  obtain ⟨hen, hroot, hsweep⟩ := way c
  obtain ⟨v, l2, v2, w1, hl2, w2, he⟩ := hm.walks
  have ha := l1Entry_aligned hl2
  have hr := hm.root
  refine mapped_iff.mpr ⟨e, ?_, rfl, hrmt⟩
  refine ⟨hm.bound, hen.trans hm.en, hroot ▸ hr, ⟨v, l2, v2, ?_, hl2, ?_, he⟩, hm.r, hm.w, ?_, hframe _ ▸ hm.owned,
    hframe _ ▸ hm.owner, hsweep.trans hm.sweep⟩
  · rw [hroot]
    exact w1.transport (by omega) hf hs hD hbm clean
  · exact w2.transport (by omega) hf hs hD hbm clean
  · intro k x hx hxc hxp
    obtain hx | hx := cached k x hx
    · exact hm.cached k x hx hxc hxp
    · rw [hxc, hxp] at hx
      have h1 := walkTable_of_walks hr hx
      rw [walkTable_of_walks hr hm.walks] at h1
      exact (Option.some.inj (congrArg Prod.fst h1)).symm

theorem cachePut_worked {D : Nat} {s : State} {c loc : Nat} {e : TEntry} (k : Nat) (h : MapsBy s c loc e)
    (hD : (s.frame D).st = .owned) : Worked D s (cachePut k e s) := by
  obtain ⟨hc, hp, -⟩ := h.fields
  refine .of_access rfl (fun _ _ => rfl) (fun _ h => h) hD (fun _ => ⟨rfl, rfl, rfl⟩) fun k' x hx => ?_
  simp only [cachePut, Tbl.look_put] at hx
  split at hx
  · rename_i hk
    subst hk
    obtain rfl | hx := List.mem_cons.mp (List.mem_of_mem_take hx)
    · rw [hc, hp]
      exact .inr h.walks
    · exact .inl (List.mem_filter.mp hx).1
  · exact .inl hx

theorem countOor_worked {D : Nat} (c : Nat) {s : State} (hD : (s.frame D).st = .owned) : Worked D s (countOor c s) := by
  refine .of_access rfl (fun _ _ => rfl) (fun _ h => h) hD (fun j => ?_) fun _ _ hx => .inl hx
  by_cases hj : j = c
  · subst hj
    simp [countOor, State.modExec]
  · simp [countOor, State.modExec, State.setCtx_ctx_other, hj]

/-! ### Reads of an engine (05 R211, R214) -/

/-- The n bytes at loc lie in a page of context c that maps to frame f, and read without a correction. -/
structure Readable (s : State) (c loc f n : Nat) : Prop where
  mapped : Mapped s c loc f false
  fits : loc % frameBytes + n ≤ frameBytes
  clean : LinesClean s (pageAddr f loc) n

theorem Readable.worked {D : Nat} {s s' : State} {c loc f n : Nat} (h : Readable s c loc f n) (hw : Worked D s s') :
    Readable s' c loc f n :=
  ⟨hw.mapped h.mapped, h.fits, hw.linesClean h.clean⟩

theorem Readable.sub {s : State} {c loc f n o m : Nat} (h : Readable s c loc f n) (ho : o + m ≤ n) (hm : 0 < m) :
    Readable s c (loc + o) f m := by
  have hp := h.fits
  have hlt : loc % frameBytes + o < frameBytes := by omega
  refine ⟨h.mapped.add hlt, ?_, ?_⟩
  · unfold frameBytes at hp ⊢
    omega
  · rw [pageAddr_add hlt]
    exact h.clean.sub (by omega) (by omega) hm

/-- The engine's read of n bytes at loc, in a page of frame f, gives bs and takes s to s1; D is the frame that the engine
writes. -/
structure ReadsTo (D c loc f n : Nat) (bs : List Byte) (s s1 : State) : Prop where
  worked : Worked D s s1
  hbm : s1.hbm = s.hbm
  ctxs : s1.ctxs = s.ctxs
  stack : stackAt s1 c loc = frameStack f
  read : readLocal (viaWeir c) loc n s = (.ok bs, s1)

theorem Readable.reads {D : Nat} {s : State} {c loc f n : Nat} (h : Readable s c loc f n) (hn : 0 < n)
    (hD : (s.frame D).st = .owned) : ∃ s1, ReadsTo D c loc f n (bytesAt 0 s.hbm (pageAddr f loc) n) s s1 := by
  obtain ⟨e, hm, rfl, -⟩ := mapped_iff.mp h.mapped
  have hp := h.fits
  refine ⟨cachePut devCache e s, cachePut_worked _ hm hD, rfl, rfl, hm.stackAt, ?_⟩
  have hk : inPage loc n = n := Nat.min_eq_left (by omega)
  have ht := hm.translates (v := viaWeir c) rfl (fun h => nomatch h) false
  have hr : hbmRead (pageAddr e.frame loc) n (cachePut (viaWeir c).cache e s) =
      (.ok (bytesAt 0 s.hbm (pageAddr e.frame loc) n), cachePut devCache e s) := hbmRead_clean h.clean
  have hpage : readPage (viaWeir c) loc n s =
      (.ok (bytesAt 0 s.hbm (pageAddr e.frame loc) n), cachePut devCache e s) := by
    simp only [readPage, ht, hr]
  simp only [readLocal, readPages, hk, if_neg (Nat.ne_of_gt hn), hpage, Nat.sub_self, if_true, List.append_nil]

/-- An engine at work reads outside its destination what memory held when it began. -/
theorem Readable.reads_at {D : Nat} {s s1 : State} {c loc f n o m : Nat} (h : Readable s c loc f n) (hw : Worked D s s1)
    (hD : (s.frame D).st = .owned) (hf : D ≠ f) (ho : o + m ≤ n) (hm : 0 < m) :
    ∃ s2, ReadsTo D c (loc + o) f m (bytesAt 0 s.hbm (pageAddr f loc + o) m) s1 s2 := by
  have hp := h.fits
  have hD1 : (s1.frame D).st = .owned := by rw [State.frame, hw.frames]; exact hD
  have hb := hw.bytesAt (f := f) (loc := loc) (o := o) (n := m) (Ne.symm hf) (by omega)
  rw [← pageAddr_add (by omega)] at hb
  rw [← pageAddr_add (by omega), ← hb]
  exact ((h.worked hw).sub ho hm).reads hm hD1

theorem ReadsTo.run {D c loc f n : Nat} {bs : List Byte} {s s1 : State} (h : ReadsTo D c loc f n bs s s1)
    (hrun : ∀ k, (s.part k).reset = none) (k : List Byte → State → WEnd × State) : wRead c loc n k s = k bs s1 := by
  simp only [wRead, rangeShut_of_running hrun, Bool.false_eq_true, if_false, h.read]

/-! ### Writes of an engine (05 R216, 13 R526) -/

/-- A write of bs at pa takes s to s1. -/
structure Overwrote (pa : Nat) (bs : List Byte) (s s1 : State) : Prop where
  keeps : s1 = { s with
    hbm := putBytes 0 s.hbm pa bs, stks := s1.stks, snoops := s1.snoops, lineErr := s1.lineErr }
  clean : ∀ l, Tbl.look LineErr.none l s.lineErr = .none → Tbl.look LineErr.none l s1.lineErr = .none

theorem backInvalidate_leaves (line : Nat) (s : State) : backInvalidate line s = { s with
    stks := (backInvalidate line s).stks, snoops := (backInvalidate line s).snoops } := by
  simp only [backInvalidate]
  split <;> rfl

theorem writeLines_whole {n pa : Nat} {bs : List Byte} {s : State} (ha : pa % 64 = 0) (hl : bs.length = 64 * n) :
    ∃ s1, writeLines false n pa bs s = (.ok (), s1) ∧ Overwrote pa bs s s1 := by
  induction n generalizing pa bs s with
  | zero =>
    obtain rfl := List.length_eq_zero_iff.mp hl
    exact ⟨s, rfl, rfl, fun _ h => h⟩
  | succ n ih =>
    have hk : 64 - pa % 64 = 64 := by omega
    have hnow : (bs.take 64).length = 64 := by rw [List.length_take]; omega
    have hb := backInvalidate_leaves (pa / 64) s
    obtain ⟨s1, hs1, keeps, clean⟩ := ih (pa := pa + 64) (bs := bs.drop 64)
      (s := { backInvalidate (pa / 64) s with
        hbm := putBytes 0 s.hbm pa (bs.take 64), lineErr := Tbl.put .none (pa / 64) .none s.lineErr })
      (by omega) (by rw [List.length_drop]; omega)
    refine ⟨s1, ?_, ?_, fun l hl => clean l ?_⟩
    · rw [← hs1]
      simp only [writeLines, hk, hnow, Bool.false_eq_true, if_false, if_true]
      rw [hb]
    · have e : putBytes 0 s.hbm pa bs = putBytes 0 (putBytes 0 s.hbm pa (bs.take 64)) (pa + 64) (bs.drop 64) := by
        conv_lhs => rw [← List.take_append_drop 64 bs, putBytes_append, hnow]
      rw [e, keeps, hb]
    · rw [Tbl.look_put, hl, ite_self]

theorem writeLines_part {pa : Nat} {bs : List Byte} {s : State} (hp : pa % 64 + bs.length ≤ 64) (hl : bs.length < 64)
    (hc : Tbl.look LineErr.none (pa / 64) s.lineErr = .none) :
    ∃ s1, writeLines false 1 pa bs s = (.ok (), s1) ∧ Overwrote pa bs s s1 := by
  have hb := backInvalidate_leaves (pa / 64) s
  have hnow : bs.take (64 - pa % 64) = bs := List.take_of_length_le (by omega)
  have he : Tbl.look LineErr.none (pa / 64) (backInvalidate (pa / 64) s).lineErr = .none := by rw [hb]; exact hc
  refine ⟨{ backInvalidate (pa / 64) s with hbm := putBytes 0 s.hbm pa bs }, ?_, ?_, fun l hl => ?_⟩
  · simp only [writeLines, hnow, if_neg (Nat.ne_of_lt hl), he, Bool.false_eq_true, if_false, reduceCtorEq]
    rw [hb]
  · rw [hb]
  · rw [hb]
    exact hl

/-- A write that makes whole lines, or that stays inside one clean line. -/
def FitsLines (s : State) (pa : Nat) (bs : List Byte) : Prop :=
  (pa % 64 = 0 ∧ bs.length % 64 = 0) ∨
    (pa % 64 + bs.length ≤ 64 ∧ bs.length < 64 ∧ Tbl.look LineErr.none (pa / 64) s.lineErr = .none)

theorem hbmWrite_ok {pa : Nat} {bs : List Byte} {s : State} (h0 : 0 < bs.length) (h : FitsLines s pa bs) :
    ∃ s1, hbmWrite pa bs s = (.ok (), s1) ∧ Overwrote pa bs s s1 := by
  unfold hbmWrite linesOf
  rw [if_neg (Nat.ne_of_gt h0)]
  obtain ⟨ha, hl⟩ | ⟨hp, hl, hc⟩ := h
  · exact writeLines_whole ha (by omega)
  · rw [show (pa + bs.length - 1) / 64 - pa / 64 + 1 = 1 by omega]
    exact writeLines_part hp hl hc

/-- The engine's write of bs at physical address pa of its destination D takes s to s1. -/
structure WritesTo (D pa : Nat) (bs : List Byte) (s s1 : State) : Prop where
  worked : Worked D s s1
  hbm : s1.hbm = putBytes 0 s.hbm pa bs
  ctxs : s1.ctxs = s.ctxs

theorem WritesTo.look {D pa : Nat} {bs : List Byte} {s s1 : State} (h : WritesTo D pa bs s s1) (a : Nat) :
    Tbl.look 0#8 a s1.hbm = if pa ≤ a ∧ a < pa + bs.length then bs.getD (a - pa) 0 else Tbl.look 0#8 a s.hbm := by
  rw [h.hbm]
  exact putBytes_look ..

theorem Overwrote.writesTo {c loc : Nat} {bs : List Byte} {s s1 : State} {e : TEntry} (k : Nat) (hm : MapsBy s c loc e)
    (hp : loc % frameBytes + bs.length ≤ frameBytes)
    (h : Overwrote (pageAddr e.frame loc) bs (cachePut k e s) s1) : WritesTo e.frame (pageAddr e.frame loc) bs s s1 := by
  have keeps := h.keeps
  refine ⟨(cachePut_worked k hm hm.owned).trans ?_, by rw [keeps]; rfl, by rw [keeps]; rfl⟩
  refine .of_access (by rw [keeps]) (fun a ha => ?_) h.clean hm.owned (fun c => ?_) fun _ _ hx => .inl ?_
  · rw [keeps]
    refine putBytes_look_out 0 bs _ _ a ?_
    unfold pageAddr
    unfold frameBytes at ha hp ⊢
    omega
  · rw [keeps]
    exact ⟨rfl, rfl, rfl⟩
  · rw [keeps] at hx
    exact hx

theorem writeLocal_ok {s : State} {c loc f : Nat} {bs : List Byte} (hmap : Mapped s c loc f false)
    (hp : loc % frameBytes + bs.length ≤ frameBytes) (h0 : 0 < bs.length) (hfit : FitsLines s (pageAddr f loc) bs) :
    ∃ s1, writeLocal (viaWeir c) loc bs s = (.ok (), s1) ∧ WritesTo f (pageAddr f loc) bs s s1 := by
  obtain ⟨e, hm, rfl, -⟩ := mapped_iff.mp hmap
  have ht := hm.translates (v := viaWeir c) rfl (fun h => nomatch h) true
  obtain ⟨s1, hs1, ho⟩ := hbmWrite_ok (s := cachePut (viaWeir c).cache e s) h0 hfit
  refine ⟨s1, ?_, ho.writesTo _ hm hp⟩
  have hk : inPage loc bs.length = bs.length := Nat.min_eq_left (by omega)
  have hpage : writePage (viaWeir c) loc bs s = (.ok (), s1) := by
    simp only [writePage, ht, hs1]
  have he : ¬ bs.isEmpty = true := by rw [List.isEmpty_iff_length_eq_zero]; omega
  simp only [writeLocal, writePages, hk, if_neg he, List.take_length, hpage, List.drop_length, List.isEmpty_nil, if_true]

theorem wWrite_ok {s : State} {c loc f : Nat} {bs : List Byte} (hrun : ∀ k, (s.part k).reset = none)
    (hmap : Mapped s c loc f false) (hp : loc % frameBytes + bs.length ≤ frameBytes) (h0 : 0 < bs.length)
    (hfit : FitsLines s (pageAddr f loc) bs) :
    ∃ s1, wWrite c loc bs s = (.go, s1) ∧ WritesTo f (pageAddr f loc) bs s s1 := by
  obtain ⟨s1, hs1, hw⟩ := writeLocal_ok hmap hp h0 hfit
  refine ⟨s1, ?_, hw⟩
  simp only [wWrite, rangeShut_of_running hrun, Bool.false_eq_true, if_false, hs1]

/-! ### Words and atomic adds (05 R223) -/

theorem wordAt_written {s s1 : State} {pa : Nat} {w : Word} (h : s1.hbm = putBytes 0 s.hbm pa (leBytes 4 w.toNat)) :
    wordAt s1 pa = w := by
  have hb := bytesAt_putBytes 0 (leBytes 4 w.toNat) s.hbm pa
  rw [leBytes_length] at hb
  rw [wordAt, h, hb, leNat_leBytes w.isLt, BitVec.ofNat_toNat, BitVec.setWidth_eq]

theorem wordAt_kept {s s1 : State} {pa q : Nat} {bs : List Byte} (h : s1.hbm = putBytes 0 s.hbm pa bs)
    (hq : q + 4 ≤ pa ∨ pa + bs.length ≤ q) : wordAt s1 q = wordAt s q := by
  rw [wordAt, h, bytesAt_putBytes_out 0 bs s.hbm pa q 4 hq, wordAt]

theorem wordAt_toNat (s : State) (pa : Nat) : (wordAt s pa).toNat = leNat (bytesAt 0 s.hbm pa 4) := by
  have h := leNat_lt (bytesAt 0 s.hbm pa 4)
  rw [bytesAt_length] at h
  rw [wordAt, BitVec.toNat_ofNat, Nat.mod_eq_of_lt h]

theorem wordAt_congr {s s' : State} (h : s'.hbm = s.hbm) (pa : Nat) : wordAt s' pa = wordAt s pa := by
  rw [wordAt, h, wordAt]

theorem atomBytes_fp32 (s : State) (pa : Nat) (val : Word) : atomBytes false (leNat (bytesAt 0 s.hbm pa 4)) val =
    leBytes 4 (fpAdd (wordAt s pa) val).1.toNat := by
  rw [atomBytes, if_neg Bool.false_ne_true, wordAt]

theorem atomAdd_of_translates {v : Via} {loc pa : Nat} {val : Word} {bs : List Byte} {s s0 s1 : State}
    (ht : translate v true loc s = (.ok pa, s0)) (hr : hbmRead pa 4 s0 = (.ok bs, s0))
    (hw : hbmWrite pa (atomBytes false (leNat bs) val) s0 = (.ok (), s1)) :
    atomAdd v false loc val s = (.ok (), s1) := by
  simp only [atomAdd, ht, Bool.false_eq_true, if_false, hr, hw]

theorem atomAdd_ok {s : State} {v : Via} {loc f : Nat} {remote : Bool} (val : Word)
    (hmap : Mapped s v.ctx loc f remote) (hr : v.remote = true → remote = true) (h4 : loc % 4 = 0)
    (hc : LinesClean s (pageAddr f loc) 4) :
    ∃ s1, atomAdd v false loc val s = (.ok (), s1) ∧
      WritesTo f (pageAddr f loc) (leBytes 4 (fpAdd (wordAt s (pageAddr f loc)) val).1.toNat) s s1 := by
  obtain ⟨e, hm, rfl, hrmt⟩ := mapped_iff.mp hmap
  have ht := hm.translates rfl (fun h => hrmt (hr h)) true
  have h4' : pageAddr e.frame loc % 4 = 0 := by
    unfold pageAddr frameBytes
    omega
  have hread : hbmRead (pageAddr e.frame loc) 4 (cachePut v.cache e s) = _ := hbmRead_clean hc
  obtain ⟨s1, hs1, ho⟩ := hbmWrite_ok (s := cachePut v.cache e s) (pa := pageAddr e.frame loc)
    (bs := leBytes 4 (fpAdd (wordAt s (pageAddr e.frame loc)) val).1.toNat) (by rw [leBytes_length]; decide)
    (.inr ⟨by rw [leBytes_length]; omega, by rw [leBytes_length]; decide, hc _ (Nat.le_refl _) (by omega)⟩)
  refine ⟨s1, ?_, ho.writesTo v.cache hm (by rw [leBytes_length]; unfold frameBytes; omega)⟩
  have hw : wordAt (cachePut v.cache e s) (pageAddr e.frame loc) = wordAt s (pageAddr e.frame loc) := wordAt_congr rfl _
  rw [← hw, ← atomBytes_fp32] at hs1
  exact atomAdd_of_translates ht hread hs1

/-! ### A descriptor's work (05 R222, R228) -/

theorem wFor_goes {f : Nat → State → WEnd × State} {P : Nat → State → Prop} {n : Nat} {s : State} (h0 : P 0 s)
    (hstep : ∀ k s1, k < n → P k s1 → ∃ s2, f k s1 = (.go, s2) ∧ P (k + 1) s2) :
    ∃ s', wFor f 0 n s = (.go, s') ∧ P n s' := by
  suffices H : ∀ m i s1, i + m = n → P i s1 → ∃ s', wFor f i m s1 = (.go, s') ∧ P n s' from H n 0 s (Nat.zero_add n) h0
  intro m
  induction m with
  | zero => exact fun i s1 hi hP => ⟨s1, rfl, hi ▸ hP⟩
  | succ m ih =>
    intro i s1 hi hP
    obtain ⟨s2, hs2, hP2⟩ := hstep i s1 (by omega) hP
    obtain ⟨s', hs', hP'⟩ := ih (i + 1) s2 (by omega) hP2
    exact ⟨s', by simp only [wFor, hs2, hs'], hP'⟩

/-- Descriptor i of table l has ended with a code and an address. -/
def endedWith (l : List WeirJob) (i : Nat) (j : WeirJob) (code addr : Nat) : List WeirJob :=
  listSet l i { j with code := some code, fadr := addr }

theorem weirEnds_ok {s : State} {i : Nat} {j : WeirJob} (hj : s.weir[i]? = some j) :
    weirEnds i wcOk 0 s = { s with weir := endedWith s.weir i j 0 0 } := by
  simp only [weirEnds, hj, if_true]
  rfl

theorem weirReads_running {s : State} {j : WeirJob} (hc : j.code = none) (ha : (s.ctx j.ctx).abort = none) :
    (j.code.isSome || weirStopped s j) = false := by
  rw [hc, weirStopped, ha]
  rfl

/-- A descriptor whose work goes on to its end is performed: it ends with code OK. -/
theorem weirPerform_go {D : Nat} {s : State} {i : Nat} {j : WeirJob} {f : Nat} {d : WDesc} (h : WeirReady s i j f d)
    (hD : (s.frame D).st = .owned) : ∃ s1, ReadsTo D j.ctx j.addr f 64 (bytesAt 0 s.hbm (pageAddr f j.addr) 64) s s1 ∧
      ∀ s2, weirRun j.ctx d s1 = (.go, s2) → s2.weir = s.weir →
        weirPerform d.op i s = { s2 with weir := endedWith s.weir i j 0 0 } := by
  obtain ⟨hj, hc, ha, hrun, hp, hm, hl, hd, hok⟩ := h
  obtain ⟨s1, hr⟩ := Readable.reads (D := D) ⟨hm, hp, hl⟩ (by decide) hD
  refine ⟨s1, hr, fun s2 h2 hweir => ?_⟩
  have hn : ¬ d.op ≠ d.op := fun h => h rfl
  simp only [weirPerform, hj, weirReads_running hc ha, Bool.false_eq_true, if_false, hr.run hrun, hd, hok,
    Bool.not_true, if_neg hn, h2]
  rw [weirEnds_ok (hweir ▸ hj), hweir]

section WeirRun
variable {c : Nat} {d : WDesc} {s : State}

theorem weirRun_gather (h : d.op = 0) : weirRun c d s = weirGather c d s := by
  by_cases h0 : d.count = 0
  · simp [weirRun, weirGather, h0, wFor]
  · simp [weirRun, h, h0]

theorem weirRun_segsum (h : d.op = 1) (h0 : d.count ≠ 0) : weirRun c d s = weirSegsum c d s := by
  by_cases hg : d.nseg = 0
  · simp [weirRun, weirSegsum, h, hg, wFor]
  · simp [weirRun, h, h0, hg]

theorem weirRun_atoms (h : d.op = 2) : weirRun c d s = weirAtoms c d s := by
  by_cases h0 : d.count = 0
  · simp [weirRun, weirAtoms, h0, wFor]
  · simp [weirRun, h, h0]

theorem weirRun_fill (h : d.op = 3) : weirRun c d s = weirFill c d s := by
  by_cases h0 : d.count = 0
  · simp [weirRun, weirFill, h0, wFor]
  · simp [weirRun, h, h0]

end WeirRun

theorem weirWrote_of_worked {D pa n : Nat} {s s2 : State} {i : Nat} {j : WeirJob} (hw : Worked D s s2)
    (hout : ∀ a, a < pa ∨ pa + n ≤ a → Tbl.look 0#8 a s2.hbm = Tbl.look 0#8 a s.hbm) :
    WeirWrote s { s2 with weir := endedWith s.weir i j 0 0 } i j pa n :=
  ⟨rfl, hw.tiles, hw.frames, hout⟩

theorem row_le {n r : Nat} (w : Nat) (hr : r < n) : r * w + w ≤ n * w :=
  Nat.succ_mul r w ▸ Nat.mul_le_mul_right w hr

/-- The first k rows, of w bytes each, have been written at pa in frame D; the rest of memory is as in s. -/
structure RowsWritten (D pa w : Nat) (row : Nat → List Byte) (k : Nat) (s s1 : State) : Prop where
  worked : Worked D s s1
  inside : ∀ r b, r < k → b < w → Tbl.look 0#8 (pa + r * w + b) s1.hbm = (row r).getD b 0
  outside : ∀ a, a < pa ∨ pa + k * w ≤ a → Tbl.look 0#8 a s1.hbm = Tbl.look 0#8 a s.hbm

section Rows
variable {D pa w k : Nat} {row : Nat → List Byte} {s s1 s2 : State}

theorem RowsWritten.start (hw : Worked D s s1) (hhbm : s1.hbm = s.hbm) : RowsWritten D pa w row 0 s s1 :=
  ⟨hw, fun r _ hr => absurd hr (Nat.not_lt_zero r), fun a _ => by rw [hhbm]⟩

/-- Reading and counting write no row. -/
theorem RowsWritten.worked_on (h : RowsWritten D pa w row k s s1) (hw : Worked D s1 s2) (hhbm : s2.hbm = s1.hbm) :
    RowsWritten D pa w row k s s2 :=
  ⟨h.worked.trans hw, fun r b hr hb => by rw [hhbm]; exact h.inside r b hr hb,
    fun a ha => by rw [hhbm]; exact h.outside a ha⟩

theorem RowsWritten.next (h : RowsWritten D pa w row k s s1) (hl : (row k).length = w)
    (hw : WritesTo D (pa + k * w) (row k) s1 s2) : RowsWritten D pa w row (k + 1) s s2 := by
  refine ⟨h.worked.trans hw.worked, fun r b hr hb => ?_, fun a ha => ?_⟩
  · rw [hw.look, hl]
    obtain rfl | hlt := Nat.eq_or_lt_of_le (Nat.le_of_lt_succ hr)
    · rw [if_pos (by omega), Nat.add_sub_cancel_left]
    · have hle : r * w + w ≤ k * w := Nat.succ_mul r w ▸ Nat.mul_le_mul_right w hlt
      rw [if_neg (by omega)]
      exact h.inside r b hlt hb
  · rw [Nat.succ_mul] at ha
    rw [hw.look, hl, if_neg (by omega)]
    exact h.outside a (by omega)

end Rows

/-- The engine writes row r, of w bytes in whole lines, of its destination. -/
theorem wWrite_row {s : State} {c loc f n w r : Nat} {bs : List Byte} (hrun : ∀ k, (s.part k).reset = none)
    (hmap : Mapped s c loc f false) (hp : loc % frameBytes + n * w ≤ frameBytes) (hr : r < n) (ha : loc % 64 = 0)
    (hw : w % 64 = 0) (h0 : 0 < w) (hl : bs.length = w) :
    ∃ s1, wWrite c (loc + r * w) bs s = (.go, s1) ∧ WritesTo f (pageAddr f loc + r * w) bs s s1 := by
  have hle := row_le w hr
  have hlt : loc % frameBytes + r * w < frameBytes := by omega
  have hmod : r * w % 64 = 0 := Nat.mod_eq_zero_of_dvd ((Nat.dvd_of_mod_eq_zero hw).mul_left r)
  have ha' : pageAddr f (loc + r * w) % 64 = 0 := by
    rw [pageAddr_add hlt]
    unfold pageAddr frameBytes
    omega
  rw [← pageAddr_add hlt]
  refine wWrite_ok hrun (hmap.add hlt) ?_ (by omega) (.inl ⟨ha', by omega⟩)
  unfold frameBytes at hp hlt ⊢
  omega

/-! ### FILL (05 R222) -/

theorem weirOk_fill {d : WDesc} (h : weirOk d = true) (hop : d.op = 3) : d.dst % 64 = 0 := by
  simp only [weirOk, hop, Bool.and_eq_true, decide_eq_true_eq] at h
  tauto

/-- The unit that FILL writes. -/
def fillUnit (d : WDesc) : List Byte := (List.replicate 16 (leBytes 4 d.pattern)).flatten

theorem fillUnit_length (d : WDesc) : (fillUnit d).length = 64 := by simp [fillUnit]

theorem flatten_replicate_getD (l : List Byte) {n b : Nat} (hb : b < n * l.length) :
    (List.replicate n l).flatten.getD b 0 = l.getD (b % l.length) 0 := by
  induction n generalizing b with
  | zero => omega
  | succ n ih =>
    rw [List.replicate_succ, List.flatten_cons]
    by_cases h : b < l.length
    · rw [List.getD_append _ _ _ _ h, Nat.mod_eq_of_lt h]
    · rw [Nat.succ_mul] at hb
      rw [List.getD_append_right _ _ _ _ (by omega), ih (by omega), ← Nat.mod_eq_sub_mod (by omega)]

theorem fillUnit_getD (d : WDesc) {b : Nat} (hb : b < 64) :
    (fillUnit d).getD b 0 = BitVec.ofNat 8 (d.pattern / 2 ^ (8 * (b % 4))) := by
  have hlen : (leBytes 4 d.pattern).length = 4 := leBytes_length ..
  rw [fillUnit, flatten_replicate_getD _ (by rw [hlen]; exact hb), hlen, leBytes_getD _ _ (Nat.mod_lt b (by decide))]

theorem weirFill_ok {s s1 : State} {c fd : Nat} {d : WDesc} (hrun : ∀ k, (s.part k).reset = none)
    (hmap : Mapped s c d.dst fd false) (hp : d.dst % frameBytes + d.count * 64 ≤ frameBytes) (ha : d.dst % 64 = 0)
    (h1 : Worked fd s s1) (hhbm : s1.hbm = s.hbm) :
    ∃ s2, weirFill c d s1 = (.go, s2) ∧
      RowsWritten fd (pageAddr fd d.dst) 64 (fun _ => fillUnit d) d.count s s2 := by
  refine wFor_goes (P := fun k => RowsWritten fd (pageAddr fd d.dst) 64 (fun _ => fillUnit d) k s) (.start h1 hhbm)
    fun k s1 hk hrows => ?_
  have hm := hrows.worked.mapped hmap
  obtain ⟨s2, hs2, hw⟩ := wWrite_row (hrows.worked.running hrun) hm hp hk ha rfl (by decide) (fillUnit_length d)
  rw [Nat.mul_comm k 64] at hs2
  exact ⟨s2, hs2, hrows.next (fillUnit_length d) hw⟩

/-! ### GATHER (05 R222, R230) -/

theorem rowOk_whole_lines {n : Nat} (h : rowOk n = true) : n % 64 = 0 ∧ 64 ≤ n := by
  simp only [rowOk, List.contains_eq_mem, decide_eq_true_eq] at h
  fin_cases h <;> decide

theorem weirOk_gather {d : WDesc} (h : weirOk d = true) (hop : d.op = 0) :
    d.dst % 64 = 0 ∧ d.rowBytes % 64 = 0 ∧ 64 ≤ d.rowBytes := by
  simp only [weirOk, hop, Bool.and_eq_true, decide_eq_true_eq] at h
  obtain ⟨-, ⟨⟨⟨⟨⟨⟨⟨-, hrow⟩, -⟩, -⟩, hdst⟩, -⟩, -⟩, -⟩⟩ := h
  exact ⟨hdst, rowOk_whole_lines hrow⟩

/-- Two pages that map to different frames are different pages. -/
theorem gatherOverlaps_false {s : State} {c fd fx ft : Nat} {d : WDesc}
    (hd : Mapped s c d.dst fd false) (hpd : d.dst % frameBytes + d.count * d.rowBytes ≤ frameBytes)
    (hx : Mapped s c d.idx fx false) (hpx : d.idx % frameBytes + 4 * d.count ≤ frameBytes)
    (ht : Mapped s c d.table ft false) (hpt : d.table % frameBytes + d.nrows * d.rowBytes ≤ frameBytes)
    (hfx : fd ≠ fx) (hft : fd ≠ ft) : gatherOverlaps d = false := by
  have hpx' : d.dst / frameBytes ≠ d.idx / frameBytes := fun e => hfx (hd.frame_eq hx e)
  have hpt' : d.dst / frameBytes ≠ d.table / frameBytes := fun e => hft (hd.frame_eq ht e)
  simp only [gatherOverlaps, Bool.or_eq_false_iff, Bool.and_eq_false_iff, decide_eq_false_iff_not, Nat.not_lt]
  generalize d.count * d.rowBytes = n at *
  generalize d.nrows * d.rowBytes = m at *
  unfold frameBytes at *
  omega

theorem forUp_const_succ {σ : Type} (g : σ → σ) (k n : Nat) (x : σ) :
    forUp (fun _ => g) k (n + 1) x = g (forUp (fun _ => g) k n x) := by
  induction n generalizing k x with
  | zero => rfl
  | succ n ih => exact ih (k + 1) (g x)

/-- The out-of-range counter at v after those of the first k records that p picks. -/
def oorAfter (p : Nat → Bool) (k v : Nat) : Nat :=
  forUp (fun _ n => satAdd 48 n 1) 0 ((List.range k).filter p).length v

theorem oorAfter_succ (p : Nat → Bool) (k v : Nat) :
    oorAfter p (k + 1) v = if p k then satAdd 48 (oorAfter p k v) 1 else oorAfter p k v := by
  unfold oorAfter
  rw [List.range_succ, List.filter_append, List.length_append]
  by_cases h : p k
  · rw [if_pos h, List.filter_cons_of_pos h]
    exact forUp_const_succ ..
  · rw [if_neg h, List.filter_cons_of_neg h]
    rfl

section Gather
variable {s s1 : State} {c fd fx ft : Nat} {d : WDesc}

theorem gatherSource_apart (hno : gatherOverlaps d = false) (s0 : State) (loc : Nat) (bs : List Byte) :
    gatherSource c d s0 loc bs = bs := by
  rw [gatherSource, hno, if_neg Bool.false_ne_true]

theorem gatherWrite_apart (hno : gatherOverlaps d = false) (i : Nat) (bs : List Byte) :
    gatherWrite c d i bs s = wWrite c (d.dst + i * d.rowBytes) bs s := by
  simp only [gatherWrite, gatherBytes, hno, Bool.false_eq_true, if_false]

/-- Number r of the IDX list. -/
def idxAt (s : State) (fx : Nat) (d : WDesc) (r : Nat) : Nat := (wordAt s (pageAddr fx d.idx + 4 * r)).toNat

/-- Row r that GATHER writes. -/
def gatherRow (s : State) (fx ft : Nat) (d : WDesc) (r : Nat) : List Byte :=
  if idxAt s fx d r < d.nrows
  then bytesAt 0 s.hbm (pageAddr ft d.table + idxAt s fx d r * d.rowBytes) d.rowBytes
  else List.replicate d.rowBytes 0

theorem gatherRow_length (r : Nat) : (gatherRow s fx ft d r).length = d.rowBytes := by
  unfold gatherRow
  split
  · exact bytesAt_length ..
  · exact List.length_replicate

theorem gatherRow_getD (r : Nat) {b : Nat} (hb : b < d.rowBytes) : (gatherRow s fx ft d r).getD b 0 =
    if idxAt s fx d r < d.nrows
    then Tbl.look 0#8 (pageAddr ft d.table + idxAt s fx d r * d.rowBytes + b) s.hbm else 0 := by
  unfold gatherRow
  split
  · exact bytesAt_getD _ _ _ hb
  · rw [List.getD_eq_getElem _ _ (by simpa using hb), List.getElem_replicate]

/-- A GATHER begun in s has written its first k rows, and counted what is out of range among them. -/
structure Gathered (c fd fx ft : Nat) (d : WDesc) (k : Nat) (s s1 : State) : Prop where
  rows : RowsWritten fd (pageAddr fd d.dst) d.rowBytes (gatherRow s fx ft d) k s s1
  oor : (s1.ctx c).oor = oorAfter (fun r => decide (d.nrows ≤ idxAt s fx d r)) k (s.ctx c).oor

theorem ctx_congr {s s1 : State} (h : s1.ctxs = s.ctxs) (c : Nat) : s1.ctx c = s.ctx c := by
  rw [State.ctx, h, State.ctx]

/-- Where a GATHER's ranges lie: each in one page, the destination in a frame of its own and in whole lines. -/
structure GatherFits (s : State) (c fd fx ft : Nat) (d : WDesc) : Prop where
  running : ∀ k, (s.part k).reset = none
  dst : Mapped s c d.dst fd false
  fits : d.dst % frameBytes + d.count * d.rowBytes ≤ frameBytes
  idx : Readable s c d.idx fx (4 * d.count)
  table : Readable s c d.table ft (d.nrows * d.rowBytes)
  apartIdx : fd ≠ fx
  apartTable : fd ≠ ft
  aligned : d.dst % 64 = 0
  lines : d.rowBytes % 64 = 0
  pos : 64 ≤ d.rowBytes

variable (h : GatherFits s c fd fx ft d)
include h

theorem GatherFits.apart : gatherOverlaps d = false :=
  gatherOverlaps_false h.dst h.fits h.idx.mapped h.idx.fits h.table.mapped h.table.fits h.apartIdx h.apartTable

/-- Row k is written once what it holds has been read or counted, which takes s1 to s2. -/
theorem GatherFits.writes {k : Nat} {s2 : State} (hk : k < d.count) (hg : Gathered c fd fx ft d k s s1)
    (hw : Worked fd s1 s2) (hhbm : s2.hbm = s1.hbm)
    (hoor : (s2.ctx c).oor = oorAfter (fun r => decide (d.nrows ≤ idxAt s fx d r)) (k + 1) (s.ctx c).oor) :
    ∃ s3, gatherWrite c d k (gatherRow s fx ft d k) s2 = (.go, s3) ∧ Gathered c fd fx ft d (k + 1) s s3 := by
  have hpos := h.pos
  have hws := hg.rows.worked.trans hw
  rw [gatherWrite_apart h.apart]
  obtain ⟨s3, hs3, hw3⟩ := wWrite_row (hws.running h.running) (hws.mapped h.dst) h.fits hk h.aligned h.lines (by omega)
    (gatherRow_length k)
  exact ⟨s3, hs3, (hg.rows.worked_on hw hhbm).next (gatherRow_length k) hw3, by rw [ctx_congr hw3.ctxs, hoor]⟩

theorem GatherFits.step {k : Nat} (hk : k < d.count) (s0 : State) (hg : Gathered c fd fx ft d k s s1) :
    ∃ s2, wRead c (d.idx + 4 * k) 4 (fun ib s =>
        let x := leNat (gatherSource c d s0 (d.idx + 4 * k) ib)
        if d.nrows ≤ x then gatherWrite c d k (List.replicate d.rowBytes 0) (countOor c s)
        else wRead c (d.table + x * d.rowBytes) d.rowBytes (fun bs s =>
          gatherWrite c d k (gatherSource c d s0 (d.table + x * d.rowBytes) bs) s) s) s1 = (.go, s2) ∧
      Gathered c fd fx ft d (k + 1) s s2 := by
  have hw := hg.rows.worked
  have hpos := h.pos
  obtain ⟨sa, ha⟩ := h.idx.reads_at (o := 4 * k) (m := 4) hw h.dst.owned h.apartIdx (by omega) (by decide)
  have hwa := hw.trans ha.worked
  have hx : leNat (bytesAt 0 s.hbm (pageAddr fx d.idx + 4 * k) 4) = idxAt s fx d k := (wordAt_toNat ..).symm
  have hoor : (sa.ctx c).oor = _ := (congrArg Ctx.oor (ctx_congr ha.ctxs c)).trans hg.oor
  rw [ha.run (hw.running h.running), gatherSource_apart h.apart, hx]
  by_cases hlt : idxAt s fx d k < d.nrows
  · have hrow : gatherRow s fx ft d k =
        bytesAt 0 s.hbm (pageAddr ft d.table + idxAt s fx d k * d.rowBytes) d.rowBytes := if_pos hlt
    obtain ⟨sb, hb⟩ := h.table.reads_at hwa h.dst.owned h.apartTable (row_le d.rowBytes hlt) (by omega)
    dsimp only
    rw [if_neg (Nat.not_le_of_lt hlt), hb.run (hwa.running h.running), gatherSource_apart h.apart, ← hrow]
    refine h.writes hk hg (ha.worked.trans hb.worked) (hb.hbm.trans ha.hbm) ?_
    rw [ctx_congr hb.ctxs, hoor, oorAfter_succ, if_neg (by simpa using hlt)]
  · have hrow : gatherRow s fx ft d k = List.replicate d.rowBytes 0 := if_neg hlt
    dsimp only
    rw [if_pos (Nat.le_of_not_lt hlt), ← hrow]
    refine h.writes hk hg (ha.worked.trans (countOor_worked c (hwa.mapped h.dst).owned)) ha.hbm ?_
    rw [countOor_oor, hoor, oorAfter_succ, if_pos (by simpa using hlt)]

theorem GatherFits.goes (h1 : Worked fd s s1) (hhbm : s1.hbm = s.hbm) (hctx : s1.ctxs = s.ctxs) :
    ∃ s2, weirGather c d s1 = (.go, s2) ∧ Gathered c fd fx ft d d.count s s2 :=
  wFor_goes (P := fun k => Gathered c fd fx ft d k s) ⟨.start h1 hhbm, congrArg Ctx.oor (ctx_congr hctx c)⟩
    fun _ _ hk hg => h.step hk s1 hg

end Gather

/-! ### A descriptor that breaks a condition (05 R221, R228, 06 R255) -/

/-- What a Weir engine's fault shows: the descriptors, memory and WEIR_FAULT_LOG. -/
structure WeirView where
  weir : List WeirJob
  hbm : Tbl Byte
  wfCtx : Nat
  wfCode : Nat
  wfAddr : Nat

def State.weirView (s : State) : WeirView :=
  { weir := s.weir, hbm := s.hbm, wfCtx := s.wfCtx, wfCode := s.wfCode, wfAddr := s.wfAddr }

theorem forList_keeps {α β : Type} {v : State → β} {f : α → State → State} (hf : ∀ a s, v (f a s) = v s) (l : List α)
    (s : State) : v (forList f l s) = v s := by
  induction l generalizing s with
  | nil => rfl
  | cons a l ih => exact (ih _).trans (hf a s)

theorem forUp_keeps {β : Type} {v : State → β} {f : Nat → State → State} (hf : ∀ i s, v (f i s) = v s) (k n : Nat)
    (s : State) : v (forUp f k n s) = v s := by
  induction n generalizing k s with
  | zero => rfl
  | succ n ih => exact (ih _ _).trans (hf k s)

theorem raise_weirView (c u d : Nat) (s : State) : (raise c u d s).weirView = s.weirView := by
  simp only [State.weirView, raise_weir, raise_hbm, raise_wfCtx, raise_wfCode, raise_wfAddr]

theorem gateCrew_weirView (g : Nat) (s : State) : (gateCrew g s).weirView = s.weirView := by
  unfold gateCrew
  refine forList_keeps (v := State.weirView) (fun t s => ?_) ..
  rfl

theorem releasePower_weirView (p n : Nat) (s : State) : (releasePower p n s).weirView = s.weirView := rfl

theorem modCrew_weirView (g : Nat) (f : Crew → Crew) (s : State) : (s.modCrew g f).weirView = s.weirView := rfl

theorem endPair_weirView (c : Nat) (p : Pair) (s : State) : (endPair c p s).weirView = s.weirView := by
  unfold endPair
  show (forList _ _ s).weirView = _
  refine forList_keeps (v := State.weirView) (fun g s => ?_) ..
  rw [releasePower_weirView, modCrew_weirView, gateCrew_weirView]

theorem voidPair_weirView (c : Nat) (s : State) : (voidPair c s).weirView = s.weirView := by
  unfold voidPair
  split
  · rfl
  · split
    · rfl
    · exact endPair_weirView c _ s

theorem easyAllOriginate_keeps (job : BitVec 32) (cause : Nat) (origin : BitVec 64) (s : State) :
    (easyAllOriginate job cause origin s).weirView = s.weirView ∧
    (easyAllOriginate job cause origin s).tiles = s.tiles := by
  have hflit (n : Nat) (q : Packet) (s : State) :
      (sendFlit n q s).weirView = s.weirView ∧ (sendFlit n q s).tiles = s.tiles := by
    simp only [sendFlit]
    split <;> exact ⟨rfl, rfl⟩
  unfold easyAllOriginate flood
  rw [raise_weirView, raise_tiles]
  constructor
  · refine forUp_keeps (v := State.weirView) (fun n s => ?_) ..
    split
    · exact (hflit ..).1
    · rfl
  · refine forUp_keeps (v := State.tiles) (fun n s => ?_) ..
    split
    · exact (hflit ..).2
    · rfl

/-- The launch x without its pair check, ending as decided at a count. -/
def Exec.endedBy (x : Exec) (status detail : Nat) (now : BitVec 64) : Exec :=
  { x with pair := none, ending := some { status := status, csDetail := BitVec.ofNat 32 detail, at_ := now } }

/-- A launch that has begun and has no ending takes the one given, and its context's abort begins. -/
theorem decideEnd_of_began {c status detail : Nat} {o : BitVec 64} {s : State} {x : Exec}
    (hx : (s.ctx c).exec = some x) (he : x.ending = none) (hb : x.began = true) :
    (decideEnd c status detail o s).weirView = s.weirView ∧
    ((decideEnd c status detail o s).ctx c).exec = some (x.endedBy status detail s.now) ∧
    (x.pair = none → (decideEnd c status detail o s).tiles = s.tiles) := by
  have hy : ¬ evictYields s x status = true := by rw [evictYields, he]; exact Bool.false_ne_true
  have hn : ¬ x.ending.isSome = true := by rw [he]; exact Bool.false_ne_true
  unfold decideEnd
  split
  · rename_i hx'
    rw [hx] at hx'
    contradiction
  rename_i x' hx'
  obtain rfl : x = x' := Option.some.inj (hx.symm.trans hx')
  extract_lets e k s2 s3 stops s4 s5
  rw [if_neg hy, if_neg hn, if_pos (by rw [hb, Bool.or_true])]
  have ex3 : (s3.ctx c).exec = some (x.endedBy status detail s.now) :=
    (modExec_exec c _ s2).trans (by rw [(voidPair_ctx hx).2]; rfl)
  obtain ⟨v4, t4, ex4⟩ : s4.weirView = s3.weirView ∧ s4.tiles = s3.tiles ∧ (s4.ctx c).exec = (s3.ctx c).exec := by
    unfold s4
    split
    · exact ⟨rfl, rfl, by rw [State.modCtx_eq, State.setCtx_ctx_same]⟩
    · exact ⟨rfl, rfl, rfl⟩
  obtain ⟨v5, t5, ex5⟩ : s5.weirView = s4.weirView ∧ s5.tiles = s4.tiles ∧ (s5.ctx c).exec = (s4.ctx c).exec := by
    unfold s5
    split
    · obtain ⟨hv, ht⟩ := easyAllOriginate_keeps k.jobid status o s4
      exact ⟨hv, ht, by rw [(easyAllOriginate_quiet k.jobid status o s4).ctx c]⟩
    · exact ⟨rfl, rfl, rfl⟩
  obtain ⟨v6, t6⟩ : (contextAbort c s5).weirView = s5.weirView ∧ (contextAbort c s5).tiles = s5.tiles := by
    simp only [contextAbort]
    split <;> exact ⟨rfl, rfl⟩
  refine ⟨?_, by rw [contextAbort_exec, ex5, ex4, ex3], fun hp => ?_⟩
  · rw [v6, v5, v4]
    exact voidPair_weirView c s
  · rw [t6, t5, t4]
    show (voidPair c s).tiles = s.tiles
    rw [voidPair_of_unpaired hx hp]

/-- WEIR_FAULT_LOG after a fault. -/
def State.weirFaulted (s : State) (i : Nat) (j : WeirJob) (code addr : Nat) : State :=
  { s with weir := endedWith s.weir i j code addr, wfCtx := j.ctx, wfCode := code, wfAddr := addr }

theorem weirEnds_fault {s : State} {i code addr : Nat} {j : WeirJob} {x : Exec} (hj : s.weir[i]? = some j)
    (hc : code ≠ wcOk) (hx : (s.ctx j.ctx).exec = some x) (hid : x.launch.id = j.launch) :
    weirEnds i code addr s = decideEnd j.ctx stWeirFault (csDetail j.cmdIx (weirReason code) 0)
      (raise 0x2004 j.ctx code (s.weirFaulted i j code addr)).now
      (raise 0x2004 j.ctx code (s.weirFaulted i j code addr)) := by
  have hx' : ((raise 0x2004 j.ctx code (s.weirFaulted i j code addr)).ctx j.ctx).exec = some x := by
    rw [raise_ctx_at]
    exact hx
  unfold State.weirFaulted endedWith at *
  simp only [weirEnds, hj, if_neg hc]
  rw [hx']
  dsimp only
  rw [if_pos hid]

section BadDescriptor
variable {s : State} {i f : Nat} {j : WeirJob} (op : Nat) (hj : s.weir[i]? = some j) (hc : j.code = none)
  (ha : (s.ctx j.ctx).abort = none) (hrun : ∀ k, (s.part k).reset = none) (hread : Readable s j.ctx j.addr f 64)
  (hbad : weirOk (parseWeir (bytesAt 0 s.hbm (pageAddr f j.addr) 64)) = false)
include hj hc ha hrun hread hbad

theorem weirPerform_bad : ∃ s1, ReadsTo f j.ctx j.addr f 64 (bytesAt 0 s.hbm (pageAddr f j.addr) 64) s s1 ∧
      weirPerform op i s = weirEnds i wcDesc 0 s1 := by
  obtain ⟨s1, hr⟩ := hread.reads (by decide) hread.mapped.owned
  refine ⟨s1, hr, ?_⟩
  simp only [weirPerform, hj, weirReads_running hc ha, Bool.false_eq_true, if_false, hr.run hrun, hbad, Bool.not_false,
    if_true]

/-- The launch of a bad descriptor ends with WEIR_FAULT, and nothing has been written. -/
theorem weirPerform_bad_spec {x : Exec} (hx : (s.ctx j.ctx).exec = some x) (hid : x.launch.id = j.launch) (he : x.ending = none)
    (hb : x.began = true) :
    (weirPerform op i s).weirView = (s.weirFaulted i j 1 0).weirView ∧
    ((weirPerform op i s).ctx j.ctx).exec = some (x.endedBy 0x11 (j.cmdIx % 256 + 0x0A00) s.now) ∧
    (x.pair = none → (weirPerform op i s).tiles = s.tiles) := by
  obtain ⟨s1, hr, hs1⟩ := weirPerform_bad op hj hc ha hrun hread hbad
  have hx1 : (s1.ctx j.ctx).exec = some x := by rw [ctx_congr hr.ctxs, hx]
  have hj1 : s1.weir[i]? = some j := by rw [hr.worked.weir, hj]
  rw [hs1, weirEnds_fault hj1 (by decide) hx1 hid]
  obtain ⟨hv, hex, ht⟩ := decideEnd_of_began (c := j.ctx) (status := stWeirFault)
    (detail := csDetail j.cmdIx (weirReason wcDesc) 0)
    (o := (raise 0x2004 j.ctx wcDesc (s1.weirFaulted i j wcDesc 0)).now)
    (s := raise 0x2004 j.ctx wcDesc (s1.weirFaulted i j wcDesc 0)) (by rw [raise_ctx_at]; exact hx1) he hb
  refine ⟨?_, ?_, fun hp => ?_⟩
  · rw [hv, raise_weirView]
    simp only [State.weirView, State.weirFaulted, hr.worked.weir, hr.hbm]
    rfl
  · have hnow : s1.now = s.now := by rw [hr.worked.keeps]; rfl
    rw [hex, raise_now]
    exact congrArg (fun n => some (x.endedBy _ _ n)) hnow
  · rw [ht hp, raise_tiles]
    exact hr.worked.tiles

end BadDescriptor

theorem WeirReady.running {s : State} {i : Nat} {j : WeirJob} {f : Nat} {d : WDesc} (h : WeirReady s i j f d) :
    ∀ k, (s.part k).reset = none := by
  obtain ⟨-, -, -, hrun, -⟩ := h
  exact hrun

theorem WeirReady.ok {s : State} {i : Nat} {j : WeirJob} {f : Nat} {d : WDesc} (h : WeirReady s i j f d) :
    weirOk d = true := by
  obtain ⟨-, -, -, -, -, -, -, -, hok⟩ := h
  exact hok

/-! ### FILL, GATHER and the bad descriptor -/

/-- Settles O28: row after row is written from what memory held when the descriptor began, for no row lies where the engine
reads; a bad descriptor is found before anything is written. -/
theorem fillAndGatherResults : Obligations.FillAndGatherResults := by
  unfold Obligations.FillAndGatherResults
  refine ⟨?fill, ?gather, ?bad⟩
  case fill =>
    intro s i j f fd d hready hop hmap hfit
    obtain ⟨s1, hr, hdone⟩ := weirPerform_go hready hmap.owned
    obtain ⟨s2, hs2, hrows⟩ := weirFill_ok hready.running hmap (by omega) (weirOk_fill hready.ok hop) hr.worked hr.hbm
    rw [hop] at hdone
    refine ⟨_, congrArg Host.Outcome.next (hdone s2 ((weirRun_fill hop).trans hs2) hrows.worked.weir), ?_,
      fun b hb => ?_⟩
    · exact weirWrote_of_worked hrows.worked (Nat.mul_comm 64 d.count ▸ hrows.outside)
    · have hin := hrows.inside (b / 64) (b % 64) (by omega) (Nat.mod_lt b (by decide))
      rw [fillUnit_getD d (Nat.mod_lt b (by decide)), Nat.mod_mod_of_dvd b (by decide : 4 ∣ 64), Nat.add_assoc,
        Nat.div_add_mod'] at hin
      exact hin
  case gather =>
    intro s i j f fd fx ft d hready hop hmap hfit hidx hpi htab hpt hfx hft hci hct x
    obtain ⟨ha, hlines, hpos⟩ := weirOk_gather hready.ok hop
    have hfits : GatherFits s j.ctx fd fx ft d :=
      ⟨hready.running, hmap, hfit, ⟨hidx, hpi, hci⟩, ⟨htab, hpt, hct⟩, hfx, hft, ha, hlines, hpos⟩
    obtain ⟨s1, hr, hdone⟩ := weirPerform_go hready hmap.owned
    obtain ⟨s2, hs2, hrows, hoor⟩ := hfits.goes hr.worked hr.hbm hr.ctxs
    rw [hop] at hdone
    refine ⟨_, congrArg Host.Outcome.next (hdone s2 ((weirRun_gather hop).trans hs2) hrows.worked.weir),
      weirWrote_of_worked hrows.worked hrows.outside, fun r b hr hb => (hrows.inside r b hr hb).trans ?_, hoor⟩
    exact gatherRow_getD r hb
  case bad =>
    intro s i j f hj hc ha hrun hp hm hl hbad x hx hid he hb c hmem
    have hexec : ∃ op, exec c s = .next (weirPerform op i s) := by
      simp only [List.mem_cons, List.not_mem_nil, or_false] at hmem
      obtain rfl | rfl | rfl | rfl := hmem
      exacts [⟨0, rfl⟩, ⟨1, rfl⟩, ⟨2, rfl⟩, ⟨3, rfl⟩]
    obtain ⟨op, hexec⟩ := hexec
    obtain ⟨hv, hex, ht⟩ := weirPerform_bad_spec op hj hc ha hrun ⟨hm, hp, hl⟩ hbad hx hid he hb
    obtain ⟨hweir, hhbm, hctx, hcode, haddr⟩ := WeirView.mk.inj hv
    exact ⟨_, _, hexec, hweir, hhbm, hctx, hcode, haddr, hex, rfl, ht⟩

/-! ### Single atomic adds (05 R223, R233, 07 R298) -/

theorem routerPut_leaves (q : Packet) (s : State) : routerPut q s = { s with fab := (routerPut q s).fab } := by
  unfold routerPut
  split <;> rfl

theorem routerPut_queue {q : Packet} {s : State} (h : q.dest ≠ s.devNo) :
    ∃ z, (routerPut q s).fab.queue = s.fab.queue ++ [z] ∧ z.pkt = q := by
  rw [routerPut, if_neg h]
  exact ⟨_, rfl, rfl⟩

theorem devNo_congr {s s1 : State} (h : s1.fab = s.fab) : s1.devNo = s.devNo := by
  rw [State.devNo, h, State.devNo]

section SingleAtom
variable {s : State} {i : Nat} {a : AtomReq} {f : Nat} (hi : s.atoms[i]? = some a) (hacked : a.acked = false)
  (hrun : ∀ k, (s.part k).reset = none)
include hi hacked hrun

/-- A request without an answer to give is dropped. -/
theorem singleAtom_unasked (ht : a.tile = none) (hq : a.pkt = none) :
    singleAtom i s = { s with atoms := listDrop s.atoms i } := by
  simp only [singleAtom, hi, hacked, pageShut_of_running hrun, Bool.or_self, Bool.false_eq_true, if_false, ht, hq]

variable (hmap : Mapped s a.ctx a.loc f a.tile.isNone) (h4 : a.loc % 4 = 0) (hc : LinesClean s (pageAddr f a.loc) 4)
include hmap h4 hc

theorem singleAtom_of_tile (ht : a.tile.isSome = true) : ∃ s1,
    WritesTo f (pageAddr f a.loc) (leBytes 4 (fpAdd (wordAt s (pageAddr f a.loc)) a.val).1.toNat) s s1 ∧
      singleAtom i s = { s1 with atoms := listSet s.atoms i { a with acked := true } } := by
  obtain ⟨⟨t, pc, launch⟩, ht⟩ := Option.isSome_iff_exists.mp ht
  obtain ⟨s1, hs1, hw⟩ := atomAdd_ok (v := viaTile t a.ctx) a.val hmap (fun h => nomatch h) h4 hc
  refine ⟨s1, hw, ?_⟩
  simp only [singleAtom, hi, hacked, pageShut_of_running hrun, Bool.or_self, Bool.false_eq_true, if_false, ht, hs1,
    hw.worked.atoms]

/-- A packet's request ends here; its acknowledgement goes to the router. -/
theorem singleAtom_of_packet (ht : a.tile = none) {q : Packet} (hq : a.pkt = some q) : ∃ s1,
    WritesTo f (pageAddr f a.loc) (leBytes 4 (fpAdd (wordAt s (pageAddr f a.loc)) a.val).1.toNat) s s1 ∧
      (singleAtom i s).hbm = s1.hbm ∧ (singleAtom i s).atoms = listDrop s.atoms i ∧
      (q.src ≠ s.devNo → ∃ z, (singleAtom i s).fab.queue = s.fab.queue ++ [z] ∧
        z.pkt = replyTo s q .replyAck 0 [] q.loc) := by
  rw [ht] at hmap
  obtain ⟨s1, hs1, hw⟩ := atomAdd_ok (v := { cache := devCache, ctx := a.ctx, remote := true }) a.val hmap (fun _ => rfl)
    h4 hc
  have hdev : State.devNo { s1 with atoms := listDrop s.atoms i } = s.devNo := devNo_congr hw.worked.fab
  have hreply : replyTo { s1 with atoms := listDrop s.atoms i } q .replyAck 0 [] q.loc =
      replyTo s q .replyAck 0 [] q.loc := by
    simp only [replyTo, hdev]
  have hs2 : singleAtom i s =
      routerPut (replyTo s q .replyAck 0 [] q.loc) { s1 with atoms := listDrop s.atoms i } := by
    simp only [singleAtom, hi, hacked, pageShut_of_running hrun, Bool.or_self, Bool.false_eq_true, if_false, ht, hq, hs1,
      hw.worked.atoms, hreply]
  refine ⟨s1, hw, ?_, ?_, fun hsrc => ?_⟩
  · rw [hs2, routerPut_leaves]
  · rw [hs2, routerPut_leaves]
  · obtain ⟨z, hz, hpkt⟩ := routerPut_queue (q := replyTo s q .replyAck 0 [] q.loc)
      (s := { s1 with atoms := listDrop s.atoms i }) (hsrc.trans_eq hdev.symm)
    refine ⟨z, ?_, hpkt⟩
    rw [hs2, hz, hw.worked.fab]

end SingleAtom

/-- Settles O30: the tile's request and the packet's write the same sum and differ in what becomes of the request. -/
theorem singleAtomsAndCompletion : Obligations.SingleAtomsAndCompletion := by
  unfold Obligations.SingleAtomsAndCompletion
  refine ⟨?atom, ?complete⟩
  case atom =>
    intro s i a f hi hacked hrun hmap h4 hc
    have outside {s1 : State} {w : Word} (h : WritesTo f (pageAddr f a.loc) (leBytes 4 w.toNat) s s1) (b : Nat)
        (hb : b < pageAddr f a.loc ∨ pageAddr f a.loc + 4 ≤ b) : Tbl.look 0#8 b s1.hbm = Tbl.look 0#8 b s.hbm := by
      rw [h.look, leBytes_length, if_neg (by omega)]
    by_cases ht : a.tile = none
    · have hsome : ¬ a.tile.isSome = true := by rw [ht]; exact Bool.false_ne_true
      obtain hq | ⟨q, hq⟩ := Option.eq_none_or_eq_some a.pkt
      · exact ⟨_, congrArg Host.Outcome.next (singleAtom_unasked hi hacked hrun ht hq), (if_pos ⟨ht, hq⟩).symm,
          fun _ _ => rfl, fun h => absurd h hsome, fun _ => ⟨rfl, fun _ h => nomatch hq.symm.trans h⟩⟩
      · obtain ⟨s1, hw, hhbm, hatoms, hack⟩ := singleAtom_of_packet hi hacked hrun hmap h4 hc ht hq
        have hne : ¬ (a.tile = none ∧ a.pkt = none) := fun h => nomatch hq.symm.trans h.2
        refine ⟨singleAtom i s, rfl, ?_, fun b hb => hhbm ▸ outside hw b hb, fun h => absurd h hsome,
          fun _ => ⟨hatoms, fun q' hq' => ?_⟩⟩
        · rw [if_neg hne, wordAt_congr hhbm]
          exact wordAt_written hw.hbm
        · obtain rfl := Option.some.inj (hq.symm.trans hq')
          exact hack
    · obtain ⟨s1, hw, hs1⟩ := singleAtom_of_tile hi hacked hrun hmap h4 hc (Option.isSome_iff_ne_none.mpr ht)
      exact ⟨_, congrArg Host.Outcome.next hs1, (wordAt_written hw.hbm).trans (if_neg fun h => ht h.1).symm,
        fun b hb => outside hw b hb, fun _ => rfl, fun h => absurd h ht⟩
  case complete =>
    intro s i j hj
    have hexec : exec (.weirDescComplete i) s = .next (weirComplete i s) := rfl
    rw [hexec]
    exact ⟨fun hc => by simp [weirComplete, hj, hc], fun hc => by simp [weirComplete, hj, hc]⟩

/-! ### ATOMADD (05 R222, R223) -/

theorem weirOk_atoms {d : WDesc} (h : weirOk d = true) (hop : d.op = 2) (hf : d.fmt = 0) : d.dst % 4 = 0 := by
  simp only [weirOk, hop, hf, Bool.and_eq_true, decide_eq_true_eq, if_true] at h
  tauto

theorem bytesAt_halves (m : Tbl Byte) (a : Nat) :
    (bytesAt 0 m a 8).take 4 = bytesAt 0 m a 4 ∧ (bytesAt 0 m a 8).drop 4 = bytesAt 0 m (a + 4) 4 := by
  rw [bytesAt_add 0 m a 4 4]
  exact ⟨List.take_left' (bytesAt_length ..), List.drop_left' (bytesAt_length ..)⟩

/-- Key and value of record r of an ATOMADD. -/
def recKey (s : State) (fx : Nat) (d : WDesc) (r : Nat) : Nat := (wordAt s (pageAddr fx d.idx + 8 * r)).toNat
def recVal (s : State) (fx : Nat) (d : WDesc) (r : Nat) : Word := wordAt s (pageAddr fx d.idx + 8 * r + 4)

/-- Element k of the destination, w at first, after the first m records. -/
def atomSum (s : State) (fx : Nat) (d : WDesc) (k m : Nat) (w : Word) : Word :=
  ((List.range m).filter (fun r => decide (recKey s fx d r = k))).foldl (fun acc r => (fpAdd acc (recVal s fx d r)).1) w

/-- A key that is counted as out of range. -/
def keyOut (s : State) (fx : Nat) (d : WDesc) (r : Nat) : Bool :=
  decide (d.nrows ≤ recKey s fx d r ∧ recKey s fx d r ≠ 0xFFFFFFFF)

theorem atomSum_succ (s : State) (fx : Nat) (d : WDesc) (k m : Nat) (w : Word) : atomSum s fx d k (m + 1) w =
    if recKey s fx d m = k then (fpAdd (atomSum s fx d k m w) (recVal s fx d m)).1 else atomSum s fx d k m w := by
  unfold atomSum
  rw [List.range_succ, List.filter_append, List.foldl_append]
  by_cases h : recKey s fx d m = k
  · rw [if_pos h, List.filter_cons_of_pos (by simpa using h)]
    rfl
  · rw [if_neg h, List.filter_cons_of_neg (by simpa using h)]
    rfl

/-- The first m records of an ATOMADD begun in s have been added or counted. -/
structure AtomsAdded (c fd fx : Nat) (d : WDesc) (m : Nat) (s s1 : State) : Prop where
  worked : Worked fd s s1
  words : ∀ k, k < d.nrows →
    wordAt s1 (pageAddr fd d.dst + 4 * k) = atomSum s fx d k m (wordAt s (pageAddr fd d.dst + 4 * k))
  outside : ∀ a, a < pageAddr fd d.dst ∨ pageAddr fd d.dst + 4 * d.nrows ≤ a →
    Tbl.look 0#8 a s1.hbm = Tbl.look 0#8 a s.hbm
  oor : (s1.ctx c).oor = oorAfter (keyOut s fx d) m (s.ctx c).oor

/-- Where an FP32 ATOMADD's ranges lie: each in one page and clean, the destination in a frame of its own. -/
structure AtomFits (s : State) (c fd fx : Nat) (d : WDesc) : Prop where
  running : ∀ k, (s.part k).reset = none
  dst : Readable s c d.dst fd (4 * d.nrows)
  idx : Readable s c d.idx fx (8 * d.count)
  apart : fd ≠ fx
  fmt : d.fmt = 0
  aligned : d.dst % 4 = 0
  bound : d.nrows ≤ 0xFFFFFFFF

section AtomRec
variable {D c f r : Nat} {d : WDesc} {b : List Byte} {s s1 : State} (h : ReadsTo D c (d.idx + 8 * r) f 8 b s s1)
  (hrun : ∀ k, (s.part k).reset = none)
include h hrun

theorem atomRec_skips (hk : leNat (b.take 4) = 0xFFFFFFFF) : atomRec c d r s = (.go, s1) := by
  simp only [atomRec, h.run hrun, hk, if_true]

theorem atomRec_counts (hk : leNat (b.take 4) ≠ 0xFFFFFFFF) (hn : d.nrows ≤ leNat (b.take 4)) :
    atomRec c d r s = (.go, countOor c s1) := by
  simp only [atomRec, h.run hrun, if_neg hk, if_pos hn]

theorem atomRec_adds {s2 : State} (hf : d.fmt = 0) (hk : leNat (b.take 4) ≠ 0xFFFFFFFF)
    (hn : leNat (b.take 4) < d.nrows)
    (ha : atomAdd (viaWeir c) false (d.dst + 4 * leNat (b.take 4)) (BitVec.ofNat 32 (leNat (b.drop 4))) s1 =
      (.ok (), s2)) :
    atomRec c d r s = (.go, s2) := by
  have hbf : decide (d.fmt = 1) = false := by rw [hf]; rfl
  have hshut := pageShut_of_running (h.worked.running hrun) c (d.dst + leNat (b.take 4) * 4)
  rw [Nat.mul_comm] at ha
  simp only [atomRec, h.run hrun, if_neg hk, if_neg (Nat.not_le_of_lt hn), hbf, Bool.false_eq_true, if_false, hshut, ha]

end AtomRec

section Atoms
variable {s s1 : State} {c fd fx m : Nat} {d : WDesc}

section AtomRecords
variable {s2 : State} (hg : AtomsAdded c fd fx d m s s1) (hw : Worked fd s1 s2) (hhbm : s2.hbm = s1.hbm)
include hg hw hhbm

/-- A record that no element takes. -/
theorem AtomsAdded.passes (hk : d.nrows ≤ recKey s fx d m)
    (hoor : (s2.ctx c).oor = oorAfter (keyOut s fx d) (m + 1) (s.ctx c).oor) : AtomsAdded c fd fx d (m + 1) s s2 where
  worked := hg.worked.trans hw
  words k hlt := by rw [wordAt_congr hhbm, hg.words k hlt, atomSum_succ, if_neg (by omega)]
  outside a ha := by rw [hhbm, hg.outside a ha]
  oor := hoor

/-- A record whose key names an element. -/
theorem AtomsAdded.adds {s3 : State} (hctx : s2.ctxs = s1.ctxs) (hk : recKey s fx d m < d.nrows)
    (ha : WritesTo fd (pageAddr fd d.dst + 4 * recKey s fx d m)
      (leBytes 4 (fpAdd (wordAt s2 (pageAddr fd d.dst + 4 * recKey s fx d m)) (recVal s fx d m)).1.toNat) s2 s3) :
    AtomsAdded c fd fx d (m + 1) s s3 where
  worked := (hg.worked.trans hw).trans ha.worked
  words k hlt := by
    rw [atomSum_succ, ← hg.words k hlt]
    by_cases he : recKey s fx d m = k
    · subst he
      rw [if_pos rfl, wordAt_written ha.hbm, wordAt_congr hhbm]
    · rw [if_neg he, wordAt_kept ha.hbm (by rw [leBytes_length]; omega), wordAt_congr hhbm]
  outside a ho := by rw [ha.look, leBytes_length, if_neg (by omega), hhbm, hg.outside a ho]
  oor := by
    have hno : ¬ keyOut s fx d m = true := by simp [keyOut, hk]
    rw [oorAfter_succ, if_neg hno, ctx_congr ha.ctxs, ctx_congr hctx, hg.oor]

end AtomRecords

variable (h : AtomFits s c fd fx d)
include h

theorem AtomFits.step (hm : m < d.count) (hg : AtomsAdded c fd fx d m s s1) :
    ∃ s2, atomRec c d m s1 = (.go, s2) ∧ AtomsAdded c fd fx d (m + 1) s s2 := by
  have hrun := hg.worked.running h.running
  obtain ⟨sa, ha⟩ := h.idx.reads_at (o := 8 * m) (m := 8) hg.worked h.dst.mapped.owned h.apart (by omega) (by decide)
  obtain ⟨htake, hdrop⟩ := bytesAt_halves s.hbm (pageAddr fx d.idx + 8 * m)
  have hkey : leNat ((bytesAt 0 s.hbm (pageAddr fx d.idx + 8 * m) 8).take 4) = recKey s fx d m := by
    rw [htake, recKey, wordAt_toNat]
  have hval : BitVec.ofNat 32 (leNat ((bytesAt 0 s.hbm (pageAddr fx d.idx + 8 * m) 8).drop 4)) = recVal s fx d m := by
    rw [hdrop, recVal, wordAt]
  have hoor : (sa.ctx c).oor = _ := (congrArg Ctx.oor (ctx_congr ha.ctxs c)).trans hg.oor
  have hbound := h.bound
  by_cases hskip : recKey s fx d m = 0xFFFFFFFF
  · refine ⟨sa, atomRec_skips ha hrun (hkey.trans hskip), hg.passes ha.worked ha.hbm (by omega) ?_⟩
    rw [oorAfter_succ, if_neg (by simp [keyOut, hskip]), hoor]
  · by_cases hout : d.nrows ≤ recKey s fx d m
    · have hD := ((hg.worked.trans ha.worked).mapped h.dst.mapped).owned
      refine ⟨countOor c sa, atomRec_counts ha hrun (hkey ▸ hskip) (hkey ▸ hout),
        hg.passes (ha.worked.trans (countOor_worked c hD)) ha.hbm hout ?_⟩
      rw [oorAfter_succ, if_pos (by simp [keyOut, hskip, hout]), countOor_oor, hoor]
    · have hlt := Nat.lt_of_not_le hout
      have hws := hg.worked.trans ha.worked
      obtain ⟨hmap, -, hclean⟩ := (h.dst.worked hws).sub (o := 4 * recKey s fx d m) (m := 4) (by omega) (by decide)
      have hfits := h.dst.fits
      have haligned := h.aligned
      obtain ⟨s2, hs2, hw⟩ := atomAdd_ok (v := viaWeir c) (recVal s fx d m) hmap (fun h => nomatch h) (by omega) hclean
      rw [pageAddr_add (by omega)] at hw
      refine ⟨s2, atomRec_adds ha hrun h.fmt (hkey ▸ hskip) (hkey ▸ hlt) ?_, hg.adds ha.worked ha.hbm ha.ctxs hlt hw⟩
      rw [hkey, hval, hs2]

theorem AtomFits.goes (h1 : Worked fd s s1) (hhbm : s1.hbm = s.hbm) (hctx : s1.ctxs = s.ctxs) :
    ∃ s2, weirAtoms c d s1 = (.go, s2) ∧ AtomsAdded c fd fx d d.count s s2 :=
  wFor_goes (P := fun m => AtomsAdded c fd fx d m s)
    ⟨h1, fun k _ => wordAt_congr hhbm _, fun a _ => by rw [hhbm], congrArg Ctx.oor (ctx_congr hctx c)⟩
    fun _ _ hm hg => h.step hm hg

end Atoms

/-! ### SEGSUM (05 R222, R224) -/

theorem segElem_cases (fmt : Nat) : segElem fmt = 1 ∨ segElem fmt = 2 ∨ segElem fmt = 4 := by
  unfold segElem
  split
  · exact .inl rfl
  · split
    · exact .inr (.inl rfl)
    · exact .inr (.inr rfl)

/-- Elements of a row of a SEGSUM. -/
def segWidth (d : WDesc) : Nat := d.rowBytes / segElem d.fmt

theorem weirOk_segsum {d : WDesc} (h : weirOk d = true) (hop : d.op = 1) :
    d.dst % 64 = 0 ∧ 4 * segWidth d % 64 = 0 ∧ 0 < segWidth d ∧ 0 < d.rowBytes := by
  simp only [weirOk, hop, Bool.and_eq_true, decide_eq_true_eq] at h
  obtain ⟨-, ⟨⟨⟨⟨⟨⟨-, hrow⟩, -⟩, -⟩, -⟩, hdst⟩, -⟩⟩ := h
  obtain ⟨hlines, hpos⟩ := rowOk_whole_lines hrow
  unfold segWidth
  obtain he | he | he := segElem_cases d.fmt <;> rw [he] <;> omega

/-! Sums of rows. -/

theorem addWords_length {n : Nat} {a b : List Word} (ha : a.length = n) (hb : b.length = n) :
    (addWords a b).length = n := by
  rw [addWords, List.length_map, List.length_zip, ha, hb, Nat.min_self]

theorem addWords_getD {n e : Nat} {a b : List Word} (ha : a.length = n) (hb : b.length = n) (he : e < n) :
    (addWords a b).getD e 0 = (fpAdd (a.getD e 0) (b.getD e 0)).1 := by
  subst ha
  rw [List.getD_eq_getElem _ _ (by rwa [addWords_length rfl hb]), List.getD_eq_getElem _ _ he,
    List.getD_eq_getElem _ _ (hb ▸ he)]
  simp only [addWords, List.getElem_map, List.getElem_zip]

/-- A sum of n elements before any row. -/
def zeroSum (n : Nat) : List Word := List.replicate n 0#32

theorem zeroSum_getD {n e : Nat} (he : e < n) : (zeroSum n).getD e 0 = 0#32 := by
  rw [zeroSum, List.getD_eq_getElem _ _ (by simpa using he), List.getElem_replicate]

theorem addWords_zeroSum (n : Nat) : addWords (zeroSum n) (zeroSum n) = zeroSum n := by
  have h0 : (fpAdd 0#32 0#32).1 = 0#32 := by decide
  rw [addWords, zeroSum, List.zip_replicate, List.map_replicate, h0, Nat.min_self]

/-- The sum of the rows that are listed, onto acc. -/
def sumRows (row : Nat → List Word) (l : List Nat) (acc : List Word) : List Word :=
  l.foldl (fun acc r => addWords acc (row r)) acc

section SumRows
variable {n : Nat} {row : Nat → List Word} (hrow : ∀ r, (row r).length = n)
include hrow

theorem sumRows_length (l : List Nat) {acc : List Word} (ha : acc.length = n) : (sumRows row l acc).length = n := by
  induction l generalizing acc with
  | nil => exact ha
  | cons r l ih => exact ih (addWords_length ha (hrow r))

/-- Rows are summed element by element. -/
theorem sumRows_getD {e : Nat} (he : e < n) (l : List Nat) {acc : List Word} (ha : acc.length = n) :
    (sumRows row l acc).getD e 0 = l.foldl (fun w r => (fpAdd w ((row r).getD e 0)).1) (acc.getD e 0) := by
  induction l generalizing acc with
  | nil => rfl
  | cons r l ih =>
    rw [List.foldl_cons, ← addWords_getD ha (hrow r) he]
    exact ih (addWords_length ha (hrow r))

end SumRows

/-- The partial sums p hold acc for stack t, and nothing else: every row of a segment lies in one stack. -/
def HoldsSum (t n : Nat) (acc : List Word) (p : Tbl (List Word)) : Prop :=
  p = [] ∧ acc = zeroSum n ∨ p = [(t, acc)]

section HoldsSum
variable {t n : Nat} {acc : List Word} {p : Tbl (List Word)} (h : HoldsSum t n acc p)
include h

theorem HoldsSum.look : Tbl.look (zeroSum n) t p = acc := by
  obtain ⟨rfl, rfl⟩ | rfl := h <;> simp [Tbl.look]

theorem HoldsSum.insert (acc' : List Word) : HoldsSum t n acc' (Tbl.insert t acc' p) := by
  obtain ⟨rfl, -⟩ | rfl := h <;> exact .inr (by simp [Tbl.insert])

theorem HoldsSum.total : p.foldl (fun o e => addWords o e.2) (zeroSum n) = addWords (zeroSum n) acc := by
  obtain ⟨rfl, rfl⟩ | rfl := h
  · exact (addWords_zeroSum n).symm
  · rfl

end HoldsSum

/-! Words that a row of bytes holds. -/

theorem flatMap_leBytes_length (ws : List Word) : (ws.flatMap fun w => leBytes 4 w.toNat).length = 4 * ws.length := by
  rw [List.length_flatMap]
  simp [Nat.mul_comm]

theorem flatMap_leBytes_getD {ws : List Word} {e b : Nat} (he : e < ws.length) (hb : b < 4) :
    (ws.flatMap fun w => leBytes 4 w.toNat).getD (4 * e + b) 0 = (leBytes 4 (ws.getD e 0).toNat).getD b 0 := by
  induction ws generalizing e with
  | nil => exact absurd he (Nat.not_lt_zero e)
  | cons w ws ih =>
    rw [List.flatMap_cons]
    cases e with
    | zero =>
      rw [List.getD_append _ _ _ _ (by rw [leBytes_length]; omega), List.getD_cons_zero, Nat.mul_zero, Nat.zero_add]
    | succ e =>
      rw [List.getD_append_right _ _ _ _ (by rw [leBytes_length]; omega), leBytes_length, List.getD_cons_succ,
        ← ih (Nat.lt_of_succ_lt_succ he)]
      exact congrArg (fun i => List.getD _ i 0) (by omega)

theorem wordAt_of_look {s : State} {a : Nat} {w : Word}
    (h : ∀ b, b < 4 → Tbl.look 0#8 (a + b) s.hbm = (leBytes 4 w.toNat).getD b 0) : wordAt s a = w := by
  have hb : bytesAt 0 s.hbm a 4 = leBytes 4 w.toNat := by
    refine List.ext_getElem (by rw [bytesAt_length, leBytes_length]) fun b h1 h2 => ?_
    rw [bytesAt_length] at h1
    rw [← List.getD_eq_getElem _ 0, ← List.getD_eq_getElem _ 0, ← h b h1]
    exact bytesAt_getD 0 0 s.hbm h1
  rw [wordAt, hb, leNat_leBytes w.isLt, BitVec.ofNat_toNat, BitVec.setWidth_eq]

/-- Element e of a row that was written as words. -/
theorem RowsWritten.wordAt {D pa n m g e : Nat} {words : Nat → List Word} {s s1 : State}
    (h : RowsWritten D pa (4 * n) (fun g => (words g).flatMap fun w => leBytes 4 w.toNat) m s s1) (hg : g < m)
    (he : e < n) (hl : (words g).length = n) : wordAt s1 (pa + g * (4 * n) + 4 * e) = (words g).getD e 0 := by
  refine wordAt_of_look fun b hb => ?_
  rw [← flatMap_leBytes_getD (hl ▸ he) hb, ← h.inside g _ hg (by omega), Nat.add_assoc]

section SegRows
variable {D c f i k n : Nat} {d : WDesc} {b : List Byte} {p : Tbl (List Word)} {s s1 : State}
  (h : ReadsTo D c (d.idx + 4 * i) f 4 b s s1) (hrun : ∀ k, (s.part k).reset = none)
include h hrun

theorem segRows_skips (hx : d.nrows ≤ leNat b) :
    segRows c d n i (k + 1) p s = segRows c d n (i + 1) k p (countOor c s1) := by
  simp only [segRows, h.run hrun, if_pos hx]

theorem segRows_adds {ft : Nat} {bs : List Byte} {s2 : State} (hx : leNat b < d.nrows)
    (hr : ReadsTo D c (d.table + leNat b * d.rowBytes) ft d.rowBytes bs s1 s2) :
    segRows c d n i (k + 1) p s = segRows c d n (i + 1) k
      (Tbl.insert (frameStack ft) (addWords (Tbl.look (zeroSum n) (frameStack ft) p) (segRow d.fmt bs)) p) s2 := by
  have hshut := rangeShut_of_running (h.worked.running hrun) c (d.table + leNat b * d.rowBytes) d.rowBytes
  simp only [segRows, zeroSum, h.run hrun, if_neg (Nat.not_le_of_lt hx), hshut, Bool.false_eq_true, if_false, hr.read,
    hr.stack]

end SegRows

section Segments
variable {s s1 : State} {c fd fx fo ft : Nat} {d : WDesc}

/-- Number g of the OFFS list. -/
def offAt (s : State) (fo : Nat) (d : WDesc) (g : Nat) : Nat := (wordAt s (pageAddr fo d.offs + 4 * g)).toNat

/-- Elements of the row that number r of the IDX list names. -/
def segData (s : State) (fx ft : Nat) (d : WDesc) (r : Nat) : List Word :=
  segRow d.fmt (bytesAt 0 s.hbm (pageAddr ft d.table + idxAt s fx d r * d.rowBytes) d.rowBytes)

theorem segData_length (r : Nat) : (segData s fx ft d r).length = segWidth d := by
  rw [segData, segRow, List.length_map, List.length_range, bytesAt_length, segWidth]

/-- The numbers of the IDX list, k from i on, that name rows of the table. -/
def inTable (s : State) (fx : Nat) (d : WDesc) (i k : Nat) : List Nat :=
  (List.range' i k).filter fun r => decide (idxAt s fx d r < d.nrows)

theorem inTable_succ (i k : Nat) : inTable s fx d i (k + 1) =
    if idxAt s fx d i < d.nrows then i :: inTable s fx d (i + 1) k else inTable s fx d (i + 1) k := by
  unfold inTable
  rw [List.range'_succ, List.filter_cons]
  simp only [decide_eq_true_eq]

/-- Sums of segment g. -/
def segSums (s : State) (fx fo ft : Nat) (d : WDesc) (g : Nat) : List Word :=
  addWords (zeroSum (segWidth d)) (sumRows (segData s fx ft d)
    (inTable s fx d (offAt s fo d g) (offAt s fo d (g + 1) - offAt s fo d g)) (zeroSum (segWidth d)))

theorem segSums_length (g : Nat) : (segSums s fx fo ft d g).length = segWidth d :=
  addWords_length List.length_replicate (sumRows_length segData_length _ List.length_replicate)

theorem segSums_getD {e : Nat} (g : Nat) (he : e < segWidth d) : (segSums s fx fo ft d g).getD e 0 =
    (fpAdd 0#32 (((List.range (offAt s fo d (g + 1) - offAt s fo d g)).filter
      (fun r => decide (idxAt s fx d (offAt s fo d g + r) < d.nrows))).foldl
      (fun acc r => (fpAdd acc ((segData s fx ft d (offAt s fo d g + r)).getD e 0#32)).1) 0#32)).1 := by
  have hz : (zeroSum (segWidth d)).length = segWidth d := List.length_replicate
  rw [segSums, addWords_getD hz (sumRows_length segData_length _ hz) he, sumRows_getD segData_length he _ hz,
    zeroSum_getD he, inTable, List.range'_eq_map_range, List.filter_map, List.foldl_map]
  rfl

/-- A SEGSUM begun in s has written the sums of its first g segments. -/
abbrev SegsWritten (fd fx fo ft : Nat) (d : WDesc) (g : Nat) (s s1 : State) : Prop :=
  RowsWritten fd (pageAddr fd d.dst) (4 * segWidth d)
    (fun g => (segSums s fx fo ft d g).flatMap fun w => leBytes 4 w.toNat) g s s1

/-- Where a SEGSUM's ranges lie: each in one page, the destination in a frame of its own and in whole lines; and its
segments are in order. -/
structure SegFits (s : State) (c fd fx fo ft : Nat) (d : WDesc) : Prop where
  running : ∀ k, (s.part k).reset = none
  dst : Mapped s c d.dst fd false
  fits : d.dst % frameBytes + d.nseg * (4 * segWidth d) ≤ frameBytes
  idx : Readable s c d.idx fx (4 * d.count)
  offs : Readable s c d.offs fo (4 * (d.nseg + 1))
  table : Readable s c d.table ft (d.nrows * d.rowBytes)
  apartIdx : fd ≠ fx
  apartOffs : fd ≠ fo
  apartTable : fd ≠ ft
  aligned : d.dst % 64 = 0
  lines : 4 * segWidth d % 64 = 0
  pos : 0 < segWidth d
  rowPos : 0 < d.rowBytes
  ordered : ∀ g, g < d.nseg → offAt s fo d g ≤ offAt s fo d (g + 1) ∧ offAt s fo d (g + 1) ≤ d.count

variable (h : SegFits s c fd fx fo ft d)
include h

theorem SegFits.sums {i k : Nat} {acc : List Word} {p : Tbl (List Word)} (hk : i + k ≤ d.count) (hw : Worked fd s s1)
    (hp : HoldsSum (frameStack ft) (segWidth d) acc p) :
    ∃ s2 p2, segRows c d (segWidth d) i k p s1 = ((.go, s2), p2) ∧ Worked fd s1 s2 ∧ s2.hbm = s1.hbm ∧
      HoldsSum (frameStack ft) (segWidth d) (sumRows (segData s fx ft d) (inTable s fx d i k) acc) p2 := by
  induction k generalizing i acc p s1 with
  | zero => exact ⟨s1, p, rfl, .refl fd s1, rfl, hp⟩
  | succ k ih =>
    obtain ⟨sa, ha⟩ := h.idx.reads_at (o := 4 * i) (m := 4) hw h.dst.owned h.apartIdx (by omega) (by decide)
    have hx : leNat (bytesAt 0 s.hbm (pageAddr fx d.idx + 4 * i) 4) = idxAt s fx d i := (wordAt_toNat ..).symm
    have hwa := hw.trans ha.worked
    have hrun := hw.running h.running
    rw [inTable_succ]
    by_cases hlt : idxAt s fx d i < d.nrows
    · obtain ⟨sb, hb⟩ := h.table.reads_at hwa h.dst.owned h.apartTable (row_le d.rowBytes hlt) h.rowPos
      rw [segRows_adds ha hrun (hx ▸ hlt) (hx ▸ hb), hp.look, if_pos hlt, hx]
      obtain ⟨s2, p2, hs2, hw2, hhbm, hsum⟩ := ih (i := i + 1) (by omega) (hwa.trans hb.worked)
        (hp.insert (addWords acc (segData s fx ft d i)))
      exact ⟨s2, p2, hs2, (ha.worked.trans hb.worked).trans hw2, hhbm.trans (hb.hbm.trans ha.hbm), hsum⟩
    · rw [segRows_skips ha hrun (hx ▸ Nat.le_of_not_lt hlt), if_neg hlt]
      have hc := countOor_worked c (hwa.mapped h.dst).owned
      obtain ⟨s2, p2, hs2, hw2, hhbm, hsum⟩ := ih (i := i + 1) (by omega) (hwa.trans hc) hp
      exact ⟨s2, p2, hs2, (ha.worked.trans hc).trans hw2, hhbm.trans ha.hbm, hsum⟩

theorem SegFits.step {g : Nat} (hg : g < d.nseg) (hs : SegsWritten fd fx fo ft d g s s1) :
    ∃ s2, segOne c d g s1 = (.go, s2) ∧ SegsWritten fd fx fo ft d (g + 1) s s2 := by
  have hw := hs.worked
  have hpos := h.pos
  obtain ⟨hle, hcount⟩ := h.ordered g hg
  obtain ⟨sa, ha⟩ := h.offs.reads_at (o := 4 * g) (m := 8) hw h.dst.owned h.apartOffs (by omega) (by decide)
  obtain ⟨htake, hdrop⟩ := bytesAt_halves s.hbm (pageAddr fo d.offs + 4 * g)
  have hfrom : leNat ((bytesAt 0 s.hbm (pageAddr fo d.offs + 4 * g) 8).take 4) = offAt s fo d g := by
    rw [htake, offAt, wordAt_toNat]
  have hto : leNat ((bytesAt 0 s.hbm (pageAddr fo d.offs + 4 * g) 8).drop 4) = offAt s fo d (g + 1) := by
    rw [hdrop, offAt, wordAt_toNat, Nat.add_assoc, Nat.mul_succ]
  have hwa := hw.trans ha.worked
  obtain ⟨sb, p, hsb, hwb, hhbm, hsum⟩ := h.sums (i := offAt s fo d g) (k := offAt s fo d (g + 1) - offAt s fo d g)
    (acc := zeroSum (segWidth d)) (p := []) (by omega) hwa (.inl ⟨rfl, rfl⟩)
  have hlen : ((segSums s fx fo ft d g).flatMap fun w => leBytes 4 w.toNat).length = 4 * segWidth d := by
    rw [flatMap_leBytes_length, segSums_length]
  obtain ⟨sc, hsc, hwc⟩ := wWrite_row ((hwa.trans hwb).running h.running) ((hwa.trans hwb).mapped h.dst) h.fits hg
    h.aligned h.lines (by omega) hlen
  refine ⟨sc, ?_, (hs.worked_on (ha.worked.trans hwb) (hhbm.trans ha.hbm)).next hlen hwc⟩
  have hin : ¬ (offAt s fo d (g + 1) < offAt s fo d g ∨ d.count < offAt s fo d (g + 1)) := by omega
  rw [segOne, ha.run (hw.running h.running), hfrom, hto]
  dsimp only
  rw [if_neg hin, ← segWidth, hsb, Nat.mul_assoc]
  dsimp only
  rw [← zeroSum, hsum.total]
  exact hsc

theorem SegFits.goes (h1 : Worked fd s s1) (hhbm : s1.hbm = s.hbm) :
    ∃ s2, weirSegsum c d s1 = (.go, s2) ∧ SegsWritten fd fx fo ft d d.nseg s s2 :=
  wFor_goes (P := fun g => SegsWritten fd fx fo ft d g s) (.start h1 hhbm) fun _ _ hg hs => h.step hg hs

end Segments

/-- Settles O29: each record or segment in turn finds what memory held when the descriptor began, for the destination is a
frame of its own; the words after k of them follow by induction on k. -/
theorem atomicAndSegmentSums : Obligations.AtomicAndSegmentSums := by
  unfold Obligations.AtomicAndSegmentSums
  refine ⟨?atomadd, ?segsum⟩
  case atomadd =>
    intro s i j f fd fx d hready hop hfmt hmap hfit hidx hpi hne hci hcd hbound key val
    have hfits : AtomFits s j.ctx fd fx d := ⟨hready.running, ⟨hmap, hfit, hcd⟩, ⟨hidx, hpi, hci⟩, hne, hfmt,
      weirOk_atoms hready.ok hop hfmt, hbound⟩
    obtain ⟨s1, hr, hdone⟩ := weirPerform_go hready hmap.owned
    obtain ⟨s2, hs2, hadded⟩ := hfits.goes hr.worked hr.hbm hr.ctxs
    rw [hop] at hdone
    exact ⟨_, congrArg Host.Outcome.next (hdone s2 ((weirRun_atoms hop).trans hs2) hadded.worked.weir),
      weirWrote_of_worked hadded.worked hadded.outside, hadded.words, hadded.oor⟩
  case segsum =>
    intro s i j f fd fx fo ft d hready hop hmap hfit hidx hpi hoffs hpo htab hpt hfx hfo hft hcount hci hco hct hcd offs x
      row hord
    obtain ⟨ha, hlines, hpos, hrow⟩ := weirOk_segsum hready.ok hop
    have hfits : SegFits s j.ctx fd fx fo ft d := ⟨hready.running, hmap, hfit, ⟨hidx, hpi, hci⟩, ⟨hoffs, hpo, hco⟩,
      ⟨htab, hpt, hct⟩, hfx, hfo, hft, ha, hlines, hpos, hrow, hord⟩
    obtain ⟨s1, hr, hdone⟩ := weirPerform_go hready hmap.owned
    obtain ⟨s2, hs2, hrows⟩ := hfits.goes hr.worked hr.hbm
    rw [hop] at hdone
    refine ⟨_, congrArg Host.Outcome.next (hdone s2 ((weirRun_segsum hop hcount).trans hs2) hrows.worked.weir),
      weirWrote_of_worked hrows.worked hrows.outside, fun g e hg he => ?_⟩
    exact (hrows.wordAt hg he (segSums_length g)).trans (segSums_getD g he)

end Sys2Proof.Machine

/-!
O19 to O25. Contexts and launches. The first part says once what the operations shared by these commands do to their
context: a record made ready, the end of a launch, and the decision how it ends.
-/

namespace Sys2Proof.Machine

/-! ### A changed context -/

theorem modCtx_ctx (s : State) (c : Nat) (f : Ctx → Ctx) : (s.modCtx c f).ctx c = f (s.ctx c) :=
  State.setCtx_ctx_same ..

theorem modExec_ctx (s : State) (c : Nat) (f : Exec → Exec) :
    (s.modExec c f).ctx c = { s.ctx c with exec := (s.ctx c).exec.map f } :=
  modCtx_ctx ..

/-! ### Records made ready (06 R240) -/

/-- The byte of a completion record that holds the status (06 Table 6-8). -/
theorem recordBytes_status (c : Nat) (id : BitVec 32) (i t : Nat) (r : RecordIn) :
    (recordBytes c id i t r).getD 4 0#8 = BitVec.ofNat 8 r.status := by
  simp only [recordBytes, List.append_assoc]
  rw [List.getD_append_right _ _ _ _ (by simp), List.getD_append _ _ _ _ (by simp)]
  rfl

theorem recordBytes_length (c : Nat) (id : BitVec 32) (i t : Nat) (r : RecordIn) :
    (recordBytes c id i t r).length = 128 := by
  simp only [recordBytes, List.length_append, leBytes_length]

/-- Context k with the records ds ready too, and its hold as b. -/
def Ctx.recorded (k : Ctx) (ds : List Done) (b : Bool) : Ctx := { k with done := k.done ++ ds, cqHold := b }

theorem Ctx.recorded_nil (k : Ctx) : k.recorded [] k.cqHold = k := by
  rw [Ctx.recorded, List.append_nil]

theorem noteFull_ctx (c : Nat) (s : State) : ∃ b, (noteFull c s).ctx c = { s.ctx c with cqHold := b } := by
  simp only [noteFull]
  split
  · exact ⟨_, rfl⟩
  · split
    · exact ⟨_, rfl⟩
    · exact ⟨true, by rw [raise_ctx_at, State.setCtx_ctx_same]⟩

theorem noteFull_of_empty {c : Nat} {s : State} (h : (s.ctx c).done = []) : noteFull c s = s := by
  simp only [noteFull, h]

/-- A record joins those that are ready, unless the context has been disabled. -/
theorem pushDone_ctx (c : Nat) (bs : List Byte) (s : State) : ∃ b, (pushDone c bs s).ctx c =
    (s.ctx c).recorded (if (s.ctx c).en then [{ bytes := bs }] else []) b := by
  unfold pushDone
  split
  · obtain ⟨b, h⟩ := noteFull_ctx c (s.modCtx c fun x => { x with done := x.done ++ [{ bytes := bs }] })
    refine ⟨b, ?_⟩
    rw [h, modCtx_ctx]
    rfl
  · exact ⟨_, (Ctx.recorded_nil _).symm⟩

/-- What releases crews and Weir descriptors: no record changes it. -/
structure DeskView where
  weir : List WeirJob
  ump : Umpire

def State.deskView (s : State) : DeskView := { weir := s.weir, ump := s.ump }

theorem crew_of_deskView {s s' : State} (h : s'.deskView = s.deskView) (g : Nat) : s'.crew g = s.crew g := by
  rw [State.crew, State.crew, show s'.ump = s.ump from congrArg DeskView.ump h]

theorem raise_deskView (c u d : Nat) (s : State) : (raise c u d s).deskView = s.deskView := by
  simp only [State.deskView, raise_weir, raise_ump]

theorem noteFull_deskView (c : Nat) (s : State) : (noteFull c s).deskView = s.deskView := by
  simp only [noteFull]
  split
  · rfl
  · split
    · rfl
    · exact raise_deskView ..

theorem pushDone_deskView (c : Nat) (bs : List Byte) (s : State) : (pushDone c bs s).deskView = s.deskView := by
  unfold pushDone
  split
  · exact noteFull_deskView ..
  · rfl

theorem enterStopped_deskView (c : Nat) (s : State) : (enterStopped c s).deskView = s.deskView := raise_deskView ..

theorem enterStopped_ctx (c : Nat) (s : State) :
    (enterStopped c s).ctx c = { s.ctx c with st := .stopped, stopAfter := false } := by
  rw [enterStopped, raise_ctx_at, modCtx_ctx]

/-! ### Launches refused before dispatch (06 R260) -/

theorem refuseLaunch_ctx (c status : Nat) (l : Launch) {s : State} (h : (s.ctx c).en = true) :
    ∃ d b, d.bytes.getD 4 0#8 = BitVec.ofNat 8 status ∧
      (refuseLaunch c status l s).ctx c = (s.ctx c).recorded [d] b := by
  unfold refuseLaunch
  extract_lets job s1 s2 s3 send
  obtain ⟨b, k1⟩ : ∃ b, s1.ctx c = _ := pushDone_ctx c _ s
  rw [if_pos h] at k1
  have k3 : s3.ctx c = s1.ctx c := by
    unfold s3 s2
    split <;> rfl
  refine ⟨_, b, recordBytes_status .., Eq.trans ?_ (k3.trans k1)⟩
  split
  · exact (easyAllOriginate_quiet ..).ctx c
  · rfl

/-! ### The end of an executing launch (06 R256, R269) -/

/-- What f brings about for its own element, and does not undo for another, holds of every element at the end. -/
theorem forList_each {α : Type} {P : α → State → Prop} {f : α → State → State} (hset : ∀ a s, P a (f a s))
    (hkeep : ∀ a b s, P a s → P a (f b s)) (l : List α) (s : State) : ∀ a ∈ l, P a (forList f l s) := by
  have keep (a : α) (l : List α) (s : State) (h : P a s) : P a (forList f l s) := by
    induction l generalizing s with
    | nil => exact h
    | cons b l ih => exact ih _ (hkeep a b s h)
  induction l generalizing s with
  | nil => nofun
  | cons b l ih =>
    intro a ha
    obtain rfl | ha := List.mem_cons.mp ha
    · exact keep a l _ (hset a s)
    · exact ih _ a ha

/-- What becomes of the crews and descriptors and of the context of a launch x that reaches DONE with ending e. -/
structure LaunchEnded (c : Nat) (x : Exec) (e : Ending) (s s' : State) : Prop where
  weir : s'.weir = s.weir
  crews : ∀ g ∈ x.crews, (s'.crew g).heldBy = none
  ctx : ∃ r b st stop, r.status = e.status ∧ s'.ctx c =
    { (s.ctx c).recorded (if (s.ctx c).en then
        [{ bytes := recordBytes c x.launch.id x.launch.sqIndex x.launch.tArrive.toNat r }] else []) b with
      exec := none, st := st, stopAfter := stop }

theorem launchDone_ends {c : Nat} {s : State} {x : Exec} {e : Ending} (hx : (s.ctx c).exec = some x)
    (he : x.ending = some e) : LaunchEnded c x e s (launchDone c s) := by
  unfold launchDone
  split
  · rename_i hx'
    rw [hx] at hx'
    contradiction
  rename_i x' hx'
  obtain rfl : x = x' := Option.some.inj (hx.symm.trans hx')
  split
  · rename_i he'
    rw [he] at he'
    contradiction
  rename_i e' he'
  obtain rfl : e = e' := Option.some.inj (he.symm.trans he')
  extract_lets fault r s1 s2 s3 s4 s5 s6 s7 k
  obtain ⟨b, k1⟩ : ∃ b, s1.ctx c = _ := pushDone_ctx c _ s
  have v1 : s1.deskView = s.deskView := pushDone_deskView ..
  obtain ⟨w2, k2⟩ : s2.weir = s1.weir ∧ s2.ctx c = s1.ctx c := by
    constructor
    · refine forList_keeps (v := State.weir) (fun g s => ?_) ..
      rfl
    · refine forList_keeps (v := fun s => s.ctx c) (fun g s => ?_) ..
      rfl
  have h2 : ∀ g ∈ x.crews, (s2.crew g).heldBy = none := by
    refine forList_each (P := fun g s => (s.crew g).heldBy = none) (fun g s => ?_) (fun g h s hg => ?_) _ s1
    · rw [State.modCrew_eq, State.setCrew_crew_same]
    · rw [State.modCrew_eq, State.setCrew_crew_ite]
      split
      · rfl
      · exact hg
  obtain ⟨v3, k3⟩ : s3.deskView = s2.deskView ∧ s3.ctx c = s2.ctx c := by
    constructor
    · refine forList_keeps (v := State.deskView) (fun t s => ?_) ..
      rfl
    · refine forList_keeps (v := fun s => s.ctx c) (fun t s => ?_) ..
      rfl
  have k4 : s4.ctx c = { s3.ctx c with exec := none } := modCtx_ctx ..
  obtain ⟨v6, k6⟩ : s6.deskView = s4.deskView ∧ s6.ctx c = s4.ctx c := by
    unfold s6 s5
    split <;> exact ⟨rfl, rfl⟩
  obtain ⟨v7, k7⟩ : s7.deskView = s6.deskView ∧ s7.ctx c = s6.ctx c := by
    unfold s7
    split
    · exact ⟨raise_deskView .., raise_ctx_at ..⟩
    · exact ⟨rfl, rfl⟩
  obtain ⟨v8, st, stop, k8⟩ : (if (k.stopAfter && decide (k.st = .running)) = true then enterStopped c s7 else s7).deskView =
      s7.deskView ∧ ∃ st stop, (if (k.stopAfter && decide (k.st = .running)) = true then enterStopped c s7 else s7).ctx c =
        { s7.ctx c with st := st, stopAfter := stop } := by
    split
    · exact ⟨enterStopped_deskView .., _, _, enterStopped_ctx ..⟩
    · exact ⟨rfl, _, _, rfl⟩
  have hdesk := v8.trans (v7.trans (v6.trans v3))
  refine ⟨?_, fun g hg => ?_, r, b, st, stop, rfl, ?_⟩
  · exact (congrArg DeskView.weir hdesk).trans (w2.trans (congrArg DeskView.weir v1))
  · exact (congrArg Crew.heldBy (crew_of_deskView hdesk g)).trans (h2 g hg)
  · rw [k8, k7, k6, k4, k3, k2, k1]

/-! ### The decision how an executing launch ends (06 R270, R271, 11 R452) -/

theorem endPair_now (c : Nat) (p : Pair) (s : State) : (endPair c p s).now = s.now := by
  unfold endPair
  refine forList_keeps (v := State.now) (fun g s => ?_) ..
  unfold gateCrew
  refine forList_keeps (v := State.now) (fun t s => ?_) ..
  rfl

theorem voidPair_now (c : Nat) (s : State) : (voidPair c s).now = s.now := by
  unfold voidPair
  split
  · rfl
  · split
    · rfl
    · exact endPair_now c _ s

theorem voidPair_ctx_eq {c : Nat} {s : State} {x : Exec} (hx : (s.ctx c).exec = some x) :
    (voidPair c s).ctx c = { s.ctx c with exec := some x.unpaired } := by
  cases hp : x.pair with
  | none =>
    rw [voidPair_of_unpaired hx hp, Exec.unpaired_of_none hp, ← hx]
  | some p =>
    obtain ⟨s1, hq, e⟩ := endPair_eq c p s
    have hv : voidPair c s = (endPair c p s).umpCount 5 := by simp only [voidPair, hx, hp]
    rw [hv, e]
    refine (modExec_ctx s1 c _).trans ?_
    rw [hq.ctx c, hx]
    rfl

theorem easyAllOriginate_now (job : BitVec 32) (cause : Nat) (origin : BitVec 64) (s : State) :
    (easyAllOriginate job cause origin s).now = s.now := by
  unfold easyAllOriginate flood
  rw [raise_now]
  refine forUp_keeps (v := State.now) (fun n s => ?_) ..
  simp only [sendFlit]
  split
  · split <;> rfl
  · rfl

/-- Context k once the end of its launch x is decided; class X, and class F without CONT_ON_FAULT, also aborts it. -/
def Ctx.ending (k : Ctx) (x : Exec) (status detail : Nat) (now : BitVec 64) : Ctx :=
  { k with
    exec := some (x.endedBy status detail now)
    st := if classX status || (classF status && !k.contOnFault) then .aborting else k.st }

/-- Context k at the start of its abort. -/
def Ctx.swept (k : Ctx) (now : BitVec 64) : Ctx :=
  { k with sweep := some now, abort := some { start := now, quiesced := false, parts := [], stuck := [] } }

theorem contextAbort_ctx {c : Nat} {s : State} (h : (s.ctx c).abort = none) :
    (contextAbort c s).ctx c = (s.ctx c).swept s.now := by
  simp only [contextAbort, h, Option.isSome_none, Bool.false_eq_true, if_false, State.setCtx_ctx_same]
  rfl

/-- A launch without an ending takes this one; then its context aborts, or the launch is done where nothing of it has
executed. -/
theorem decideEnd_decides {c : Nat} {s : State} {x : Exec} (status detail : Nat) (o : BitVec 64)
    (hx : (s.ctx c).exec = some x) (he : x.ending = none) : ∃ s1,
      s1.ctx c = (s.ctx c).ending x status detail s.now ∧ s1.now = s.now ∧
      decideEnd c status detail o s = if classX status || x.began then contextAbort c s1 else launchDone c s1 := by
  have hy : ¬ evictYields s x status = true := by rw [evictYields, he]; exact Bool.false_ne_true
  have hn : ¬ x.ending.isSome = true := by rw [he]; exact Bool.false_ne_true
  unfold decideEnd
  split
  · rename_i hx'
    rw [hx] at hx'
    contradiction
  rename_i x' hx'
  obtain rfl : x = x' := Option.some.inj (hx.symm.trans hx')
  extract_lets e k s2 s3 stops s4 s5
  rw [if_neg hy, if_neg hn]
  have k3 : s3.ctx c = { s.ctx c with exec := some (x.endedBy status detail s.now) } := by
    refine (modExec_ctx s2 c _).trans ?_
    rw [show s2.ctx c = _ from voidPair_ctx_eq hx]
    rfl
  have k4 : s4.ctx c = (s.ctx c).ending x status detail s.now := by
    unfold s4
    split
    · rename_i hs
      rw [modCtx_ctx, k3, Ctx.ending, if_pos hs]
    · rename_i hs
      rw [k3, Ctx.ending, if_neg hs]
  have n4 : s4.now = s.now := by
    refine Eq.trans ?_ (voidPair_now c s)
    unfold s4
    split <;> rfl
  refine ⟨s5, ?_, ?_, rfl⟩
  · rw [← k4]
    unfold s5
    split
    · exact (easyAllOriginate_quiet ..).ctx c
    · rfl
  · rw [← n4]
    unfold s5
    split
    · exact easyAllOriginate_now ..
    · rfl

/-- A launch that has begun, or whose class is X, ends by an abort of its context. -/
theorem decideEnd_aborts {c : Nat} {s : State} {x : Exec} (status detail : Nat) (o : BitVec 64)
    (hx : (s.ctx c).exec = some x) (he : x.ending = none) (ha : (s.ctx c).abort = none)
    (hc : classX status = true ∨ x.began = true) :
    (decideEnd c status detail o s).ctx c = ((s.ctx c).ending x status detail s.now).swept s.now := by
  obtain ⟨s1, k1, n1, e⟩ := decideEnd_decides status detail o hx he
  rw [e, if_pos (by rw [Bool.or_eq_true]; exact hc), contextAbort_ctx (by rw [k1]; exact ha), k1, n1]

end Sys2Proof.Machine

namespace Sys2Proof.Machine

/-! ### Doorbells (06 R237, R240) -/

section Doorbell
variable {s : State} (c : Nat) {width : Nat} (v : BitVec 64)

theorem doorbell_of_width (tail : Bool) (hw : width ≠ 4 ∧ width ≠ 8) : doorbell c tail width v s = s := by
  simp [doorbell, hw.1, hw.2]

variable (ha : s.alive = true) (ho : s.rst.oos = false) (hw : width = 4 ∨ width = 8)
include ha ho hw

theorem doorbell_eq (tail : Bool) : doorbell c tail width v s =
    if ringSize (if tail then (s.ctx c).sqSize else (s.ctx c).cqSize) ≤ (v.extractLsb' 0 12).toNat then
      raise 0x7011 c (v.extractLsb' 0 12).toNat s
    else if tail then s.setCtx c { s.ctx c with sqTail := (v.extractLsb' 0 12).toNat }
    else s.setCtx c { s.ctx c with
      cqHead := (v.extractLsb' 0 12).toNat
      cqHold := (s.ctx c).cqHold && !cqRoom { s.ctx c with cqHead := (v.extractLsb' 0 12).toNat } } := by
  have h : (!s.alive || s.rst.oos || !(decide (width = 4) || decide (width = 8))) = false := by
    rw [ha, ho]
    obtain rfl | rfl := hw <;> rfl
  simp only [doorbell, h, Bool.false_eq_true, if_false, bits_toNat]

/-- An index at or above the ring size is ignored. -/
theorem doorbell_beyond (tail : Bool)
    (hi : ringSize (if tail then (s.ctx c).sqSize else (s.ctx c).cqSize) ≤ (v.extractLsb' 0 12).toNat) :
    doorbell c tail width v s = raise 0x7011 c (v.extractLsb' 0 12).toNat s := by
  rw [doorbell_eq c v ha ho hw, if_pos hi]

theorem doorbell_tail (hi : (v.extractLsb' 0 12).toNat < ringSize (s.ctx c).sqSize) :
    doorbell c true width v s = s.setCtx c { s.ctx c with sqTail := (v.extractLsb' 0 12).toNat } := by
  simp only [doorbell_eq c v ha ho hw, if_true, if_neg (Nat.not_le_of_lt hi)]

theorem doorbell_head (hi : (v.extractLsb' 0 12).toNat < ringSize (s.ctx c).cqSize) :
    doorbell c false width v s = s.setCtx c { s.ctx c with
      cqHead := (v.extractLsb' 0 12).toNat
      cqHold := (s.ctx c).cqHold &&
        decide (((s.ctx c).cqTail + 1) % ringSize (s.ctx c).cqSize = (v.extractLsb' 0 12).toNat) } := by
  simp only [doorbell_eq c v ha ho hw, Bool.false_eq_true, if_false, if_neg (Nat.not_le_of_lt hi), cqRoom, ne_eq,
    decide_not, Bool.not_not]

end Doorbell

/-! ### Berth commands (06 R247, Table 6-2) -/

/-- The crews that a berth command names. -/
def namedCrews (g n : Nat) : List Nat := (List.range n).map (g + ·)

theorem mem_namedCrews {g n h : Nat} : h ∈ namedCrews g n ↔ g ≤ h ∧ h < g + n := by
  simp only [namedCrews, List.mem_map, List.mem_range]
  constructor
  · rintro ⟨i, hi, rfl⟩
    omega
  · intro ⟨h1, h2⟩
    exact ⟨h - g, by omega, by omega⟩

theorem forUp_modCrew_berth (b : Option Nat) (g n : Nat) (s : State) (h : Nat) :
    ((forUp (fun h s => s.modCrew h fun k => { k with berth := b }) g n s).crew h).berth =
      if h ∈ namedCrews g n then b else (s.crew h).berth := by
  simp only [mem_namedCrews]
  induction n generalizing g s with
  | zero =>
    rw [if_neg fun ⟨h1, h2⟩ => Nat.not_lt_of_le h1 h2]
    rfl
  | succ n ih =>
    rw [forUp, ih, State.modCrew_eq, State.setCrew_crew_ite]
    by_cases hg : h = g
    · rw [if_pos hg, if_pos (by omega : g ≤ h ∧ h < g + (n + 1)), ite_self]
    · rw [if_neg hg]
      exact if_congr (by omega) rfl rfl

/-- The berth b of a crew after CLEAR of context c. -/
def unberthed (c : Nat) (b : Option Nat) : Option Nat := if b = some c then none else b

theorem unberthed_unberthed (c : Nat) (b : Option Nat) : unberthed c (unberthed c b) = unberthed c b := by
  by_cases h : b = some c
  · rw [unberthed, unberthed, if_pos h]
    rfl
  · rw [unberthed, unberthed, if_neg h, if_neg h]

theorem unberth_crew (c g : Nat) (s : State) (h : Nat) :
    ((if (s.crew g).berth = some c then s.modCrew g fun k => { k with berth := none } else s).crew h).berth =
      if h = g then unberthed c (s.crew h).berth else (s.crew h).berth := by
  by_cases hg : h = g
  · subst hg
    rw [if_pos rfl, unberthed]
    split
    · rw [State.modCrew_eq, State.setCrew_crew_same]
    · rfl
  · rw [if_neg hg]
    split
    · rw [State.modCrew_eq, State.setCrew_crew_other _ _ _ _ hg]
    · rfl

theorem forList_unberth (c : Nat) (l : List (Nat × Crew)) (s : State) (h : Nat) :
    ((forList (fun e s => if (s.crew e.1).berth = some c then s.modCrew e.1 fun k => { k with berth := none } else s)
      l s).crew h).berth = if h ∈ l.map (·.1) then unberthed c (s.crew h).berth else (s.crew h).berth := by
  induction l generalizing s with
  | nil => rfl
  | cons e l ih =>
    rw [forList, ih, unberth_crew, List.map_cons]
    simp only [List.mem_cons]
    by_cases he : h = e.1
    · simp only [he, true_or, if_true, unberthed_unberthed, ite_self]
    · simp only [he, false_or, if_false]

/-- A crew with a berth is listed. -/
theorem mem_crews_of_berth {s : State} {h c : Nat} (hb : (s.crew h).berth = some c) : h ∈ s.ump.crews.map (·.1) := by
  have hl : (h, s.crew h) ∈ s.ump.crews := by
    refine Tbl.mem_of_look_ne (d := ({ } : Crew)) fun e => ?_
    have hnone : (s.crew h).berth = none := congrArg Crew.berth e
    rw [hb] at hnone
    contradiction
  exact List.mem_map_of_mem hl

section Berth
variable {s : State} (c g n : Nat) (ha : s.alive = true)
include ha

theorem berthCmd_result (op : Nat) : (berthCmd op c g n s).berthResult = berthResultOf s op c g n := by
  have hnot : ¬ (!s.alive) = true := by simp [ha]
  simp only [berthCmd, if_neg hnot]
  split
  · rfl
  · split
    · refine forList_keeps (v := State.berthResult) (fun e s => ?_) ..
      split <;> rfl
    · refine forUp_keeps (v := State.berthResult) (fun h s => ?_) ..
      rfl

/-- ADD and REMOVE change the crews that they name, and CLEAR those of its context. -/
theorem berthCmd_berth {op : Nat} (hop : op ≠ 3) (h : Nat) : ((berthCmd op c g n s).crew h).berth =
    if berthResultOf s op c g n = 0 ∧ h ∈ namedCrews g n then (if op = 1 then some c else none)
    else (s.crew h).berth := by
  have hnot : ¬ (!s.alive) = true := by simp [ha]
  simp only [berthCmd, if_neg hnot, if_neg hop]
  by_cases hr : berthResultOf s op c g n = brDone
  · rw [if_neg (not_not_intro hr), forUp_modCrew_berth]
    exact if_congr (by simp [hr, brDone]) rfl rfl
  · rw [if_pos hr, if_neg fun ⟨h0, _⟩ => hr h0]
    rfl

theorem berthCmd_clear (h : Nat) : ((berthCmd 3 c g n s).crew h).berth =
    if berthResultOf s 3 c g n = 0 ∧ (s.crew h).berth = some c then none else (s.crew h).berth := by
  have hnot : ¬ (!s.alive) = true := by simp [ha]
  simp only [berthCmd, if_neg hnot, if_true]
  by_cases hr : berthResultOf s 3 c g n = brDone
  · rw [if_neg (not_not_intro hr), forList_unberth]
    show (if h ∈ s.ump.crews.map (·.1) then unberthed c (s.crew h).berth else (s.crew h).berth) = _
    by_cases hb : (s.crew h).berth = some c
    · rw [if_pos (mem_crews_of_berth hb), unberthed, if_pos hb, if_pos ⟨hr, hb⟩]
    · rw [unberthed, if_neg hb, ite_self, if_neg fun ⟨_, h0⟩ => hb h0]
  · rw [if_pos hr, if_neg fun ⟨h0, _⟩ => hr h0]
    rfl

end Berth

/-- The results of 06 Table 6-2 in service, as they are listed there. -/
theorem berthResultOf_eq {s : State} {op : Nat} (c g n : Nat) (ho : s.rst.oos = false) (hop : op ≠ 0) :
    berthResultOf s op c g n =
      if ctxBusy (s.ctx c) = true then 1 else if op = 3 then 0
      else if n = 0 ∨ 512 < g + n ∨ ∃ h ∈ namedCrews g n, crewEnabled s h = false then 3
      else if op = 1 ∧ ∃ h ∈ namedCrews g n, (s.crew h).berth ≠ none ∧ (s.crew h).berth ≠ some c then 2
      else if op = 2 ∧ ∃ h ∈ namedCrews g n, (s.crew h).berth ≠ some c then 4 else 0 := by
  unfold berthResultOf
  rw [if_neg (by simp [ho, hop])]
  refine if_congr Iff.rfl rfl (if_congr Iff.rfl rfl (if_congr ?_ rfl (if_congr ?_ rfl (if_congr ?_ rfl rfl))))
  · simp [namedCrews, or_assoc]
  · rw [Bool.and_eq_true, List.any_eq_true, decide_eq_true_eq]
    refine and_congr_right fun _ => exists_congr fun h => and_congr_right fun _ => ?_
    cases (s.crew h).berth <;> simp
  · simp [namedCrews]

theorem berthResultOf_add {s : State} (c g n : Nat) (ho : s.rst.oos = false) : berthResultOf s 1 c g n =
    if ctxBusy (s.ctx c) = true then 1
    else if n = 0 ∨ 512 < g + n ∨ ∃ h ∈ namedCrews g n, crewEnabled s h = false then 3
    else if ∃ h ∈ namedCrews g n, (s.crew h).berth ≠ none ∧ (s.crew h).berth ≠ some c then 2 else 0 := by
  simp only [berthResultOf_eq c g n ho (by decide : 1 ≠ 0), Nat.reduceEqDiff, true_and, false_and, if_false]

theorem berthResultOf_remove {s : State} (c g n : Nat) (ho : s.rst.oos = false) : berthResultOf s 2 c g n =
    if ctxBusy (s.ctx c) = true then 1
    else if n = 0 ∨ 512 < g + n ∨ ∃ h ∈ namedCrews g n, crewEnabled s h = false then 3
    else if ∃ h ∈ namedCrews g n, (s.crew h).berth ≠ some c then 4 else 0 := by
  simp only [berthResultOf_eq c g n ho (by decide : 2 ≠ 0), Nat.reduceEqDiff, true_and, false_and, if_false]

theorem berthResultOf_clear {s : State} (c g n : Nat) (ho : s.rst.oos = false) : berthResultOf s 3 c g n =
    if ctxBusy (s.ctx c) = true then 1 else 0 := by
  simp only [berthResultOf_eq c g n ho (by decide : 3 ≠ 0), if_true]

/-- Settles O19: a doorbell by its index, and a berth command by its result. -/
theorem doorbellAndBerthResults : Obligations.DoorbellAndBerthResults := by
  unfold Obligations.DoorbellAndBerthResults
  constructor
  · intro s c width v ha ho x i
    exact ⟨fun hw =>
      ⟨fun hi => congrArg Host.Outcome.next (doorbell_tail c.val v ha ho hw hi),
       fun hi => congrArg Host.Outcome.next (doorbell_beyond c.val v ha ho hw true hi),
       fun hi => congrArg Host.Outcome.next (doorbell_head c.val v ha ho hw hi),
       fun hi => congrArg Host.Outcome.next (doorbell_beyond c.val v ha ho hw false hi)⟩,
      fun h4 h8 =>
        ⟨congrArg Host.Outcome.next (doorbell_of_width c.val v true ⟨h4, h8⟩),
         congrArg Host.Outcome.next (doorbell_of_width c.val v false ⟨h4, h8⟩)⟩⟩
  · intro s c g n ha ho crews bad busy
    have hn : n.toNat = 0 ↔ n = 0#10 := by rw [← BitVec.toNat_inj]; rfl
    refine ⟨_, _, _, rfl, rfl, rfl, ?_, ?_, ?_, fun h => ?_, fun h => ?_, fun h => ?_⟩
    · rw [berthCmd_result _ _ _ ha, berthResultOf_add _ _ _ ho]
      exact if_congr Iff.rfl rfl (if_congr (or_congr_left hn) rfl rfl)
    · rw [berthCmd_result _ _ _ ha, berthResultOf_remove _ _ _ ho]
      exact if_congr Iff.rfl rfl (if_congr (or_congr_left hn) rfl rfl)
    · rw [berthCmd_result _ _ _ ha, berthResultOf_clear _ _ _ ho]
    · rw [berthCmd_berth _ _ _ ha (by decide), berthCmd_result _ _ _ ha]
      rfl
    · rw [berthCmd_berth _ _ _ ha (by decide), berthCmd_result _ _ _ ha]
      rfl
    · rw [berthCmd_clear _ _ _ ha, berthCmd_result _ _ _ ha]

end Sys2Proof.Machine

namespace Sys2Proof.Machine

/-! ### CTX_CFG (06 R242, R243, R274, 01 R54) -/

theorem jobTaken_iff {s : State} {c : Nat} {job : BitVec 32} :
    jobTaken s c job = true ↔ job ≠ 0#32 ∧ ∃ e ∈ s.ctxs, e.1 ≠ c ∧ e.2.jobid = job := by
  simp [jobTaken]

theorem ofNat_div_eq_extractLsb' (v : BitVec 64) : BitVec.ofNat 32 (v.toNat / 2 ^ 32) = v.extractLsb' 32 32 := by
  apply BitVec.eq_of_toNat_eq
  simp [BitVec.extractLsb'_toNat, Nat.shiftRight_eq_div_pow]

/-- What a context that holds no launch takes of a CTX_CFG write, but for EN. -/
def Ctx.configured (s : State) (c : Nat) (v : BitVec 64) : Ctx :=
  let x := { s.ctx c with
    contOnFault := v.getLsbD 1, irqEn := v.getLsbD 2, limitMs := (v.extractLsb' 16 16).toNat }
  if jobTaken s c (v.extractLsb' 32 32) || decide (v.extractLsb' 32 32 = x.jobid) then x
  else { x with jobid := v.extractLsb' 32 32, jobAt := s.now }

theorem ctxCfgWrite_of_idle {s : State} {c : Nat} (v : BitVec 64) (h : ctxBusy (s.ctx c) = false) :
    ctxCfgWrite c v s = s.setCtx c (
      if v.getLsbD 0 && decide ((s.ctx c).st = .disabled) then
        { Ctx.configured s c v with
          st := .running, en := true, sqHead := 0, cqTail := 0, sqTail := 0, cqHead := 0, cqPhase := true
          cqHold := false, seqNo := 0 }
      else if !v.getLsbD 0 && (decide ((s.ctx c).st = .running) || decide ((s.ctx c).st = .stopped)) then
        { Ctx.configured s c v with st := .disabled, en := false }
      else Ctx.configured s c v) := by
  simp only [ctxCfgWrite, h, Bool.false_eq_true, if_false, bit_toNat, bits_toNat, ofNat_div_eq_extractLsb',
    Bool.not_false, Bool.and_true]
  rfl

theorem ctxCfgWrite_of_busy {s : State} {c : Nat} {v : BitVec 64} (h : ctxBusy (s.ctx c) = true)
    (hv : v.getLsbD 0 = false) :
    ctxCfgWrite c v s = s.setCtx c { s.ctx c with contOnFault := v.getLsbD 1, irqEn := v.getLsbD 2 } := by
  simp only [ctxCfgWrite, h, bit_toNat, hv, if_true, Bool.not_true, Bool.and_false, Bool.false_and, Bool.false_eq_true,
    if_false]

theorem configured_fields (s : State) (c : Nat) (v : BitVec 64) :
    (Ctx.configured s c v).contOnFault = v.getLsbD 1 ∧ (Ctx.configured s c v).irqEn = v.getLsbD 2 ∧
    (Ctx.configured s c v).limitMs = (v.extractLsb' 16 16).toNat ∧
    (Ctx.configured s c v).sqSize = (s.ctx c).sqSize ∧ (Ctx.configured s c v).cqSize = (s.ctx c).cqSize ∧
    (Ctx.configured s c v).spillLines = (s.ctx c).spillLines := by
  simp only [Ctx.configured]
  split <;> exact ⟨rfl, rfl, rfl, rfl, rfl, rfl⟩

/-- A job ID that another context has is not taken; any other is. -/
theorem configured_jobid (s : State) (c : Nat) (v : BitVec 64) : (Ctx.configured s c v).jobid =
    if jobTaken s c (v.extractLsb' 32 32) = true then (s.ctx c).jobid else v.extractLsb' 32 32 := by
  cases ht : jobTaken s c (v.extractLsb' 32 32)
  · simp only [Ctx.configured, ht, Bool.false_or, Bool.false_eq_true, if_false]
    split
    · rename_i hj
      exact (of_decide_eq_true hj).symm
    · rfl
  · simp only [Ctx.configured, ht, Bool.true_or, if_true]

theorem exec_ctxEnable {s : State} {c : CtxIx} {v : BitVec 64} (ha : s.alive = true) (hv : v.getLsbD 0 = true) :
    exec (.ctxEnable c v) s = .next (ctxCfgWrite c.val v s) :=
  congrArg Host.Outcome.next (if_pos (by rw [ha, bit_toNat, hv]; rfl))

theorem exec_ctxDisable {s : State} {c : CtxIx} {v : BitVec 64} (ha : s.alive = true) (hv : v.getLsbD 0 = false) :
    exec (.ctxDisable c v) s = .next (ctxCfgWrite c.val v s) :=
  congrArg Host.Outcome.next (if_pos (by rw [ha, bit_toNat, hv]; rfl))

/-! ### Commands of CTX_CMD (06 R244, R245) -/

/-- A command that does nothing completes no launch, so no scheduler pass follows it. -/
theorem thenPass_of_unchanged {f : State → State} {s : State} (h : f s = s) : thenPass f s = s := by
  rw [thenPass, h]
  exact passesFrom_of_passMark _ rfl

theorem resumeCtx_of_stopped {s : State} {c : Nat} (ha : s.alive = true) (h : (s.ctx c).st = .stopped) :
    resumeCtx c s = s.setCtx c { s.ctx c with st := .running } := by
  simp only [resumeCtx, ha, h, decide_true, Bool.and_true, if_true]

theorem resumeCtx_of_notStopped {s : State} {c : Nat} (h : (s.ctx c).st ≠ .stopped) : resumeCtx c s = s := by
  simp only [resumeCtx, decide_eq_false h, Bool.and_false, Bool.false_eq_true, if_false]

theorem flushCtx_of_notStopped {s : State} {c : Nat} (h : (s.ctx c).st ≠ .stopped) : flushCtx c s = s := by
  simp only [flushCtx, decide_eq_true h, Bool.or_true, if_true]

theorem abortCtx_of_executing {s : State} {c : Nat} {x : Exec} (ha : s.alive = true) (hs : (s.ctx c).st = .running)
    (hx : (s.ctx c).exec = some x) : abortCtx c s = decideEnd c stHostAbort 0 s.now s := by
  simp only [abortCtx, ha, hs, hx, decide_true, Option.isSome_some, Bool.and_true, if_true]

/-! ### The end of an abort (06 R242, 11 Table 11-5) -/

theorem Tbl.insert_insert {α : Type} (k : Nat) (x y : α) (t : Tbl α) :
    Tbl.insert k y (Tbl.insert k x t) = Tbl.insert k y t := by
  induction t with
  | nil => simp [Tbl.insert]
  | cons e r ih =>
    obtain ⟨j, z⟩ := e
    by_cases h1 : k < j
    · simp [Tbl.insert, h1]
    · by_cases h2 : k = j
      · simp [Tbl.insert, h2]
      · simp [Tbl.insert, h1, h2, ih]

theorem Ctx.ne_default {x : Ctx} (h : x.st ≠ .disabled) : x ≠ { } := fun e => h (congrArg Ctx.st e)

/-- The later of two writes of a context stands, where it is DISABLED in neither. -/
theorem setCtx_setCtx {s : State} {c : Nat} {x y : Ctx} (hx : x.st ≠ .disabled) (hy : y.st ≠ .disabled) :
    (s.setCtx c x).setCtx c y = s.setCtx c y := by
  simp only [State.setCtx, Tbl.put, if_neg (Ctx.ne_default hx), if_neg (Ctx.ne_default hy), Tbl.insert_insert]

theorem ctxStopped_of_over {s : State} {c : Nat} (hs : (s.ctx c).st = .aborting) (ho : abortOver (s.ctx c) = true)
    (hx : (s.ctx c).exec = none) (hw : (s.ctx c).sweep = none) (hen : (s.ctx c).en = true) :
    ctxStopped c s = raise 0x7012 c 0
      (s.setCtx c { s.ctx c with st := .stopped, abort := none, stopAfter := false }) := by
  have he : enterStopped c (s.setCtx c { s.ctx c with abort := none }) = raise 0x7012 c 0
      (s.setCtx c { s.ctx c with st := .stopped, abort := none, stopAfter := false }) := by
    rw [enterStopped, State.modCtx_eq, State.setCtx_ctx_same]
    refine congrArg (raise 0x7012 c 0) (setCtx_setCtx ?_ ?_)
    · exact fun h => nomatch hs.symm.trans h
    · exact fun h => nomatch h
  unfold ctxStopped
  extract_lets x s1
  refine (if_pos ?_).trans ((if_pos hen).trans he)
  simp [x, hs, ho, hx, hw]

theorem ctxStopped_of_aborting {s : State} {c : Nat} (ho : abortOver (s.ctx c) = false) : ctxStopped c s = s := by
  simp only [ctxStopped, ho, Bool.and_false, Bool.false_and, Bool.false_eq_true, if_false]

/-- Settles O20: a write of CTX_CFG by `ctxCfgWrite`, an abort by `decideEnd_aborts`, and its end by `ctxStopped`. -/
theorem contextStates : Obligations.ContextStates := by
  unfold Obligations.ContextStates
  refine ⟨?enable, ?disable, ?resume, ?abort, ?stopped⟩
  case enable =>
    intro s c v ha hv hst hidle taken
    obtain ⟨hcont, hirq, hlimit, hsq, hcq, hlines⟩ := configured_fields s c.val v
    refine ⟨_, _, exec_ctxEnable ha hv, ctxCfgWrite_of_idle v hidle, ?_⟩
    rw [if_pos (by rw [hv, hst]; rfl)]
    refine ⟨rfl, rfl, rfl, rfl, rfl, rfl, rfl, rfl, hcont, hirq, hlimit, fun ht => ?_, fun ht => ?_, hsq, hcq, hlines⟩
    · exact (configured_jobid ..).trans (if_pos (jobTaken_iff.mpr ht))
    · exact (configured_jobid ..).trans (if_neg fun h => ht (jobTaken_iff.mp h))
  case disable =>
    intro s c v ha hv
    cases hb : ctxBusy (s.ctx c.val) with
    | true => exact ⟨_, _, exec_ctxDisable ha hv, ctxCfgWrite_of_busy hb hv, fun _ => rfl, nofun⟩
    | false =>
      refine ⟨_, _, exec_ctxDisable ha hv, ctxCfgWrite_of_idle v hb, nofun, fun _ hst => ?_⟩
      rw [hv, Bool.false_and, if_neg Bool.false_ne_true, if_pos (by simpa using hst)]
      exact ⟨rfl, rfl⟩
  case resume =>
    intro s c ha
    exact ⟨fun h => congrArg Host.Outcome.next (resumeCtx_of_stopped ha h), fun h =>
      ⟨congrArg Host.Outcome.next (resumeCtx_of_notStopped h),
       congrArg Host.Outcome.next (thenPass_of_unchanged (flushCtx_of_notStopped h))⟩⟩
  case abort =>
    intro s c x ha hs hx he hab
    have hk := decideEnd_aborts stHostAbort 0 s.now hx he hab (.inl rfl)
    refine ⟨_, x.endedBy stHostAbort 0 s.now, congrArg Host.Outcome.next (abortCtx_of_executing ha hs hx), ?_⟩
    rw [hk]
    exact ⟨rfl, rfl, rfl, rfl, rfl⟩
  case stopped =>
    intro s c a hs ha
    have ho : abortOver (s.ctx c.val) = (a.quiesced && (s.ctx c.val).sweep.isNone && a.parts.isEmpty &&
        a.stuck.isEmpty && (s.ctx c.val).exec.isNone) := by simp only [abortOver, ha]
    refine ⟨fun ⟨hq, hp, hst, hw, hx⟩ hen => ?_, fun h => ?_⟩
    · refine congrArg Host.Outcome.next (ctxStopped_of_over hs ?_ hx hw hen)
      rw [ho, hq, hp, hst, hw, hx]
      rfl
    · refine congrArg Host.Outcome.next (ctxStopped_of_aborting ?_)
      obtain hq | hw := h
      · simp [ho, hq]
      · simp [ho, hw]

end Sys2Proof.Machine

namespace Sys2Proof.Machine

/-! ### FLUSH (06 R244, R245) -/

/-- Context k has become k', leaving n records more, all with status FLUSHED. -/
structure LeavesFlushed (n : Nat) (k k' : Ctx) : Prop where
  st : k'.st = k.st
  en : k'.en = k.en
  sqLoc : k'.sqLoc = k.sqLoc
  sqSize : k'.sqSize = k.sqSize
  fetched : k'.fetched = k.fetched
  done : ∃ ds : List Done, ds.length = n ∧ (∀ d ∈ ds, d.bytes.getD 4 0#8 = 0x06#8) ∧ k'.done = k.done ++ ds

theorem LeavesFlushed.refl (k : Ctx) : LeavesFlushed 0 k k :=
  ⟨rfl, rfl, rfl, rfl, rfl, [], rfl, nofun, (List.append_nil _).symm⟩

theorem LeavesFlushed.trans {n m : Nat} {k k₁ k' : Ctx} (h : LeavesFlushed n k k₁) (h' : LeavesFlushed m k₁ k') :
    LeavesFlushed (n + m) k k' := by
  obtain ⟨ds, hl, hs, hd⟩ := h.done
  obtain ⟨es, hl', hs', hd'⟩ := h'.done
  refine ⟨h'.st.trans h.st, h'.en.trans h.en, h'.sqLoc.trans h.sqLoc, h'.sqSize.trans h.sqSize,
    h'.fetched.trans h.fetched, ds ++ es, by rw [List.length_append, hl, hl'], fun d hm => ?_, ?_⟩
  · exact (List.mem_append.mp hm).elim (hs d) (hs' d)
  · rw [hd', hd, List.append_assoc]

theorem refuseLaunch_flushed (c : Nat) (l : Launch) {s : State} (h : (s.ctx c).en = true) :
    LeavesFlushed 1 (s.ctx c) ((refuseLaunch c stFlushed l s).ctx c) ∧
    ((refuseLaunch c stFlushed l s).ctx c).sqHead = (s.ctx c).sqHead := by
  obtain ⟨d, b, hd, k⟩ := refuseLaunch_ctx c stFlushed l h
  rw [k]
  refine ⟨⟨rfl, rfl, rfl, rfl, rfl, [d], rfl, fun e he => ?_, rfl⟩, rfl⟩
  rw [List.mem_singleton.mp he, hd]
  rfl

/-- Every launch of a list is refused. -/
theorem refuseAll_flushed (c : Nat) (l : List Launch) {s : State} (h : (s.ctx c).en = true) :
    LeavesFlushed l.length (s.ctx c) ((forList (fun x s => refuseLaunch c stFlushed x s) l s).ctx c) ∧
    ((forList (fun x s => refuseLaunch c stFlushed x s) l s).ctx c).sqHead = (s.ctx c).sqHead := by
  induction l generalizing s with
  | nil => exact ⟨.refl _, rfl⟩
  | cons x l ih =>
    obtain ⟨h1, e1⟩ := refuseLaunch_flushed c x h
    obtain ⟨h2, e2⟩ := ih (h1.en.trans h)
    rw [List.length_cons, Nat.add_comm]
    exact ⟨h1.trans h2, e2.trans e1⟩

theorem readSq_host {c i : Nat} {s : State} (h : (s.ctx c).sqLoc = false) :
    readSq c i s = (.ok (bytesAt 0 s.hostMem (sqAddr (s.ctx c) i) 64), s) := by
  simp only [readSq, h, Bool.false_eq_true, if_false]

/-- A descriptor of a ring in host memory is refused as read, at the head of the ring. -/
theorem flushOne_eq {c : Nat} {s : State} (h : (s.ctx c).sqLoc = false) : ∃ l, flushOne c s =
    refuseLaunch c stFlushed l (s.modCtx c fun x => { x with
      seqNo := (x.seqNo + 1) % 2 ^ 26, sqHead := (x.sqHead + 1) % ringSize x.sqSize }) := by
  unfold flushOne
  extract_lets x
  rw [readSq_host h]
  exact ⟨_, rfl⟩

theorem flushOne_flushed {c : Nat} {s : State} (hen : (s.ctx c).en = true) (hloc : (s.ctx c).sqLoc = false) :
    LeavesFlushed 1 (s.ctx c) ((flushOne c s).ctx c) ∧
    ((flushOne c s).ctx c).sqHead = ((s.ctx c).sqHead + 1) % ringSize (s.ctx c).sqSize := by
  obtain ⟨l, e⟩ := flushOne_eq hloc
  rw [e]
  have h := refuseLaunch_flushed c l (s := s.modCtx c fun x => { x with
    seqNo := (x.seqNo + 1) % 2 ^ 26, sqHead := (x.sqHead + 1) % ringSize x.sqSize }) (by rw [modCtx_ctx]; exact hen)
  rw [modCtx_ctx] at h
  obtain ⟨⟨hst, he, hl, hsz, hf, hd⟩, hh⟩ := h
  exact ⟨⟨hst, he, hl, hsz, hf, hd⟩, hh⟩

theorem forUp_flushOne {c : Nat} {s : State} (i n : Nat) (hen : (s.ctx c).en = true) (hloc : (s.ctx c).sqLoc = false)
    (hlt : (s.ctx c).sqHead < ringSize (s.ctx c).sqSize) :
    LeavesFlushed n (s.ctx c) ((forUp (fun _ s => flushOne c s) i n s).ctx c) ∧
    ((forUp (fun _ s => flushOne c s) i n s).ctx c).sqHead =
      ((s.ctx c).sqHead + n) % ringSize (s.ctx c).sqSize := by
  induction n generalizing i s with
  | zero => exact ⟨.refl _, (Nat.mod_eq_of_lt hlt).symm⟩
  | succ n ih =>
    obtain ⟨h1, e1⟩ := flushOne_flushed hen hloc
    have hpos : 0 < ringSize (s.ctx c).sqSize := Nat.zero_lt_of_lt hlt
    obtain ⟨h2, e2⟩ := ih (i + 1) (h1.en.trans hen) (h1.sqLoc.trans hloc) (by rw [e1, h1.sqSize]; exact Nat.mod_lt _ hpos)
    have h := h1.trans h2
    rw [Nat.add_comm 1 n] at h
    refine ⟨h, e2.trans ?_⟩
    rw [e1, h1.sqSize, Nat.mod_add_mod, Nat.add_assoc, Nat.add_comm 1 n]

/-- As many steps round a ring as lie between head and tail lead from one to the other. -/
theorem ring_distance {size head tail : Nat} (hh : head < size) (ht : tail < size) :
    (head + (tail + size - head) % size) % size = tail := by
  rw [Nat.add_mod_mod, Nat.add_sub_cancel' (by omega), Nat.add_mod_right, Nat.mod_eq_of_lt ht]

theorem flushCtx_flushed {c : Nat} {s : State} (ha : s.alive = true) (hst : (s.ctx c).st = .stopped)
    (hen : (s.ctx c).en = true) (hloc : (s.ctx c).sqLoc = false)
    (hh : (s.ctx c).sqHead < ringSize (s.ctx c).sqSize) (ht : (s.ctx c).sqTail < ringSize (s.ctx c).sqSize) :
    LeavesFlushed ((s.ctx c).fetched.length + ((s.ctx c).sqTail + ringSize (s.ctx c).sqSize - (s.ctx c).sqHead) %
      ringSize (s.ctx c).sqSize) (s.ctx c).emptied ((flushCtx c s).ctx c) ∧
    ((flushCtx c s).ctx c).sqHead = (s.ctx c).sqTail := by
  have hgo : ¬ (!s.alive || decide ((s.ctx c).st ≠ .stopped)) = true := by simp [ha, hst]
  have k0 : (s.modCtx c Ctx.emptied).ctx c = (s.ctx c).emptied := modCtx_ctx ..
  have h1 := refuseAll_flushed c (s.ctx c).fetched (s := s.modCtx c Ctx.emptied) (by rw [k0]; exact hen)
  rw [k0] at h1
  obtain ⟨h1, e1⟩ := h1
  simp only [flushCtx, if_neg hgo]
  obtain ⟨h2, e2⟩ := forUp_flushOne (c := c) (s := refuseFetched c stFlushed s) 0
    (((s.ctx c).sqTail + ringSize (s.ctx c).sqSize - (s.ctx c).sqHead) % ringSize (s.ctx c).sqSize)
    (h1.en.trans hen) (h1.sqLoc.trans hloc) (lt_of_eq_of_lt e1 (lt_of_lt_of_eq hh (congrArg ringSize h1.sqSize).symm))
  refine ⟨h1.trans h2, e2.trans ?_⟩
  have e : (((refuseFetched c stFlushed s).ctx c).sqHead +
        ((s.ctx c).sqTail + ringSize (s.ctx c).sqSize - (s.ctx c).sqHead) % ringSize (s.ctx c).sqSize) %
      ringSize ((refuseFetched c stFlushed s).ctx c).sqSize =
      ((s.ctx c).sqHead + ((s.ctx c).sqTail + ringSize (s.ctx c).sqSize - (s.ctx c).sqHead) %
        ringSize (s.ctx c).sqSize) % ringSize (s.ctx c).sqSize :=
    congrArg₂ (fun h z => (h + _) % ringSize z) e1 h1.sqSize
  rw [e, ring_distance hh ht]

/-! ### The quiesce check (11 R452, R453) -/

/-- What the end of a launch uses of it. -/
def Exec.endView (x : Exec) : Option Ending × List Nat := (x.ending, x.crews)

theorem noteStop_endView (c n : Nat) (s : State) :
    ((noteStop c n s).ctx c).exec.map Exec.endView = (s.ctx c).exec.map Exec.endView := by
  simp only [noteStop, noteCycles, modExec_exec, Option.map_map]
  rfl

theorem clearLaunchTiles_endView (c : Nat) (x : Exec) (s : State) :
    ((clearLaunchTiles c x s).ctx c).exec.map Exec.endView = (s.ctx c).exec.map Exec.endView := by
  unfold clearLaunchTiles
  refine forList_keeps (v := fun s => (s.ctx c).exec.map Exec.endView) (fun k s => ?_) ..
  extract_lets y s1
  have h1 : (s1.ctx c).exec.map Exec.endView = (s.ctx c).exec.map Exec.endView := by
    unfold s1
    split
    · exact noteStop_endView ..
    · rfl
  rw [← h1]
  split <;> rfl

theorem dropTranslations_ctx (c : Nat) (s : State) (k : Nat) : (dropTranslations c s).ctx k = s.ctx k := by
  unfold dropTranslations
  refine forUp_keeps (v := fun s => s.ctx k) (fun i s => ?_) ..
  rfl

theorem dropTranslations_weir (c : Nat) (s : State) : (dropTranslations c s).weir = s.weir := by
  unfold dropTranslations
  refine forUp_keeps (v := State.weir) (fun i s => ?_) ..
  rfl

theorem settleAbort_deskView (c : Nat) (s : State) : (settleAbort c s).deskView = s.deskView := by
  simp only [settleAbort]
  split <;> rfl

theorem settleAbort_exec (c : Nat) (s : State) : ((settleAbort c s).ctx c).exec = (s.ctx c).exec := by
  simp only [settleAbort]
  split
  · rw [State.setCtx_ctx_same]
  · rfl

theorem quiesce_of_early {c : Nat} {l : List Nat} {s : State} {a : Abort} (ha : (s.ctx c).abort = some a)
    (h : s.since a.start < 8000) : quiesce c l s = s := by
  unfold quiesce
  extract_lets k
  split
  · rename_i a' x ha' hx
    obtain rfl := Option.some.inj (ha.symm.trans ha')
    rw [if_pos (by simp [h])]
  · rfl

/-- The state in which the launch x of context c ends, its tiles all idle: nothing of it is left in them, in the
translation cache or in the Weir engines. -/
def quiesced (c : Nat) (x : Exec) (s : State) : State :=
  (dropTranslations c (weirFree c x.launch.id (clearLaunchTiles c x s))).modCtx c fun k =>
    { k with abort := k.abort.map fun a => { a with quiesced := true, stuck := [] } }

theorem quiesce_of_idle {c : Nat} {s : State} {a : Abort} {x : Exec} (ha : (s.ctx c).abort = some a)
    (hx : (s.ctx c).exec = some x) (hq : a.quiesced = false) (h : 8000 ≤ s.since a.start) :
    quiesce c [] s = settleAbort c (launchDone c (quiesced c x s)) := by
  have hgo : ¬ (a.quiesced || decide (s.since a.start < 8000)) = true := by simp [hq, h]
  simp only [quiesce, ha, hx, if_neg hgo, List.filter_nil, List.any_nil, List.filter_false, forList, List.nil_append,
    List.contains_nil, Bool.not_false, List.filter_true, List.isEmpty_nil, if_true]
  rfl

theorem quiesced_exec {c : Nat} {s : State} {x : Exec} (hx : (s.ctx c).exec = some x) :
    ∃ y, ((quiesced c x s).ctx c).exec = some y ∧ y.ending = x.ending ∧ y.crews = x.crews := by
  have h : ((quiesced c x s).ctx c).exec.map Exec.endView = some x.endView := by
    rw [quiesced, modCtx_ctx, dropTranslations_ctx]
    refine (clearLaunchTiles_endView c x s).trans ?_
    rw [hx]
    rfl
  obtain ⟨y, hy, hv⟩ := Option.map_eq_some_iff.mp h
  obtain ⟨he, hc⟩ := Prod.mk.inj hv
  exact ⟨y, hy, he, hc⟩

theorem quiesced_weir (c : Nat) (x : Exec) (s : State) :
    ∀ j ∈ (quiesced c x s).weir, ¬ (j.ctx = c ∧ j.launch = x.launch.id) := by
  have h : (quiesced c x s).weir = (clearLaunchTiles c x s).weir.filter
      (fun j => !(decide (j.ctx = c) && decide (j.launch = x.launch.id))) := by
    rw [quiesced, State.modCtx_eq, State.setCtx_weir, dropTranslations_weir, weirFree]
  rw [h]
  intro j hj ⟨hc, hl⟩
  simp [hc, hl] at hj

/-- Settles O21: FLUSH ring entry by ring entry, and the quiesce check by the end of the launch. -/
theorem flushAndQuiesceResults : Obligations.FlushAndQuiesceResults := by
  unfold Obligations.FlushAndQuiesceResults
  constructor
  · intro s c ha hst hen hloc hh ht
    obtain ⟨h, hhead⟩ := flushCtx_flushed ha hst hen hloc hh ht
    obtain ⟨ds, hl, hs, hd⟩ := h.done
    refine ⟨flushCtx c.val s, rfl, h.st.trans hst, h.fetched, hhead, ?_, ?_⟩
    · rw [hd, List.length_append, hl, ← Nat.add_assoc]
      rfl
    · rw [hd]
      show ∀ d ∈ ((s.ctx c.val).done ++ ds).drop (s.ctx c.val).done.length, _
      rw [List.drop_left]
      exact hs
  · intro s c a x e ha hx he hq
    refine ⟨fun h => ?_, fun h => congrArg Host.Outcome.next (thenPass_of_unchanged (quiesce_of_early ha h))⟩
    obtain ⟨y, hy, hye, hyc⟩ := quiesced_exec hx
    have hend := launchDone_ends hy (hye.trans he)
    have hdesk := settleAbort_deskView c.val (launchDone c.val (quiesced c.val x s))
    refine ⟨quiesce c.val [] s, rfl, ?_, ?_, fun g hg => ?_⟩
    · obtain ⟨_, _, _, _, _, hk⟩ := hend.ctx
      rw [quiesce_of_idle ha hx hq h, settleAbort_exec, hk]
    · have hweir : (settleAbort c.val _).weir = _ := (congrArg DeskView.weir hdesk).trans hend.weir
      rw [quiesce_of_idle ha hx hq h, hweir]
      exact quiesced_weir c.val x s
    · rw [quiesce_of_idle ha hx hq h, crew_of_deskView hdesk]
      exact hend.crews g (hyc ▸ hg)

end Sys2Proof.Machine

namespace Sys2Proof.Machine

/-! ### The fetch of a descriptor (06 R238, 13 R523) -/

theorem fetchDesc_host {s : State} {c : Nat} (hm : mayFetch s c = true) (hl : (s.ctx c).sqLoc = false) :
    fetchDesc c s = s.modCtx c fun x => { x with
      fetched := x.fetched ++ [{
        id := nextId c x, sqIndex := x.sqHead, tArrive := s.now
        desc := parseDesc (bytesAt 0 s.hostMem (sqAddr (s.ctx c) (s.ctx c).sqHead) 64), admitted := false }]
      seqNo := (x.seqNo + 1) % 2 ^ 26
      sqHead := (x.sqHead + 1) % ringSize x.sqSize } := by
  simp only [fetchDesc, hm, Bool.not_true, Bool.false_eq_true, if_false, readSq_host hl]

theorem running_of_mayFetch {s : State} {c : Nat} (h : mayFetch s c = true) : (s.ctx c).st = .running := by
  simp only [mayFetch, Bool.and_eq_true, decide_eq_true_eq] at h
  obtain ⟨⟨⟨⟨⟨⟨⟨-, hrun⟩, -⟩, -⟩, -⟩, -⟩, -⟩, -⟩ := h
  exact hrun

/-- DMA_FAULT_LOG. -/
structure DmaLog where
  ctx : Nat
  kind : Nat
  addr : BitVec 64

def State.dmaLog (s : State) : DmaLog := { ctx := s.host.dmaCtx, kind := s.host.dmaKind, addr := s.host.dmaAddr }

/-- No event changes it. -/
theorem raise_dmaLog (c u d : Nat) (s : State) : (raise c u d s).dmaLog = s.dmaLog := by
  have hring (e : Event) (s : State) : (evtRingWrite e s).dmaLog = s.dmaLog := by
    simp only [evtRingWrite]
    split
    · rfl
    · split <;> rfl
  have hpldm (e : Event) (s : State) : (pldmEvent e s).dmaLog = s.dmaLog := by
    simp only [pldmEvent]
    split <;> rfl
  have hflash (e : Event) (s : State) : (flashEvent e s).dmaLog = s.dmaLog := by
    simp only [flashEvent]
    split <;> rfl
  simp only [raise]
  split
  · rw [deliver, hflash, hpldm, hring]
  · split <;> rfl

/-- What a failed read of a running context's ring leaves: the log, and the context stopped, or to stop after its launch. -/
theorem dmaFault_running {s : State} {c : Nat} (kind addr : Nat) (hr : (s.ctx c).st = .running) :
    (dmaFault c kind addr s).dmaLog = { ctx := c, kind := kind, addr := BitVec.ofNat 64 addr } ∧
    (dmaFault c kind addr s).ctx c =
      if (s.ctx c).exec = none then { s.ctx c with st := .stopped, stopAfter := false }
      else { s.ctx c with stopAfter := true } := by
  unfold dmaFault
  extract_lets h s1 s2 x
  have k2 : x = s.ctx c := raise_ctx_at ..
  have l2 : s2.dmaLog = { ctx := c, kind := kind, addr := BitVec.ofNat 64 addr } := raise_dmaLog ..
  rw [if_neg (by rw [k2, hr]; decide)]
  by_cases hx : (s.ctx c).exec = none
  · rw [if_pos (by rw [k2, hx]; rfl), if_pos hx]
    exact ⟨(raise_dmaLog ..).trans l2, (enterStopped_ctx ..).trans (by rw [show s2.ctx c = s.ctx c from k2])⟩
  · rw [if_neg (by rw [k2]; simpa using hx), if_neg hx]
    exact ⟨l2, (State.setCtx_ctx_same ..).trans (by rw [k2])⟩

theorem fetchFails_host {s : State} {c : Nat} (k : DmaFail) (hm : mayFetch s c = true) (hl : (s.ctx c).sqLoc = false) :
    fetchFails c k s = dmaFault c (hostKind k) (sqAddr (s.ctx c) (s.ctx c).sqHead) s := by
  simp only [fetchFails, hm, hl, Bool.not_false, Bool.and_self, if_true]

/-- Settles O22: the descriptor as read from host memory, or a DMA fault of a running context. -/
theorem fetchResults : Obligations.FetchResults := by
  unfold Obligations.FetchResults
  refine ⟨fun s c hm hl => congrArg Host.Outcome.next (fetchDesc_host hm hl), fun s c k hm hl => ?_⟩
  have hr := running_of_mayFetch hm
  obtain ⟨hlog, hk⟩ := dmaFault_running (hostKind k) (sqAddr (s.ctx c.val) (s.ctx c.val).sqHead) hr
  refine ⟨_, congrArg Host.Outcome.next (fetchFails_host k hm hl), congrArg DmaLog.ctx hlog, congrArg DmaLog.kind hlog,
    congrArg DmaLog.addr hlog, fun hx => ?_, fun hx => ?_, ?_⟩
  · rw [hk, if_pos hx]
  · rw [hk, if_neg hx]
    exact ⟨hr, rfl⟩
  · rw [hk]
    split <;> rfl

end Sys2Proof.Machine

namespace Sys2Proof.Machine

/-! ### Completion records (06 R239 to R241) -/

theorem listSet_eq_set {α : Type} (l : List α) (i : Nat) (x : α) : listSet l i x = l.set i x := by
  induction l generalizing i with
  | nil => rfl
  | cons y l ih =>
    cases i with
    | zero => rfl
    | succ i => rw [listSet, ih, List.set_cons_succ]

theorem withPhase_eq (ph : Bool) (bs : List Byte) :
    withPhase ph bs = listSet bs 5 (bs.getD 5 0#8 ||| (if ph then 0x80#8 else 0x00#8)) := by
  cases ph <;> rfl

theorem withPhase_length (ph : Bool) (bs : List Byte) : (withPhase ph bs).length = bs.length := by
  rw [withPhase, listSet_eq_set, List.length_set]

theorem cqInterrupt_leaves (c : Nat) (s : State) : cqInterrupt c s = { s with
    msix := if (s.ctx c).irqEn && s.host.attached then s.msix ++ [c] else s.msix } := by
  unfold cqInterrupt
  split <;> rfl

/-- The context after the record at the head of those that are ready has been written. -/
def Ctx.recordWritten (x : Ctx) : Ctx := { x with
  done := x.done.drop 1, cqTail := (x.cqTail + 1) % ringSize x.cqSize
  cqPhase := if (x.cqTail + 1) % ringSize x.cqSize = 0 then !x.cqPhase else x.cqPhase }

section Record
variable {s : State} {c : Nat} {d : Done} (ha : s.alive = true) (hd : (s.ctx c).done = [d])
include ha hd

theorem recordWrite_of_room (hl : (s.ctx c).cqLoc = false) (hh : s.host.attached = true)
    (hr : cqRoom (s.ctx c) = true) : recordWrite c s = { s.setCtx c (s.ctx c).recordWritten with
      hostMem := putBytes 0 s.hostMem ((s.ctx c).cqBase + 128 * (s.ctx c).cqTail)
        (withPhase (s.ctx c).cqPhase d.bytes)
      msix := if (s.ctx c).irqEn then s.msix ++ [c] else s.msix } := by
  have hempty : (s.ctx c).recordWritten.done = [] := by rw [Ctx.recordWritten, hd]; rfl
  have hstep : recordWrite c s = noteFull c (cqInterrupt c (cqAdvance c { s with
      hostMem := putBytes 0 s.hostMem ((s.ctx c).cqBase + 128 * (s.ctx c).cqTail)
        (withPhase (s.ctx c).cqPhase d.bytes) })) := by
    simp only [recordWrite, hd, ha, hl, hh, hr, Bool.not_true, Bool.false_eq_true, if_false, if_true]
  rw [hstep, cqInterrupt_leaves]
  refine (noteFull_of_empty ?_).trans ?_
  · exact (congrArg Ctx.done (State.setCtx_ctx_same ..)).trans hempty
  · simp only [cqAdvance, State.modCtx_eq, State.setCtx_ctx_same, State.setCtx_host, hh, Bool.and_true]
    rfl

theorem recordWrite_of_full (hr : cqRoom (s.ctx c) = false) :
    recordWrite c s = if (s.ctx c).cqHold = true then s
      else raise 0x7010 c (leNat (d.bytes.take 4)) (s.setCtx c { s.ctx c with cqHold := true }) := by
  simp only [recordWrite, hd, ha, hr, noteFull, Bool.not_true, Bool.not_false, Bool.false_eq_true, if_false, if_true,
    Bool.false_or]

end Record

/-! ### TIME_LIMIT and the end of a pin (06 R267, R268) -/

theorem timeLimit_of_over {s : State} {c : Nat} {x : Exec} (hx : (s.ctx c).exec = some x) (h0 : (s.ctx c).limitMs ≠ 0)
    (h : (s.ctx c).limitMs * 1000000 < s.since x.tDispatch) :
    timeLimit c s = decideEnd c stTimeLimit 0 s.now s := by
  simp only [timeLimit, hx, decide_eq_true h0, decide_eq_true h, Bool.and_self, if_true]

theorem timeLimit_of_within {s : State} {c : Nat} {x : Exec} (hx : (s.ctx c).exec = some x)
    (h : (s.ctx c).limitMs = 0 ∨ s.since x.tDispatch ≤ (s.ctx c).limitMs * 1000000) : timeLimit c s = s := by
  have hn : ¬ (decide ((s.ctx c).limitMs ≠ 0) && decide ((s.ctx c).limitMs * 1000000 < s.since x.tDispatch)) = true := by
    simp only [Bool.and_eq_true, decide_eq_true_eq]
    omega
  simp only [timeLimit, hx, if_neg hn]

theorem pinExpired_of_due {s : State} {c : Nat} {x : Exec} {e : Nat} (hx : (s.ctx c).exec = some x)
    (hp : x.pinEnd = some e) (h : e ≤ s.now.toNat) :
    pinExpired c s = s.setCtx c { s.ctx c with exec := some { x with pinEnd := none, pinExpired := true } } := by
  simp only [pinExpired, State.modExec, State.modCtx_eq, hx, Option.map_some, hp, if_pos h]

/-- Settles O25: the record's write where the ring has room, the hold where it has none, and the two ends by time. -/
theorem launchEndResults : Obligations.LaunchEndResults := by
  unfold Obligations.LaunchEndResults
  refine ⟨?record, ?limit, ?pin⟩
  case record =>
    intro s c d ha hd hl hh x a size
    refine ⟨fun hroom => ?_, fun hfull => ?_⟩
    · have hr : cqRoom (s.ctx c.val) = true := decide_eq_true hroom
      have hk := State.setCtx_ctx_same s c.val x.recordWritten
      refine ⟨_, congrArg Host.Outcome.next (recordWrite_of_room ha hd hl hh hr), ?_, congrArg Ctx.cqTail hk,
        congrArg Ctx.cqPhase hk, ?_, fun b hb => ?_, rfl⟩
      · exact (congrArg Ctx.done hk).trans (by rw [Ctx.recordWritten, hd, List.drop_one, List.tail_cons])
      · rw [← withPhase_eq, ← withPhase_length x.cqPhase]
        exact bytesAt_putBytes ..
      · refine putBytes_look_out _ _ _ _ _ ?_
        rw [withPhase_length]
        exact hb
    · have hr : cqRoom (s.ctx c.val) = false := decide_eq_false (not_not_intro hfull)
      have he : exec (.completionRecordWrite c) s = .next _ := congrArg Host.Outcome.next (recordWrite_of_full ha hd hr)
      rw [he]
      refine ⟨fun hhold => ?_, fun hhold => ?_⟩
      · rw [if_pos hhold]
      · rw [if_neg (Bool.eq_false_iff.mp hhold)]
  case limit =>
    intro s c x hx he hab
    refine ⟨fun h0 h hb => ?_, fun h => congrArg Host.Outcome.next (thenPass_of_unchanged (timeLimit_of_within hx h))⟩
    have hk := decideEnd_aborts stTimeLimit 0 s.now hx he hab (.inr hb)
    refine ⟨timeLimit c.val s, x.endedBy stTimeLimit 0 s.now, rfl, ?_⟩
    rw [timeLimit_of_over hx h0 h, hk]
    exact ⟨rfl, rfl, rfl⟩
  case pin =>
    intro s c x e hx hp h
    exact ⟨_, congrArg Host.Outcome.next (pinExpired_of_due hx hp h), rfl⟩

end Sys2Proof.Machine

namespace Sys2Proof.Machine

/-! ### Commands of a stream (06 R251, R264, R265) -/

theorem atCmd_some {s : State} {c op : Nat} {x : Exec} {k : Cmd} (h : atCmd s c op = some (x, k)) :
    (s.ctx c).exec = some x ∧ nextCmd x = some k := by
  unfold atCmd at h
  split at h
  · contradiction
  rename_i y hy
  split at h
  · contradiction
  rename_i m hm
  split at h
  · obtain ⟨rfl, rfl⟩ := Prod.mk.inj (Option.some.inj h)
    exact ⟨hy, hm⟩
  · contradiction

theorem modExec_some {s : State} {c : Nat} {x : Exec} (f : Exec → Exec) (h : (s.ctx c).exec = some x) :
    ((s.modExec c f).ctx c).exec = some (f x) :=
  (modExec_exec c f s).trans (congrArg (Option.map f) h)

theorem advance_exec {s : State} {c : Nat} {x : Exec} (h : (s.ctx c).exec = some x) :
    ((advance c s).ctx c).exec = some { x with next := x.next + 1, began := true, prevDone := s.now } :=
  modExec_some _ h

theorem weirDone_eq_true {s : State} {c : Nat} {x : Exec} :
    weirDone s c x = true ↔ ∀ j ∈ s.weir, ¬ (j.ctx = c ∧ j.launch = x.launch.id) := by
  simp [weirDone, weirPending]

theorem tilesDone_eq_true {s : State} {x : Exec} (h : x.ranAt.isSome = true) :
    tilesDone s x = true ↔ ∀ e ∈ x.tiles, (s.tile e.2.2).run = .halted := by
  obtain ⟨r, hr⟩ := Option.isSome_iff_exists.mp h
  simp [tilesDone, hr]

/-- The Weir job of the WEIR command k at which launch x of context c stands (06 R252). -/
def weirJobOf (c : Nat) (x : Exec) (k : Cmd) : WeirJob :=
  { ctx := c, launch := x.launch.id, cmdIx := x.next, addr := k.addr.toNat, code := none, fadr := 0 }

theorem issueWeir_at {s : State} {c : Nat} {x : Exec} {k : Cmd} (hx : (s.ctx c).exec = some x)
    (hk : nextCmd x = some k) : (issueWeir c s).weir = s.weir ++ [weirJobOf c x k] ∧
      ((issueWeir c s).ctx c).exec =
        some { x with weirWait := none, next := x.next + 1, began := true, prevDone := s.now } := by
  simp only [issueWeir, hx, hk]
  exact ⟨rfl, advance_exec (x := { x with weirWait := none }) (modExec_some _ hx)⟩

theorem cmdWeir_issues {s : State} {c : Nat} {x : Exec} {k : Cmd} (h : atCmd s c 0x01 = some (x, k))
    (hn : weirNextUp (s.modExec c fun x => { x with weirWait := some (x.weirWait.getD s.now) }) = some c) :
    (cmdWeir c s).weir = s.weir ++ [weirJobOf c x k] ∧ ((cmdWeir c s).ctx c).exec =
        some { x with weirWait := none, next := x.next + 1, began := true, prevDone := s.now } := by
  obtain ⟨hx, hk⟩ := atCmd_some h
  have he : cmdWeir c s = issueWeir c (s.modExec c fun x => { x with weirWait := some (x.weirWait.getD s.now) }) := by
    simp only [cmdWeir, h, if_pos hn]
  rw [he]
  exact issueWeir_at (x := { x with weirWait := some (x.weirWait.getD s.now) }) (modExec_some _ hx) hk

theorem cmdStore_writes {s s1 : State} {c : Nat} {x : Exec} {k : Cmd} {bs : List Byte}
    (hp : pageShut s c k.addr.toNat = false) (hw : writeLocal (viaDev c) k.addr.toNat bs s = (.ok (), s1)) :
    cmdStore c x k bs s = advance c s1 := by
  simp only [cmdStore, hp, hw, Bool.false_eq_true, if_false]

/-! ### RUN (06 R264, R265) -/

theorem forList_map {α β : Type} (f : β → State → State) (g : α → β) (l : List α) (s : State) :
    forList f (l.map g) s = forList (fun a => f (g a)) l s := by
  induction l generalizing s with
  | nil => rfl
  | cons a l ih => exact ih _

/-- What RUN makes of a tile of launch x of context c. -/
def Exec.tileAtRun (x : Exec) (c : Nat) (jobid : BitVec 32) (e : Nat × Nat × Nat) : Tile :=
  { run := .waitCode, job := .launch, crew := e.1, tid := e.2.1, partNo := tilePart e.2.2, ncrew := x.launch.desc.ncrew
    ctx := c, launchId := x.launch.id, jobid := jobid, argp := BitVec.ofNat 42 x.launch.desc.argp.toNat
    entry := BitVec.ofNat 12 x.launch.desc.entry }

/-- The code image in the bytes that RUN has read. -/
def imageOf (n : Nat) (bs : List Byte) : List (BitVec 32) :=
  (List.range n).map fun i => BitVec.ofNat 32 (leNat ((bs.drop (4 * i)).take 4))

/-- The tile phase starts. -/
def runTiles (c : Nat) (x : Exec) (s : State) : State :=
  forList (fun e s => s.setTile e.2.2 (x.tileAtRun c (s.ctx c).jobid e)) x.tiles s

theorem runTiles_keeps (c : Nat) (x : Exec) (s : State) :
    (runTiles c x s).ctx c = s.ctx c ∧ (runTiles c x s).now = s.now := by
  unfold runTiles
  exact ⟨forList_keeps (v := fun s => s.ctx c) (fun e s => State.setTile_ctx ..) ..,
    forList_keeps (v := State.now) (fun e s => State.setTile_now ..) ..⟩

theorem runTiles_tile (c : Nat) (x : Exec) (s : State) : ∀ e ∈ x.tiles,
    ((runTiles c x s).tile e.2.2).run = .waitCode ∧ ((runTiles c x s).tile e.2.2).job = .launch ∧
    ((runTiles c x s).tile e.2.2).launchId = x.launch.id ∧ ((runTiles c x s).tile e.2.2).ctx = c := by
  refine forList_each (P := fun (e : Nat × Nat × Nat) s => (s.tile e.2.2).run = .waitCode ∧ (s.tile e.2.2).job = .launch ∧
    (s.tile e.2.2).launchId = x.launch.id ∧ (s.tile e.2.2).ctx = c) (fun e s => ?_) (fun e e' s he => ?_) _ s
  · rw [State.setTile_tile_same]
    exact ⟨rfl, rfl, rfl, rfl⟩
  · rw [State.setTile_tile_ite]
    split
    · exact ⟨rfl, rfl, rfl, rfl⟩
    · exact he

theorem cmdRun_starts {s s1 : State} {c : Nat} {x : Exec} {k : Cmd} {bs : List Byte}
    (h : atCmd s c 0x03 = some (x, k)) (hc : x.launch.desc.isCatch = false)
    (hs : rangeShut s c x.launch.desc.code.toNat (4 * x.launch.desc.codeWords) = false)
    (hr : readLocal (viaDev c) x.launch.desc.code.toNat (4 * x.launch.desc.codeWords) s = (.ok bs, s1))
    (hp : x.pair = none) : ∃ t, cmdRun c s = advance c ((runTiles c x s1).modExec c fun x' =>
      { x' with image := imageOf x.launch.desc.codeWords bs, ranAt := some t, slipped := false }) ∧ t = s1.now := by
  refine ⟨(runTiles c x s1).now, ?_, (runTiles_keeps c x s1).2⟩
  simp only [cmdRun, h, hc, hs, hr, Bool.false_and, Bool.false_or, Bool.false_eq_true, if_false, startTiles, hp, forList_map]
  rfl

theorem cmdRun_waits {s : State} {c : Nat} {x : Exec} {k : Cmd} (h : atCmd s c 0x03 = some (x, k))
    (hc : x.launch.desc.isCatch = true) (ht : s.now.toNat + 6000 < x.launch.desc.catchCnt) : cmdRun c s = s := by
  simp only [cmdRun, h, hc, decide_eq_true ht, Bool.and_self, Bool.true_or, if_true]

/-! ### END (06 R253, R269) -/

/-- An END that waits for nothing ends its launch with the final status. -/
theorem cmdEnd_ends {s : State} {c : Nat} {x : Exec} {k : Cmd} (h : atCmd s c 0x0F = some (x, k))
    (hw : weirDone s c x = true) (ht : tilesDone s x = true) (hp : x.pair = none) (hk : (s.ctx c).wakeEn = false)
    (he : easyAllHere s c = false) : ∃ s1 : State, s1.ctx c = s.ctx c ∧ cmdEnd c s = launchDone c (s1.modExec c fun x' =>
      { x' with began := true, ending := some { status := finalStatus s x, csDetail := 0, at_ := s1.now } }) := by
  have hkeep : (if finalStatus s x = stEpochLost then s.umpCount 7 else s).ctx c = s.ctx c := by
    split <;> rfl
  refine ⟨_, hkeep, ?_⟩
  have hwk : writeWakes c x (if finalStatus s x = stEpochLost then s.umpCount 7 else s) = _ :=
    if_pos (by rw [hkeep, hk]; rfl)
  simp only [cmdEnd, h, hw, ht, hp, hk, he, voidPair_of_unpaired (atCmd_some h).1 hp, hwk, Bool.not_true, Option.isSome_none,
    Bool.false_and, Bool.or_self, Bool.false_eq_true, if_false]

theorem cmdEnd_waits {s : State} {c : Nat} {x : Exec} {k : Cmd} (h : atCmd s c 0x0F = some (x, k))
    (hw : weirDone s c x = false ∨ tilesDone s x = false ∨ easyAllHere s c = true) : cmdEnd c s = s := by
  simp only [cmdEnd, h]
  refine if_pos ?_
  obtain hw | hw | hw := hw <;> simp [hw]

theorem finalStatus_eq (s : State) (x : Exec) : finalStatus s x = if x.pinLost then 0x21
    else if x.launch.desc.deadline ≠ 0 ∧ x.launch.desc.deadline < s.now.toNat then 0x07 else 0x00 := by
  simp only [finalStatus, Bool.and_eq_true, decide_eq_true_eq]
  rfl

/-- Settles O24, command by command; END by what the end of a launch makes of its context. -/
theorem commandStreamResults : Obligations.CommandStreamResults := by
  unfold Obligations.CommandStreamResults
  refine ⟨?weir, ?waitw, ?waitt, ?write, ?stamp, ?run, ?early, ?last⟩
  case weir =>
    intro s c x k h hn
    obtain ⟨hw, he⟩ := cmdWeir_issues h hn
    exact ⟨_, _, _, rfl, hw, rfl, rfl, rfl, rfl, he, rfl, rfl⟩
  case waitw =>
    intro s c x k h
    have hstep : exec (.waitw c) s = .next (if weirDone s c.val x then advance c.val s else s) := by
      refine congrArg Host.Outcome.next ?_
      simp only [cmdWaitw, h]
    rw [hstep]
    refine ⟨fun hw => by rw [if_pos (weirDone_eq_true.mpr hw)], fun ⟨j, hj, hjx⟩ => ?_⟩
    rw [if_neg fun hw => weirDone_eq_true.mp hw j hj hjx]
  case waitt =>
    intro s c x k h hr
    have hstep : exec (.waitt c) s = .next (if tilesDone s x then advance c.val s else s) := by
      refine congrArg Host.Outcome.next ?_
      simp only [cmdWaitt, h]
    rw [hstep]
    refine ⟨fun ht => by rw [if_pos ((tilesDone_eq_true hr).mpr ht)], fun ⟨e, he, hn⟩ => ?_⟩
    rw [if_neg fun ht => hn ((tilesDone_eq_true hr).mp ht e he)]
  case write =>
    intro s s1 c x k h hw ht hp hs
    refine congrArg Host.Outcome.next ?_
    simp only [cmdWrite, h, hw, ht, Bool.and_self, if_true, cmdStore_writes hp hs]
  case stamp =>
    intro s s1 c x k h hp hs
    refine congrArg Host.Outcome.next ?_
    simp only [cmdStamp, h, cmdStore_writes hp hs]
  case run =>
    intro s s1 c x k bs h hc hs hr hx hp
    obtain ⟨t, he, rfl⟩ := cmdRun_starts h hc hs hr hp
    refine ⟨_, _, congrArg Host.Outcome.next he, advance_exec (modExec_some _ ?_), rfl, rfl, rfl,
      runTiles_tile c.val x s1⟩
    exact (congrArg Ctx.exec (runTiles_keeps c.val x s1).1).trans hx
  case early =>
    intro s c x k h hc ht
    exact congrArg Host.Outcome.next (cmdRun_waits h hc ht)
  case last =>
    intro s c x k h
    refine ⟨fun hw ht hp hk hen he => ?_, fun hw => congrArg Host.Outcome.next (thenPass_of_unchanged (cmdEnd_waits h hw))⟩
    obtain ⟨s1, hc, hstep⟩ := cmdEnd_ends h hw ht hp hk he
    have hx := (congrArg Ctx.exec hc).trans (atCmd_some h).1
    obtain ⟨r, b, st, stop, hr, hctx⟩ := (launchDone_ends (modExec_some (fun x' => { x' with
      began := true, ending := some { status := finalStatus s x, csDetail := 0, at_ := s1.now } }) hx) rfl).ctx
    rw [← hstep, modExec_ctx, hc, Ctx.recorded, if_pos hen] at hctx
    refine ⟨cmdEnd c.val s, ⟨recordBytes c.val x.launch.id x.launch.sqIndex x.launch.tArrive.toNat r⟩, rfl, ?_, ?_, ?_, ?_⟩
    · rw [hctx]
    · rw [hctx]
    · exact (recordBytes_status ..).trans (by rw [hr, ← finalStatus_eq])
    · exact recordBytes_length ..

end Sys2Proof.Machine

namespace Sys2Proof.Machine

/-! ### Admission (06 R256, R257, Table 6-7) -/

section Admission
variable {s : State} {c i : Nat} {l : Launch} (had : admitting s = true) (hst : (s.ctx c).st = .running)
  (hen : (s.ctx c).en = true) (hsw : (s.ctx c).sweep = none)
  (hi : (s.ctx c).fetched.findIdx? (fun l => !l.admitted) = some i) (hl : (s.ctx c).fetched[i]? = some l)
include had hst hen hsw hi hl

theorem admitOldest_admits (hf : admitFails s c l = none) : admitOldest c s =
    { s.setCtx c { s.ctx c with fetched := listSet (s.ctx c).fetched i { l with admitted := true } } with
      cntAdmitted := satAdd 48 s.cntAdmitted 1, passMark := s.passMark + 1 } := by
  simp [admitOldest, had, hst, hen, hsw, hi, hl, hf]

theorem admitOldest_refuses {st : Nat} (hf : admitFails s c l = some st) : admitOldest c s =
    refuseLaunch c st l (s.setCtx c { s.ctx c with fetched := listDrop (s.ctx c).fetched i }) := by
  simp [admitOldest, had, hst, hen, hsw, hi, hl, hf, takeLaunch]

end Admission

theorem admitFails_eq (s : State) (c : Nat) (l : Launch) : admitFails s c l =
    if malformed l.desc = true ∨ (l.desc.isCatch = true ∧ (s.ctx c).jobid = 0#32) then some 0x03
    else if (berthOf s c).length < l.desc.ncrew then some 0x02
    else if l.desc.isCatch = true ∧ s.fab.placed = false then some 0x04
    else if l.desc.isCatch = true ∧ l.desc.catchCnt < s.now.toNat + 50000 then some 0x05
    else if l.desc.deadline ≠ 0 ∧ l.desc.deadline < startAt s l.desc (predAhead s c (s.ctx c).fetched (execEnd (s.ctx c))) +
        duration s l.desc (crewsFor s c l.desc) then some 0x01 else none := by
  simp only [admitFails, Bool.or_eq_true, Bool.and_eq_true, decide_eq_true_eq, Bool.not_eq_true']
  rfl

/-! ### The candidates of a pass (06 R259, R261) -/

section Pass
variable {s : State} {c : Nat} {l : Launch} (hst : (s.ctx c).st = .running) (hf : (s.ctx c).fetched = [l])
  (hl : l.admitted = true) (hr : recheckFails s c l = none)
include hst hf hl hr

/-- Where context c's head stands and no other context of the list has one, the recheck leaves the machine. -/
theorem recheckAll_single {ks : List Nat} (ho : ∀ k ∈ ks, k ≠ c → headOf (s.ctx k) = none) :
    recheckAll ks s = ((ks.filter (· == c)).map fun k => (k, l), s) := by
  induction ks with
  | nil => rfl
  | cons k ks ih =>
    specialize ih fun j hj => ho j (List.mem_cons_of_mem _ hj)
    by_cases hk : k = c
    · subst hk
      simp [recheckAll, hst, headOf, hf, hl, hr, ih]
    · have hn := ho k List.mem_cons_self hk
      simp [recheckAll, hn, ih, hk]

theorem schedulerPass_single (ho : ∀ k, k < 64 → k ≠ c → headOf (s.ctx k) = none) (hc : c < 64)
    (had : admitting s = true) (hm : mayDispatch s c l = true)
    (he : eligible s l.desc (crewsFor s c l.desc) (duration s l.desc (crewsFor s c l.desc)) = true) : schedulerPass s =
      dispatch c l (crewsFor s c l.desc) (duration s l.desc (crewsFor s c l.desc)) s := by
  have hone : (List.range 64).filter (· == c) = [c] := by
    rw [List.filter_beq, List.count_eq_one_of_mem List.nodup_range (List.mem_range.mpr hc)]
    rfl
  have hall := recheckAll_single hst hf hl hr (ks := List.range 64) fun k hk => ho k (List.mem_range.mp hk)
  rw [hone] at hall
  simp [schedulerPass, had, hall, hm, he, sortBy, insertBy, forList]

end Pass

theorem schedulerPass_of_closed {s : State} (h : admitting s = false) : schedulerPass s = s := by
  simp only [schedulerPass, h, Bool.not_false, if_true]

/-! ### What a translation reads, and who holds the crews -/

/-- All of the machine that the translation of a device access and its read depend on (05 R205, R210 to R214). -/
structure TableView where
  frames : Tbl Frame
  hbm : Tbl Byte
  lineErr : Tbl LineErr
  tcache : Tbl (List TEntry)
  way : Nat → Bool × Nat × Option (BitVec 64)

def State.tableView (s : State) : TableView where
  frames := s.frames
  hbm := s.hbm
  lineErr := s.lineErr
  tcache := s.tcache
  way c := ((s.ctx c).bttEn, (s.ctx c).bttRoot, (s.ctx c).sweep)

section Transport
variable {s s' : State} (h : s'.tableView = s.tableView)
include h

theorem way_of_tableView (c : Nat) : (s'.ctx c).bttEn = (s.ctx c).bttEn ∧ (s'.ctx c).bttRoot = (s.ctx c).bttRoot ∧
    (s'.ctx c).sweep = (s.ctx c).sweep := by
  have hw := congrFun (congrArg TableView.way h) c
  exact ⟨congrArg Prod.fst hw, congrArg (fun w => w.2.1) hw, congrArg (fun w => w.2.2) hw⟩

theorem TableWord.of_tableView {pa v : Nat} (hw : TableWord s pa v) : TableWord s' pa v := by
  obtain ⟨hf, hl, hv⟩ := hw
  refine ⟨(frameCheck_congr (congrArg TableView.frames h) (fun c => (way_of_tableView h c).2.2) ..).trans hf, ?_, ?_⟩
  · rw [show s'.lineErr = s.lineErr from congrArg TableView.lineErr h, hl]
  · rw [show s'.hbm = s.hbm from congrArg TableView.hbm h, hv]

theorem Mapped.of_tableView {c loc f : Nat} {r : Bool} (hmap : Mapped s c loc f r) :
    Mapped s' c loc f r := by
  obtain ⟨e, hm, rfl, hr⟩ := mapped_iff.mp hmap
  obtain ⟨hen, hroot, hsweep⟩ := way_of_tableView h c
  obtain ⟨v, l2, v2, w1, hl2, w2, he⟩ := hm.walks
  have hframe : s'.frame e.frame = s.frame e.frame := congrArg (Tbl.look _ _) (congrArg TableView.frames h)
  refine mapped_iff.mpr ⟨e, ⟨hm.bound, hen.trans hm.en, hroot ▸ hm.root,
    ⟨v, l2, v2, hroot ▸ w1.of_tableView h, hl2, w2.of_tableView h, he⟩, hm.r, hm.w, ?_, hframe ▸ hm.owned,
    hframe ▸ hm.owner, hsweep.trans hm.sweep⟩, rfl, hr⟩
  rw [show s'.tcache = s.tcache from congrArg TableView.tcache h]
  exact hm.cached

theorem Readable.of_tableView {c loc f n : Nat} (hr : Readable s c loc f n) : Readable s' c loc f n := by
  refine ⟨hr.mapped.of_tableView h, hr.fits, ?_⟩
  rw [LinesClean, show s'.lineErr = s.lineErr from congrArg TableView.lineErr h]
  exact hr.clean

end Transport

/-- A device's read of clean bytes in one page that is mapped leaves all but a cache. -/
theorem Readable.readLocal_dev {s : State} {c loc f n : Nat} (h : Readable s c loc f n) (hn : 0 < n) : ∃ e,
    readLocal (viaDev c) loc n s = (.ok (bytesAt 0 s.hbm (pageAddr f loc) n), cachePut devCache e s) := by
  obtain ⟨e, hm, rfl, -⟩ := mapped_iff.mp h.mapped
  have hfit := h.fits
  have hk : inPage loc n = n := Nat.min_eq_left (by omega)
  have ht := hm.translates (v := viaDev c) rfl nofun false
  have hr : hbmRead (pageAddr e.frame loc) n (cachePut (viaDev c).cache e s) =
      (.ok (bytesAt 0 s.hbm (pageAddr e.frame loc) n), cachePut devCache e s) := hbmRead_clean h.clean
  refine ⟨e, ?_⟩
  simp only [readLocal, readPages, readPage, hk, if_neg (Nat.ne_of_gt hn), ht, hr, Nat.sub_self, if_true, List.append_nil]

/-- Without a table a device's read fails at its address. -/
theorem readLocal_untranslated {s : State} {c loc n : Nat} (h : (s.ctx c).bttEn = false) (hn : 0 < n) :
    readLocal (viaDev c) loc n s = (.err .xlate loc, s) := by
  have ht : translate (viaDev c) false loc s = (.err .xlate loc, s) := by
    rw [translate, if_pos (.inr (by rw [show (s.ctx (viaDev c).ctx).bttEn = false from h]; rfl))]
  simp only [readLocal, readPages, readPage, if_neg (Nat.ne_of_gt hn), ht]

/-! ### The stream that a dispatch reads (06 R253) -/

theorem eq_zeros_of_leNat {bs : List Byte} (h : leNat bs = 0) : bs = List.replicate bs.length 0#8 := by
  induction bs with
  | nil => rfl
  | cons b bs ih =>
    rw [leNat] at h
    have hb : b = 0#8 := BitVec.eq_of_toNat_eq (by rw [BitVec.toNat_ofNat]; omega)
    rw [List.length_cons, List.replicate_succ, ← ih (by omega), hb]

/-- The bytes of an END command. -/
theorem eq_endBytes {bs : List Byte} (hn : bs.length = 16) (h : leNat bs = 0x0F) :
    bs = 0x0F#8 :: List.replicate 15 0#8 := by
  cases bs with
  | nil => contradiction
  | cons b bs =>
    rw [leNat] at h
    have hlt := b.isLt
    have hb : b = 0x0F#8 := BitVec.eq_of_toNat_eq (by rw [BitVec.toNat_ofNat]; omega)
    rw [hb, eq_zeros_of_leNat (bs := bs) (by omega), Nat.succ.inj hn]

def endCmd : Cmd := { op := 0x0F, imm := 0#32, addr := 0#64 }

section Stream
variable {s : State} {c base f : Nat}

theorem readStream_end (h : Readable s c base f 16) (hv : leNat (bytesAt 0 s.hbm (pageAddr f base) 16) = 0x0F) :
    ∃ e, readStream c base 256 0 false s = (.inl [endCmd], cachePut devCache e s) := by
  obtain ⟨e, hr⟩ := h.readLocal_dev (by decide)
  have hok : cmdFails (0x0F#8 :: List.replicate 15 0#8) false = none := by decide
  rw [eq_endBytes (bytesAt_length ..) hv] at hr
  refine ⟨e, ?_⟩
  rw [readStream, show base + 16 * 0 = base from rfl, hr]
  simp only [hok]
  rfl

theorem readStream_untranslated (h : (s.ctx c).bttEn = false) :
    readStream c base 256 0 false s = (.inr (csDetail 0 1 0), s) := by
  rw [readStream, readLocal_untranslated h (by decide)]
  rfl

end Stream

/-! ### Dispatch to crews (06 R256, R264, 10 R413, R415) -/

/-- What a translation reads, and the holder of each crew. -/
structure PassView where
  tables : TableView
  held : Nat → Option Nat

def State.passView (s : State) : PassView := { tables := s.tableView, held := fun g => (s.crew g).heldBy }

theorem setCtx_tableView {s : State} {c : Nat} {x : Ctx} (h : (x.bttEn, x.bttRoot, x.sweep) =
    ((s.ctx c).bttEn, (s.ctx c).bttRoot, (s.ctx c).sweep)) : (s.setCtx c x).tableView = s.tableView := by
  have hw : (s.setCtx c x).tableView.way = s.tableView.way := funext fun j => by
    simp only [State.tableView]
    by_cases hj : j = c
    · subst hj
      rw [State.setCtx_ctx_same, h]
    · rw [State.setCtx_ctx_other _ _ _ _ hj]
  exact congrArg (fun w => { s.tableView with way := w }) hw

theorem modExec_passView (c : Nat) (f : Exec → Exec) (s : State) : (s.modExec c f).passView = s.passView := by
  have ht : (s.modExec c f).tableView = s.tableView := setCtx_tableView rfl
  exact congrArg (fun t => { s.passView with tables := t }) ht

theorem modCrew_passView {s : State} {g : Nat} {f : Crew → Crew} (h : (f (s.crew g)).heldBy = (s.crew g).heldBy) :
    (s.modCrew g f).passView = s.passView := by
  have hh : (s.modCrew g f).passView.held = s.passView.held := funext fun j => by
    simp only [State.passView, State.modCrew_eq, State.setCrew_crew_ite]
    split
    · rename_i hj
      rw [hj, h]
    · rfl
  exact congrArg (fun w => { s.passView with held := w }) hh

theorem modUmp_passView {s : State} {f : Umpire → Umpire} (h : (f s.ump).crews = s.ump.crews) :
    (s.modUmp f).passView = s.passView := by
  have hh : (s.modUmp f).passView.held = s.passView.held := funext fun j =>
    congrArg (fun t => (Tbl.look {} j t : Crew).heldBy) h
  exact congrArg (fun w => { s.passView with held := w }) hh

theorem umpCount_passView (i : Nat) (s : State) : (s.umpCount i).passView = s.passView := modUmp_passView rfl
theorem commitPower_passView (p n : Nat) (s : State) : (commitPower p n s).passView = s.passView := modUmp_passView rfl
theorem releasePower_passView (p n : Nat) (s : State) : (releasePower p n s).passView = s.passView := modUmp_passView rfl

theorem endPair_passView (c : Nat) (p : Pair) (s : State) : (endPair c p s).passView = s.passView := by
  unfold endPair
  refine (modExec_passView ..).trans (forList_keeps (v := State.passView) (fun g s => ?_) ..)
  have hg : (gateCrew g s).passView = s.passView := by
    unfold gateCrew
    refine forList_keeps (v := State.passView) (fun t s => ?_) ..
    rfl
  rw [releasePower_passView, modCrew_passView rfl, hg]

theorem voidPair_passView (c : Nat) (s : State) : (voidPair c s).passView = s.passView := by
  unfold voidPair
  split
  · rfl
  · split
    · rfl
    · exact endPair_passView c _ s

theorem voidWork_keeps (f : Work → Bool) (s : State) :
    (voidWork f s).passView = s.passView ∧ (voidWork f s).ctxs = s.ctxs := by
  unfold voidWork
  constructor
  · exact (forList_keeps (v := State.passView) (fun w s => releasePower_passView ..) ..).trans (modUmp_passView rfl)
  · refine (forList_keeps (v := State.ctxs) (fun w s => ?_) ..).trans rfl
    rfl

theorem voidCrewWork_passView (g : Nat) (s : State) : (voidCrewWork g s).passView = s.passView := by
  unfold voidCrewWork
  extract_lets s1
  have h1 : s1.passView = s.passView := (voidWork_keeps _ s).1
  split
  · exact (voidPair_passView ..).trans h1
  · exact h1

/-- A launch without a pair check is not changed where the Umpire's work on a crew is void. -/
theorem voidCrewWork_ctx {s : State} {c : Nat} {x : Exec} (g : Nat) (hx : (s.ctx c).exec = some x) (hp : x.pair = none) :
    (voidCrewWork g s).ctx c = s.ctx c := by
  unfold voidCrewWork
  extract_lets s1
  have h1 : s1.ctx c = s.ctx c := congrArg (Tbl.look _ _) (voidWork_keeps _ s).2
  split
  · rename_i k hk
    by_cases hkc : k = c
    · subst hkc
      rw [voidPair_of_unpaired (e := x) (by rw [h1, hx]) hp, h1]
    · exact ((voidPair_beside k s1).ctx c (Ne.symm hkc)).trans h1
  · exact h1

theorem beginPin_passView (c : Nat) (d : Desc) (s : State) : (beginPin c d s).passView = s.passView := by
  unfold beginPin
  split
  · rfl
  · exact modExec_passView ..

theorem beginPair_passView (c : Nat) (x : Exec) (s : State) : (beginPair c x s).passView = s.passView := by
  unfold beginPair
  extract_lets k
  split
  · rfl
  split
  · rfl
  rename_i h _
  extract_lets p s1 s2
  have h1 : s1.passView = s.passView := modUmp_passView rfl
  rw [modExec_passView, umpCount_passView, commitPower_passView, modCrew_passView rfl, h1]

theorem samplePair_passView (c : Nat) (x : Exec) (s : State) : (samplePair c x s).passView = s.passView := by
  unfold samplePair
  extract_lets u n s1
  split
  · rfl
  split
  · exact (beginPair_passView ..).trans rfl
  · rfl

/-- A launch but for its pin and its pair check. -/
def Exec.core (x : Exec) : Exec := { x with pinEnd := none, pinFrom := 0, pinExpired := false, pair := none }

/-- Context c is k, executing x but for its pin and its pair check. -/
def Executes (c : Nat) (k : Ctx) (x : Exec) (s : State) : Prop := ∃ y, s.ctx c = { k with exec := some y } ∧ y.core = x.core

theorem Executes.modExec {c : Nat} {k : Ctx} {x : Exec} {s : State} {f : Exec → Exec} (h : Executes c k x s)
    (hf : ∀ y, (f y).core = y.core) : Executes c k x (s.modExec c f) := by
  obtain ⟨y, hy, hc⟩ := h
  refine ⟨f y, ?_, (hf y).trans hc⟩
  rw [modExec_ctx, hy]
  rfl

theorem commitPower_ctx (p n : Nat) (s : State) (c : Nat) : (commitPower p n s).ctx c = s.ctx c := State.modUmp_ctx ..

section Executes
variable {c : Nat} {k : Ctx} {x : Exec} {s : State} (h : Executes c k x s)
include h

theorem Executes.of_ctx {s' : State} (hc : s'.ctx c = s.ctx c) : Executes c k x s' := by
  rw [Executes, hc]
  exact h

theorem Executes.beginPin (d : Desc) : Executes c k x (beginPin c d s) := by
  unfold Machine.beginPin
  split
  · exact h
  · refine h.modExec fun y => ?_
    split <;> rfl

theorem Executes.beginPair (y : Exec) : Executes c k x (beginPair c y s) := by
  unfold Machine.beginPair
  extract_lets i
  split
  · exact h
  split
  · exact h
  extract_lets p s1 s2
  have h2 : (s2.umpCount 3).ctx c = s.ctx c := by
    rw [State.umpCount, State.modUmp_ctx, commitPower_ctx, State.modCrew_eq, State.setCrew_ctx, State.modUmp_ctx]
  exact (h.of_ctx h2).modExec fun _ => rfl

theorem Executes.samplePair (y : Exec) : Executes c k x (samplePair c y s) := by
  unfold Machine.samplePair
  extract_lets u n s1
  split
  · exact h
  split
  · exact (h.of_ctx (s' := s1) (State.modUmp_ctx ..)).beginPair y
  · exact h

end Executes

/-- Crew g goes to launch id of context c: the Umpire's work on it is void (10 R413). -/
def takeCrew (c : Nat) (id : BitVec 32) (g : Nat) (s : State) : State :=
  (voidCrewWork g s).modCrew g fun k => { k with heldBy := some c, lastLaunch := some (id, c) }

/-- Context k with launch l off its list and executing as x. -/
def Ctx.launched (k : Ctx) (l : Launch) (x : Exec) : Ctx :=
  { k with fetched := k.fetched.drop 1, exec := some x, lastLaunch := l.id }

theorem takeCrews_held (c : Nat) (id : BitVec 32) (gs : List Nat) (s : State) :
    ∀ g ∈ gs, ((forList (takeCrew c id) gs s).crew g).heldBy = some c := by
  refine forList_each (P := fun g s => (s.crew g).heldBy = some c) (fun g s => ?_) (fun g g' s hg => ?_) gs s
  · rw [takeCrew, State.modCrew_eq, State.setCrew_crew_same]
  · rw [takeCrew, State.modCrew_eq, State.setCrew_crew_ite]
    split
    · rfl
    · exact (congrFun (congrArg PassView.held (voidCrewWork_passView g' s)) g).trans hg

theorem takeCrews_tableView (c : Nat) (id : BitVec 32) (gs : List Nat) (s : State) :
    (forList (takeCrew c id) gs s).tableView = s.tableView := by
  refine forList_keeps (v := State.tableView) (fun g s => ?_) gs s
  exact congrArg PassView.tables (voidCrewWork_passView g s)

theorem takeCrews_ctx {s : State} {c : Nat} {x : Exec} (id : BitVec 32) (gs : List Nat) (hx : (s.ctx c).exec = some x)
    (hp : x.pair = none) : (forList (takeCrew c id) gs s).ctx c = s.ctx c := by
  induction gs generalizing s with
  | nil => rfl
  | cons g gs ih =>
    have h1 : (takeCrew c id g s).ctx c = s.ctx c := voidCrewWork_ctx g hx hp
    rw [forList, ih (by rw [h1, hx]), h1]

/-- The machine in which a dispatched launch l, executing as x, reads its stream. -/
def atDispatch (c : Nat) (l : Launch) (x : Exec) (s : State) : State :=
  samplePair c x (beginPin c l.desc (forList (takeCrew c l.id) x.crews (s.modCtx c fun k => k.launched l x)))

/-- An untimed launch takes the commands that it reads; or the read that fails decides its end. -/
theorem dispatch_reads {c : Nat} {l : Launch} {crews : List Nat} {dur : Nat} {s : State} (ht : l.desc.timed = false)
    {res : List Cmd ⊕ Nat} {s2 : State}
    (hr : readStream c l.desc.cstream.toNat 256 0 false (atDispatch c l (newExec s l crews dur) s) = (res, s2)) :
    dispatch c l crews dur s = res.elim (fun cmds => s2.modExec c fun x => { x with stream := cmds })
      (fun d => decideEnd c stCstream d s2.now s2) := by
  unfold dispatch
  generalize readStream c l.desc.cstream.toNat 256 0 false = read at hr ⊢
  extract_lets +onlyGivenNames x s1 s2 s3
  rw [if_neg (by rw [ht]; exact Bool.false_ne_true)]
  have h3 : samplePair c x s3 = atDispatch c l (newExec s l crews dur) s := rfl
  extract_lets s4 s5
  rw [show s5 = _ from h3, hr]
  cases res <;> rfl

section AtDispatch
variable (c : Nat) (l : Launch) (x : Exec) (s : State)

theorem atDispatch_passView : (atDispatch c l x s).passView =
    (forList (takeCrew c l.id) x.crews (s.modCtx c fun k => k.launched l x)).passView :=
  (samplePair_passView ..).trans (beginPin_passView ..)

theorem atDispatch_tableView : (atDispatch c l x s).tableView = s.tableView := by
  have h1 : (s.modCtx c fun k => k.launched l x).tableView = s.tableView := setCtx_tableView rfl
  exact (congrArg PassView.tables (atDispatch_passView ..)).trans ((takeCrews_tableView ..).trans h1)

theorem atDispatch_held : ∀ g ∈ x.crews, ((atDispatch c l x s).crew g).heldBy = some c := fun g hg =>
  (congrFun (congrArg PassView.held (atDispatch_passView ..)) g).trans (takeCrews_held c l.id x.crews _ g hg)

theorem atDispatch_executes (hp : x.pair = none) :
    Executes c ((s.ctx c).launched l x) x (atDispatch c l x s) := by
  have h1 : (s.modCtx c fun k => k.launched l x).ctx c = (s.ctx c).launched l x := modCtx_ctx ..
  have h2 := takeCrews_ctx l.id x.crews (congrArg Ctx.exec h1) hp
  have hx : Executes c ((s.ctx c).launched l x) x
      (forList (takeCrew c l.id) x.crews (s.modCtx c fun k => k.launched l x)) := ⟨x, h2.trans h1, rfl⟩
  exact (hx.beginPin l.desc).samplePair x

end AtDispatch

/-! ### What becomes of a dispatched launch -/

section Dispatched
variable {s : State} {c : Nat} {l : Launch} {crews : List Nat} {dur : Nat} (ht : l.desc.timed = false)
include ht

/-- A launch whose stream is an END alone executes. -/
theorem dispatch_executes {f : Nat} (hr : Readable s c l.desc.cstream.toNat f 16)
    (hv : leNat (bytesAt 0 s.hbm (pageAddr f l.desc.cstream.toNat) 16) = 0x0F) : ∃ y : Exec,
      y.core = { newExec s l crews dur with stream := [endCmd] } ∧
      (dispatch c l crews dur s).ctx c = (s.ctx c).launched l y ∧
      ∀ g ∈ crews, ((dispatch c l crews dur s).crew g).heldBy = some c := by
  have htab := atDispatch_tableView c l (newExec s l crews dur) s
  rw [← show (atDispatch c l (newExec s l crews dur) s).hbm = s.hbm from congrArg TableView.hbm htab] at hv
  obtain ⟨e, hread⟩ := readStream_end (hr.of_tableView htab) hv
  obtain ⟨y, hy, hc⟩ := atDispatch_executes c l (newExec s l crews dur) s rfl
  rw [dispatch_reads ht hread]
  refine ⟨{ y with stream := [endCmd] }, congrArg (fun z => { z with stream := [endCmd] }) hc, ?_, fun g hg => ?_⟩
  · refine (modExec_ctx ..).trans ?_
    rw [show (cachePut devCache e _).ctx c = _ from hy]
    rfl
  · exact atDispatch_held c l (newExec s l crews dur) s g hg

/-- A launch whose stream cannot be translated is done with CSTREAM: nothing of it has executed. -/
theorem dispatch_refused (hb : (s.ctx c).bttEn = false) (hen : (s.ctx c).en = true) : ∃ d b st stop,
    d.bytes.getD 4 0#8 = 0x12#8 ∧ (dispatch c l crews dur s).ctx c =
      { ((s.ctx c).launched l (newExec s l crews dur)).recorded [d] b with exec := none, st := st, stopAfter := stop } := by
  obtain ⟨y, hy, hc⟩ := atDispatch_executes c l (newExec s l crews dur) s rfl
  have hx := congrArg Ctx.exec hy
  have hbeg : (classX stCstream || y.began) = false := (Bool.false_or _).trans (congrArg Exec.began hc)
  have hread := readStream_untranslated (base := l.desc.cstream.toNat)
    ((way_of_tableView (atDispatch_tableView c l (newExec s l crews dur) s) c).1.trans hb)
  obtain ⟨s1, hs1, -, he⟩ := decideEnd_decides stCstream (csDetail 0 1 0)
    (atDispatch c l (newExec s l crews dur) s).now hx (congrArg Exec.ending hc)
  rw [hbeg, if_neg Bool.false_ne_true] at he
  obtain ⟨r, b, st, stop, hr, hk⟩ := (launchDone_ends (congrArg Ctx.exec hs1) rfl).ctx
  rw [dispatch_reads ht hread]
  refine ⟨⟨recordBytes c y.launch.id y.launch.sqIndex y.launch.tArrive.toNat r⟩, b, st, stop, ?_, ?_⟩
  · exact (recordBytes_status ..).trans (by rw [hr]; rfl)
  · refine (congrArg (fun t : State => t.ctx c) he).trans (hk.trans ?_)
    rw [hs1, hy]
    simp only [Ctx.ending, Ctx.launched, Ctx.recorded, hen, if_true]
    rfl

end Dispatched

/-- Settles O23: an admission check for check; a pass by the dispatch of its one candidate. -/
theorem admissionAndSchedulerResults : Obligations.AdmissionAndSchedulerResults := by
  unfold Obligations.AdmissionAndSchedulerResults
  refine ⟨?admission, ?pass, fun s had => congrArg Host.Outcome.next (thenPass_of_unchanged (schedulerPass_of_closed had))⟩
  case admission =>
    intro s c i l had hst hen hsw hi hl x d late status
    have hs : admitFails s c.val l = status := admitFails_eq ..
    refine ⟨fun h => ?_, fun st h => ?_⟩
    · exact congrArg (fun t => Host.Outcome.next (afterPass s t)) (admitOldest_admits had hst hen hsw hi hl (hs.trans h))
    · exact congrArg (fun t => Host.Outcome.next (afterPass s t)) (admitOldest_refuses had hst hen hsw hi hl (hs.trans h))
  case pass =>
    intro s c l had ho hst hf hl ht hr hm he
    have hstep := schedulerPass_single hst hf hl hr ho c.isLt had hm he
    refine ⟨fun f hmap hfit hclean hv => ?_, fun hb hen _ => ?_⟩
    · obtain ⟨y, hy, hk, hheld⟩ := dispatch_executes (crews := crewsFor s c.val l.desc)
        (dur := duration s l.desc (crewsFor s c.val l.desc)) ht ⟨hmap, hfit, hclean⟩ hv
      rw [← hstep] at hk hheld
      refine ⟨schedulerPass s, y, rfl, congrArg Ctx.exec hk, congrArg Ctx.lastLaunch hk,
        (congrArg Ctx.fetched hk).trans ?_, congrArg Exec.launch hy, congrArg Exec.tDispatch hy, congrArg Exec.mapEpoch hy,
        congrArg Exec.crews hy, congrArg Exec.stream hy, congrArg Exec.ending hy, fun g hg => hheld g ?_⟩
      · rw [Ctx.launched, hf, List.drop_one, List.tail_cons]
      · rwa [show y.crews = crewsFor s c.val l.desc from congrArg Exec.crews hy] at hg
    · obtain ⟨d, b, st, stop, hd, hk⟩ := dispatch_refused (crews := crewsFor s c.val l.desc)
        (dur := duration s l.desc (crewsFor s c.val l.desc)) ht hb hen
      rw [← hstep] at hk
      refine ⟨schedulerPass s, d, rfl, congrArg Ctx.done hk, hd, congrArg Ctx.exec hk, (congrArg Ctx.fetched hk).trans ?_,
        congrArg Ctx.lastLaunch hk⟩
      rw [Ctx.recorded, Ctx.launched, hf, List.drop_one, List.tail_cons]

end Sys2Proof.Machine

/-!
O32 to O39, but O36. The Reach fabric. The first part says once what the router does with packets that this device puts
into its output queues (`putQueue`); the ports follow.
-/

namespace Sys2Proof.Machine

/-! ### Packets put into the router's output queues (07 R299) -/

/-- Packets of this device that the router takes into its output queues now, in order. -/
def putQueue (l : List Packet) (s : State) : State :=
  s.modFab fun f => { f with queue := f.queue ++ l.map fun q => { pkt := q, since := s.now, esc := none } }

theorem putQueue_nil (s : State) : putQueue [] s = s := by
  simp only [putQueue, List.map_nil, List.append_nil]
  rfl

theorem putQueue_append (l m : List Packet) (s : State) : putQueue m (putQueue l s) = putQueue (l ++ m) s := by
  simp only [putQueue, State.modFab, List.map_append, List.append_assoc]
  rfl

theorem putQueue_devNo (l : List Packet) (s : State) : (putQueue l s).devNo = s.devNo := rfl

/-- The packets that a state has in its output queues beyond those of an earlier one. -/
theorem putQueue_queued {l : List Packet} {s s1 : State} (h : s1.fab.queue = s.fab.queue) :
    ((putQueue l s1).fab.queue.drop s.fab.queue.length).map (·.pkt) = l := by
  rw [putQueue, State.modFab_fab, h, List.drop_left, List.map_map]
  exact List.map_id l

theorem routerPut_of_other {q : Packet} {s : State} (h : q.dest ≠ s.devNo) : routerPut q s = putQueue [q] s := if_neg h

/-- A function that puts one packet into the output queues for each element puts them all there, in order. -/
theorem forList_putQueue {α : Type} {f : α → State → State} {g : α → Packet} (l : List α) (s : State)
    (hf : ∀ a ∈ l, ∀ r : State, r.devNo = s.devNo → f a r = putQueue [g a] r) :
    forList f l s = putQueue (l.map g) s := by
  induction l generalizing s with
  | nil => exact (putQueue_nil s).symm
  | cons a l ih =>
    have ha := hf a List.mem_cons_self s rfl
    refine (ih (f a s) fun b hb r hr => hf b (List.mem_cons_of_mem a hb) r ?_).trans ?_
    · rw [hr, ha, putQueue_devNo]
    · rw [ha, putQueue_append]
      rfl

/-! ### Replies (07 R297, R302) -/

/-- FAB_FAULT_LOG holds the reason of a fault reply to a request. -/
def logFault (q : Packet) (reason : Nat) (s : State) : State :=
  s.modFab fun f => { f with ffReason := reason, ffDest := q.dest, ffJob := q.jobid }

theorem replyTo_congr {q : Packet} {ty : PType} {reason : Nat} {data : List Byte} {loc : BitVec 42} {s s1 : State}
    (h : s1.devNo = s.devNo) : replyTo s1 q ty reason data loc = replyTo s q ty reason data loc := by
  simp only [replyTo, h]

theorem faultReply_of_other {q : Packet} {reason : Nat} {s : State} (h : q.src ≠ s.devNo) :
    faultReply q reason s = putQueue [replyTo s q .replyFault reason [] q.loc] (logFault q reason s) :=
  routerPut_of_other (s := logFault q reason s) h

theorem faultReply_cntUnroutable (q : Packet) (reason : Nat) (s : State) :
    (faultReply q reason s).fab.cntUnroutable = s.fab.cntUnroutable := by
  simp only [faultReply, routerPut]
  split <;> rfl

/-! ### The choice of a port (07 R299 to R301) -/

theorem listMin_isSome {α : Type} {lt : α → α → Bool} {a : α} {l : List α} (h : a ∈ l) :
    ∃ b, listMin lt l = some b := by
  cases l with
  | nil => cases h
  | cons b r =>
    rw [listMin]
    split
    · exact ⟨_, rfl⟩
    · split <;> exact ⟨_, rfl⟩

/-- What `listMin` chooses of a list rising by `<`, where an element of more credit precedes. -/
theorem listMin_credit {credit : Nat → Nat} {l : List Nat} (hl : l.Pairwise (· < ·)) {m : Nat}
    (hm : listMin (fun a b => decide (credit b < credit a)) l = some m) :
    m ∈ l ∧ ∀ k ∈ l, credit k < credit m ∨ (credit k = credit m ∧ m ≤ k) := by
  induction l generalizing m with
  | nil => cases hm
  | cons a l ih =>
    obtain ⟨ha, hr⟩ := List.pairwise_cons.mp hl
    rw [listMin] at hm
    cases hb : listMin (fun a b => decide (credit b < credit a)) l with
    | none =>
      rw [hb] at hm
      obtain rfl : a = m := Option.some.inj hm
      refine ⟨List.mem_cons_self, fun k hk => ?_⟩
      obtain rfl | hk := List.mem_cons.mp hk
      · exact .inr ⟨rfl, Nat.le_refl k⟩
      · obtain ⟨b, h⟩ := listMin_isSome (lt := fun a b => decide (credit b < credit a)) hk
        rw [hb] at h
        cases h
    | some b =>
      obtain ⟨hmem, hmax⟩ := ih hr hb
      simp only [hb, decide_eq_true_eq] at hm
      split at hm
      · rename_i hlt
        obtain rfl : b = m := Option.some.inj hm
        refine ⟨List.mem_cons_of_mem a hmem, fun k hk => ?_⟩
        obtain rfl | hk := List.mem_cons.mp hk
        · exact .inl hlt
        · exact hmax k hk
      · rename_i hge
        obtain rfl : a = m := Option.some.inj hm
        refine ⟨List.mem_cons_self, fun k hk => ?_⟩
        obtain rfl | hk := List.mem_cons.mp hk
        · exact .inr ⟨rfl, Nat.le_refl k⟩
        · have hak := ha k hk
          have hkb := hmax k hk
          omega

/-- The port of the most free credits, the lowest number on a tie. -/
theorem mostCredit_eq {credit : Nat → Nat} {l : List Nat} {n : Nat} (hl : l.Pairwise (· < ·)) (hn : n ∈ l)
    (hpos : 0 < credit n) (hmax : ∀ m ∈ l, credit m < credit n ∨ (credit m = credit n ∧ n ≤ m)) :
    mostCredit credit l = some n := by
  obtain ⟨m, hm⟩ := listMin_isSome (lt := fun a b => decide (credit b < credit a)) hn
  obtain ⟨hmem, hbest⟩ := listMin_credit hl hm
  obtain rfl : m = n := by
    have h1 := hbest n hn
    have h2 := hmax m hmem
    omega
  simp only [mostCredit, hm, if_pos hpos]

theorem mostCredit_none {credit : Nat → Nat} {l : List Nat} (h : ∀ m ∈ l, credit m = 0) (hl : l.Pairwise (· < ·)) :
    mostCredit credit l = none := by
  unfold mostCredit
  split
  · rename_i m hm
    rw [if_neg (by rw [h m (listMin_credit hl hm).1]; exact Nat.lt_irrefl 0)]
  · rfl

theorem productive_pairwise (f : Fabric) (d : Nat) : (productive f d).Pairwise (· < ·) :=
  List.Pairwise.filter _ List.pairwise_lt_range

/-- The two ports of an escape direction are neighbours. -/
theorem escapePorts_next {f : Fabric} {d dim a b : Nat} (h : escapePorts f d = some (dim, [a, b])) : b = a + 1 := by
  unfold escapePorts at h
  split at h
  · cases h
  · simp only [Option.some.injEq, Prod.mk.injEq, List.cons.injEq, and_true] at h
    omega

section Route
variable {s : State} {i : Nat} {q : Queued} {cr : List Credits}

/-- The adaptive port of a packet, none where it goes into escape. -/
def adaptivePort (s : State) (q : Queued) (cr : List Credits) : Option Nat :=
  if q.esc.isSome then none
  else mostCredit (fun n => (creditOf cr n).adaptive)
    ((productive s.fab q.pkt.dest.toNat).filter fun n => (s.port n).room q.pkt)

theorem adaptivePort_best {n : Nat} (he : q.esc = none) (hn : n ∈ productive s.fab q.pkt.dest.toNat)
    (hroom : (s.port n).room q.pkt = true) (hpos : 0 < (creditOf cr n).adaptive)
    (hmax : ∀ m ∈ productive s.fab q.pkt.dest.toNat, (s.port m).room q.pkt = true →
      (creditOf cr m).adaptive < (creditOf cr n).adaptive ∨
        ((creditOf cr m).adaptive = (creditOf cr n).adaptive ∧ n ≤ m)) :
    adaptivePort s q cr = some n := by
  rw [adaptivePort, he]
  refine mostCredit_eq ((productive_pairwise _ _).filter _) (List.mem_filter.mpr ⟨hn, hroom⟩) hpos fun m hm => ?_
  obtain ⟨hmem, hm⟩ := List.mem_filter.mp hm
  exact hmax m hmem hm

theorem adaptivePort_none (h : (∀ m ∈ productive s.fab q.pkt.dest.toNat, (s.port m).room q.pkt = true →
    (creditOf cr m).adaptive = 0) ∨ q.esc ≠ none) : adaptivePort s q cr = none := by
  unfold adaptivePort
  split
  · rfl
  · rename_i he
    obtain h | h := h
    · refine mostCredit_none (fun m hm => ?_) ((productive_pairwise _ _).filter _)
      obtain ⟨hmem, hm⟩ := List.mem_filter.mp hm
      exact h m hmem hm
    · exact absurd (Option.isSome_iff_ne_none.mpr h) he

theorem routePacket_adaptive {n : Nat} (hq : s.fab.queue[i]? = some q) (hn : adaptivePort s q cr = some n) :
    routePacket i cr s = leave i n q none s := by
  rw [adaptivePort] at hn
  simp only [routePacket, hq, hn]

/-- Port n can carry a packet in escape, on the channel ch. -/
def escFree (s : State) (q : Queued) (cr : List Credits) (ch : Bool) (n : Nat) : Bool :=
  (s.port n).room q.pkt && decide (0 < if ch then (creditOf cr n).esc1 else (creditOf cr n).esc0)

theorem routePacket_escape {dim : Nat} {ports : List Nat} {ch : Bool} (hq : s.fab.queue[i]? = some q)
    (hn : adaptivePort s q cr = none) (he : escapePorts s.fab q.pkt.dest.toNat = some (dim, ports))
    (hch : decide (q.esc = some (dim, true)) = ch) :
    routePacket i cr s =
      match ports.filter (escFree s q cr ch) with
      | [] => s
      | [n] => leave i n q (some ch) s
      | n :: _ => leave i (n + (s.freeBelow 2).1) q (some ch) (s.freeBelow 2).2 := by
  rw [adaptivePort] at hn
  subst hch
  simp only [routePacket, hq, hn, he]
  rfl

/-- The state in which a packet has left the output queues, its pending slot holding its records (07 R305). -/
theorem leaveQueue_eq (i : Nat) (q : Queued) (s : State) : leaveQueue i q s = { s with fab := { s.fab with
    queue := listDrop s.fab.queue i
    slots := match q.entry.bind (fun e => e.slot.map (fun k => (k, e.recs))) with
      | none => s.fab.slots
      | some (k, recs) => Tbl.put none k (some { recs := recs, sent := s.now }) s.fab.slots } } := by
  cases h : q.entry.bind (fun e => e.slot.map (fun k => (k, e.recs))) with
  | none =>
    simp only [leaveQueue, h]
    rfl
  | some z =>
    simp only [leaveQueue, h]
    rfl

end Route

/-! ### Packets without a way (07 R301) -/

/-- The packet i of the output queues is discarded and counted, with an event at most once in 1 ms. -/
def discardPacket (i : Nat) (q : Queued) (s : State) : State :=
  let due := match s.fab.unroutableAt with
    | some a => decide (1000000 ≤ s.since a)
    | none => true
  let r := (leaveQueue i q s).modFab fun f => { f with
    cntUnroutable := satAdd 32 f.cntUnroutable 1, unroutableAt := if due then some s.now else f.unroutableAt }
  if due then raise 0x3007 noUnit q.pkt.dest.toNat r else r

theorem discardPacket_fab (i : Nat) (q : Queued) (s : State) :
     (discardPacket i q s).fab.queue = listDrop s.fab.queue i ∧
    (discardPacket i q s).fab.cntUnroutable = satAdd 32 s.fab.cntUnroutable 1 ∧ (discardPacket i q s).devNo = s.devNo := by
  unfold discardPacket
  extract_lets due r
  obtain ⟨hqu, hcnt, hdev⟩ : r.fab.queue = listDrop s.fab.queue i ∧
      r.fab.cntUnroutable = satAdd 32 s.fab.cntUnroutable 1 ∧ r.devNo = s.devNo := by
    unfold r
    rw [leaveQueue_eq]
    exact ⟨rfl, rfl, rfl⟩
  split
  · exact ⟨by rw [raise_fab, hqu], by rw [raise_fab, hcnt], (devNo_congr (raise_fab ..)).trans hdev⟩
  · exact ⟨hqu, hcnt, hdev⟩

section Unroutable
variable {s : State} {i : Nat} {q : Queued} (hq : s.fab.queue[i]? = some q)
include hq

theorem unroutable_of_up {n : Nat} (hn : n ∈ productive s.fab q.pkt.dest.toNat) (hup : (s.port n).st = .up)
    (ht : s.since q.since ≤ 100000) : unroutable i s = s := by
  have hany : (productive s.fab q.pkt.dest.toNat).any (fun n => decide ((s.port n).st = .up)) = true :=
    List.any_eq_true.mpr ⟨n, hn, decide_eq_true hup⟩
  simp only [unroutable, hq, hany, ht, decide_true, Bool.and_self, if_true]

theorem unroutable_discards
    (h : (∀ n ∈ productive s.fab q.pkt.dest.toNat, (s.port n).st ≠ .up) ∨ 100000 < s.since q.since) :
    unroutable i s =
      if isRequest q.pkt.ptype then faultReply q.pkt 6 (discardPacket i q s) else discardPacket i q s := by
  have hno : ((productive s.fab q.pkt.dest.toNat).any (fun n => decide ((s.port n).st = .up)) &&
      decide (s.since q.since ≤ 100000)) = false := by
    rw [Bool.and_eq_false_iff]
    refine h.imp (fun h => ?_) fun h => decide_eq_false (Nat.not_le_of_lt h)
    exact List.any_eq_false.mpr fun n hn => by simpa using h n hn
  simp only [unroutable, hq, hno, Bool.false_eq_true, if_false]
  rfl

end Unroutable

/-- Settles O37: the port chosen is that of `mostCredit` or of the escape direction. -/
theorem routingResults : Obligations.RoutingResults := by
  unfold Obligations.RoutingResults
  intro s i q hq ports slots rest
  have hleave (n : Nat) (esc : Option Bool) : leave i n q esc s = putFlit n q.pkt esc rest :=
    congrArg (putFlit n q.pkt esc) (leaveQueue_eq i q s)
  refine ⟨?adaptive, ?escape, ?kept, ?discarded⟩
  case adaptive =>
    intro cr n he hn hroom hpos hmax
    refine congrArg Host.Outcome.next ?_
    rw [routePacket_adaptive hq (adaptivePort_best he hn hroom hpos hmax), hleave]
  case escape =>
    intro cr dim a b hnone hesc ch free
    have hstep := routePacket_escape (ch := ch) hq (adaptivePort_none hnone) hesc rfl
    have hfree (n : Nat) : escFree s q cr ch n = true ↔ free n := by rw [escFree, Bool.and_eq_true, decide_eq_true_eq]
    simp only [List.filter_cons, List.filter_nil, hfree] at hstep
    refine ⟨fun ha hb => ?_, fun ha hb => ?_, fun ha hb => ?_, fun ha hb => ?_⟩
    · rw [if_pos ha, if_neg hb] at hstep
      exact congrArg Host.Outcome.next (hstep.trans (hleave a _))
    · rw [if_neg ha, if_pos hb] at hstep
      exact congrArg Host.Outcome.next (hstep.trans (hleave b _))
    · rw [if_pos ha, if_pos hb] at hstep
      refine ⟨a + (s.freeBelow 2).1, ?_, congrArg Host.Outcome.next (hstep.trans ?_)⟩
      · rw [escapePorts_next hesc]
        have := Nat.mod_lt (Config.freeNat s.freeIx) (show 0 < 2 by decide)
        simp only [State.freeBelow]
        omega
      · exact congrArg (putFlit _ q.pkt (some ch)) (leaveQueue_eq i q (s.freeBelow 2).2)
    · rw [if_neg ha, if_neg hb] at hstep
      exact congrArg Host.Outcome.next hstep
  case kept =>
    intro ⟨n, hn, hup⟩ ht
    exact congrArg Host.Outcome.next (unroutable_of_up hq hn hup ht)
  case discarded =>
    intro h
    obtain ⟨hqu, hcnt, hdev⟩ := discardPacket_fab i q s
    refine ⟨_, congrArg Host.Outcome.next (unroutable_discards hq h), ?_, fun hno => ?_, fun hyes hsrc => ?_⟩
    · split
      · exact (faultReply_cntUnroutable ..).trans hcnt
      · exact hcnt
    · rw [if_neg (by rw [hno]; exact Bool.false_ne_true)]
      exact hqu
    · rw [if_pos hyes, faultReply_of_other (by rw [hdev]; exact hsrc), ← hqu]
      exact ⟨_, rfl, replyTo_congr hdev⟩

/-! ### The combiner (07 R304 to R306) -/

theorem listSet_modify {α : Type} {l : List α} {k : Nat} {x : α} {f : α → α} (h : l[k]? = some x) :
    l.modify k f = listSet l k (f x) := by
  rw [listSet_eq_set, List.modify_eq_set_getElem?, h]
  rfl

/-- The first of a list that has a property is the one whose place `findIdx?` gives. -/
theorem find?_of_findIdx? {α : Type} {p : α → Bool} {l : List α} {k : Nat} {x : α} (h : l.findIdx? p = some k)
    (hx : l[k]? = some x) : l.find? p = some x := by
  obtain ⟨hk, hp, hfirst⟩ := List.findIdx?_eq_some_iff_getElem.mp h
  obtain rfl : l[k] = x := Option.some.inj ((List.getElem?_eq_getElem hk).symm.trans hx)
  exact List.find?_eq_some_iff_getElem.mpr ⟨hp, k, hk, rfl, fun j hj => by simpa using hfirst j hj⟩

section Combine
variable {s : State} {i : Nat} {a : Arrival}

/-- A packet finds the first held entry of its key. -/
theorem entries_find_held {f : Fabric} {q : Packet} {k : Nat} {e : Comb} (h : f.comb.findIdx? (Comb.keyed q) = some k)
    (he : f.comb[k]? = some e) : (entries f).find? (Comb.keyed q) = some e := by
  rw [entries, List.find?_append, find?_of_findIdx? h he]
  rfl

/-- Where none is held, a packet finds the first entry of its key in the output queues. -/
theorem entries_find_queued {f : Fabric} {q : Packet} {k : Nat} {w : Queued} {e : Comb}
    (hc : f.comb.findIdx? (Comb.keyed q) = none)
    (h : f.queue.findIdx? (fun w => w.entry.any (Comb.keyed q)) = some k) (hw : f.queue[k]? = some w)
    (he : w.entry = some e) : (entries f).find? (Comb.keyed q) = some e := by
  have hnone : f.comb.find? (Comb.keyed q) = none := by
    rw [List.find?_eq_none]
    intro x hx hk
    exact absurd hk (by simpa using List.findIdx?_eq_none_iff.mp hc x hx)
  rw [entries, List.find?_append, hnone, Option.none_or, List.find?_filterMap, find?_of_findIdx? h hw]
  exact he

/-- An entry e may take in one record more, with slot n. -/
def Comb.May (f : Fabric) (e : Comb) (n : Nat) : Prop :=
  f.combEn = true ∧ e.recs.length < 8 ∧ (if e.slot.isSome then e.slot else freeSlot f) = some n

theorem Comb.May.absorb {f : Fabric} {e : Comb} {n : Nat} (h : e.May f n) (q : Packet) :
    absorb q (freeSlot f) e = { e with
      value := (fpAdd e.value q.value).1, recs := e.recs ++ [{ src := q.src, handle := q.handle, rgen := q.rgen }]
      slot := some n } := by
  obtain ⟨-, -, hn⟩ := h
  rw [Machine.absorb, hn]

theorem combine_absorbs {e : Comb} {n : Nat} (hf : (entries s.fab).find? (Comb.keyed a.pkt) = some e)
    (h : e.May s.fab n) : combine a s = absorbFirst a.pkt s := by
  obtain ⟨hen, hl, hn⟩ := h
  have hslot : (e.slot.isSome || (freeSlot s.fab).isSome) = true := by
    split at hn
    · rename_i h
      rw [h, Bool.true_or]
    · rw [hn, Option.isSome_some, Bool.or_true]
  have hab : absorbed e < 7 := by unfold absorbed; omega
  simp only [combine, hf, hen, hab, hslot, decide_true, Bool.and_self, if_true]

/-- Packet a goes on by itself: the router takes it. -/
def routeAlone (a : Arrival) (s : State) : State :=
  s.modFab fun f => { f with queue := f.queue ++ [{ pkt := a.pkt, since := s.now, esc := a.esc }] }

theorem combine_refused {e : Comb} (hf : (entries s.fab).find? (Comb.keyed a.pkt) = some e)
    (h : s.fab.combEn = false ∨ 8 ≤ e.recs.length ∨ (e.slot = none ∧ freeSlot s.fab = none)) :
    combine a s = routeAlone a s := by
  have hno : (s.fab.combEn && decide (absorbed e < 7) && (e.slot.isSome || (freeSlot s.fab).isSome)) = false := by
    obtain h | h | ⟨h, h'⟩ := h
    · rw [h, Bool.false_and, Bool.false_and]
    · rw [decide_eq_false (by unfold absorbed; omega), Bool.and_false, Bool.false_and]
    · rw [h, h', Option.isSome_none, Bool.or_self, Bool.and_false]
  simp only [combine, hf, hno, Bool.false_eq_true, if_false]
  rfl

theorem combine_enters (hf : (entries s.fab).find? (Comb.keyed a.pkt) = none) (h : (entries s.fab).length < 256) :
    combine a s = s.modFab fun f => { f with comb := f.comb ++ [{
      dest := a.pkt.dest, jobid := a.pkt.jobid, loc := a.pkt.loc, value := a.pkt.value
      recs := [{ src := a.pkt.src, handle := a.pkt.handle, rgen := a.pkt.rgen }], slot := none, entered := s.now
      esc := a.esc }] } := by
  simp only [combine, hf, if_pos h]

theorem combine_full (hf : (entries s.fab).find? (Comb.keyed a.pkt) = none) (h : 256 ≤ (entries s.fab).length) :
    combine a s = routeAlone a s := by
  simp only [combine, hf, if_neg (Nat.not_lt_of_le h)]
  rfl

theorem absorbFirst_held {q : Packet} {k : Nat} {e : Comb} (h : s.fab.comb.findIdx? (Comb.keyed q) = some k)
    (he : s.fab.comb[k]? = some e) : absorbFirst q s = s.modFab fun f => { f with
      comb := listSet f.comb k (absorb q (freeSlot s.fab) e), cntCombined := satAdd 48 f.cntCombined 1 } := by
  simp only [absorbFirst, State.modFab_fab, h]
  simp only [State.modFab, listSet_modify he]

theorem absorbFirst_queued {q : Packet} {k : Nat} {w : Queued} {e : Comb}
    (hc : s.fab.comb.findIdx? (Comb.keyed q) = none)
    (h : s.fab.queue.findIdx? (fun w => w.entry.any (Comb.keyed q)) = some k) (hw : s.fab.queue[k]? = some w)
    (he : w.entry = some e) : absorbFirst q s = s.modFab fun f => { f with
      queue := listSet f.queue k { w with
        pkt := combPacket s (absorb q (freeSlot s.fab) e), entry := some (absorb q (freeSlot s.fab) e) }
      cntCombined := satAdd 48 f.cntCombined 1 } := by
  simp only [absorbFirst, State.modFab_fab, hc, h]
  simp only [State.modFab, listSet_modify hw, he]
  rfl

/-- An ATOMADD packet for another device is the combiner's. -/
theorem packetAtomadd_combines (ha : s.fab.arrived[i]? = some a) (ht : a.pkt.ptype = .atomAdd)
    (hd : a.pkt.dest ≠ s.devNo) : packetAtomadd i s = combine a (takeArrival i s) := by
  simp only [packetAtomadd, ha, ht, not_true_eq_false, if_false, ne_eq, hd, not_false_eq_true, if_true]

end Combine

theorem combExpire_held {s : State} {i : Nat} {e : Comb} (he : s.fab.comb[i]? = some e)
    (h : s.since e.entered < s.fab.holdNs) : combExpire i s = s := by
  simp only [combExpire, he, if_neg (Nat.not_le_of_lt h)]

theorem combExpire_leaves {s : State} {i : Nat} {e : Comb} (he : s.fab.comb[i]? = some e)
    (h : s.fab.holdNs ≤ s.since e.entered) : combExpire i s = s.modFab fun f => { f with
      comb := listDrop f.comb i
      queue := f.queue ++ [{ pkt := combPacket s e, since := e.entered, esc := e.esc, entry := some e }] } := by
  simp only [combExpire, combOut, he, if_pos h]

/-! ### Pending slots (07 R305) -/

/-- The reply q to a slot, as one record of it is answered. -/
def Rec.answer (r : Rec) (q : Packet) (s : State) : Packet :=
  { q with src := s.devNo, dest := r.src, handle := r.handle, rgen := r.rgen }

theorem slotReply_answers {s : State} {i k : Nat} {a : Arrival} {p : PendSlot} (ha : s.fab.arrived[i]? = some a)
    (ht : a.pkt.ptype = .replyAck ∨ a.pkt.ptype = .replyFault) (hd : a.pkt.dest = s.devNo)
    (hk : a.pkt.handle.toNat = 2 ^ 31 + k) (hp : Tbl.look none k s.fab.slots = some p)
    (hr : ∀ r ∈ p.recs, r.src ≠ s.devNo) : slotReply i s = putQueue (p.recs.map fun r => r.answer a.pkt s)
      ((takeArrival i s).modFab fun f => { f with slots := Tbl.put none k none f.slots }) := by
  have hlt := a.pkt.handle.isLt
  have hmod : a.pkt.handle.toNat % 2 ^ 31 = k := by omega
  have hno : (decide (a.pkt.handle.toNat < 2 ^ 31) || !(decide (a.pkt.ptype = .replyAck) ||
      decide (a.pkt.ptype = .replyFault)) || decide (a.pkt.dest ≠ s.devNo)) = false := by
    have h31 : ¬ a.pkt.handle.toNat < 2 ^ 31 := by omega
    have hty : (decide (a.pkt.ptype = .replyAck) || decide (a.pkt.ptype = .replyFault)) = true := by
      simpa only [Bool.or_eq_true, decide_eq_true_eq] using ht
    rw [hty, decide_eq_false h31, decide_eq_false (not_not_intro hd)]
    rfl
  simp only [slotReply, ha, hno, Bool.false_eq_true, if_false, hmod, State.modFab_fab, hp]
  refine forList_putQueue _ _ fun r hmem z hz => ?_
  have hdev : z.devNo = s.devNo := hz
  rw [routerPut_of_other (by rw [hdev]; exact hr r hmem), hdev]
  rfl

/-- Settles O38: an atomic add is absorbed, entered or routed, as `combine` finds an entry of its key. -/
theorem combinerResults : Obligations.CombinerResults := by
  unfold Obligations.CombinerResults
  refine ⟨?atomAdd, ?hold, ?reply, ?timeout⟩
  case atomAdd =>
    intro s i a ha ht hd q rest takes may alone
    have hstep := packetAtomadd_combines ha ht hd
    refine ⟨fun k e n hk he hmay => ?_, fun k w e n hc hk hw he hmay => ?_, fun e hf h => ?_,
      fun hf => ⟨fun h => ?_, fun h => ?_⟩⟩
    · have hm : e.May rest.fab n := hmay
      refine congrArg Host.Outcome.next (hstep.trans ?_)
      rw [combine_absorbs (entries_find_held (f := rest.fab) hk he) hm, absorbFirst_held (s := rest) hk he, hm.absorb]
      rfl
    · have hm : e.May rest.fab n := hmay
      refine congrArg Host.Outcome.next (hstep.trans ?_)
      rw [combine_absorbs (entries_find_queued (f := rest.fab) hc hk hw he) hm,
        absorbFirst_queued (s := rest) hc hk hw he, hm.absorb]
      rfl
    · exact congrArg Host.Outcome.next (hstep.trans (combine_refused (s := rest) hf h))
    · exact congrArg Host.Outcome.next (hstep.trans (combine_enters (s := rest) hf h))
    · exact congrArg Host.Outcome.next (hstep.trans (combine_full (s := rest) hf h))
  case hold =>
    intro s i e he
    exact ⟨fun h => congrArg Host.Outcome.next (combExpire_held he h),
      fun h => congrArg Host.Outcome.next (combExpire_leaves he h)⟩
  case reply =>
    intro s i a k p ha ht hd hk hp hr
    refine ⟨_, congrArg Host.Outcome.next (slotReply_answers ha ht hd hk hp hr), ?_, putQueue_queued rfl⟩
    exact Tbl.look_put_same (none : Option PendSlot) k none s.fab.slots
  case timeout =>
    intro s k p hp
    refine ⟨fun h => congrArg Host.Outcome.next ?_, fun h => congrArg Host.Outcome.next ?_⟩
    · simp only [slotTimeout, hp, if_pos h]
      rfl
    · simp only [slotTimeout, hp, if_neg (Nat.not_le_of_lt h)]

/-! ### Requests at their target (07 R297, R298, R302) -/

theorem hbmRead_length {pa len : Nat} {s s1 : State} {bs : List Byte} (h : hbmRead pa len s = (.ok bs, s1)) :
    bs.length = len := by
  unfold hbmRead at h
  split at h
  · cases h
  · obtain ⟨h, -⟩ := Prod.mk.inj h
    rw [← Res.ok.inj h, bytesAt_length]

theorem readPage_length {v : Via} {loc len : Nat} {s s1 : State} {bs : List Byte}
    (h : readPage v loc len s = (.ok bs, s1)) : bs.length = len := by
  unfold readPage at h
  split at h
  · cases h
  · split at h
    · cases h
    · exact hbmRead_length h

/-- A read answers at most the bytes asked for. -/
theorem readPages_length {v : Via} {n loc len : Nat} {s s1 : State} {bs : List Byte}
    (h : readPages v n loc len s = (.ok bs, s1)) : bs.length ≤ len := by
  induction n generalizing loc len s s1 bs with
  | zero =>
    obtain ⟨h, -⟩ := Prod.mk.inj h
    rw [← Res.ok.inj h]
    exact Nat.zero_le _
  | succ n ih =>
    rw [readPages] at h
    split at h
    · obtain ⟨h, -⟩ := Prod.mk.inj h
      rw [← Res.ok.inj h]
      exact Nat.zero_le _
    · dsimp only at h
      split at h
      · cases h
      · rename_i hpage
        split at h
        · cases h
        · rename_i hrest
          obtain ⟨h, -⟩ := Prod.mk.inj h
          have hk : inPage loc len ≤ len := Nat.min_le_left ..
          have h1 := readPage_length hpage
          have h2 := ih hrest
          rw [← Res.ok.inj h, List.length_append, h1]
          omega

theorem readLocal_length {v : Via} {loc len : Nat} {s s1 : State} {bs : List Byte}
    (h : readLocal v loc len s = (.ok bs, s1)) : bs.length ≤ len := readPages_length h

/-- The data reply to a READ that carries bytes bs from LOCAL address loc. -/
def dataReply (s : State) (q : Packet) (loc : Nat) (bs : List Byte) : Packet :=
  replyTo s q .replyData 0 bs (BitVec.ofNat 42 loc)

/-- The data replies of a READ are of 256 bytes each, but for the last. -/
theorem dataReplies_eq {q : Packet} {n loc : Nat} {bs : List Byte} {s : State} (hsrc : q.src ≠ s.devNo)
    (hn : bs.length ≤ 256 * n) : dataReplies q n loc bs s =
      putQueue ((List.range ((bs.length + 255) / 256)).map fun k =>
        dataReply s q (loc + 256 * k) ((bs.drop (256 * k)).take 256)) s := by
  induction n generalizing loc bs s with
  | zero =>
    rw [show bs.length = 0 by omega]
    exact (putQueue_nil s).symm
  | succ n ih =>
    rw [dataReplies]
    by_cases hbs : bs = []
    · subst hbs
      exact (putQueue_nil s).symm
    · have hpos : 0 < bs.length := List.length_pos_iff.mpr hbs
      have hcount : (bs.length + 255) / 256 = ((bs.drop 256).length + 255) / 256 + 1 := by
        rw [List.length_drop]
        omega
      rw [if_neg (by simpa using hbs), routerPut_of_other (q := replyTo ..) hsrc,
        ih (s := putQueue _ s) hsrc (by rw [List.length_drop]; omega), putQueue_append, hcount,
        List.range_succ_eq_map, List.map_cons, List.map_map]
      congr 1
      refine congrArg (List.cons _) (List.map_congr_left fun k _ => ?_)
      rw [Function.comp_apply, List.drop_drop, Nat.add_assoc, show 256 + 256 * k = 256 * (k + 1) by omega]
      rfl

theorem turnedAway_unreachable {s : State} (h : s.fab.placed = false ∨ s.rst.oos = true) (q : Packet) :
    turnedAway s q = some 5 := by
  have hno : (!s.fab.placed || s.rst.oos) = true := by
    obtain h | h := h
    · rw [h]
      rfl
    · rw [h, Bool.or_true]
  simp only [turnedAway, hno, if_true]
  rfl

theorem turnedAway_noJob {s : State} {q : Packet} (hp : s.fab.placed = true) (ho : s.rst.oos = false)
    (hc : ctxOfJob s q.jobid = none) : turnedAway s q = some 1 := by
  simp only [turnedAway, hp, ho, hc, Bool.not_true, Bool.or_false, Bool.false_eq_true, if_false, Option.isNone_none,
    if_true]
  rfl

theorem turnedAway_none {s : State} {q : Packet} {c : Nat} (hp : s.fab.placed = true) (ho : s.rst.oos = false)
    (hc : ctxOfJob s q.jobid = some c) : turnedAway s q = none := by
  simp only [turnedAway, hp, ho, hc, Bool.not_true, Bool.or_false, Bool.false_eq_true, if_false, Option.isNone_some]

section Request
variable {s : State} {i : Nat} {a : Arrival} (ha : s.fab.arrived[i]? = some a) (hd : a.pkt.dest = s.devNo)

/-- The command that handles a request of a type. -/
def requestCommand (ty : PType) (i : Nat) : Instr :=
  if ty = .read then .packetRead i else if ty = .write then .packetWrite i else .packetAtomadd i

include ha hd

/-- A request turned away is answered with the reason. -/
theorem exec_request_turnedAway {reason : Nat} (ht : turnedAway s a.pkt = some reason)
    (hty : a.pkt.ptype = .read ∨ a.pkt.ptype = .write ∨ a.pkt.ptype = .atomAdd) :
    exec (requestCommand a.pkt.ptype i) s = .next (faultReply a.pkt reason (takeArrival i s)) := by
  obtain h | h | h := hty <;> rw [h]
  · show Host.Outcome.next (packetRead i s) = _
    simp only [packetRead, arrivalFor_of_type ha hd h, ht]
  · show Host.Outcome.next (packetWrite i s) = _
    simp only [packetWrite, arrivalFor_of_type ha hd h, ht]
  · show Host.Outcome.next (packetAtomadd i s) = _
    simp only [packetAtomadd, ha, h, hd, ht, ne_eq, not_true_eq_false, if_false]

variable {c : Nat} (hp : s.fab.placed = true) (ho : s.rst.oos = false) (hc : ctxOfJob s a.pkt.jobid = some c)
include hp ho hc

theorem packetRead_ok {bs : List Byte} {s1 : State} (ht : a.pkt.ptype = .read)
    (hshut : rangeShut s c a.pkt.loc.toNat a.pkt.len.toNat = false)
    (hr : readLocal (viaRemote c) a.pkt.loc.toNat a.pkt.len.toNat (takeArrival i s) = (.ok bs, s1)) :
    packetRead i s = dataReplies a.pkt 256 a.pkt.loc.toNat bs s1 := by
  simp only [packetRead, arrivalFor_of_type ha hd ht, turnedAway_none hp ho hc, hc, Option.getD_some, hshut, hr,
    Bool.false_eq_true, if_false]

theorem packetWrite_ok {s1 : State} (ht : a.pkt.ptype = .write)
    (hshut : rangeShut s c a.pkt.loc.toNat a.pkt.data.length = false)
    (hw : writeLocal (viaRemote c) a.pkt.loc.toNat a.pkt.data (takeArrival i s) = (.ok (), s1)) :
    packetWrite i s = routerPut (replyTo s1 a.pkt .replyAck 0 [] a.pkt.loc) s1 := by
  simp only [packetWrite, arrivalFor_of_type ha hd ht, turnedAway_none hp ho hc, hc, Option.getD_some, hshut, hw,
    Bool.false_eq_true, if_false]

theorem packetWrite_fault {s1 : State} {f : MFault} {b : Nat} (ht : a.pkt.ptype = .write)
    (hshut : rangeShut s c a.pkt.loc.toNat a.pkt.data.length = false)
    (hw : writeLocal (viaRemote c) a.pkt.loc.toNat a.pkt.data (takeArrival i s) = (.err f b, s1)) :
    packetWrite i s = faultReply a.pkt f.reply s1 := by
  simp only [packetWrite, arrivalFor_of_type ha hd ht, turnedAway_none hp ho hc, hc, Option.getD_some, hshut, hw,
    Bool.false_eq_true, if_false]

theorem packetAtomadd_queued (ht : a.pkt.ptype = .atomAdd) :
    packetAtomadd i s = { takeArrival i s with atoms := s.atoms ++ [{
      ctx := c, loc := a.pkt.loc.toNat, val := a.pkt.value, tile := none, pkt := some a.pkt, rgen := 0#6
      acked := false }] } := by
  simp only [packetAtomadd, ha, ht, hd, turnedAway_none hp ho hc, hc, Option.getD_some, ne_eq, not_true_eq_false, if_false]
  rfl

end Request

/-- Settles O35: a request is turned away, or is carried out through the context of its job. -/
theorem packetRequestResults : Obligations.PacketRequestResults := by
  unfold Obligations.PacketRequestResults
  intro s i a ha hd hsrc q rest command
  refine ⟨fun hty => ⟨fun h => ?_, fun hp ho hc => ?_⟩, fun c hp ho hc => ⟨?read, ?write, ?fault, ?atomAdd⟩⟩
  · exact exec_request_turnedAway ha hd (turnedAway_unreachable h q) hty
  · exact exec_request_turnedAway ha hd (turnedAway_noJob hp ho hc) hty
  case read =>
    intro bs s1 ht hshut hr hfab
    have hdev : s1.devNo = s.devNo := devNo_congr (s := rest) hfab
    have hlen : bs.length ≤ 256 * 256 := by
      have h1 := readLocal_length hr
      have h2 := q.len.isLt
      omega
    have hstep := packetRead_ok ha hd hp ho hc ht hshut hr
    rw [dataReplies_eq (by rw [hdev]; exact hsrc) hlen] at hstep
    refine ⟨_, congrArg Host.Outcome.next hstep, ?_, rfl, ?_⟩
    · exact congrArg Fabric.arrived hfab
    · have hqueue : s1.fab.queue = rest.fab.queue := congrArg Fabric.queue hfab
      rw [putQueue_queued (s := s) hqueue]
      exact List.map_congr_left fun k _ => replyTo_congr hdev
  case write =>
    intro s1 ht hshut hw hfab
    have hdev : s1.devNo = s.devNo := devNo_congr (s := rest) hfab
    refine congrArg Host.Outcome.next ((packetWrite_ok ha hd hp ho hc ht hshut hw).trans ?_)
    rw [replyTo_congr hdev]
  case fault =>
    intro f b s1 ht hshut hw
    refine congrArg Host.Outcome.next ((packetWrite_fault ha hd hp ho hc ht hshut hw).trans ?_)
    cases f <;> rfl
  case atomAdd =>
    intro ht
    exact congrArg Host.Outcome.next (packetAtomadd_queued ha hd hp ho hc ht)

/-! ### Control packets (07 R300, R310) -/

/-- The Reach unit but for its ports. -/
def Fabric.portless (f : Fabric) : Fabric := { f with ports := [] }

theorem sendFlit_portless (n : Nat) (q : Packet) (s : State) : (sendFlit n q s).fab.portless = s.fab.portless := by
  simp only [sendFlit]
  split <;> rfl

/-- A control packet that is sent on changes ports alone. -/
theorem flood_portless (ok : Nat → Bool) (q : Packet) (s : State) : (flood ok q s).fab.portless = s.fab.portless := by
  refine forUp_keeps (v := fun s => s.fab.portless) (fun n s => ?_) ..
  split
  · exact sendFlit_portless ..
  · rfl

/-! ### What the abort of an easy-all leaves of the Reach unit (07 R311) -/

theorem gateCrew_fab (g : Nat) (s : State) : (gateCrew g s).fab = s.fab := by
  unfold gateCrew
  refine forList_keeps (v := State.fab) (fun t s => ?_) ..
  rfl

theorem endPair_fab (c : Nat) (p : Pair) (s : State) : (endPair c p s).fab = s.fab := by
  unfold endPair
  refine forList_keeps (v := State.fab) (fun g s => ?_) ..
  exact gateCrew_fab g s

theorem voidPair_fab (c : Nat) (s : State) : (voidPair c s).fab = s.fab := by
  unfold voidPair
  split
  · rfl
  · split
    · rfl
    · exact endPair_fab c _ s

theorem pushDone_fab (c : Nat) (bs : List Byte) (s : State) : (pushDone c bs s).fab = s.fab := by
  unfold pushDone
  split
  · simp only [noteFull]
    split
    · rfl
    · split
      · rfl
      · exact raise_fab ..
  · rfl

theorem enterStopped_fab (c : Nat) (s : State) : (enterStopped c s).fab = s.fab := raise_fab ..

theorem launchDone_fab (c : Nat) (s : State) : (launchDone c s).fab = s.fab := by
  unfold launchDone
  split
  · rfl
  split
  · rfl
  extract_lets fault r s1 s2 s3 s4 s5 s6 s7 k
  have h1 : s1.fab = s.fab := pushDone_fab ..
  have h2 : s2.fab = s1.fab := by
    refine forList_keeps (v := State.fab) (fun g s => ?_) ..
    rfl
  have h3 : s3.fab = s2.fab := by
    refine forList_keeps (v := State.fab) (fun t s => ?_) ..
    rfl
  have h6 : s6.fab = s3.fab := by
    unfold s6
    split <;> rfl
  have h7 : s7.fab = s6.fab := by
    unfold s7
    split
    · exact raise_fab ..
    · rfl
  rw [← h1, ← h2, ← h3, ← h6, ← h7]
  split
  · exact enterStopped_fab ..
  · rfl

theorem contextAbort_fab (c : Nat) (s : State) : (contextAbort c s).fab = s.fab := by
  simp only [contextAbort]
  split <;> rfl

/-- An ending by EASY_ALL sends no easy-all of its own. -/
theorem decideEnd_easyAll_fab (c d : Nat) (o : BitVec 64) (s : State) : (decideEnd c stEasyAll d o s).fab = s.fab := by
  unfold decideEnd
  split
  · rfl
  extract_lets e k s2 s3 stops s4 s5
  split
  · rfl
  split
  · rfl
  have h4 : s4.fab = s.fab := by
    refine Eq.trans ?_ (voidPair_fab c s)
    unfold s4
    split <;> rfl
  have h5 : s5 = s4 := if_neg (by simp)
  rw [h5, ← h4]
  split
  · exact contextAbort_fab ..
  · exact launchDone_fab ..

theorem refuseLaunch_easyAll_fab (c : Nat) (l : Launch) (s : State) : (refuseLaunch c stEasyAll l s).fab = s.fab := by
  unfold refuseLaunch
  extract_lets job s1 s2 s3 send
  rw [if_neg (by simp [send, classX, stEasyAll])]
  have h1 : s1.fab = s.fab := pushDone_fab ..
  rw [← h1]
  unfold s3 s2
  split <;> rfl

theorem easyAllAct_fab (c : Nat) (s : State) : (easyAllAct c s).fab = s.fab := by
  unfold easyAllAct
  split
  · rfl
  extract_lets busy s1 s2 l s3 s4
  have h1 : s1.fab = s.fab := decideEnd_easyAll_fab ..
  have h2 : s2.fab = s1.fab := by
    unfold s2
    split <;> rfl
  have h4 : s4.fab = s2.fab := by
    refine forList_keeps (v := State.fab) (fun l s => ?_) ..
    exact refuseLaunch_easyAll_fab ..
  rw [← h1, ← h2, ← h4]
  split
  · rfl
  · exact enterStopped_fab ..

/-! ### What it does to the context (07 R311, R316, R317) -/

theorem Ctx.recorded_append (k : Ctx) (l m : List Done) (b b' : Bool) :
    (k.recorded l b).recorded m b' = k.recorded (l ++ m) b' := by
  simp only [Ctx.recorded, List.append_assoc]

/-- A launch refused leaves at most a record in its context. -/
theorem refuseLaunch_records (c status : Nat) (l : Launch) (s : State) :
    ∃ ds b, (refuseLaunch c status l s).ctx c = (s.ctx c).recorded ds b := by
  cases hen : (s.ctx c).en with
  | true =>
    obtain ⟨d, b, -, h⟩ := refuseLaunch_ctx c status l hen
    exact ⟨[d], b, h⟩
  | false => exact ⟨[], _, ((refuseLaunch_quiet status l hen).ctx c).trans (Ctx.recorded_nil _).symm⟩

theorem refuseLaunches_record (c status : Nat) (l : List Launch) (s : State) :
    ∃ ds b, (forList (fun x s => refuseLaunch c status x s) l s).ctx c = (s.ctx c).recorded ds b := by
  induction l generalizing s with
  | nil => exact ⟨[], _, (Ctx.recorded_nil _).symm⟩
  | cons x l ih =>
    obtain ⟨ds, b, h⟩ := refuseLaunch_records c status x s
    obtain ⟨es, b', h'⟩ := ih (refuseLaunch c status x s)
    exact ⟨ds ++ es, b', h'.trans (by rw [h, Ctx.recorded_append])⟩

section Act
variable {c : Nat} {s : State} (hst : (s.ctx c).st = .running)
include hst

/-- An executing launch takes the ending EASY_ALL, and its context aborts. -/
theorem easyAllAct_executing {x : Exec} (hx : (s.ctx c).exec = some x) (he : x.ending = none)
    (ha : (s.ctx c).abort = none) :
    ((easyAllAct c s).ctx c).exec = some (x.endedBy stEasyAll 0 s.now) ∧ ((easyAllAct c s).ctx c).st = .aborting := by
  unfold easyAllAct
  rw [if_neg (not_not_intro hst)]
  extract_lets busy s1 s2 l s3 s4
  have hbusy : busy = true := by rw [show busy = (s.ctx c).exec.isSome from rfl, hx]; rfl
  have k1 : s1.ctx c = ((s.ctx c).ending x stEasyAll 0 s.now).swept s.now :=
    decideEnd_aborts stEasyAll 0 s.now hx he ha (.inl rfl)
  have k2 : s2.ctx c = { s1.ctx c with st := .aborting } := by
    rw [show s2 = _ from if_pos hbusy, modCtx_ctx]
  have k3 : s3.ctx c = { s2.ctx c with fetched := l.filter (fun x => !x.desc.isCatch) } := modCtx_ctx ..
  obtain ⟨ds, b, k4⟩ := refuseLaunches_record c stEasyAll (l.filter (fun x => x.desc.isCatch)) s3
  rw [if_pos hbusy, k4, k3, k2, k1]
  exact ⟨rfl, rfl⟩

/-- An idle context stops. -/
theorem easyAllAct_idle (hx : (s.ctx c).exec = none) : ((easyAllAct c s).ctx c).st = .stopped := by
  unfold easyAllAct
  rw [if_neg (not_not_intro hst)]
  extract_lets busy s1 s2 l s3 s4
  have hbusy : ¬ busy = true := by
    rw [show busy = (s.ctx c).exec.isSome from rfl, hx]
    exact Bool.false_ne_true
  rw [if_neg hbusy, enterStopped_ctx]

end Act

/-! ### Messages (07 R308, R310) -/

/-- The triple of a message is still kept. -/
def HoldsTriple (s : State) (q : Packet) : Prop :=
  ∃ t ∈ s.fab.triples, s.since t.kept < 1000000 ∧ t.boot = false ∧ t.job = q.jobid ∧ t.origin = q.src ∧
    t.stroke = q.stroke

theorem holdsTriple_iff {i : Nat} {s : State} {q : Packet} :
    ((keptTriples (takeArrival i s)).any fun t =>
      !t.boot && decide (t.job = q.jobid) && decide (t.origin = q.src) && decide (t.stroke = q.stroke)) = true ↔
      HoldsTriple s q := by
  have hk : keptTriples (takeArrival i s) = s.fab.triples.filter fun t => decide (s.since t.kept < 1000000) := rfl
  simp only [hk, HoldsTriple, List.any_eq_true, List.mem_filter, decide_eq_true_eq, Bool.and_eq_true, Bool.not_eq_true',
    and_assoc]

/-- The easy-all of triple t with a cause is the last that the log shows, and t the newest triple. -/
structure Fabric.Logs (f : Fabric) (t : Triple) (cause : BitVec 8) : Prop where
  job : f.logJob = t.job
  origin : f.logOrigin = t.origin
  cause : f.logCause = cause
  valid : f.logValid = true
  stroke : f.logStroke = t.stroke
  triple : f.triples.head? = some t

theorem Fabric.Logs.of_portless {f g : Fabric} {t : Triple} {cause : BitVec 8} (h : f.Logs t cause)
    (e : g.portless = f.portless) : g.Logs t cause where
  job := (congrArg Fabric.logJob e).trans h.job
  origin := (congrArg Fabric.logOrigin e).trans h.origin
  cause := (congrArg Fabric.logCause e).trans h.cause
  valid := (congrArg Fabric.logValid e).trans h.valid
  stroke := (congrArg Fabric.logStroke e).trans h.stroke
  triple := (congrArg (fun f => f.triples.head?) e).trans h.triple

/-- The triple under which a message is kept from now on. -/
def tripleOf (q : Packet) (s : State) : Triple :=
  { job := q.jobid, origin := q.src, stroke := q.stroke, boot := false, kept := s.now }

/-- A new message is entered, goes out on the other UP ports and is logged. -/
def easyAllEnter (a : Arrival) (s : State) : State :=
  let s1 := flood (fun n => decide (a.port.map (·.val) ≠ some n)) a.pkt (keepTriple (tripleOf a.pkt s) s)
  raise 0x3009 noUnit a.pkt.jobid.toNat (easyAllLog a.pkt.jobid a.pkt.src a.pkt.stroke a.pkt.reason.toNat s1)

theorem easyAllLog_quiet (job : BitVec 32) (origin : BitVec 14) (stroke : BitVec 64) (cause : Nat) (s : State) :
    Quiet s (easyAllLog job origin stroke cause s) := ⟨rfl, rfl⟩

theorem easyAllEnter_quiet (a : Arrival) (s : State) : Quiet s (easyAllEnter a s) := by
  have h1 : Quiet s (keepTriple (tripleOf a.pkt s) s) := ⟨rfl, rfl⟩
  unfold easyAllEnter
  extract_lets s1
  have h2 : Quiet s s1 := h1.trans (flood_quiet ..)
  exact (h2.trans (easyAllLog_quiet ..)).trans (raise_quiet ..)

theorem easyAllEnter_logs (a : Arrival) (s : State) :
    (easyAllEnter a s).fab.Logs (tripleOf a.pkt s) a.pkt.reason := by
  unfold easyAllEnter
  extract_lets s1
  have h1 : s1.fab.portless = _ := flood_portless ..
  rw [raise_fab]
  exact ⟨rfl, rfl, BitVec.ofNat_toNat .., rfl, rfl, congrArg (fun f => f.triples.head?) h1⟩

/-- A message that this device originates. -/
theorem easyAllOriginate_logs (job : BitVec 32) (cause : Nat) (origin : BitVec 64) (s : State) :
    (easyAllOriginate job cause origin s).fab.Logs
      { job := job, origin := s.devNo, stroke := origin, boot := false, kept := s.now } (BitVec.ofNat 8 cause) := by
  unfold easyAllOriginate
  extract_lets me blank pkt s1 s2 s3
  rw [raise_fab]
  have h2 : s2.fab.Logs { job := job, origin := s.devNo, stroke := origin, boot := false, kept := s.now }
      (BitVec.ofNat 8 cause) := ⟨rfl, rfl, rfl, rfl, rfl, rfl⟩
  exact h2.of_portless (flood_portless ..)

section Receive
variable {s : State} {i : Nat} {a : Arrival} (ha : s.fab.arrived[i]? = some a) (ht : a.pkt.ptype = .easyAll)
include ha ht

theorem easyAllReceive_held (h : HoldsTriple s a.pkt) : easyAllReceive i s = takeArrival i s := by
  have hk := (holdsTriple_iff (i := i)).mpr h
  simp only [easyAllReceive, ha, ht, ne_eq, not_true_eq_false, if_false, hk, if_true]

theorem easyAllReceive_new (h : ¬ HoldsTriple s a.pkt) : easyAllReceive i s =
    match ctxOfJob s a.pkt.jobid with
    | none => easyAllEnter a (takeArrival i s)
    | some c => if notAfter (s.ctx c).jobAt a.pkt.stroke then easyAllAct c (easyAllEnter a (takeArrival i s))
      else easyAllEnter a (takeArrival i s) := by
  have hk := mt (holdsTriple_iff (i := i)).mp h
  have hq := easyAllEnter_quiet a (takeArrival i s)
  have hjob : ctxOfJob (easyAllEnter a (takeArrival i s)) a.pkt.jobid = ctxOfJob s a.pkt.jobid := by
    rw [ctxOfJob, hq.ctxs]
    rfl
  have hctx (c : Nat) : (easyAllEnter a (takeArrival i s)).ctx c = s.ctx c := hq.ctx c
  have hstep : easyAllReceive i s = match ctxOfJob (easyAllEnter a (takeArrival i s)) a.pkt.jobid with
    | none => easyAllEnter a (takeArrival i s)
    | some c => if notAfter ((easyAllEnter a (takeArrival i s)).ctx c).jobAt a.pkt.stroke
      then easyAllAct c (easyAllEnter a (takeArrival i s)) else easyAllEnter a (takeArrival i s) := by
    simp only [easyAllReceive, ha, ht, ne_eq, not_true_eq_false, if_false, hk]
    rfl
  simp only [hjob, hctx] at hstep
  exact hstep

theorem easyAllReceive_logs (h : ¬ HoldsTriple s a.pkt) :
    (easyAllReceive i s).fab.Logs (tripleOf a.pkt s) a.pkt.reason := by
  have hlogs : (easyAllEnter a (takeArrival i s)).fab.Logs (tripleOf a.pkt s) a.pkt.reason := easyAllEnter_logs ..
  rw [easyAllReceive_new ha ht h]
  split
  · exact hlogs
  · split
    · rw [easyAllAct_fab]
      exact hlogs
    · exact hlogs

end Receive

/-- Settles O39: a message discarded, or entered (`easyAllReceive_logs`) and acted on (`easyAllAct`). -/
theorem easyAllResults : Obligations.EasyAllResults := by
  unfold Obligations.EasyAllResults
  refine ⟨?send, ?receive, fun s => rfl⟩
  case send =>
    intro s job hs
    refine ⟨fun hj => congrArg Host.Outcome.next ?_, fun hj => ?_⟩
    · rw [easyallSend, hs, hj]
      rfl
    · have hstep : easyallSend job s = easyAllOriginate job stHostAbort s.now s := by
        rw [easyallSend, hs, Bool.true_and]
        exact if_pos (decide_eq_true hj)
      have hlogs := easyAllOriginate_logs job stHostAbort s.now s
      exact ⟨_, congrArg Host.Outcome.next hstep, hlogs.job, hlogs.origin, hlogs.cause, hlogs.valid, hlogs.stroke,
        hlogs.triple⟩
  case receive =>
    intro s i a ha ht q held
    refine ⟨fun h => congrArg Host.Outcome.next ?_, fun h => ?_⟩
    · rw [thenPass, easyAllReceive_held ha ht h]
      exact passesFrom_of_passMark _ rfl
    · have hlogs := easyAllReceive_logs ha ht h
      refine ⟨_, rfl, hlogs.job, hlogs.origin, hlogs.cause, hlogs.stroke, hlogs.triple, fun c hc hst => ?_⟩
      have hk : (easyAllEnter a (takeArrival i s)).ctx c = s.ctx c := (easyAllEnter_quiet a (takeArrival i s)).ctx c
      have hstep := easyAllReceive_new ha ht h
      rw [hc] at hstep
      dsimp only at hstep
      refine ⟨fun hb => ?_, fun hb => ?_⟩
      · rw [if_pos hb] at hstep
        rw [hstep]
        refine ⟨fun x hx he _ hab => ?_, fun hx _ => ?_⟩
        · obtain ⟨hend, hst'⟩ := easyAllAct_executing (by rw [hk]; exact hst) (by rw [hk]; exact hx) he
            (by rw [hk]; exact hab)
          exact ⟨_, hend, rfl, hst'⟩
        · exact easyAllAct_idle (by rw [hk]; exact hst) (by rw [hk]; exact hx)
      · rw [if_neg (by rw [hb]; exact Bool.false_ne_true)] at hstep
        rw [hstep, hk]

/-! ### Placement (07 R286, R287, 01 R39) -/

theorem becomeMaster_fab (s : State) : (becomeMaster s).fab = s.fab := raise_fab ..

theorem becomeMaster_st (s : State) : (becomeMaster s).stroke.st = .master :=
  congrArg Stroke.st (raise_stroke ..)

theorem placeDevice_fab (num size : Nat) (s : State) : (placeDevice num size s).fab =
    { s.fab with place := .placed, placed := true, devNum := BitVec.ofNat 14 num, machine := size } := raise_fab ..

theorem fabDelivery_lt (s : State) : fabDelivery s < 2 ^ 25 := by
  have hslot := s.card.slot.isLt
  have htray := s.card.tray.isLt
  have hrack := s.card.rack.isLt
  have hracks := s.card.racks.isLt
  simp only [fabDelivery]
  split <;> omega

theorem bringUp_toNat (s : State) : (bringUp s).toNat = 2 ^ 63 + fabDelivery s := by
  have h := fabDelivery_lt s
  rw [bringUp, BitVec.toNat_ofNat]
  omega

theorem bringUp_starts (s : State) : bit (bringUp s).toNat 63 = true := by
  have h : (fabDelivery s).testBit 63 = false := Nat.testBit_lt_two_pow (Nat.lt_trans (fabDelivery_lt s) (by decide))
  rw [bringUp_toNat, bit, Nat.testBit_two_pow_add_eq, h]
  rfl

/-- FAB_CFG holds v, and START is set. -/
def cfgStarted (v : BitVec 64) (s : State) : State :=
  let n := v.toNat
  s.modFab fun f => { f with
    x := BitVec.ofNat 2 n, y := BitVec.ofNat 2 (n / 4), z := BitVec.ofNat 2 (n / 16)
    rack := BitVec.ofNat 8 (n / 2 ^ 8), racks := BitVec.ofNat 9 (n / 2 ^ 16), start := some s.now }

theorem fabCfgWrite_starts {v : BitVec 64} {s : State} (hs : s.fab.start = none) (ha : s.alive = true)
    (hv : bit v.toNat 63 = true) : fabCfgWrite v s = fabBegin (cfgStarted v s) := by
  simp only [fabCfgWrite, hs, ha, Option.isSome_none, Bool.not_true, Bool.or_self, Bool.false_eq_true, if_false, hv,
    if_true]
  rfl

/-- FAB_CFG holds what the card controller has delivered, and START. -/
def fabStarted (s : State) : State :=
  cfgStarted (bringUp s) (s.modBoot fun b => { b with afterTrip := decide (s.card.offCode = cfTrip) })

theorem fabStarted_port (s : State) (n : Nat) : (fabStarted s).port n = s.port n := rfl

theorem fabStarted_now (s : State) : (fabStarted s).now = s.now := rfl

/-- The RACKS that START takes: none without a rack. -/
theorem fabStarted_racks (s : State) :
    (fabStarted s).fab.racks.toNat = if s.card.rackPresent then s.card.racks.toNat else 0 := by
  have hslot := s.card.slot.isLt
  have htray := s.card.tray.isLt
  have hrack := s.card.rack.isLt
  have hracks := s.card.racks.isLt
  simp only [fabStarted, cfgStarted, State.modFab_fab, BitVec.toNat_ofNat, bringUp_toNat, fabDelivery]
  cases s.card.rackPresent
  · simp
  · simp only [Bool.not_true, Bool.false_eq_true, if_false, if_true]
    omega

/-- The coordinates of a device in a rack. -/
theorem fabStarted_place {s : State} (h : s.card.rackPresent = true) :
    (fabStarted s).fab.x.toNat = s.card.slot.toNat ∧ (fabStarted s).fab.y.toNat = s.card.tray.toNat % 4 ∧
    (fabStarted s).fab.z.toNat = s.card.tray.toNat / 4 ∧ (fabStarted s).fab.rack = s.card.rack := by
  have hslot := s.card.slot.isLt
  have htray := s.card.tray.isLt
  have hrack := s.card.rack.isLt
  have hracks := s.card.racks.isLt
  rw [← BitVec.toNat_inj]
  simp only [fabStarted, cfgStarted, State.modFab_fab, BitVec.toNat_ofNat, bringUp_toNat, fabDelivery, h, Bool.not_true,
    Bool.false_eq_true, if_false]
  omega

theorem bringFabric_ignored {s : State} {v : BitVec 64} (h : s.fab.start ≠ none ∨ v ≠ bringUp s) :
    bringFabric v s = s := by
  have hno : (s.fab.start.isSome || decide (v ≠ bringUp s)) = true := by
    rw [Bool.or_eq_true, Option.isSome_iff_ne_none, decide_eq_true_eq]
    exact h
  refine if_pos ?_
  rw [Bool.or_eq_true] at hno
  obtain h | h := hno
  · rw [h, Bool.or_true, Bool.true_or, Bool.true_or]
  · rw [h, Bool.or_true]

theorem bringFabric_begins {s : State} (ha : s.alive = true) (hs : s.fab.start = none) (hm : pastMaps s = true)
    (hd : s.card.rackPresent = true → s.card.delivered = true) : bringFabric (bringUp s) s = fabBegin (fabStarted s) := by
  have hgo : (s.card.rackPresent && !s.card.delivered) = false := by
    cases hr : s.card.rackPresent with
    | false => rfl
    | true => rw [hd hr]; rfl
  simp only [bringFabric, ha, hs, hm, hgo, Bool.and_self, Bool.not_true, Option.isSome_none, Bool.or_self, ne_eq,
    not_true_eq_false, decide_false, Bool.false_eq_true, if_false]
  exact fabCfgWrite_starts hs ha (bringUp_starts s)

section Begin
variable {s : State}

theorem fabBegin_alone (h : s.fab.racks.toNat = 0) : fabBegin s = becomeMaster (placeDevice 0 1 s) := if_pos h

theorem fabBegin_size (h : 256 < s.fab.racks.toNat) : fabBegin s =
    becomeMaster (raise 0x3006 noUnit 0 (s.modFab fun f => { f with place := .refusedSize })) :=
  (if_neg (by omega)).trans (if_pos h)

theorem fabBegin_cfg (h : s.fab.racks.toNat ≠ 0) (h' : s.fab.racks.toNat ≤ 256)
    (hr : s.fab.racks.toNat ≤ s.fab.rack.toNat) :
    fabBegin s = becomeMaster (s.modFab fun f => { f with place := .refusedCfg }) :=
  (if_neg h).trans ((if_neg (by omega)).trans (if_pos hr))

/-- Port n begins its first attempt. -/
def firstAttempt (n : Nat) (s : State) : State := portTo n .detect (s.modPort n fun x => { x with attempts := 1 })

/-- A device of a fabric in training, before its ports begin. -/
def fabTraining (s : State) : State :=
  (s.modFab fun f => { f with place := .training }).modStroke fun k =>
    { k with st := .acquire, master := (s.modFab fun f => { f with place := .training }).devNo }

theorem fabTraining_port (s : State) (n : Nat) : (fabTraining s).port n = s.port n := rfl

theorem fabTraining_now (s : State) : (fabTraining s).now = s.now := rfl

theorem fabBegin_trains (h' : s.fab.racks.toNat ≤ 256) (hr : s.fab.rack.toNat < s.fab.racks.toNat) :
    fabBegin s = forUp firstAttempt 0 12 (fabTraining s) :=
  (if_neg (by omega)).trans ((if_neg (by omega)).trans (if_neg (by omega)))

end Begin

/-- A function that changes port n alone, for every n of a range. -/
theorem forUp_port {f : Nat → State → State} {g : State → Port → Port}
    (hf : ∀ n s m, (f n s).port m = if m = n then g s (s.port m) else s.port m) (hg : ∀ n s, g (f n s) = g s)
    (k n : Nat) (s : State) (m : Nat) :
    (forUp f k n s).port m = if k ≤ m ∧ m < k + n then g s (s.port m) else s.port m := by
  induction n generalizing k s with
  | zero => exact (if_neg (by omega)).symm
  | succ n ih =>
    rw [forUp, ih, hf, hg]
    by_cases hm : m = k
    · subst hm
      rw [if_neg (by omega), if_pos rfl, if_pos (by omega)]
    · rw [if_neg hm]
      by_cases hin : k + 1 ≤ m ∧ m < k + 1 + n
      · rw [if_pos hin, if_pos (by omega)]
      · rw [if_neg hin, if_neg (by omega)]

theorem firstAttempt_port (n : Nat) (s : State) (m : Nat) : (firstAttempt n s).port m =
    if m = n then { s.port m with attempts := 1, st := .detect, since := s.now, reeq := none } else s.port m := by
  by_cases h : m = n
  · subst h
    rw [if_pos rfl]
    simp [firstAttempt, portTo]
  · rw [if_neg h]
    simp [firstAttempt, portTo, State.setPort_port_other _ _ _ _ h]

theorem firstAttempts_port {n : Nat} (hn : n < 12) (s : State) : (forUp firstAttempt 0 12 s).port n =
    { s.port n with attempts := 1, st := .detect, since := s.now, reeq := none } := by
  rw [forUp_port (g := fun s x => { x with attempts := 1, st := .detect, since := s.now, reeq := none })
    firstAttempt_port (fun _ _ => rfl), if_pos (by omega)]

theorem firstAttempt_portless (n : Nat) (s : State) : (firstAttempt n s).fab.portless = s.fab.portless := rfl

theorem firstAttempts_portless (s : State) : (forUp firstAttempt 0 12 s).fab.portless = s.fab.portless :=
  forUp_keeps (v := fun s => s.fab.portless) firstAttempt_portless 0 12 s

theorem devNo_of_portless {s s1 : State} (h : s1.fab.portless = s.fab.portless) : s1.devNo = s.devNo := by
  have hplace : s1.fab.place = s.fab.place := (congrArg Fabric.place h).trans rfl
  have hrack : s1.fab.rack = s.fab.rack := (congrArg Fabric.rack h).trans rfl
  have hx : s1.fab.x = s.fab.x := (congrArg Fabric.x h).trans rfl
  have hy : s1.fab.y = s.fab.y := (congrArg Fabric.y h).trans rfl
  have hz : s1.fab.z = s.fab.z := (congrArg Fabric.z h).trans rfl
  have hnum : s1.fab.devNum = s.fab.devNum := (congrArg Fabric.devNum h).trans rfl
  simp only [State.devNo, hplace, hrack, hx, hy, hz, hnum]

section Placed
variable {s : State} {a : BitVec 64} (ha : s.fab.start = some a) (hp : s.fab.place = .training)
include ha hp

theorem fabPlaced_places (h : (∀ n, n < 12 → (s.port n).settled = true) ∨ 500000000 ≤ s.since a) :
    (fabPlaced s).fab =
      { s.fab with place := .placed, placed := true, devNum := s.devNo, machine := 64 * s.fab.racks.toNat } := by
  have hgo : s.fab.place = .training ∧
      ((List.range 12).all (fun n => (s.port n).settled) = true ∨ 500000000 ≤ s.since a) :=
    ⟨hp, h.imp_left fun h => List.all_eq_true.mpr fun n hn => h n (List.mem_range.mp hn)⟩
  have hfab := placeDevice_fab s.devNo.toNat (64 * s.fab.racks.toNat) s
  rw [BitVec.ofNat_toNat, BitVec.setWidth_eq] at hfab
  have hstep : fabPlaced s = if (placeDevice s.devNo.toNat (64 * s.fab.racks.toNat) s).stroke.st = .acquire ∧
      (placeDevice s.devNo.toNat (64 * s.fab.racks.toNat) s).stroke.parent = none
    then becomeMaster (placeDevice s.devNo.toNat (64 * s.fab.racks.toNat) s)
    else placeDevice s.devNo.toNat (64 * s.fab.racks.toNat) s := by
    simp only [fabPlaced, ha, if_pos hgo]
  rw [hstep]
  split
  · exact (becomeMaster_fab _).trans hfab
  · exact hfab

omit hp in
theorem fabPlaced_waits (h : ∃ n, n < 12 ∧ (s.port n).settled = false) (ht : s.since a < 500000000) : fabPlaced s = s := by
  obtain ⟨n, hn, hset⟩ := h
  have hno : ¬ ((List.range 12).all (fun n => (s.port n).settled) = true ∨ 500000000 ≤ s.since a) := by
    rintro (h | h)
    · have := List.all_eq_true.mp h n (List.mem_range.mpr hn)
      rw [hset] at this
      exact Bool.false_ne_true this
    · omega
  simp only [fabPlaced, ha]
  exact if_neg fun h => hno h.2

end Placed

/-- Settles O32: START is `fabBegin` of what the card controller has delivered (`fabStarted`). -/
theorem placementResults : Obligations.PlacementResults := by
  unfold Obligations.PlacementResults
  refine ⟨fun s v ha => ⟨fun h => congrArg Host.Outcome.next (bringFabric_ignored h), ?_⟩,
    fun s a ha hp => ⟨fun h => ?_, fun h ht => congrArg Host.Outcome.next (fabPlaced_waits ha h ht)⟩⟩
  · intro hs hm hd hv c racks
    subst hv
    have hstep (r : State) (h : fabBegin (fabStarted s) = r) : exec (.fabStart (bringUp s)) s = .next r :=
      congrArg Host.Outcome.next ((bringFabric_begins ha hs hm hd).trans h)
    have hracks : (fabStarted s).fab.racks.toNat = racks := fabStarted_racks s
    have hin (h : racks ≠ 0) : c.rackPresent = true := by
      cases hr : c.rackPresent with
      | true => rfl
      | false => exact absurd (if_neg (by rw [hr]; exact Bool.false_ne_true)) h
    refine ⟨fun h => ?_, fun h => ?_, fun h0 h h' => ?_, fun h h' => ?_⟩
    · refine ⟨_, hstep _ (fabBegin_alone (hracks.trans h)), ?_⟩
      rw [becomeMaster_fab, placeDevice_fab, becomeMaster_st]
      exact ⟨rfl, rfl, rfl, rfl, rfl, rfl⟩
    · refine ⟨_, hstep _ (fabBegin_size (by rw [hracks]; exact h)), ?_⟩
      rw [becomeMaster_fab, raise_fab]
      exact ⟨rfl, rfl, rfl⟩
    · obtain ⟨-, -, -, hrack⟩ := fabStarted_place (hin h0)
      refine ⟨_, hstep _ (fabBegin_cfg (by rw [hracks]; exact h0) (by rw [hracks]; exact h)
        (by rw [hracks, hrack]; exact h')), ?_⟩
      rw [becomeMaster_fab]
      exact ⟨rfl, rfl, rfl⟩
    · have hpres := hin (by omega)
      obtain ⟨hx, hy, hz, hrack⟩ := fabStarted_place hpres
      have hfab := firstAttempts_portless (fabTraining (fabStarted s))
      refine ⟨_, hstep _ (fabBegin_trains (by rw [hracks]; exact h) (by rw [hracks, hrack]; exact h')),
        (congrArg Fabric.place hfab).trans rfl, (congrArg Fabric.start hfab).trans rfl, ?_,
        (congrArg Fabric.rack hfab).trans hrack, ?_, (congrArg Fabric.devNum hfab).trans rfl,
        (congrArg Fabric.machine hfab).trans rfl, fun n hn => ?_⟩
      · refine (congrArg Fabric.racks hfab).trans (BitVec.eq_of_toNat_eq ?_)
        exact hracks.trans (if_pos hpres)
      · rw [devNo_of_portless hfab]
        have htray := s.card.tray.isLt
        have hslot := s.card.slot.isLt
        have hlt := s.card.rack.isLt
        show (BitVec.ofNat 14 (devNumber (fabStarted s).fab.rack.toNat (fabStarted s).fab.x.toNat
          (fabStarted s).fab.y.toNat (fabStarted s).fab.z.toNat)).toNat =
            64 * s.card.rack.toNat + 4 * s.card.tray.toNat + s.card.slot.toNat
        rw [hx, hy, hz, hrack, BitVec.toNat_ofNat, devNumber]
        omega
      · rw [firstAttempts_port hn, fabTraining_port, fabTraining_now, fabStarted_port, fabStarted_now]
  · have hfab := fabPlaced_places ha hp h
    exact ⟨_, rfl, (congrArg Fabric.place hfab).trans rfl, (congrArg Fabric.placed hfab).trans rfl,
      (congrArg Fabric.devNum hfab).trans rfl, (congrArg Fabric.machine hfab).trans rfl,
      (congrArg Fabric.ports hfab).trans rfl⟩

/-! ### A changed port -/

section OnlyPort
variable {s s' : State} {n : Nat} {y : Port}

theorem onlyPort_self (s : State) (n : Nat) : OnlyPort s s n (s.port n) := ⟨rfl, rfl, fun _ _ => rfl⟩

theorem OnlyPort.set (h : OnlyPort s s' n y) (z : Port) : OnlyPort s (s'.setPort n z) n z := by
  obtain ⟨he, -, hm⟩ := h
  refine ⟨?_, State.setPort_port_same .., fun m hne => ?_⟩
  · rw [State.setPort, he]
  · rw [State.setPort_port_other _ _ _ _ hne, hm m hne]

theorem OnlyPort.port (h : OnlyPort s s' n y) : s'.port n = y := h.2.1

theorem OnlyPort.now (h : OnlyPort s s' n y) : s'.now = s.now := by rw [h.1]; rfl

theorem OnlyPort.wantConserv (h : OnlyPort s s' n y) : wantConserv s' = wantConserv s := by rw [h.1]; rfl

/-- The port enters a training state. -/
theorem OnlyPort.enters (h : OnlyPort s s' n y) {st : PState} (hu : st ≠ .up) (hd : st ≠ .down) :
    OnlyPort s (portTo n st s') n { y with st := st, since := s.now, reeq := none } := by
  have e : portTo n st s' = s'.setPort n { y with st := st, since := s.now, reeq := none } := by
    simp only [portTo, State.modPort_eq, h.port, h.now, decide_eq_false hu, decide_eq_false hd, Bool.or_false]
  rw [e]
  exact h.set _

/-- Equalisation begins. -/
theorem OnlyPort.equalises (h : OnlyPort s s' n y) : OnlyPort s (toEq n s') n { y with
    st := .eq, since := s.now, reeq := none, conserv := Machine.wantConserv s } := by
  have e : s'.modPort n (fun x => { x with conserv := Machine.wantConserv s' }) =
      s'.setPort n { y with conserv := Machine.wantConserv s } := by
    rw [State.modPort_eq, h.port, h.wantConserv]
  rw [toEq, e]
  exact (h.set { y with conserv := Machine.wantConserv s }).enters (by decide) (by decide)

end OnlyPort

/-! ### A port that goes DOWN (07 R294, R319) -/

theorem sendFlit_port_other {n m : Nat} (h : m ≠ n) (q : Packet) (s : State) : (sendFlit n q s).port m = s.port m := by
  simp only [sendFlit]
  split
  · exact State.setPort_port_other _ _ _ _ h
  · exact State.setPort_port_other _ _ _ _ h

/-- A port that a flood leaves out is not changed by it. -/
theorem flood_port_of_not {ok : Nat → Bool} {m : Nat} (h : ok m = false) (q : Packet) (s : State) :
    (flood ok q s).port m = s.port m := by
  refine forUp_keeps (v := fun s => s.port m) (fun n s => ?_) 0 12 s
  by_cases hn : m = n
  · rw [← hn, h, Bool.and_false]
    rfl
  · split
    · exact sendFlit_port_other hn q s
    · rfl

theorem takeBack_port_self (n : Nat) (q : Packet) (s : State) : (takeBack n q s).port n = s.port n := by
  unfold takeBack
  split
  · exact flood_port_of_not (by simp) q s
  · exact flood_port_of_not (by simp) q s
  · rfl
  · rw [routerPut]
    split <;> rfl

theorem takeBack_port_other {q : Packet} (he : q.ptype ≠ .easyAll) (hb : q.ptype ≠ .boot) (n m : Nat) (s : State) :
    (takeBack n q s).port m = s.port m := by
  unfold takeBack
  split
  · contradiction
  · contradiction
  · rfl
  · rw [routerPut]
    split <;> rfl

theorem linkEvent_fab (c n : Nat) (s : State) : (linkEvent c n s).fab = s.fab := raise_fab ..

theorem linkEvent_port (c n : Nat) (s : State) (m : Nat) : (linkEvent c n s).port m = s.port m := raise_port_at ..

theorem linkEvent_stroke (c n : Nat) (s : State) : (linkEvent c n s).stroke = s.stroke := raise_stroke ..

theorem linkEvent_sent (c n : Nat) (s : State) : (linkEvent c n s).sent = s.sent := raise_sent ..

/-- A packet that no control packet and no atomic add is goes back to the router. -/
theorem takeBack_routes {q : Packet} (h : q.ptype = .read ∨ q.ptype = .write ∨ q.ptype = .replyData ∨
    q.ptype = .replyAck ∨ q.ptype = .replyFault) (n : Nat) : takeBack n q = routerPut q := by
  funext s
  obtain h | h | h | h | h := h <;> simp only [takeBack, h]

/-- The packets that a port holds for its partner. -/
def Port.held (x : Port) : List Packet := x.replay.filterMap (·.pkt) ++ x.ctlq

/-- The port n is DOWN and holds nothing; what it held is not yet routed again. -/
def downEmpty (n : Nat) (s : State) : State := portTo n .down (s.setPort n { s.port n with replay := [], ctlq := [] })

theorem goDown_eq (n : Nat) (s : State) : goDown n s = forList (takeBack n) (s.port n).held (downEmpty n s) := rfl

theorem goDown_port_self (n : Nat) (s : State) : (goDown n s).port n = { s.port n with
    replay := [], ctlq := [], st := .down, since := s.now, reeq := none, settled := true } := by
  rw [goDown_eq, forList_keeps (v := fun s => s.port n) fun q s => takeBack_port_self n q s]
  simp [downEmpty, portTo]

theorem downEmpty_port_other {n m : Nat} (h : m ≠ n) (s : State) : (downEmpty n s).port m = s.port m := by
  simp only [downEmpty, portTo, State.modPort_eq, State.setPort_port_other _ _ _ _ h]

theorem goDown_port_other {n m : Nat} {s : State} (h : m ≠ n)
    (hq : ∀ q ∈ (s.port n).held, q.ptype ≠ .easyAll ∧ q.ptype ≠ .boot) : (goDown n s).port m = s.port m := by
  rw [goDown_eq, ← downEmpty_port_other h s]
  generalize downEmpty n s = r
  generalize (s.port n).held = l at hq
  induction l generalizing r with
  | nil => rfl
  | cons q l ih =>
    obtain ⟨he, hb⟩ := hq q List.mem_cons_self
    rw [forList, ih _ (fun p hp => hq p (List.mem_cons_of_mem q hp)), takeBack_port_other he hb]

/-- Requests and replies for other devices are routed again, in order. -/
theorem goDown_routes {n : Nat} {s : State} (hq : ∀ q ∈ (s.port n).held, q.dest ≠ s.devNo ∧ (q.ptype = .read ∨
    q.ptype = .write ∨ q.ptype = .replyData ∨ q.ptype = .replyAck ∨ q.ptype = .replyFault)) :
    goDown n s = putQueue (s.port n).held (downEmpty n s) := by
  rw [goDown_eq, forList_putQueue (g := id) _ (downEmpty n s), List.map_id]
  intro q hmem r hr
  obtain ⟨hd, ht⟩ := hq q hmem
  rw [takeBack_routes ht]
  exact routerPut_of_other (by rw [hr]; exact hd)

/-- The end of a training attempt, where port n alone has changed till then. -/
theorem attemptEnd_ends {s s1 : State} {n reason : Nat} {x : Port} (h : OnlyPort s s1 n x) :
    AttemptEnds s (attemptEnd n reason s1) n reason x := by
  have e : s1.modPort n (fun x => { x with downReason := reason }) = s1.setPort n { x with downReason := reason } := by
    rw [State.modPort_eq, h.port]
  have h2 := h.set { x with downReason := reason }
  simp only [attemptEnd, e]
  generalize s1.setPort n { x with downReason := reason } = s2 at h2
  obtain ⟨-, hport, hother⟩ := id h2
  rw [hport]
  refine ⟨fun ha => ?_, fun ha => ?_⟩
  · rw [if_pos ha, State.modPort_eq, hport]
    exact (h2.set _).enters (by decide) (by decide)
  · rw [if_neg (Nat.not_lt_of_le ha)]
    have hdown : (linkEvent 0x3002 n (goDown n s2)).port n = _ := (linkEvent_port ..).trans (goDown_port_self n s2)
    rw [hdown, hport]
    refine ⟨rfl, rfl, rfl, fun hq m hm => ?_⟩
    refine (linkEvent_port ..).trans ((goDown_port_other hm ?_).trans (hother m hm))
    rw [hport]
    exact hq

/-! ### Resending (07 R292, R294, R296) -/

theorem waitedOnResend_fab (q : Packet) (d : Nat) (s : State) : (waitedOnResend q d s).fab = s.fab := by
  simp only [waitedOnResend]
  split
  · rfl
  · split <;> rfl

theorem waitedOnResend_sent (q : Packet) (d : Nat) (s : State) : (waitedOnResend q d s).sent = s.sent := by
  simp only [waitedOnResend]
  split
  · rfl
  · split <;> rfl

/-- A flit as port x resends it. -/
def Port.again (x : Port) (f : Flit) : Flit := { f with ack := x.rxSeq - 1, hit := true }

/-- Port x once it has resent the flits l at a count. -/
def Port.resending (x : Port) (l : List Flit) (s : State) : Port := { x with
  retry := satAdd 48 x.retry l.length
  resends := (s.now, l.length) :: x.resends.filter (fun e => decide (s.since e.1 ≤ 1000000))
  replay := x.replay.map (fun f => if l.contains f then x.again f else f) }

/-- What resending leaves of the links: its port has counted and marked the flits, and they are sent again. -/
theorem resend_links (n : Nat) (l : List Flit) (s : State) :
    (resend n l s).fab = (s.setPort n ((s.port n).resending l s)).fab ∧
    (resend n l s).sent = s.sent ++ l.map fun f => (n, (s.port n).again f) := by
  unfold resend
  constructor
  · refine (forList_keeps (v := State.fab) (fun f s => ?_) ..).trans rfl
    split
    · split
      · exact waitedOnResend_fab ..
      · rfl
    · rfl
  · refine (forList_keeps (v := State.sent) (fun f s => ?_) ..).trans rfl
    split
    · split
      · exact waitedOnResend_sent ..
      · rfl
    · rfl

theorem resend_port (n : Nat) (l : List Flit) (s : State) : (resend n l s).port n = (s.port n).resending l s := by
  rw [State.port, (resend_links n l s).1]
  exact State.setPort_port_same ..

/-! ### Control packets that wait on a port (07 R292, R300) -/

theorem drainPort_of_empty {n : Nat} {s : State} (h : (s.port n).ctlq = []) : drainPort n s = s := by
  rw [drainPort, h]
  rfl

theorem putFlit_port (n : Nat) (q : Packet) (esc : Option Bool) (s : State) : ∃ l seq,
    (putFlit n q esc s).port n = { s.port n with replay := l, txSeq := seq } :=
  ⟨_, _, State.setPort_port_same ..⟩

/-- Control packets that leave a port change neither its state nor what its partner named. -/
theorem drainCtl_keeps (n k : Nat) (s : State) : ((drainCtl n k s).port n).st = (s.port n).st ∧
    ((drainCtl n k s).port n).partnerRack = (s.port n).partnerRack := by
  induction k generalizing s with
  | zero => exact ⟨rfl, rfl⟩
  | succ k ih =>
    simp only [drainCtl]
    split
    · exact ⟨rfl, rfl⟩
    · rename_i q r hq
      split
      · obtain ⟨l, seq, hput⟩ := putFlit_port n q none (s.setPort n { s.port n with ctlq := r })
        rw [State.setPort_port_same] at hput
        obtain ⟨hst, hrack⟩ := ih (putFlit n q none (s.setPort n { s.port n with ctlq := r }))
        rw [hput] at hst hrack
        exact ⟨hst, hrack⟩
      · exact ⟨rfl, rfl⟩

theorem drainPort_keeps (n : Nat) (s : State) : ((drainPort n s).port n).st = (s.port n).st ∧
    ((drainPort n s).port n).partnerRack = (s.port n).partnerRack := drainCtl_keeps ..

/-! ### Training, event by event (07 R289, Table 7-3) -/

section Training
variable {s : State} {n : Nat}

theorem detectSignal_in_time (hst : (s.port n).st = .detect) (h : s.since (s.port n).since ≤ 10000000) :
    detectSignal n s = portTo n .rate s := if_pos ⟨hst, h⟩

theorem detectTimeout_repeats (hst : (s.port n).st = .detect) (hb : notAfter (s.port n).since s.now = true)
    (h : 10000000 ≤ s.since (s.port n).since) :
    detectTimeout n s = s.setPort n { s.port n with since := (s.port n).since + 100000000#64 } := if_pos ⟨hst, hb, h⟩

theorem rateExchange_equalises (r2 : Bool) (hst : (s.port n).st = .rate) (h : 1000000 ≤ s.since (s.port n).since) :
    rateExchange n r2 s = toEq n (s.setPort n { s.port n with rate2 := r2, fallback := false }) := if_pos ⟨hst, h⟩

theorem eqDone_converges (hst : (s.port n).st = .eq) (h : s.since (s.port n).since ≤ 20000000) :
    eqDone n true s = portTo n .lanes s := by
  simp only [eqDone, hst, ne_eq, not_true_eq_false, if_false, if_true, if_pos h]

theorem eqDone_fails (hst : (s.port n).st = .eq) (h : 20000000 ≤ s.since (s.port n).since) :
    eqDone n false s = if (s.port n).rate2 = true
      then toEq n (s.setPort n { s.port n with rate2 := false, fallback := true }) else attemptEnd n 1 s := by
  simp only [eqDone, hst, ne_eq, not_true_eq_false, if_false, Bool.false_eq_true, if_neg (Nat.not_lt_of_le h)]

/-- The lane check, by the nibbles of the mask of good lanes. -/
theorem lanesCheck_eq (mask : BitVec 8) (hst : (s.port n).st = .lanes) (h : 1000000 ≤ s.since (s.port n).since) :
    lanesCheck n mask s =
      if mask.extractLsb' 0 4 = 0xF#4 ∧ mask.extractLsb' 4 4 = 0xF#4 then
        portTo n .ident ((s.setPort n { s.port n with goodLanes := mask }).modPort n fun x => { x with half := false })
      else if mask.extractLsb' 0 4 = 0xF#4 ∨ mask.extractLsb' 4 4 = 0xF#4 then
        portTo n .ident ((s.setPort n { s.port n with goodLanes := mask }).modPort n fun x => { x with half := true })
      else attemptEnd n 2 (s.setPort n { s.port n with goodLanes := mask }) := by
  have hlt := mask.isLt
  have hlow : mask.extractLsb' 0 4 = 0xF#4 ↔ mask.toNat % 16 = 15 := by
    rw [← BitVec.toNat_inj, BitVec.extractLsb'_toNat]
    simp
  have hhigh : mask.extractLsb' 4 4 = 0xF#4 ↔ mask.toNat / 16 = 15 := by
    rw [← BitVec.toNat_inj, BitVec.extractLsb'_toNat, Nat.shiftRight_eq_div_pow]
    simp
    omega
  have hboth : (mask.toNat % 16 = 15 ∧ mask.toNat / 16 = 15) ↔ mask.toNat = 255 := by omega
  have hgo : ¬ ¬ ((s.port n).st = .lanes ∧ 1000000 ≤ s.since (s.port n).since) := not_not_intro ⟨hst, h⟩
  simp only [lanesCheck, if_neg hgo, hlow, hhigh, hboth]

/-! ### The partner's identity (07 R290, log 21) -/

/-- The identity is the one that the port's place on the torus asks for. -/
def RightPartner (s : State) (n : Nat) (who : Ident) : Prop :=
  (who.rack.toNat, who.x.toNat, who.y.toNat, who.z.toNat) = neighbour s.fab n ∧ who.port.val = partnerPort n

/-- A wrong identity takes the port DOWN with a reason. -/
theorem identify_wrong {who : Ident} {reason : Nat} (hst : (s.port n).st = .ident)
    (h : (who.racks ≠ s.fab.racks ∧ reason = 4) ∨ (who.racks = s.fab.racks ∧ ¬ RightPartner s n who ∧ reason = 3)) :
    identify n who s = linkEvent 0x3005 n (goDown n (s.setPort n { s.port n with downReason := reason })) := by
  obtain ⟨h, rfl⟩ | ⟨h, hr, rfl⟩ := h
  · simp only [identify, hst, ne_eq, not_true_eq_false, if_false, h, not_false_eq_true, if_true]
  · have hr' : (who.rack.toNat, who.x.toNat, who.y.toNat, who.z.toNat) ≠ neighbour s.fab n ∨
        who.port.val ≠ partnerPort n := by
      rwa [RightPartner, not_and_or] at hr
    simp only [identify, hst, ne_eq, not_true_eq_false, if_false, h, if_pos hr']

/-- The port is UP with this partner; what waits for it has not been sent. -/
def identUp (n : Nat) (who : Ident) (s : State) : State :=
  let x := s.port n
  let r := linkEvent 0x3001 n
    (portTo n .up (s.setPort n { x with partnerRack := some who.rack, markTx := none, markRx := none }))
  if x.half || x.fallback then linkEvent 0x3003 n r else r

theorem identUp_links (who : Ident) (s : State) : (identUp n who s).sent = s.sent ∧
    (identUp n who s).port n = { s.port n with
      partnerRack := some who.rack, markTx := none, markRx := none, st := .up, since := s.now, reeq := none
      settled := true } := by
  have hport : (portTo n .up (s.setPort n { s.port n with
      partnerRack := some who.rack, markTx := none, markRx := none })).port n = _ := State.setPort_port_same ..
  unfold identUp
  extract_lets x r
  have hr : r.sent = s.sent ∧ r.port n = { s.port n with
      partnerRack := some who.rack, markTx := none, markRx := none, st := .up, since := s.now, reeq := none
      settled := true } := by
    refine ⟨linkEvent_sent .., (linkEvent_port ..).trans (hport.trans ?_)⟩
    simp
  split
  · exact ⟨(linkEvent_sent ..).trans hr.1, (linkEvent_port ..).trans hr.2⟩
  · exact hr

theorem identify_right {who : Ident} (hst : (s.port n).st = .ident) (hk : who.racks = s.fab.racks)
    (hr : RightPartner s n who) : identify n who s = drainPort n
      (if (s.port n).replay.isEmpty then identUp n who s else resend n (s.port n).replay (identUp n who s)) := by
  have hr' : ¬ ((who.rack.toNat, who.x.toNat, who.y.toNat, who.z.toNat) ≠ neighbour s.fab n ∨
      who.port.val ≠ partnerPort n) := by
    rw [not_or, not_not, not_not]
    exact hr
  simp only [identify, hst, hk, ne_eq, not_true_eq_false, if_false, if_neg hr', identUp]

/-- The port comes UP with its partner; the flits of its replay buffer go out again. -/
theorem identify_up {who : Ident} (hst : (s.port n).st = .ident) (hk : who.racks = s.fab.racks)
    (hr : RightPartner s n who) : ((identify n who s).port n).st = .up ∧
      ((identify n who s).port n).partnerRack = some who.rack ∧
      ((s.port n).ctlq = [] →
        (identify n who s).sent = s.sent ++ (s.port n).replay.map fun f => (n, (s.port n).again f)) := by
  obtain ⟨hsent, hport⟩ := identUp_links (n := n) who s
  rw [identify_right hst hk hr]
  cases hl : (s.port n).replay with
  | nil =>
    obtain ⟨hst', hrack⟩ := drainPort_keeps n (identUp n who s)
    refine ⟨hst'.trans (by rw [hport]), hrack.trans (by rw [hport]), fun hc => ?_⟩
    rw [List.isEmpty_nil, if_pos rfl, drainPort_of_empty (by rw [hport]; exact hc), hsent, List.map_nil, List.append_nil]
  | cons f l =>
    rw [List.isEmpty_cons, if_neg Bool.false_ne_true]
    have hre := resend_port n (f :: l) (identUp n who s)
    obtain ⟨hst', hrack⟩ := drainPort_keeps n (resend n (f :: l) (identUp n who s))
    rw [hre, hport] at hst' hrack
    refine ⟨hst', hrack, fun hc => ?_⟩
    rw [drainPort_of_empty (by rw [hre, hport]; exact hc), (resend_links ..).2, hsent, hport]
    rfl

/-! ### Retraining (07 R296) -/

/-- Port x as it retrains, by the counts of its retrains in the last 10 s. -/
def Port.retraining (x : Port) (s : State) : Port := { x with
  st := .retrain, since := s.now, reeq := none, nak := false, resent := 0, resends := []
  retrains := s.now :: x.retrains.filter (fun a => decide (s.since a < 10000000000)) }

theorem since_now (s : State) : s.since s.now = 0 := by
  rw [State.since, span, State.now, BitVec.sub_self]
  rfl

/-- This retrain counts with those of the last 10 s. -/
theorem retrainsNow_retraining {s s1 : State} (x : Port) (h : s1.stroke = s.stroke) : retrainsNow s1 (x.retraining s) =
    (x.retrains.filter (fun a => decide (s.since a < 10000000000))).length + 1 := by
  have hsince : s1.since = s.since := by funext a; rw [State.since, State.since, h]
  rw [retrainsNow, hsince, Port.retraining, List.filter_cons_of_pos (by rw [since_now]; decide), List.filter_filter]
  simp

theorem linkRetrain_eq {lost : Bool} (hst : (s.port n).st = .up) (h : lost = true ∨ 1000 <
    (((s.port n).resends.filter (fun e => decide (s.since e.1 ≤ 1000000))).map (fun e => e.2)).sum) :
    linkRetrain n lost s =
      let r := linkEvent 0x3004 n (s.setPort n ((s.port n).retraining s))
      if 3 ≤ ((s.port n).retrains.filter (fun a => decide (s.since a < 10000000000))).length then
        linkEvent 0x3002 n (goDown n (r.modPort n fun x => { x with downReason := 5 }))
      else toEq n r := by
  have hgo : (!(decide ((s.port n).st = .up) && (lost || decide (1000 <
      (((s.port n).resends.filter (fun e => decide (s.since e.1 ≤ 1000000))).map (fun e => e.2)).sum)))) = false := by
    rw [Bool.not_eq_false', decide_eq_true hst, Bool.true_and, Bool.or_eq_true, decide_eq_true_eq]
    exact h
  unfold linkRetrain
  extract_lets x storm s1 s2 r
  rw [if_neg (by rw [hgo]; exact Bool.false_ne_true)]
  have hport : s2.port n = (s.port n).retraining s := (linkEvent_port ..).trans (State.setPort_port_same ..)
  have hcount := retrainsNow_retraining (s := s) (s.port n) (linkEvent_stroke 0x3004 n s1)
  refine if_congr ?_ rfl rfl
  rw [hport, show s2 = linkEvent 0x3004 n s1 from rfl]
  omega

/-- The port retrains: it equalises again, or is DOWN with reason 5 after the fourth time in 10 s. -/
theorem linkRetrain_port {lost : Bool} (hst : (s.port n).st = .up) (h : lost = true ∨ 1000 <
    (((s.port n).resends.filter (fun e => decide (s.since e.1 ≤ 1000000))).map (fun e => e.2)).sum) :
    (((s.port n).retrains.filter (fun a => decide (s.since a < 10000000000))).length < 3 →
      ((linkRetrain n lost s).port n).st = .eq ∧ ((linkRetrain n lost s).port n).replay = (s.port n).replay) ∧
    (3 ≤ ((s.port n).retrains.filter (fun a => decide (s.since a < 10000000000))).length →
      ((linkRetrain n lost s).port n).st = .down ∧ ((linkRetrain n lost s).port n).downReason = 5) := by
  have hport : (linkEvent 0x3004 n (s.setPort n ((s.port n).retraining s))).port n = (s.port n).retraining s :=
    (linkEvent_port ..).trans (State.setPort_port_same ..)
  rw [linkRetrain_eq hst h]
  generalize linkEvent 0x3004 n (s.setPort n ((s.port n).retraining s)) = r at hport
  refine ⟨fun hk => ?_, fun hk => ?_⟩
  · dsimp only
    rw [if_neg (Nat.not_le_of_lt hk), ((onlyPort_self r n).equalises).port, hport]
    exact ⟨rfl, rfl⟩
  · dsimp only
    rw [if_pos hk, linkEvent_port, goDown_port_self, State.modPort_eq, State.setPort_port_same]
    exact ⟨rfl, rfl⟩

/-! ### PORT_CMD (07 R289, R322) -/

theorem portTrain_down (ha : s.alive = true) (hst : (s.port n).st = .down) : portTrain n s =
    portTo n .detect (s.setPort n { s.port n with
      attempts := 1, retrains := [], txSeq := 0, rxSeq := 0, nak := false, resent := 0 }) :=
  if_pos (by rw [ha, decide_eq_true hst]; rfl)

theorem portTrain_ignored (hst : (s.port n).st ≠ .down) : portTrain n s = s :=
  if_neg (by rw [decide_eq_false hst, Bool.and_false]; exact Bool.false_ne_true)

theorem portDown_acts (ha : s.alive = true) (hst : (s.port n).st ≠ .off) :
    portDown n s = goDown n (s.setPort n { s.port n with downReason := 6 }) :=
  if_pos (by rw [ha, decide_eq_true hst]; rfl)

theorem portDown_ignored (hst : (s.port n).st = .off) : portDown n s = s :=
  if_neg (by rw [decide_eq_false (not_not_intro hst), Bool.and_false]; exact Bool.false_ne_true)

/-- What a port that is taken DOWN by command held is routed again. -/
theorem portDown_routes (ha : s.alive = true) (hst : (s.port n).st ≠ .off) (hq : ∀ q ∈ (s.port n).held,
    q.dest ≠ s.devNo ∧ (q.ptype = .read ∨ q.ptype = .write ∨ q.ptype = .replyData ∨ q.ptype = .replyAck ∨
      q.ptype = .replyFault)) :
    ((portDown n s).fab.queue.drop s.fab.queue.length).map (·.pkt) = (s.port n).held := by
  have hheld : ((s.setPort n { s.port n with downReason := 6 }).port n).held = (s.port n).held := by
    rw [State.setPort_port_same]
    rfl
  rw [portDown_acts ha hst, goDown_routes (by rw [hheld]; exact hq), hheld]
  exact putQueue_queued rfl

/-! ### In-service re-equalisation (07 R293) -/

theorem portReeqDone_early {a : BitVec 64} (ha : (s.port n).reeq = some a) (h : s.since a < 40000) :
    portReeqDone n s = s := by
  simp only [portReeqDone, ha, if_neg (Nat.not_le_of_lt h)]

theorem portReeqDone_done {a : BitVec 64} (ha : (s.port n).reeq = some a) (h : 40000 ≤ s.since a)
    (hc : (s.port n).ctlq = []) : portReeqDone n s = s.setPort n { s.port n with reeq := none } := by
  simp only [portReeqDone, ha, if_pos h]
  exact drainPort_of_empty (by rw [State.setPort_port_same]; exact hc)

end Training

/-- Settles O33: an event that leaves the device as it is but for its port gives `OnlyPort`; DOWN routes packets again. -/
theorem portTrainingResults : Obligations.PortTrainingResults := by
  unfold Obligations.PortTrainingResults
  intro s n x age
  have hself : OnlyPort s s n.val x := onlyPort_self s n.val
  refine ⟨?signal, ?timeout, ?rate, ?converges, ?fails, ?lanes, ?ident, ?retrain, ?command, ?reequalise, ?sibling, ?done⟩
  case signal =>
    intro hst h
    exact ⟨_, congrArg Host.Outcome.next (detectSignal_in_time hst h), hself.enters (by decide) (by decide)⟩
  case timeout =>
    intro hst hb h
    exact congrArg Host.Outcome.next (detectTimeout_repeats hst hb h)
  case rate =>
    intro r2 hst h
    exact ⟨_, congrArg Host.Outcome.next (rateExchange_equalises r2 hst h), (hself.set _).equalises⟩
  case converges =>
    intro hst h
    exact ⟨_, congrArg Host.Outcome.next (eqDone_converges hst h), hself.enters (by decide) (by decide)⟩
  case fails =>
    intro hst h
    refine ⟨_, congrArg Host.Outcome.next (eqDone_fails hst h), fun hr => ?_, fun hr => ?_⟩
    · rw [if_pos hr]
      exact (hself.set _).equalises
    · rw [if_neg (by rw [hr]; exact Bool.false_ne_true)]
      exact attemptEnd_ends hself
  case lanes =>
    intro mask hst h
    refine ⟨_, congrArg Host.Outcome.next (lanesCheck_eq mask hst h), fun hl hu => ?_, fun hone => ?_, fun hl hu => ?_⟩
    · rw [if_pos ⟨hl, hu⟩, State.modPort_eq, State.setPort_port_same]
      exact ((hself.set _).set _).enters (by decide) (by decide)
    · rw [if_neg (by tauto), if_pos (by tauto), State.modPort_eq, State.setPort_port_same]
      exact ((hself.set _).set _).enters (by decide) (by decide)
    · rw [if_neg (by tauto), if_neg (by tauto)]
      exact attemptEnd_ends (hself.set _)
  case ident =>
    intro who hst
    refine ⟨_, rfl, fun hk => ?_, fun hk hr => ?_, fun hk hr => identify_up hst hk hr⟩
    · rw [identify_wrong hst (.inl ⟨hk, rfl⟩), linkEvent_port, goDown_port_self, State.setPort_port_same]
      exact ⟨rfl, rfl⟩
    · rw [identify_wrong hst (.inr ⟨hk, hr, rfl⟩), linkEvent_port, goDown_port_self, State.setPort_port_same]
      exact ⟨rfl, rfl⟩
  case retrain =>
    intro lost hst h
    exact ⟨_, rfl, linkRetrain_port hst h⟩
  case command =>
    intro ha
    refine ⟨fun hst => ?_, fun hst => ?_, fun hst => ?_, fun hst => ?_⟩
    · obtain ⟨-, hport, hother⟩ := (hself.set { x with
        attempts := 1, retrains := [], txSeq := 0, rxSeq := 0, nak := false, resent := 0 }).enters (st := .detect)
          (by decide) (by decide)
      exact ⟨_, congrArg Host.Outcome.next (portTrain_down ha hst), congrArg Port.st hport, congrArg Port.attempts hport,
        hother⟩
    · exact congrArg Host.Outcome.next (portTrain_ignored hst)
    · have hport : (portDown n.val s).port n.val = _ := (congrArg (fun r => r.port n.val) (portDown_acts ha hst)).trans
        (goDown_port_self ..)
      rw [State.setPort_port_same] at hport
      exact ⟨_, rfl, congrArg Port.st hport, congrArg Port.downReason hport, congrArg Port.replay hport,
        portDown_routes ha hst⟩
    · exact congrArg Host.Outcome.next (portDown_ignored hst)
  case reequalise =>
    intro hst hr hc hsib
    exact congrArg Host.Outcome.next (if_pos ⟨hst, hr, hc, hsib⟩)
  case sibling =>
    intro hsib
    exact congrArg Host.Outcome.next (if_neg fun ⟨_, _, _, hr⟩ => hsib hr)
  case done =>
    intro a ha
    exact ⟨fun h hc => congrArg Host.Outcome.next (portReeqDone_done ha h hc),
      fun h => congrArg Host.Outcome.next (portReeqDone_early ha h)⟩

/-! ### Flit retry (07 R292) -/

section Retry
variable {s : State} {n : PortIx} {seq ack : BitVec 12} {esc : Option Bool} (hc : (s.port n.val).carries = true)

/-- Port x once it has accepted the flit that it expects, with its acknowledgement. -/
def Port.accepting (x : Port) (ack : BitVec 12) : Port :=
  { x with rxSeq := x.rxSeq + 1, nak := false, resent := x.resent - 1, replay := ackReplay ack x.replay }

/-- A delivered packet stays with this device, as an arrival. -/
def StaysHere (s : State) (q : Packet) : Prop :=
  q.ptype = .easyAll ∨ q.ptype = .boot ∨ q.ptype = .atomAdd ∨ q.dest = s.devNo

theorem deliverPacket_ports (q : Packet) (s : State) : (deliverPacket n q esc s).fab.ports = s.fab.ports := by
  simp only [deliverPacket]
  split <;> rfl

theorem deliverPacket_arrives {q : Packet} (h : StaysHere s q) : deliverPacket n q esc s =
    s.modFab fun f => { f with
      arrived := f.arrived ++ [{ port := some n, pkt := q, esc := esc.map (escOnArrival s.fab n.val) }] } :=
  if_pos h

theorem deliverPacket_routed {q : Packet} (h : ¬ StaysHere s q) : deliverPacket n q esc s =
    s.modFab fun f => { f with
      queue := f.queue ++ [{ pkt := q, since := s.now, esc := esc.map (escOnArrival s.fab n.val) }] } :=
  if_neg h

include hc

theorem flitReceive_failed (pkt : Option Packet) : flitReceive n seq false pkt ack esc s =
    let r := s.setPort n.val { s.port n.val with
      crc := satAdd 48 (s.port n.val).crc 1, nak := true, resent := (s.port n.val).resent + 1 }
    if !(s.port n.val).nak || decide (seq = (s.port n.val).rxSeq)
      then { r with naks := r.naks ++ [(n.val, (s.port n.val).rxSeq)] } else r := by
  simp only [flitReceive, hc, Bool.not_true, Bool.false_eq_true, if_false, Bool.not_false, if_true]

theorem flitReceive_unexpected (pkt : Option Packet) (h : seq ≠ (s.port n.val).rxSeq) :
    flitReceive n seq true pkt ack esc s = if (s.port n.val).nak
      then s.setPort n.val { s.port n.val with resent := (s.port n.val).resent + 1 } else s := by
  simp only [flitReceive, hc, Bool.not_true, Bool.false_eq_true, if_false, if_pos h]

variable (h : seq = (s.port n.val).rxSeq) (hctl : (s.port n.val).ctlq = [])
include h hctl

/-- A flit without a packet's end only acknowledges. -/
theorem flitReceive_none : flitReceive n seq true none ack esc s =
    s.setPort n.val ((s.port n.val).accepting ack) := by
  have hstep : flitReceive n seq true none ack esc s =
      drainPort n.val (s.setPort n.val ((s.port n.val).accepting ack)) := by
    simp only [flitReceive, hc, Bool.not_true, Bool.false_eq_true, if_false, h, ne_eq, not_true_eq_false]
    rfl
  rw [hstep]
  exact drainPort_of_empty (by rw [State.setPort_port_same]; exact hctl)

/-- A packet is delivered once its last flit is accepted. -/
theorem flitReceive_some (q : Packet) : ∃ r : State, r.fab = (s.setPort n.val ((s.port n.val).accepting ack)).fab ∧
    flitReceive n seq true (some q) ack esc s = deliverPacket n q esc r := by
  have hstep : ∃ r : State, r.fab = (s.setPort n.val ((s.port n.val).accepting ack)).fab ∧
      flitReceive n seq true (some q) ack esc s = drainPort n.val (deliverPacket n q esc r) := by
    simp only [flitReceive, hc, Bool.not_true, Bool.false_eq_true, if_false, h, ne_eq, not_true_eq_false]
    refine ⟨_, ?_, rfl⟩
    split
    · exact waitedOnResend_fab ..
    · rfl
  obtain ⟨r, hr, e⟩ := hstep
  refine ⟨r, hr, e.trans (drainPort_of_empty ?_)⟩
  rw [State.port, deliverPacket_ports, hr]
  exact (congrArg Port.ctlq (State.setPort_port_same ..)).trans hctl

end Retry

theorem nakReceive_resends {s : State} {n i : Nat} {seq : BitVec 12} (hc : (s.port n).carries = true)
    (h : (s.port n).replay.findIdx? (fun f => decide (f.seq = seq)) = some i) :
    nakReceive n seq s = resend n ((s.port n).replay.drop i) s := by
  simp only [nakReceive, hc, h, Bool.not_true, Bool.false_eq_true, if_false]

theorem nakReceive_unknown {s : State} {n : Nat} {seq : BitVec 12} (hc : (s.port n).carries = true)
    (h : (s.port n).replay.findIdx? (fun f => decide (f.seq = seq)) = none) : nakReceive n seq s = s := by
  simp only [nakReceive, hc, h, Bool.not_true, Bool.false_eq_true, if_false]

/-- Settles O34: a flit is discarded, or accepted and its packet delivered; a NAK resends (`resend_links`). -/
theorem retryResults : Obligations.RetryResults := by
  unfold Obligations.RetryResults
  intro s n seq ack pkt esc hc x
  refine ⟨?failed, fun h => ?unexpected, fun h hctl => ?accepted, fun i h => ?nak,
    fun h => congrArg Host.Outcome.next (nakReceive_unknown hc h)⟩
  case failed =>
    refine ⟨_, congrArg Host.Outcome.next (flitReceive_failed hc pkt), ?_⟩
    have hport := State.setPort_port_same s n.val { x with crc := satAdd 48 x.crc 1, nak := true, resent := x.resent + 1 }
    dsimp only
    split
    · exact ⟨rfl, rfl, (congrArg Port.crc hport).trans rfl, (congrArg Port.rxSeq hport).trans rfl, fun _ => rfl,
        congrArg Port.nak hport⟩
    · rename_i hno
      refine ⟨rfl, rfl, congrArg Port.crc hport, (congrArg Port.rxSeq hport).trans rfl, fun hnak => ?_,
        congrArg Port.nak hport⟩
      rw [show (s.port n.val).nak = false from hnak] at hno
      exact absurd rfl hno
  case unexpected =>
    refine ⟨_, congrArg Host.Outcome.next (flitReceive_unexpected hc pkt h), ?_⟩
    split
    · rw [State.setPort_port_same]
      exact ⟨rfl, rfl, rfl, rfl⟩
    · exact ⟨rfl, rfl, rfl, rfl⟩
  case accepted =>
    have hport : (s.setPort n.val (x.accepting ack)).port n.val = x.accepting ack := State.setPort_port_same ..
    cases pkt with
    | none =>
      refine ⟨_, congrArg Host.Outcome.next (flitReceive_none hc h hctl), ?_⟩
      rw [hport]
      refine ⟨rfl, rfl, rfl, fun _ => ⟨rfl, rfl⟩, ?_⟩
      intro q hq
      cases hq
    | some q =>
      obtain ⟨r, hr, e⟩ := flitReceive_some (ack := ack) (esc := esc) hc h hctl q
      have hp : (deliverPacket n q esc r).port n.val = x.accepting ack := by
        rw [State.port, deliverPacket_ports, hr]
        exact hport
      have hdev : r.devNo = s.devNo := (devNo_congr hr).trans rfl
      refine ⟨_, congrArg Host.Outcome.next e, ?_⟩
      rw [hp]
      refine ⟨rfl, rfl, rfl, ?_, ?_⟩
      · intro hq
        cases hq
      · intro q' hq kept
        obtain rfl : q = q' := Option.some.inj hq
        have hkept : StaysHere r q ↔ kept := by rw [StaysHere, hdev]
        refine ⟨fun hk => ?_, fun hk => ?_⟩
        · rw [deliverPacket_arrives (hkept.mpr hk)]
          exact ⟨_, congrArg (fun f => f.arrived ++ _) hr, rfl, rfl, (congrArg Fabric.queue hr).trans rfl⟩
        · rw [deliverPacket_routed (mt hkept.mp hk)]
          exact ⟨_, congrArg (fun f => f.queue ++ _) hr, rfl, (congrArg Fabric.arrived hr).trans rfl⟩
  case nak =>
    refine ⟨_, congrArg Host.Outcome.next (nakReceive_resends hc h), (resend_links ..).2, ?_⟩
    rw [resend_port]
    exact ⟨rfl, rfl⟩

end Sys2Proof.Machine
